-- ==== Sys2Proof/Word.lean ====
section
/-! DEFINITION. The words of the Nimre 7200's registers and memories, and the sparse table every large
array of the device is held in. A register of the owner window or of a slice window is 32 or 64 bits wide
(R72); both are held in one 64-bit word, whose upper half a 32-bit register leaves zero. -/

namespace Sys2Proof

/-- One byte of a memory. -/
abbrev Byte := BitVec 8

/-- The contents of one register, 32 or 64 bits wide (R72). -/
abbrev RegWord := BitVec 64

/-- A sparse array: the entries that differ from what an unlisted key reads as, in rising key order. -/
abbrev Tbl (α : Type) := List (Nat × α)

end Sys2Proof
end

