-- ==== Sys2Proof/Word/Payload.lean ====
section
/-! DEFINITION. The operands of commands that are more than a number: what arrives with a message, a frame, a
request or an image. -/

namespace Sys2Proof

/-- Who performs a register access (R72, R75): the owner's endpoints, a slice's endpoints, the PCIe host through
BAR0, or firmware of the device, which reaches what the owner does. -/
inductive Sender where
  | owner
  | slice (s : Nat)
  | host
  | firmware
deriving DecidableEq, Repr

/-- The signed manufacturing record (R27, R28): grade, disabled matrix sites, disabled vaults, remaps (matrix site
and the vault that is its home), DRAM vaults' training and the VDD_CORE setpoint in mV (R644). -/
structure PartMap where
  grade : Nat
  sites : List Nat
  vaults : List Nat
  remaps : List (Nat × Nat)
  setpoint : Nat
deriving DecidableEq, Repr

/-- The pilots of one PUSCH or PUCCH PDU as the front end reads them (R405, R406): the residual frequency error in 2^-12
Hz where it was measured, the residual timing error in 2^-8 of Tc ÷ 16, each over its elements that are not erased, and
where its pilot elements lie: stream, symbol of the slot, PRB, elements. -/
structure PilotPdu where
  freq : Option Int
  time : Int
  places : List (Nat × Nat × Nat × Nat)
deriving DecidableEq, Repr

/-- What the front end receives in one uplink slot (R391, R393, R400, R405) for local carrier `local_`. `noise`: stream,
symbol of the slot, PRB, its idle elements, sum of |y|² over them. `pilots`: RNTI and its PDUs. `chans`: the channel
estimate of a PRB: cluster SRAM address, stream, symbol, PRB, bytes. `llrs`: what the equaliser makes of a PRB: address,
symbol, PRB, LLRs. `prach`: the occasion's first and last PRB, repetitions, L_RA, streams, and the address of its DETECT
descriptor. -/
structure FrontEnd where
  local_ : Nat
  noise : List (Nat × Nat × Nat × Nat × Nat)
  pilots : List (Nat × List PilotPdu)
  chans : List (Nat × Nat × Nat × Nat × List Byte)
  llrs : List (Nat × Nat × Nat × List Byte)
  prach : List (Nat × Nat × Nat × Nat × Nat × Nat)
deriving DecidableEq, Repr

/-- One PDU of a FAPI request (R330, R334): kind (0 DCI, 1 PDSCH, 2 PUSCH, 3 PUCCH, 4 PRACH occasion, 5 SRS symbol,
6 any other), layers, information bits, handle, RNTI, and whether it asks only for what R334 supports. -/
structure FapiPdu where
  kind : Nat
  layers : Nat
  bits : Nat
  handle : Nat
  rnti : Nat
  supported : Bool
deriving DecidableEq, Repr

/-- A received Ethernet frame (R446, R448, R459): its number, length from destination address to FCS, whether its FCS is
good, VLAN tag (PCP, DEI, VID) if any, EtherType, whether its slow-protocol subtype is ESMC, destination MAC. -/
structure EthFrame where
  id : Nat
  len : Nat
  fcsOk : Bool
  tag : Option (Nat × Bool × Nat)
  etype : Nat
  esmc : Bool
  dst : Nat
deriving DecidableEq, Repr

/-- Where a fabric request or response came from and what it names (R470): the link it arrived on, source pod and
device, PKEY, EPOCH, TAG, WINDOW, OFFSET. -/
structure FabHdr where
  link : Nat
  pod : Nat
  dev : Nat
  pkey : Nat
  epoch : Nat
  tag : Nat
  window : Nat
  offset : Nat
deriving DecidableEq, Repr

/-- The link-level part of a flit that arrives (R471): SEQ, ACK_SEQ where it is valid, credits returned as (VC, number),
whether it is IDLE, whether its CRC is good, and KIND and VC of its header. -/
structure FlitTail where
  seq : Nat
  ack : Option Nat
  credits : List (Nat × Nat)
  idle : Bool
  crcOk : Bool
  kind : Nat
  vc : Nat
deriving DecidableEq, Repr

/-- What the partner of a fabric link says at link start (R480, R514): whether it is a switch plane, its plane, port and
pod number, and its parked lane. -/
structure Partner where
  switch_ : Bool
  plane : Nat
  port : Nat
  pod : Nat
  parked : Option Nat
deriving DecidableEq, Repr

/-- The payload of an ATOMIC flit (R500): operation (6 FETCH_ADD, 7 SWAP, 8 CSWAP, 9 MIN, 10 MAX, as R505 numbers
them), size, SIGNED, operands, HOME_EPOCH, RETRY. -/
structure AtomicOp where
  op : Nat
  size8 : Bool
  signed : Bool
  a : Nat
  b : Nat
  homeEpoch : Nat
  retry : Bool
deriving DecidableEq, Repr

/-- One flash copy of a firmware image, of the manifest or of the manufacturing record, as its checks find it (R594 to
R597, R579): whether signature, and digest, KIND and header, are good; SVN (R596), version, digest, the KEY_SVN of the
certificate that verified it, and its interface table as (IFACE, PROV_MIN, PROV_MAX, REQ_MIN, REQ_MAX). -/
structure ImageCopy where
  sigOk : Bool
  formOk : Bool
  svn : Nat
  version : Nat
  digest : BitVec 512
  keySvn : Nat
  ifaces : List (Nat × Nat × Nat × Nat × Nat)
deriving DecidableEq, Repr

/-- An enrolment record (R607) and what its checks turn on: whether it lies aligned in mapped owner memory, the fixed and
zero fields are as R607 has them, DEVICE_ID is this device's, and the signature verifies; `signer` is the owner slot
whose key signed it (4: none of them), `vendor` whether a vendor key with OWNERSHIP did; `key` the identifier of
PUBKEY. -/
structure EnrolRec where
  mapped : Bool
  fieldsOk : Bool
  slot : Nat
  usage : Nat
  seq : Nat
  deviceOk : Bool
  signer : Nat
  vendor : Bool
  sigOk : Bool
  key : Nat
deriving DecidableEq, Repr

end Sys2Proof
end

