-- ==== Sys2Proof/Syntax.lean ====
section
/-! DEFINITION. The commands of the block: one constructor per row of spec/opcode_table.json, in the table's order.
The table gives the rows no operand bits; the operands here are what each row's rule takes: which unit, the instant in
nanoseconds (`t`) or the tile cycle (`cyc`), and the facts of the outside world the rule turns on. The last operand of some
has a default: symbols that happened to be corrected, or what else a message or an event may bring with it. -/

namespace Sys2Proof

/-- A command the block takes, or an event that acts on it. -/
inductive Instr where
  /-- COLD_RESET (R649). -/
  | coldReset (cause lowNs straps : Nat) (trip : Bool) (t : Nat)
  /-- WARM_RESET (R650). -/
  | warmReset (cause lowNs : Nat) (trip : Bool) (t : Nat)
  /-- BROWN_OUT (R649). -/
  | brownOut (mV ns straps : Nat) (trip : Bool) (t : Nat)
  /-- DEV_RESET_WARM (R655). -/
  | devResetWarm (word : Nat) (trip : Bool) (t : Nat)
  /-- DEV_RESET_COLD (R655). -/
  | devResetCold (word straps : Nat) (trip : Bool) (t : Nat)
  /-- ROM_DONE (R598). -/
  | romDone (udsOk keysOk : Bool) (first second : ImageCopy) (t : Nat)
  /-- BOOT_DONE (R598). -/
  | bootDone (map : PartMap) (mapOk : Bool) (jasper1 jasper2 flint1 flint2 svc1 svc2 manifest1 manifest2 : ImageCopy) (listed : Bool) (recs : List (Nat × EnrolRec)) (t : Nat)
  /-- BUILD_DONE (R53). -/
  | buildDone (sig1 sig2 : Bool) (slabs : List (Nat × Nat)) (tilesAgree vaultsAgree trained initialised : Bool) (t : Nat)
  /-- RADIO_READY_SET (R44). -/
  | radioReadySet (t : Nat)
  /-- OWNER_STOP (R46). -/
  | ownerStop (t : Nat)
  /-- STOP_COMPLETE (R46). -/
  | stopComplete (t : Nat)
  /-- REGISTER_WRITE (R64). -/
  | registerWrite (who : Sender) (a width value t : Nat)
  /-- RC_READ (R20). -/
  | rcRead (who : Sender) (a width t : Nat)
  /-- WINDOW_ACCESS_ERROR (R72). -/
  | windowAccessError (who : Sender) (a width : Nat) (write : Bool) (t : Nat)
  /-- PLANE_VIOLATION_DROP (R34). -/
  | planeViolationDrop (plane stop t : Nat)
  /-- STRATA_RELOAD_GO (R656). -/
  | strataReloadGo (sigOk abort : Bool) (t : Nat)
  /-- STRATA_RELOAD_ABORT (R57). -/
  | strataReloadAbort (t : Nat)
  /-- STRATA_STAGED (R57). -/
  | strataStaged (t : Nat)
  /-- STRATA_SWITCH_REQUEST (R81). -/
  | strataSwitchRequest (kind sfn slot t : Nat)
  /-- STRATA_SWITCH (R61). -/
  | strataSwitch (t : Nat)
  /-- TABLE_BANK_RELEASED (R62). -/
  | tableBankReleased (id t : Nat)
  /-- DRAIN_STALL (R62). -/
  | drainStall (id t : Nat)
  /-- CG_COMMIT (R65). -/
  | cgCommit (who group btype inst ticket t : Nat)
  /-- CG_CHECK_DONE (R65). -/
  | cgCheckDone (who t : Nat)
  /-- CG_ACT (R67). -/
  | cgAct (btype inst group t : Nat)
  /-- CG_DISCARD (R84). -/
  | cgDiscard (who group btype inst t : Nat)
  /-- CMD_FETCH (R147). -/
  | cmdFetch (site q cyc : Nat)
  /-- MATMUL (R128). -/
  | matmul (site q cyc par : Nat) (sampled : Bool)
  /-- ACC_READ (R155). -/
  | accRead (site q cyc par : Nat)
  /-- ACC_LOAD (R155). -/
  | accLoad (site q cyc : Nat)
  /-- SCALE_LOAD (R157). -/
  | scaleLoad (site q cyc : Nat)
  /-- QUANT (R106). -/
  | quant (site q cyc : Nat)
  /-- VEC_ADD (R159). -/
  | vecAdd (site q cyc : Nat)
  /-- VEC_SUB (R159). -/
  | vecSub (site q cyc : Nat)
  /-- VEC_MUL (R159). -/
  | vecMul (site q cyc : Nat)
  /-- VEC_FMA (R159). -/
  | vecFma (site q cyc : Nat)
  /-- VEC_MAX (R159). -/
  | vecMax (site q cyc : Nat)
  /-- VEC_MIN (R159). -/
  | vecMin (site q cyc : Nat)
  /-- VEC_ABS (R159). -/
  | vecAbs (site q cyc : Nat)
  /-- VEC_NEG (R159). -/
  | vecNeg (site q cyc : Nat)
  /-- VEC_SCALE2 (R159). -/
  | vecScale2 (site q cyc : Nat)
  /-- VEC_CVT (R159). -/
  | vecCvt (site q cyc : Nat)
  /-- SFU_EXP2 (R216). -/
  | sfuExp2 (site q cyc : Nat)
  /-- SFU_LOG2 (R216). -/
  | sfuLog2 (site q cyc : Nat)
  /-- SFU_ERF (R216). -/
  | sfuErf (site q cyc : Nat)
  /-- SFU_EXP (R217). -/
  | sfuExp (site q cyc : Nat)
  /-- SFU_RECIP (R217). -/
  | sfuRecip (site q cyc : Nat)
  /-- SFU_RSQRT (R217). -/
  | sfuRsqrt (site q cyc : Nat)
  /-- SFU_SIGMOID (R217). -/
  | sfuSigmoid (site q cyc : Nat)
  /-- SFU_SILU (R217). -/
  | sfuSilu (site q cyc : Nat)
  /-- SFU_GELU_ERF (R217). -/
  | sfuGeluErf (site q cyc : Nat)
  /-- SFU_GELU_TANH (R217). -/
  | sfuGeluTanh (site q cyc : Nat)
  /-- SOFTMAX (R220). -/
  | softmax (site q cyc : Nat)
  /-- NORM (R227). -/
  | norm (site q cyc : Nat)
  /-- COPY (R160). -/
  | copy (site q cyc : Nat)
  /-- XFER_TO_SRAM (R168). -/
  | xferToSram (site q cyc : Nat)
  /-- XFER_TO_MEMORY (R168). -/
  | xferToMemory (site q cyc : Nat)
  /-- SEAM (R188). -/
  | seam (site q cyc yields : Nat) (sampled : Bool)
  /-- SYNC (R162). -/
  | sync (site q cyc : Nat)
  /-- LOOP (R163). -/
  | loopBody (site q cyc : Nat)
  /-- STOP (R150). -/
  | stopQueue (site q cyc : Nat)
  /-- BANKS_ON (R176). -/
  | banksOn (site q cyc : Nat)
  /-- BANKS_RETAIN (R176). -/
  | banksRetain (site q cyc : Nat)
  /-- BANKS_OFF (R176). -/
  | banksOff (site q cyc : Nat)
  /-- BANK_TRANSITION_DONE (R176). -/
  | bankTransitionDone (site bank cyc : Nat)
  /-- COMMAND_COMPLETE (R167). -/
  | commandComplete (site q index cyc corr bad : Nat) (vcorr : Nat := 0)
  /-- XFER_ARRIVAL (R168). -/
  | xferArrival (site q index cyc : Nat) (corr : Nat := 0)
  /-- XFER_FAULT_REPORT (R180). -/
  | xferFaultReport (site q index cyc : Nat) (sram : Bool) (addr fab : Nat) (corr : Nat := 0)
  /-- REMOTE_SIGNAL_ARRIVAL (R167). -/
  | remoteSignalArrival (site counter cyc : Nat)
  /-- SHAPING_INTERVAL (R131). -/
  | shapingInterval (site cyc : Nat)
  /-- SEAM_WRITE_WINDOW (R200). -/
  | seamWriteWindow (v t : Nat)
  /-- PORT_RATE_CHANGE (R200). -/
  | portRateChange (v t : Nat)
  /-- VAULT_REFRESH (R267). -/
  | vaultRefresh (v t : Nat)
  /-- PATROL_SCRUB (R266). -/
  | patrolScrub (v found t : Nat)
  /-- DRAM_TEMP_SAMPLE (R286). -/
  | dramTempSample (n : Nat) (temp : Option Int) (cyc t : Nat)
  /-- MEM_ALLOC (R283). -/
  | memAlloc (x n ticket hint t : Nat)
  /-- MEM_FREE (R287). -/
  | memFree (x n ticket hint t : Nat)
  /-- MEM_HINT (R272). -/
  | memHint (x n ticket hint t : Nat)
  /-- MEM_MIGRATE (R280). -/
  | memMigrate (x n ticket hint t : Nat)
  /-- MEM_QUERY (R270). -/
  | memQuery (x slab t : Nat)
  /-- MOVE_START (R275). -/
  | moveStart (sector t : Nat)
  /-- MIGRATION_SWITCH (R275). -/
  | migrationSwitch (x slab t : Nat) (freeze : Bool := false)
  /-- OLD_REGION_RELEASE (R278). -/
  | oldRegionRelease (v i t : Nat)
  /-- REGION_ZEROED (R278). -/
  | regionZeroed (v i t : Nat)
  /-- RELEASE_STALL (R278). -/
  | releaseStall (v i t : Nat)
  /-- JQ_DOORBELL (R301). -/
  | jqDoorbell (x q tail t : Nat)
  /-- JOB_START (R297). -/
  | jobStart (job cyc t : Nat) (standIns : List (Nat × Nat))
  /-- JOB_LAUNCH (R254). -/
  | jobLaunch (job cyc t : Nat) (standIns : List (Nat × Nat) := [])
  /-- LAUNCH_PLAN_CLOSE (R255). -/
  | launchPlanClose (job t : Nat)
  /-- JOB_BOUND_EXPIRY (R297). -/
  | jobBoundExpiry (job cyc t : Nat)
  /-- JOB_END (R298). -/
  | jobEnd (job cyc t : Nat)
  /-- FULL_SCRUB (R178). -/
  | fullScrub (site cyc t : Nat)
  /-- COMPLETION_WRITE (R302). -/
  | completionWrite (x q decode t : Nat)
  /-- JQ_FLUSH (R301). -/
  | jqFlush (x q t : Nat)
  /-- ACCOUNTING_PERIOD (R305). -/
  | accountingPeriod (t : Nat)
  /-- SEQ_ENTRY_WRITE (R309). -/
  | seqEntryWrite (x i w v t : Nat)
  /-- STEP_BUILD (R311). -/
  | stepBuild (x m t : Nat) (ops : List (Nat × Nat × Nat) := [])
  /-- CHECKPOINT_REACHED (R316). -/
  | checkpointReached (job i cyc t : Nat)
  /-- CHECKPOINT_TIMEOUT (R316). -/
  | checkpointTimeout (job i cyc t : Nat)
  /-- FALLBACK_START (R317). -/
  | fallbackStart (job cyc t : Nat)
  /-- CLASSICAL_DONE_SIGNAL (R318). -/
  | classicalDoneSignal (job t : Nat)
  /-- DEADLINE_EXPIRY (R318). -/
  | deadlineExpiry (job t : Nat)
  /-- CLAIM (R320). -/
  | claim (site cluster t : Nat)
  /-- CLAIM_COMPLETE (R321). -/
  | claimComplete (site cyc t : Nat)
  /-- CLAIM_OVERRUN (R321). -/
  | claimOverrun (site t : Nat)
  /-- CLAIM_RELEASE (R322). -/
  | claimRelease (site cyc t : Nat)
  /-- TABLE_SEAL (R341). -/
  | tableSeal (c : Nat) (bytes : List (BitVec 8)) (t : Nat) (works : List (Nat × List (BitVec 8)) := [])
  /-- PATCH_WRITE (R341). -/
  | patchWrite (c l id : Nat) (bytes : List (BitVec 8)) (done : Bool) (t : Nat)
  /-- PATCH_CUTOFF (R337). -/
  | patchCutoff (c id t : Nat)
  /-- TABLE_FIRE (R342). -/
  | tableFire (c id t : Nat)
  /-- SLOT_MISSED (R344). -/
  | slotMissed (c id t : Nat)
  /-- ENTRY_TRIGGER (R340). -/
  | entryTrigger (c id i : Nat) (front : List FrontEnd) (t : Nat)
  /-- COND_ABORT_FIRE (R342). -/
  | condAbortFire (c id l t : Nat)
  /-- TABLE_RELEASE (R343). -/
  | tableRelease (c id : Nat) (decoded : List (Nat × Nat)) (weights : List Nat) (t : Nat)
  /-- FAPI_PARAM (R349). -/
  | fapiParam (k t : Nat)
  /-- FAPI_CONFIG (R349). -/
  | fapiConfig (k mhz mu prbs dl ul t : Nat)
  /-- FAPI_START (R351). -/
  | fapiStart (k t : Nat)
  /-- FAPI_STOP (R351). -/
  | fapiStop (k t : Nat)
  /-- FAPI_DL_TTI (R350). -/
  | fapiDlTti (k id : Nat) (pdus : List FapiPdu) (t : Nat)
  /-- FAPI_UL_TTI (R350). -/
  | fapiUlTti (k id : Nat) (pdus : List FapiPdu) (t : Nat)
  /-- FAPI_UL_DCI (R350). -/
  | fapiUlDci (k id : Nat) (pdus : List FapiPdu) (t : Nat)
  /-- FAPI_TX_DATA (R350). -/
  | fapiTxData (k id : Nat) (data : List (BitVec 8)) (t : Nat)
  /-- FH_UL_PACKET (R348). -/
  | fhUlPacket (port eaxc id sym prb total addr : Nat) (data : List (BitVec 8)) (ok : Bool) (t : Nat)
  /-- FH_WINDOW_CLOSE (R348). -/
  | fhWindowClose (e id sym total addr t : Nat)
  /-- RU_CALL_HOME (R353). -/
  | ruCallHome (r port mac t : Nat)
  /-- RU_CONFIGURED (R353). -/
  | ruConfigured (r : Nat) (catB : Bool) (t : Nat)
  /-- RU_SUPERVISION_MISS (R353). -/
  | ruSupervisionMiss (r inRow t : Nat)
  /-- RU_UPLANE_SILENCE (R353). -/
  | ruUplaneSilence (k t : Nat)
  /-- QUEUED_TRIGGER_START (R365). -/
  | queuedTriggerStart (c u t : Nat)
  /-- VLD (R370). -/
  | vld (c u corr bad t : Nat)
  /-- VST (R370). -/
  | vst (c u corr bad t : Nat)
  /-- VADD (R370). -/
  | vadd (c u corr bad t : Nat)
  /-- VSUB (R370). -/
  | vsub (c u corr bad t : Nat)
  /-- CMUL (R370). -/
  | cmul (c u corr bad t : Nat)
  /-- CMAC (R370). -/
  | cmac (c u corr bad t : Nat)
  /-- ACCOUT (R370). -/
  | accout (c u corr bad t : Nat)
  /-- ACCCLR (R370). -/
  | accclr (c u corr bad t : Nat)
  /-- MAG2 (R370). -/
  | mag2 (c u corr bad t : Nat)
  /-- MINMAX (R375). -/
  | minmax (c u corr bad t : Nat)
  /-- AGSET (R372). -/
  | agset (c u corr bad t : Nat)
  /-- REPEAT (R374). -/
  | repeatBody (c u corr bad t : Nat)
  /-- WAIT (R370). -/
  | waitCounter (c u corr bad t : Nat)
  /-- SIGNAL (R370). -/
  | signalCounter (c u corr bad t : Nat)
  /-- END (R366). -/
  | endStream (c u corr bad t : Nat)
  /-- LDPC_DECODE (R378). -/
  | ldpcDecode (c corr bad t : Nat)
  /-- LDPC_ENCODE (R380). -/
  | ldpcEncode (c corr bad t : Nat)
  /-- POLAR_DECODE (R381). -/
  | polarDecode (c corr bad t : Nat)
  /-- POLAR_ENCODE (R381). -/
  | polarEncode (c corr bad t : Nat)
  /-- FFT_FORWARD (R383). -/
  | fftForward (c corr bad t : Nat)
  /-- FFT_INVERSE (R383). -/
  | fftInverse (c corr bad t : Nat)
  /-- PRACH_CORRELATE (R384). -/
  | prachCorrelate (c corr bad t : Nat)
  /-- PRACH_DETECT (R401). -/
  | prachDetect (c corr bad t : Nat)
  /-- DMA_VAULT_TO_SRAM (R386). -/
  | dmaVaultToSram (c corr bad t : Nat) (vcorr : Nat := 0)
  /-- DMA_SRAM_TO_VAULT (R386). -/
  | dmaSramToVault (c corr bad t : Nat)
  /-- DMA_TILE_TO_CLUSTER (R386). -/
  | dmaTileToCluster (c corr bad t : Nat)
  /-- DMA_CLUSTER_TO_TILE (R386). -/
  | dmaClusterToTile (c corr bad t : Nat)
  /-- TRACKING_IDLE_FREE (R404). -/
  | trackingIdleFree (c l rnti t : Nat)
  /-- PTP_SYNC_RX (R423). -/
  | ptpSyncRx (d port origin t : Nat)
  /-- PTP_DELAY_RESULT (R423). -/
  | ptpDelayResult (d port : Nat) (delay : Int) (t : Nat)
  /-- PTP_ANNOUNCE_RX (R421). -/
  | ptpAnnounceRx (d port num identity cls accuracy : Nat) (chosen : Bool) (t : Nat)
  /-- ANNOUNCE_TIMEOUT (R425). -/
  | announceTimeout (d t : Nat)
  /-- SYNC_TIMEOUT (R425). -/
  | syncTimeout (d t : Nat)
  /-- PPS_EDGE (R436). -/
  | ppsEdge (pin t : Nat)
  /-- PPS_TIMEOUT (R425). -/
  | ppsTimeout (d t : Nat)
  /-- TOD_FRAME_RX (R436). -/
  | todFrameRx (frame : List (BitVec 8)) (rate : Bool) (t : Nat)
  /-- TOD_PPS_OUTPUT (R433). -/
  | todPpsOutput (t : Nat)
  /-- HOLDOVER_BUDGET_EXPIRY (R429). -/
  | holdoverBudgetExpiry (t : Nat)
  /-- TIME_CAPTURE (R441). -/
  | timeCapture (t : Nat)
  /-- ESMC_RX (R431). -/
  | esmcRx (port ql t : Nat)
  /-- SYNCE_REF_FAIL (R431). -/
  | synceRefFail (n since t : Nat)
  /-- SYNCE_WTR_EXPIRY (R431). -/
  | synceWtrExpiry (n since t : Nat)
  /-- ETH_RX_FRAME (R448). -/
  | ethRxFrame (port : Nat) (f : EthFrame) (t : Nat)
  /-- TX_FRAME_ENQUEUE (R450). -/
  | txFrameEnqueue (port id len : Nat) (pcp latest : Option Nat) (t : Nat)
  /-- TX_FRAME_START (R451). -/
  | txFrameStart (port t ps : Nat)
  /-- SHAPER_TICK (R453). -/
  | shaperTick (port t : Nat)
  /-- POLICER_TICK (R459). -/
  | policerTick (port t : Nat)
  /-- GATE_EVENT (R455). -/
  | gateEvent (port t : Nat)
  /-- GATE_CHANGE (R456). -/
  | gateChange (port t : Nat)
  /-- PORT_LINK_UP (R447). -/
  | portLinkUp (port since t : Nat)
  /-- PORT_LINK_LOSS (R447). -/
  | portLinkLoss (port t : Nat)
  /-- FLIT_RX (R474). -/
  | flitRx (l : Nat) (f : FlitTail) (fec : Nat × Nat) (sym : List Nat) (t : Nat)
  /-- NAK_RX (R475). -/
  | nakRx (l ack t : Nat)
  /-- REPLAY_TIMEOUT (R475). -/
  | replayTimeout (l t : Nat)
  /-- DELIVERY_TIMEOUT (R476). -/
  | deliveryTimeout (l : Nat) (sym : List Nat) (t : Nat)
  /-- FAB_LINK_UP (R469). -/
  | fabLinkUp (l : Nat) (p : Partner) (since t : Nat)
  /-- FAB_LINK_DOWN (R481). -/
  | fabLinkDown (l : Nat) (started : Bool) (lost sym : List Nat) (t : Nat)
  /-- UNPARK (R515). -/
  | unpark (l t : Nat)
  /-- HELLO_SEND (R480). -/
  | helloSend (t : Nat)
  /-- HELLO_RX (R480). -/
  | helloRx (l dev epoch : Nat) (windows pairs : List (Nat × Nat)) (cyc t : Nat)
  /-- LINK_STATE_RX (R481). -/
  | linkStateRx (l dev named t : Nat)
  /-- FAB_LOAD (R484). -/
  | fabLoad (q t : Nat)
  /-- FAB_STORE (R484). -/
  | fabStore (q t : Nat)
  /-- FAB_STORE_WORD (R484). -/
  | fabStoreWord (q t : Nat)
  /-- FAB_GET (R489). -/
  | fabGet (q t : Nat)
  /-- FAB_PUT (R489). -/
  | fabPut (q t : Nat)
  /-- FAB_FETCH_ADD (R500). -/
  | fabFetchAdd (q t : Nat)
  /-- FAB_SWAP (R500). -/
  | fabSwap (q t : Nat)
  /-- FAB_CSWAP (R500). -/
  | fabCswap (q t : Nat)
  /-- FAB_MIN (R500). -/
  | fabMin (q t : Nat)
  /-- FAB_MAX (R500). -/
  | fabMax (q t : Nat)
  /-- FAB_INV (R492). -/
  | fabInv (q t : Nat)
  /-- FAB_INV_POD (R492). -/
  | fabInvPod (q t : Nat)
  /-- FAB_INV_LOCAL (R492). -/
  | fabInvLocal (q t : Nat)
  /-- FAB_MSG (R495). -/
  | fabMsg (q t : Nat)
  /-- FAB_FENCE_OP (R504). -/
  | fabFenceOp (q t : Nat)
  /-- HOME_LOAD (R485). -/
  | homeLoad (h : FabHdr) (lines t : Nat) (corr : Nat := 0)
  /-- HOME_STORE (R498). -/
  | homeStore (h : FabHdr) (data : List (BitVec 8)) (masks : List Nat) (t : Nat)
  /-- HOME_STORE_WORD (R498). -/
  | homeStoreWord (h : FabHdr) (size8 : Bool) (v t : Nat)
  /-- HOME_ATOMIC (R502). -/
  | homeAtomic (h : FabHdr) (o : AtomicOp) (t : Nat) (corr : Nat := 0)
  /-- HOME_PUT (R489). -/
  | homePut (h : FabHdr) (data : List (BitVec 8)) (masks : List Nat) (copy : Nat) (sig : Option (Nat × Nat × Nat)) (cyc t : Nat)
  /-- HOME_INV (R492). -/
  | homeInv (h : FabHdr) (lines t : Nat)
  /-- HOME_MSG (R494). -/
  | homeMsg (h : FabHdr) (msg : List (BitVec 8)) (t : Nat)
  /-- HOME_CREDIT_RX (R495). -/
  | homeCreditRx (h : FabHdr) (n t : Nat)
  /-- CAIRN_APPLY (R498). -/
  | cairnApply (i t : Nat) (corr : Nat := 0)
  /-- FAB_RESPONSE_RX (R484). -/
  | fabResponseRx (h : FabHdr) (code : Nat) (data : List (BitVec 8)) (cacheOk : Bool) (evict : List Nat) (t : Nat)
  /-- LOAD_RETRY_TIMEOUT (R487). -/
  | loadRetryTimeout (tag t : Nat)
  /-- REQUEST_TIMEOUT (R487). -/
  | requestTimeout (tag t : Nat)
  /-- ATOMIC_RETRY (R501). -/
  | atomicRetry (tag t : Nat)
  /-- ATOMIC_UNKNOWN (R501). -/
  | atomicUnknown (tag t : Nat)
  /-- RECV_SLOT_CONSUME (R495). -/
  | recvSlotConsume (w head t : Nat)
  /-- CREDIT_RETURN_SEND (R495). -/
  | creditReturnSend (pod dev t : Nat)
  /-- MSG_CREDIT_RESYNC (R531). -/
  | msgCreditResync (pod dev window count t : Nat)
  /-- RLC_INV_ALL (R492). -/
  | rlcInvAll (t : Nat)
  /-- RLC_INV_ALL_DONE (R492). -/
  | rlcInvAllDone (t : Nat)
  /-- DETECTOR_TICK (R519). -/
  | detectorTick (t : Nat)
  /-- FENCE_CTRL_FENCE (R519). -/
  | fenceCtrlFence (dev t : Nat)
  /-- FENCE_MSG_RX (R522). -/
  | fenceMsgRx (l src dev epoch cyc t : Nat)
  /-- HELLO_SILENCE_SELF_FENCE (R522). -/
  | helloSilenceSelfFence (cyc t : Nat)
  /-- REJOIN (R523). -/
  | rejoin (t : Nat)
  /-- FENCE_NOTICE (R524). -/
  | fenceNotice (w dev t : Nat)
  /-- FAB_BOOKS_SNAP (R530). -/
  | fabBooksSnap (qty index t : Nat)
  /-- CREDIT_LEAK (R533). -/
  | creditLeak (l t : Nat)
  /-- SLICE_CREATE (R544). -/
  | sliceCreate (x k t : Nat)
  /-- SLICE_OPENED (R539). -/
  | sliceOpened (x t : Nat)
  /-- SLICE_RESET (R551). -/
  | sliceReset (x cyc t : Nat)
  /-- SLICE_REMOVE (R551). -/
  | sliceRemove (x cyc t : Nat)
  /-- SLICE_RESET_DONE (R551). -/
  | sliceResetDone (x t : Nat)
  /-- BAR2_ACCESS (R75). -/
  | bar2Access (pasid off width : Nat) (w : Option Nat) (t : Nat)
  /-- WATCHDOG_EXPIRY (R564). -/
  | watchdogExpiry (c mcause mepc mtval : Nat) (imageOk : Bool) (took slot t : Nat)
  /-- FW_CORE_KICK (R564). -/
  | fwCoreKick (c t : Nat)
  /-- CORE_CRASH (R565). -/
  | coreCrash (c cause mcause mepc mtval : Nat) (imageOk : Bool) (took slot t : Nat)
  /-- CORE_RESTART_DONE (R566). -/
  | coreRestartDone (c slot t : Nat)
  /-- FW_CORE_RESTART (R570). -/
  | fwCoreRestart (c : Nat) (imageOk : Bool) (took slot t : Nat)
  /-- LOG_APPEND (R572). -/
  | logAppend (c level trace : Nat) (args : List Nat) (t : Nat)
  /-- FW_LOG_SEL (R574). -/
  | fwLogSel (n t : Nat)
  /-- NOTIFY_SEND (R575). -/
  | notifySend (t : Nat)
  /-- HB_SESSION_OPEN (R586). -/
  | hbSessionOpen (level t : Nat)
  /-- HB_SESSION_CLOSE (R586). -/
  | hbSessionClose (t : Nat)
  /-- HB_ATTACH (R584). -/
  | hbAttach (x base t : Nat)
  /-- HB_HEARTBEAT (R586). -/
  | hbHeartbeat (v t : Nat)
  /-- HEARTBEAT_TIMEOUT (R586). -/
  | heartbeatTimeout (t : Nat)
  /-- SESSION_LOST_EXPIRY (R586). -/
  | sessionLostExpiry (t : Nat)
  /-- PCIE_LINK_DOWN (R586). -/
  | pcieLinkDown (t : Nat)
  /-- PCIE_FUNCTION_RESET (R576). -/
  | pcieFunctionReset (kind t : Nat)
  /-- ENROL_CLAIM (R608). -/
  | enrolClaim (r : EnrolRec) (took t : Nat)
  /-- ENROL_ADD (R608). -/
  | enrolAdd (r : EnrolRec) (took t : Nat)
  /-- ENROL_REVOKE (R608). -/
  | enrolRevoke (r : EnrolRec) (took t : Nat)
  /-- ENROL_RELEASE (R608). -/
  | enrolRelease (r : EnrolRec) (took t : Nat)
  /-- SEC_EXTEND (R604). -/
  | secExtend (mr t : Nat)
  /-- SLICE_EXTEND (R604). -/
  | sliceExtend (x t : Nat)
  /-- SEC_EVLOG_SEL (R614). -/
  | secEvlogSel (i t : Nat)
  /-- REQ_QUOTE (R609). -/
  | reqQuote (who k ticket t : Nat)
  /-- REQ_CHAIN (R610). -/
  | reqChain (who k ticket t : Nat)
  /-- QUOTE_SERVICE (R611). -/
  | quoteService (mapped : Bool) (t : Nat)
  /-- POWER_SAMPLE (R619). -/
  | powerSample (mw : Nat) (sectors : List Nat) (vdd t : Nat)
  /-- JUNCTION_TEMP_SAMPLE (R621). -/
  | junctionTempSample (n : Nat) (temp : Option Int) (cyc t : Nat)
  /-- PWR_WARN (R622). -/
  | pwrWarn (ns t : Nat)
  /-- RAIL_SAG (R622). -/
  | railSag (n uv ns cyc t : Nat)
  /-- SHED_STEP_ENTRY (R623). -/
  | shedStepEntry (cyc t : Nat)
  /-- RECOVERY_STEP (R625). -/
  | recoveryStep (t : Nat)
  /-- ASSAY_CHECK (R628). -/
  | assayCheck (t : Nat)
  /-- ASSAY_CHECK_DONE (R629). -/
  | assayCheckDone (rows third : List Nat) (cyc t : Nat)
  /-- ASSAY_SAMPLE_TIMEOUT (R628). -/
  | assaySampleTimeout (t : Nat)
  /-- STRIKE_LOG_HOUR (R632). -/
  | strikeLogHour (t : Nat)
  /-- TILE_RETIRE (R633). -/
  | tileRetire (beams : List Nat) (t : Nat)
  /-- ASSAY_LOG_SEL (R640). -/
  | assayLogSel (i t : Nat)
  /-- THERMTRIP (R646). -/
  | thermtrip (t : Nat)
  /-- AVS_TIMEOUT (R644). -/
  | avsTimeout (t : Nat)
  /-- FLASH_WRITE (R653). -/
  | flashWrite (len : Nat) (mapped : Bool) (t : Nat)
  /-- FLASH_WRITE_DONE (R653). -/
  | flashWriteDone (ok : Bool) (t : Nat)
  /-- POWER_LOSS (R643). -/
  | powerLoss (t : Nat)
  /-- SAG_CLEARED (R622). -/
  | sagCleared (n t : Nat)
  /-- SLEW_GAP_CLOSED (R426). -/
  | slewGapClosed (t : Nat)
  /-- EEC_LOCKED (R431). -/
  | eecLocked (t : Nat)
  /-- PTP_TRANSMIT (R421). -/
  | ptpTransmit (t : Nat)
  /-- ESMC_TRANSMIT (R431). -/
  | esmcTransmit (t : Nat)
  /-- REPLAY_ENTRY_EXPIRY (R502). -/
  | replayEntryExpiry (l t : Nat)
  /-- LANE_CHARGE_LAPSE (R516). -/
  | laneChargeLapse (l t : Nat)
  /-- LEND_MESSAGE_RX (R285). -/
  | lendMessageRx (d : Nat) (n : Option Nat) (t : Nat) (homed : List (Nat × Nat) := [])
  /-- RESYNC_QUERY_RX (R531). -/
  | resyncQueryRx (h : FabHdr) (t : Nat)
  /-- PCIE_LINK_UP (R586). -/
  | pcieLinkUp (width rate t : Nat)
  /-- PCIE_CONFIG_REQUEST (R576). -/
  | pcieConfigRequest (id t : Nat)
  /-- ATS_INVALIDATION (R548). -/
  | atsInvalidation (entries : List (Nat × Nat)) (t : Nat)
  /-- SLOT_INDICATION (R351). -/
  | slotIndication (c t : Nat)
  /-- RU_SESSION_UP (R353). -/
  | ruSessionUp (r t : Nat)
  /-- CUSTOMER_IMAGE_LOAD (R581). -/
  | customerImageLoad (core x : Nat) (sigOk : Bool) (reqMin reqMax : Nat) (digest : BitVec 512) (t : Nat)
  /-- LAUNCH_SLACK_EXPIRY (R256). -/
  | launchSlackExpiry (job t : Nat)
deriving DecidableEq, Repr

end Sys2Proof
end

