-- ==== Sys2Proof/WellFormed.lean ====
section
/-! DEFINITION. Which commands are well formed: every unit number of a command lies in the range the spec gives that kind
of unit. A command that is not well formed names a unit no device of the family has. -/

namespace Sys2Proof

/-- Every unit number lies in its range: sectors, matrix sites and vaults (R25, R26), queues (R147), banks (R171) and
arrival counters (R165) of a tile, slices (R539), fabric links (R467), windows (R482), tables (R59), time
domains (R416), request slots (R287, R611), and the ports, pods, devices, carriers, cluster units, radio units and firmware
cores that the register tables index. -/
def Instr.wf : Instr → Bool
  | .coldReset .. => true
  | .warmReset .. => true
  | .brownOut .. => true
  | .devResetWarm .. => true
  | .devResetCold .. => true
  | .romDone .. => true
  | .bootDone .. => true
  | .buildDone .. => true
  | .radioReadySet .. => true
  | .ownerStop .. => true
  | .stopComplete .. => true
  | .registerWrite .. => true
  | .rcRead .. => true
  | .windowAccessError .. => true
  | .planeViolationDrop plane stop _ => plane < 3 && stop < 160
  | .strataReloadGo .. => true
  | .strataReloadAbort .. => true
  | .strataStaged .. => true
  | .strataSwitchRequest .. => true
  | .strataSwitch .. => true
  | .tableBankReleased id _ => 1 ≤ id && id ≤ 10
  | .drainStall id _ => 1 ≤ id && id ≤ 10
  | .cgCommit who _ _ _ _ _ => who < 65
  | .cgCheckDone who _ => who < 65
  | .cgAct .. => true
  | .cgDiscard who _ _ _ _ => who < 65
  | .cmdFetch site q _ => site < 136 && q < 4
  | .matmul site q _ _ _ => site < 136 && q < 4
  | .accRead site q _ _ => site < 136 && q < 4
  | .accLoad site q _ => site < 136 && q < 4
  | .scaleLoad site q _ => site < 136 && q < 4
  | .quant site q _ => site < 136 && q < 4
  | .vecAdd site q _ => site < 136 && q < 4
  | .vecSub site q _ => site < 136 && q < 4
  | .vecMul site q _ => site < 136 && q < 4
  | .vecFma site q _ => site < 136 && q < 4
  | .vecMax site q _ => site < 136 && q < 4
  | .vecMin site q _ => site < 136 && q < 4
  | .vecAbs site q _ => site < 136 && q < 4
  | .vecNeg site q _ => site < 136 && q < 4
  | .vecScale2 site q _ => site < 136 && q < 4
  | .vecCvt site q _ => site < 136 && q < 4
  | .sfuExp2 site q _ => site < 136 && q < 4
  | .sfuLog2 site q _ => site < 136 && q < 4
  | .sfuErf site q _ => site < 136 && q < 4
  | .sfuExp site q _ => site < 136 && q < 4
  | .sfuRecip site q _ => site < 136 && q < 4
  | .sfuRsqrt site q _ => site < 136 && q < 4
  | .sfuSigmoid site q _ => site < 136 && q < 4
  | .sfuSilu site q _ => site < 136 && q < 4
  | .sfuGeluErf site q _ => site < 136 && q < 4
  | .sfuGeluTanh site q _ => site < 136 && q < 4
  | .softmax site q _ => site < 136 && q < 4
  | .norm site q _ => site < 136 && q < 4
  | .copy site q _ => site < 136 && q < 4
  | .xferToSram site q _ => site < 136 && q < 4
  | .xferToMemory site q _ => site < 136 && q < 4
  | .seam site q _ _ _ => site < 136 && q < 4
  | .sync site q _ => site < 136 && q < 4
  | .loopBody site q _ => site < 136 && q < 4
  | .stopQueue site q _ => site < 136 && q < 4
  | .banksOn site q _ => site < 136 && q < 4
  | .banksRetain site q _ => site < 136 && q < 4
  | .banksOff site q _ => site < 136 && q < 4
  | .bankTransitionDone site bank _ => site < 136 && bank < 24
  | .commandComplete site q _ _ _ _ _ => site < 136 && q < 4
  | .xferArrival site q _ _ _ => site < 136 && q < 4
  | .xferFaultReport site q _ _ _ _ _ _ => site < 136 && q < 4
  | .remoteSignalArrival site counter _ => site < 136 && counter < 64
  | .shapingInterval site _ => site < 136
  | .seamWriteWindow v _ => v < 152
  | .portRateChange v _ => v < 152
  | .vaultRefresh v _ => v < 152
  | .patrolScrub v _ _ => v < 152
  | .dramTempSample n _ _ _ => n < 8
  | .memAlloc x n _ _ _ => x < 64 && n < 16
  | .memFree x n _ _ _ => x < 64 && n < 16
  | .memHint x n _ _ _ => x < 64 && n < 16
  | .memMigrate x n _ _ _ => x < 64 && n < 16
  | .memQuery x _ _ => x < 64
  | .moveStart sector _ => sector < 8
  | .migrationSwitch x _ _ _ => x < 64
  | .oldRegionRelease v i _ => v < 152 && i < 384
  | .regionZeroed v i _ => v < 152 && i < 384
  | .releaseStall v i _ => v < 152 && i < 384
  | .jqDoorbell x q _ _ => x < 64 && q < 32
  | .jobStart .. => true
  | .jobLaunch .. => true
  | .launchPlanClose .. => true
  | .jobBoundExpiry .. => true
  | .jobEnd .. => true
  | .fullScrub site _ _ => site < 136
  | .completionWrite x q decode _ => x < 80 && q < 32 && decode < 64
  | .jqFlush x q _ => x < 64 && q < 32
  | .accountingPeriod .. => true
  | .seqEntryWrite x _ w _ _ => x < 64 && w < 4
  | .stepBuild x m _ _ => x < 64 && m < 16
  | .checkpointReached .. => true
  | .checkpointTimeout .. => true
  | .fallbackStart .. => true
  | .classicalDoneSignal .. => true
  | .deadlineExpiry .. => true
  | .claim site cluster _ => site < 136 && cluster < 16
  | .claimComplete site _ _ => site < 136
  | .claimOverrun site _ => site < 136
  | .claimRelease site _ _ => site < 136
  | .tableSeal c _ _ _ => c < 16
  | .patchWrite c l _ _ _ _ => c < 16 && l < 16
  | .patchCutoff c _ _ => c < 16
  | .tableFire c _ _ => c < 16
  | .slotMissed c _ _ => c < 16
  | .entryTrigger c _ _ _ _ => c < 16
  | .condAbortFire c _ l _ => c < 16 && l < 16
  | .tableRelease c _ _ _ _ => c < 16
  | .fapiParam k _ => k < 256
  | .fapiConfig k _ _ _ _ _ _ => k < 256
  | .fapiStart k _ => k < 256
  | .fapiStop k _ => k < 256
  | .fapiDlTti k _ _ _ => k < 256
  | .fapiUlTti k _ _ _ => k < 256
  | .fapiUlDci k _ _ _ => k < 256
  | .fapiTxData k _ _ _ => k < 256
  | .fhUlPacket port _ _ _ _ _ _ _ _ _ => port < 32
  | .fhWindowClose e _ _ _ _ _ => e < 4096
  | .ruCallHome r port _ _ => r < 64 && port < 32
  | .ruConfigured r _ _ => r < 64
  | .ruSupervisionMiss r _ _ => r < 64
  | .ruUplaneSilence k _ => k < 256
  | .queuedTriggerStart c u _ => c < 16 && u < 13
  | .vld c u _ _ _ => c < 16 && u < 8
  | .vst c u _ _ _ => c < 16 && u < 8
  | .vadd c u _ _ _ => c < 16 && u < 8
  | .vsub c u _ _ _ => c < 16 && u < 8
  | .cmul c u _ _ _ => c < 16 && u < 8
  | .cmac c u _ _ _ => c < 16 && u < 8
  | .accout c u _ _ _ => c < 16 && u < 8
  | .accclr c u _ _ _ => c < 16 && u < 8
  | .mag2 c u _ _ _ => c < 16 && u < 8
  | .minmax c u _ _ _ => c < 16 && u < 8
  | .agset c u _ _ _ => c < 16 && u < 8
  | .repeatBody c u _ _ _ => c < 16 && u < 8
  | .waitCounter c u _ _ _ => c < 16 && u < 8
  | .signalCounter c u _ _ _ => c < 16 && u < 8
  | .endStream c u _ _ _ => c < 16 && u < 8
  | .ldpcDecode c _ _ _ => c < 16
  | .ldpcEncode c _ _ _ => c < 16
  | .polarDecode c _ _ _ => c < 16
  | .polarEncode c _ _ _ => c < 16
  | .fftForward c _ _ _ => c < 16
  | .fftInverse c _ _ _ => c < 16
  | .prachCorrelate c _ _ _ => c < 16
  | .prachDetect c _ _ _ => c < 16
  | .dmaVaultToSram c _ _ _ _ => c < 16
  | .dmaSramToVault c _ _ _ => c < 16
  | .dmaTileToCluster c _ _ _ => c < 16
  | .dmaClusterToTile c _ _ _ => c < 16
  | .trackingIdleFree c l _ _ => c < 16 && l < 16
  | .ptpSyncRx d port _ _ => d < 2 && port < 40
  | .ptpDelayResult d port _ _ => d < 2 && port < 40
  | .ptpAnnounceRx d port _ _ _ _ _ _ => d < 2 && port < 40
  | .announceTimeout d _ => d < 2
  | .syncTimeout d _ => d < 2
  | .ppsEdge pin _ => pin < 2
  | .ppsTimeout d _ => d < 2
  | .todFrameRx .. => true
  | .todPpsOutput .. => true
  | .holdoverBudgetExpiry .. => true
  | .timeCapture .. => true
  | .esmcRx port _ _ => port < 40
  | .synceRefFail n _ _ => n < 4
  | .synceWtrExpiry n _ _ => n < 4
  | .ethRxFrame port _ _ => port < 40
  | .txFrameEnqueue port _ _ _ _ _ => port < 40
  | .txFrameStart port _ _ => port < 40
  | .shaperTick port _ => port < 40
  | .policerTick port _ => port < 40
  | .gateEvent port _ => port < 40
  | .gateChange port _ => port < 40
  | .portLinkUp port _ _ => port < 40
  | .portLinkLoss port _ => port < 40
  | .flitRx l _ _ _ _ => l < 6
  | .nakRx l _ _ => l < 6
  | .replayTimeout l _ => l < 6
  | .deliveryTimeout l _ _ => l < 6
  | .fabLinkUp l _ _ _ => l < 6
  | .fabLinkDown l _ _ _ _ => l < 6
  | .unpark l _ => l < 6
  | .helloSend .. => true
  | .helloRx l dev _ _ _ _ _ => l < 6 && dev < 256
  | .linkStateRx l dev named _ => l < 6 && dev < 256 && named < 6
  | .fabLoad q _ => q < 32
  | .fabStore q _ => q < 32
  | .fabStoreWord q _ => q < 32
  | .fabGet q _ => q < 32
  | .fabPut q _ => q < 32
  | .fabFetchAdd q _ => q < 32
  | .fabSwap q _ => q < 32
  | .fabCswap q _ => q < 32
  | .fabMin q _ => q < 32
  | .fabMax q _ => q < 32
  | .fabInv q _ => q < 32
  | .fabInvPod q _ => q < 32
  | .fabInvLocal q _ => q < 32
  | .fabMsg q _ => q < 32
  | .fabFenceOp q _ => q < 32
  | .homeLoad h _ _ _ => h.link < 6
  | .homeStore h _ _ _ => h.link < 6
  | .homeStoreWord h _ _ _ => h.link < 6
  | .homeAtomic h _ _ _ => h.link < 6
  | .homePut h _ _ _ _ _ _ => h.link < 6
  | .homeInv h _ _ => h.link < 6
  | .homeMsg h _ _ => h.link < 6
  | .homeCreditRx h _ _ => h.link < 6
  | .cairnApply .. => true
  | .fabResponseRx h _ _ _ _ _ => h.link < 6
  | .loadRetryTimeout .. => true
  | .requestTimeout .. => true
  | .atomicRetry .. => true
  | .atomicUnknown .. => true
  | .recvSlotConsume w _ _ => w < 192
  | .creditReturnSend pod dev _ => pod < 16 && dev < 256
  | .msgCreditResync pod dev window _ _ => pod < 16 && dev < 256 && window < 192
  | .rlcInvAll .. => true
  | .rlcInvAllDone .. => true
  | .detectorTick .. => true
  | .fenceCtrlFence dev _ => dev < 256
  | .fenceMsgRx l src dev _ _ _ => l < 6 && src < 256 && dev < 256
  | .helloSilenceSelfFence .. => true
  | .rejoin .. => true
  | .fenceNotice w dev _ => w < 192 && dev < 256
  | .fabBooksSnap .. => true
  | .creditLeak l _ => l < 6
  | .sliceCreate x k _ => x < 64 && k < 16
  | .sliceOpened x _ => x < 64
  | .sliceReset x _ _ => x < 64
  | .sliceRemove x _ _ => x < 64
  | .sliceResetDone x _ => x < 64
  | .bar2Access .. => true
  | .watchdogExpiry c _ _ _ _ _ _ _ => c < 23
  | .fwCoreKick c _ => c < 23
  | .coreCrash c _ _ _ _ _ _ _ _ => c < 23
  | .coreRestartDone c _ _ => c < 23
  | .fwCoreRestart .. => true
  | .logAppend c _ _ _ _ => c < 23
  | .fwLogSel .. => true
  | .notifySend .. => true
  | .hbSessionOpen .. => true
  | .hbSessionClose .. => true
  | .hbAttach x _ _ => x < 64
  | .hbHeartbeat .. => true
  | .heartbeatTimeout .. => true
  | .sessionLostExpiry .. => true
  | .pcieLinkDown .. => true
  | .pcieFunctionReset .. => true
  | .enrolClaim .. => true
  | .enrolAdd .. => true
  | .enrolRevoke .. => true
  | .enrolRelease .. => true
  | .secExtend .. => true
  | .sliceExtend x _ => x < 64
  | .secEvlogSel .. => true
  | .reqQuote who k _ _ => who < 65 && k < (if who = 0 then 4 else 2)
  | .reqChain who k _ _ => who < 65 && k < (if who = 0 then 4 else 2)
  | .quoteService .. => true
  | .powerSample .. => true
  | .junctionTempSample n _ _ _ => n < 8
  | .pwrWarn .. => true
  | .railSag n _ _ _ _ => n < 6
  | .shedStepEntry .. => true
  | .recoveryStep .. => true
  | .assayCheck .. => true
  | .assayCheckDone .. => true
  | .assaySampleTimeout .. => true
  | .strikeLogHour .. => true
  | .tileRetire .. => true
  | .assayLogSel .. => true
  | .thermtrip .. => true
  | .avsTimeout .. => true
  | .flashWrite .. => true
  | .flashWriteDone .. => true
  | .powerLoss .. => true
  | .sagCleared .. => true
  | .slewGapClosed .. => true
  | .eecLocked .. => true
  | .ptpTransmit .. => true
  | .esmcTransmit .. => true
  | .replayEntryExpiry l _ => l < 6
  | .laneChargeLapse l _ => l < 6
  | .lendMessageRx d _ _ _ => d < 256
  | .resyncQueryRx h _ => h.link < 6 && h.window < 192
  | .pcieLinkUp .. => true
  | .pcieConfigRequest .. => true
  | .atsInvalidation .. => true
  | .slotIndication c _ => c < 16
  | .ruSessionUp r _ => r < 64
  | .customerImageLoad core x _ _ _ _ _ => x < 64 && 7 ≤ core && core < 23
  | .launchSlackExpiry .. => true

end Sys2Proof
end

