-- ==== Sys2Proof/Decode.lean ====
section
/-! DEFINITION. The command a word spells. No row of the command table gives its command any bits (every row's
list of fields is empty), so no word spells a command. -/

namespace Sys2Proof

/-- The command spelled by the low `nbits` bits of `w`: none, because the table gives no row bits. -/
def decodeTableWord (_nbits _w : Nat) : Option Instr := none

end Sys2Proof
end

