-- ==== Sys2Proof/Machine/Tbl.lean ====
section
/-! DEFINITION. Sparse tables (`Tbl`): reading, writing and the canonical form. Register files, memories,
accumulator files and every other large array of the device are tables with a stated value at unlisted keys. -/

namespace Sys2Proof.Machine

/-- The entry listed for key `k`, if any. -/
def tblFind {α : Type} : Tbl α → Nat → Option α
  | [], _ => none
  | (a, v) :: m, k => if a = k then some v else tblFind m k

/-- `m` without any entry for key `k`. -/
def tblErase {α : Type} : Tbl α → Nat → Tbl α
  | [], _ => []
  | (a, v) :: m, k => if a = k then tblErase m k else (a, v) :: tblErase m k

/-- `m` with an entry for `k` put before the first larger key. -/
def tblInsert {α : Type} (k : Nat) (v : α) : Tbl α → Tbl α
  | [] => [(k, v)]
  | (a, w) :: m => if k < a then (k, v) :: (a, w) :: m else (a, w) :: tblInsert k v m

/-- What key `k` reads as in a table whose unlisted keys read as `d`. -/
def tblGet {α : Type} (d : α) (m : Tbl α) (k : Nat) : α := (tblFind m k).getD d

/-- `m` with key `k` reading as `v`: writing what an unlisted key reads as removes the entry. -/
def tblSet {α : Type} [DecidableEq α] (d : α) (m : Tbl α) (k : Nat) (v : α) : Tbl α :=
  if v = d then tblErase m k else tblInsert k v (tblErase m k)

/-- The keys of `m` rise strictly from `lo` on, and no entry equals what its key reads as unlisted. -/
def tblWfFrom {α : Type} [DecidableEq α] (d : Nat → α) : Nat → Tbl α → Bool
  | _, [] => true
  | lo, (a, v) :: m => decide (lo ≤ a) && decide (v ≠ d a) && tblWfFrom d (a + 1) m

/-- The canonical form of a table whose unlisted key `k` reads as `d k`. -/
def tblWf {α : Type} [DecidableEq α] (d : Nat → α) (m : Tbl α) : Bool := tblWfFrom d 0 m

/-- Clears every entry whose key lies in `[lo, hi)`, so that these keys read as unlisted. -/
def tblClear {α : Type} (m : Tbl α) (lo hi : Nat) : Tbl α := m.filter fun e => !(lo ≤ e.1 && e.1 < hi)

end Sys2Proof.Machine
end

