-- ==== Sys2Proof/Machine/Fp.lean ====
section
/-! DEFINITION. Number formats and exact arithmetic: the seven storage formats (R85 to R87), the arithmetic rules
of the datapath (R88 to R91), expansion to XF7 and XF12 (R92 to R97) and the quantiser's rounding (R104 to R107).
Values are formed exactly on integers and rounded once. -/

namespace Sys2Proof.Machine

/-- A number of the datapath: a signed magnitude times a power of two (which keeps the sign of zero), an infinity,
or NaN. -/
inductive Fp where
  | fin (neg : Bool) (mag : Nat) (exp : Int)
  | inf (neg : Bool)
  | nan
deriving DecidableEq, Repr

/-- `2 ^ k` for a nonnegative `k`, 1 otherwise. -/
def pow2 (k : Int) : Nat := 2 ^ k.toNat

/-- A binary floating format with `m` mantissa bits and the given bias: the value of sign, exponent field and
mantissa, special codes aside (R87). -/
def floatVal (m : Nat) (bias : Int) (neg : Bool) (e f : Nat) : Fp :=
  if e = 0 then .fin neg f (1 - bias - m) else .fin neg (2 ^ m + f) ((e : Int) - bias - m)

/-- The value of a BF16 or FP32 style code with `ew` exponent bits and `m` mantissa bits, infinities and NaN
included. -/
def ieeeVal (ew m : Nat) (c : Nat) : Fp :=
  let neg := decide ((c >>> (ew + m)) % 2 = 1)
  let e := (c >>> m) % 2 ^ ew
  let f := c % 2 ^ m
  if e = 2 ^ ew - 1 then (if f = 0 then .inf neg else .nan) else floatVal m (2 ^ (ew - 1) - 1) neg e f

/-- The value of an FP32 code. -/
def f32Val (c : Nat) : Fp := ieeeVal 8 23 c

/-- The value of a BF16 code. -/
def bf16Val (c : Nat) : Fp := ieeeVal 8 7 c

/-- A two's complement integer of `n` bits. Its zero is +0 (R125). -/
def intVal (n c : Nat) : Fp :=
  if 2 ^ (n - 1) ≤ c % 2 ^ n then .fin true (2 ^ n - c % 2 ^ n) 0 else .fin false (c % 2 ^ n) 0

/-- The value of code `c` of format code `f` (R85, R87). -/
def codeVal (f c : Nat) : Fp :=
  match f with
  | 0 => intVal 4 c
  | 1 => floatVal 1 1 (decide ((c >>> 3) % 2 = 1)) ((c >>> 1) % 4) (c % 2)
  | 2 => intVal 8 c
  | 3 => if c % 128 = 127 then .nan else floatVal 3 7 (decide ((c >>> 7) % 2 = 1)) ((c >>> 3) % 16) (c % 8)
  | 4 => ieeeVal 5 2 c
  | 5 => bf16Val c
  | _ => f32Val c

/-- Bits of one element of format code `f` (R85). An unlisted code counts as 32 bits: the spec gives its regions no length, so
which of SRAM_RANGE, OVERLAP and BANK_STATE is reported ahead of FORMAT_UNSUPPORTED is the model's choice (log entry
98). -/
def fmtBits (f : Nat) : Nat :=
  match f with
  | 0 => 4 | 1 => 4 | 2 => 8 | 3 => 8 | 4 => 8 | 5 => 16 | _ => 32

/-- Bytes of a packed row of `n` elements (R86). -/
def rowBytes (f n : Nat) : Nat := (n * fmtBits f + 7) / 8

/-- The number times `2 ^ s`, exactly. -/
def Fp.scale (x : Fp) (s : Int) : Fp :=
  match x with
  | .fin n m e => .fin n m (e + s)
  | y => y

/-- The exact product (R121, R124): NaN from a NaN factor or infinity times zero. -/
def Fp.mul : Fp → Fp → Fp
  | .nan, _ => .nan
  | _, .nan => .nan
  | .inf a, .inf b => .inf (a != b)
  | .inf a, .fin b m _ => if m = 0 then .nan else .inf (a != b)
  | .fin a m _, .inf b => if m = 0 then .nan else .inf (a != b)
  | .fin a m e, .fin b n f => .fin (a != b) (m * n) (e + f)

/-- A signed magnitude as an integer. -/
def sgnInt (neg : Bool) (m : Nat) : Int := if neg then -(m : Int) else m

/-- The exact sum (R121, R122, R124, R125): opposite infinities give NaN; an exact zero is −0 only when both
terms are −0. -/
def Fp.add : Fp → Fp → Fp
  | .nan, _ => .nan
  | _, .nan => .nan
  | .inf a, .inf b => if a = b then .inf a else .nan
  | .inf a, .fin _ _ _ => .inf a
  | .fin _ _ _, .inf b => .inf b
  | .fin a m e, .fin b n f =>
    let g := min e f
    let s := sgnInt a (m * pow2 (e - g)) + sgnInt b (n * pow2 (f - g))
    if s = 0 then .fin (a && b) 0 g else .fin (decide (s < 0)) s.natAbs g

/-- The number with its sign inverted. -/
def Fp.neg : Fp → Fp
  | .fin n m e => .fin (!n) m e
  | .inf n => .inf (!n)
  | .nan => .nan

/-- The number with its sign cleared. -/
def Fp.abs : Fp → Fp
  | .fin _ m e => .fin false m e
  | .inf _ => .inf false
  | .nan => .nan

/-- Comparison of two numbers that are not NaN, −0 below +0 (R159). -/
def Fp.le : Fp → Fp → Bool
  | .nan, _ => false
  | _, .nan => false
  | .inf a, .inf b => a || !b
  | .inf a, .fin _ _ _ => a
  | .fin _ _ _, .inf b => !b
  | .fin a m e, .fin b n f =>
    let g := min e f
    let x := sgnInt a (m * pow2 (e - g))
    let y := sgnInt b (n * pow2 (f - g))
    decide (x < y) || (decide (x = y) && (a || !b))

/-- `m / 2 ^ k` rounded to nearest, ties to even. -/
def rneShift (m k : Nat) : Nat :=
  let q := m >>> k
  let r := m % 2 ^ k
  if 2 ^ k < 2 * r ∨ (2 * r = 2 ^ k ∧ q % 2 = 1) then q + 1 else q

/-- `m / 2 ^ k` rounded to nearest, ties away from zero. -/
def rnaShift (m k : Nat) : Nat := if 2 ^ k ≤ 2 * (m % 2 ^ k) ∧ k ≠ 0 then (m >>> k) + 1 else m >>> k

/-- The magnitude `mag * 2 ^ exp` rounded to a grid with `m` mantissa bits and smallest step `2 ^ qmin`, as the
unbounded code `M + (q − qmin) * 2 ^ m`: the biased code a format of this shape would give it. -/
def gridCode (rnd : Nat → Nat → Nat) (m : Nat) (qmin : Int) (mag : Nat) (exp : Int) : Nat :=
  if mag = 0 then 0 else
  let q := max ((Nat.log2 mag : Int) + exp - m) qmin
  let M := if q ≤ exp then mag * pow2 (exp - q) else rnd mag (q - exp).toNat
  M + (q - qmin).toNat * 2 ^ m

/-- Rounds to a code with `ew` exponent and `m` mantissa bits by RNE; overflow gives the infinity, NaN the canonical
NaN (R88 to R91). -/
def ieeeRound (ew m : Nat) (x : Fp) : Nat :=
  let sgn := fun n : Bool => if n then 2 ^ (ew + m) else 0
  let infc := (2 ^ ew - 1) * 2 ^ m
  match x with
  | .nan => infc + 2 ^ (m - 1)
  | .inf n => sgn n + infc
  | .fin n mag e => sgn n + min (gridCode rneShift m (2 - (2 ^ (ew - 1) : Int) - m) mag e) infc

/-- Rounds to FP32 by RNE. -/
def f32Round (x : Fp) : Nat := ieeeRound 8 23 x

/-- Rounds to BF16 by RNE (R91). -/
def bf16Round (x : Fp) : Nat := ieeeRound 8 7 x

/-- The canonical NaN (R90). -/
def canonNaN : Nat := 0x7FC00000

/-- An FP32 code with every NaN replaced by the canonical NaN (R90, R155). -/
def f32Canon (c : Nat) : Nat := match f32Val c with | .nan => canonNaN | _ => c % 2 ^ 32

/-- FP32 addition of two codes, rounded once. -/
def f32Add (a b : Nat) : Nat := f32Round ((f32Val a).add (f32Val b))

/-- FP32 multiplication of two codes, rounded once. -/
def f32Mul (a b : Nat) : Nat := f32Round ((f32Val a).mul (f32Val b))

/-- FP32 fused multiply-add of three codes, rounded once. -/
def f32Fma (a b c : Nat) : Nat := f32Round (((f32Val a).mul (f32Val b)).add (f32Val c))

/-- The format class of an operand pair (R93, R115): 0 four-bit, 1 eight-bit, 2 BF16; none where the pairing is
refused. -/
def formatClass (fa fb : Nat) : Option Nat :=
  if fa ≤ 1 ∧ fb ≤ 1 then some 0
  else if fa ≤ 4 ∧ fb ≤ 4 then some 1
  else if fa = 5 ∧ fb = 5 then some 2
  else none

/-- The K-chunk of a format class (R115). -/
def kChunk (cls : Nat) : Nat := match cls with | 0 => 128 | 1 => 64 | _ => 16

/-- Bytes of a stationary bank image (R116). -/
def bankImage (cls fb : Nat) : Nat := if cls = 0 ∨ (cls = 1 ∧ 2 ≤ fb) then 8192 else 4096

/-- The offset window of a narrow code format into XF7 (class 0) or XF12 (class 1) (R97). -/
def offsetWindow (cls f : Nat) : Int × Int :=
  match cls, f with
  | 0, 0 => (-9, 4)
  | 0, _ => (-8, 5)
  | _, 0 => (-21, 12)
  | _, 1 => (-20, 13)
  | _, 2 => (-21, 8)
  | _, 3 => (-12, 7)
  | _, _ => (-5, 0)

/-- The XF7 or XF12 field of a finite value (R92): sign, then exponent and fraction; `fb` fraction bits, bias `b`,
`w` the width below the sign. A special code expands to a zero field and a tag (R94). -/
def xfCode (fb : Nat) (b : Int) (w : Nat) (x : Fp) : Nat :=
  match x with
  | .fin n m e => (if n then 2 ^ w else 0) + gridCode rneShift fb (1 - b - fb) m e
  | _ => 0

/-- The XF7 field of a value. -/
def xf7Code (x : Fp) : Nat := xfCode 2 8 6 x

/-- The XF12 field of a value. -/
def xf12Code (x : Fp) : Nat := xfCode 6 16 11 x

/-- The tag that travels beside an expanded element (R94). -/
def xfTag (x : Fp) : Nat :=
  match x with
  | .fin _ _ _ => 0
  | .inf false => 1
  | .inf true => 2
  | .nan => 3

/-- The value an expanded element stands for: its field, or the special value its tag names (R92, R94). -/
def xfVal (fb : Nat) (b : Int) (w code tag : Nat) : Fp :=
  match tag with
  | 0 => floatVal fb b (decide ((code >>> w) % 2 = 1)) ((code >>> fb) % 2 ^ (w - fb)) (code % 2 ^ fb)
  | 1 => .inf false
  | 2 => .inf true
  | _ => .nan

/-- An element as the array receives it: its code scaled by `2 ^ d` and expanded to the format of its class
(R92 to R96); BF16 is not expanded. -/
def expand (cls f c : Nat) (d : Int) : Fp :=
  let x := (codeVal f c).scale d
  match cls with
  | 0 => xfVal 2 8 6 (xf7Code x) (xfTag x)
  | 1 => xfVal 6 16 11 (xf12Code x) (xfTag x)
  | _ => codeVal f c

/-- The tree sum of one chunk: exact, the tags combined (R121, R124, R125). -/
def chunkSum : List Fp → Fp
  | [] => .fin false 0 0
  | p :: ps => ps.foldl Fp.add p

/-- The accumulator update of one chunk (R122): a fresh start takes the sum alone. -/
def accUpdate (fresh : Bool) (old : Nat) (t : Fp) (sigma : Int) : Nat :=
  if fresh then f32Round (t.scale sigma) else f32Round ((f32Val old).add (t.scale sigma))

/-- The quantiser's integer grid: RNA, then saturation to `lo`..`hi` in two's complement of `n` bits (R106). -/
def quantInt (n : Nat) (neg : Bool) (mag : Nat) (exp : Int) : Nat :=
  let r := if 0 ≤ exp then mag * pow2 exp else rnaShift mag (-exp).toNat
  if neg then (let k := min r (2 ^ (n - 1)); (2 ^ n - k) % 2 ^ n) else min r (2 ^ (n - 1) - 1)

/-- One quantised element of target format `f` (R104 to R107): its code and whether a finite input saturated. -/
def quantCode (f : Nat) (y : Fp) : Nat × Bool :=
  let intGrid := fun n : Nat =>
    match y with
    | .nan => (0, false)
    | .inf neg => (if neg then 2 ^ (n - 1) else 2 ^ (n - 1) - 1, false)
    | .fin neg mag e =>
      let r := if 0 ≤ e then mag * pow2 e else rnaShift mag (-e).toNat
      (quantInt n neg mag e, if neg then decide (2 ^ (n - 1) < r) else decide (2 ^ (n - 1) - 1 < r))
  let fltGrid := fun (m : Nat) (qmin : Int) (top nanc sgn : Nat) =>
    match y with
    | .nan => (nanc, false)
    | .inf neg => (top + (if neg then sgn else 0), false)
    | .fin neg mag e =>
      let g := gridCode rnaShift m qmin mag e
      (min g top + (if neg then sgn else 0), decide (top < g))
  match f with
  | 0 => intGrid 4
  | 2 => intGrid 8
  | 1 => fltGrid 1 (-1) 7 0 8
  | 3 => fltGrid 3 (-9) 0x7E 0x7F 0x80
  | _ => fltGrid 2 (-16) 0x7B 0x7E 0x80

end Sys2Proof.Machine
end

