-- ==== Sys2Proof/Machine/RegDef.lean ====
section
/-! DEFINITION. What a register table row of the spec says: access codes (R20), fields, array dimensions, commit
group membership, and the blocks of the register space (R73, R74). -/

namespace Sys2Proof.Machine

/-- The access codes of R20; `roKept` is an RO field that a warm reset keeps (R42, R647, R651). -/
inductive Acc where
  | ro | rw | wo | w1c | rc | rws | roKept
deriving DecidableEq, Repr

/-- One dimension of an array of registers or of block instances. -/
structure Dim where
  count : Nat
  stride : Nat
deriving DecidableEq, Repr

/-- Which commit group the RW fields of a register belong to (R64): none (live or plain), one group, or a group
that follows one of the register's indices (block instances counted first). -/
inductive GroupSel where
  | none
  | fixed (group : Nat)
  | indexed (first : Nat) (dim : Nat)
deriving DecidableEq, Repr

/-- One field of a register: first bit, width, access, reset value, and the listed range of R21 (signed if it
starts below zero) where the table gives one. -/
structure FieldDef where
  lo : Nat
  width : Nat
  acc : Acc
  reset : Nat
  range : Option (Int × Int)
deriving DecidableEq, Repr

/-- One row group of a register table: a register (or array of registers) of a block. -/
structure RegDef where
  name : String
  off : Nat
  dims : List Dim
  bytes : Nat
  group : GroupSel
  fields : List FieldDef
deriving DecidableEq, Repr

/-- The register blocks of R73, the slice windows of R74 and the host block of R75. -/
inductive Block where
  | dev | strata | time | power | sec | fw | assay | tile | vault | radio | mesh | hub | sched | memmgr
  | slicectl | air | port | fabric | pcie | slice | bar0
deriving DecidableEq, Repr

/-- A block: its base, its instances, half its page (R64), its BLOCK_TYPE (R73) and its registers. -/
structure BlockDef where
  block : Block
  base : Nat
  insts : List Dim
  half : Nat
  btype : Nat
  regs : List RegDef
deriving DecidableEq, Repr

/-- A field of one register: the register's address, the field's first bit and width. -/
structure Fld where
  addr : Nat
  lo : Nat
  width : Nat
deriving DecidableEq, Repr

end Sys2Proof.Machine
end

