-- ==== Sys2Proof/Machine/RegMap.lean ====
section
/-! DEFINITION. The register tables of the spec, transcribed row by row: for each block of R73 and R74 its
registers with offset, array dimensions, width in bytes, commit group and fields (first bit, width, access code of
R20, reset value of R19, listed range of R21). A reset the spec writes as "Strata" or "Map" is 0 here: BOOT and
BUILD load it (R54, log entry 3). -/

namespace Sys2Proof.Machine

/-- Registers of the DEV block. -/
def regsDev : List RegDef := [
  ⟨"DEV_STATUS", 0x0, [], 4, .none, [⟨0, 4, .ro, 1, none⟩, ⟨4, 1, .ro, 0, none⟩, ⟨5, 1, .ro, 0, none⟩, ⟨6, 1, .ro, 0, none⟩, ⟨7, 1, .ro, 0, none⟩, ⟨8, 1, .ro, 0, none⟩, ⟨9, 1, .ro, 0, none⟩, ⟨10, 4, .ro, 0, none⟩]⟩,
  ⟨"DEV_INFO", 0x8, [], 4, .none, [⟨0, 2, .ro, 0, none⟩, ⟨2, 8, .ro, 0, none⟩, ⟨10, 6, .ro, 0, none⟩, ⟨16, 5, .ro, 0, none⟩, ⟨21, 8, .ro, 0, none⟩]⟩,
  ⟨"DEV_STOP_CAUSE", 0x10, [], 4, .none, [⟨0, 8, .roKept, 0, none⟩]⟩,
  ⟨"DEV_RESET_CTRL", 0x18, [], 4, .none, [⟨0, 2, .wo, 0, none⟩, ⟨8, 8, .wo, 0, none⟩]⟩,
  ⟨"DEV_RESET_CAUSE", 0x1c, [], 4, .none, [⟨0, 8, .roKept, 0, none⟩]⟩,
  ⟨"DEV_STRAP", 0x20, [], 4, .none, [⟨0, 4, .roKept, 0, none⟩]⟩,
  ⟨"DEV_PHASE_US", 0x40, [⟨5, 4⟩], 4, .none, [⟨0, 32, .ro, 0, none⟩]⟩,
  ⟨"DEV_GPIO_IN", 0x100, [], 4, .none, [⟨0, 8, .ro, 0, none⟩]⟩,
  ⟨"DEV_GPIO_OUT", 0x104, [], 4, .none, [⟨0, 8, .rw, 0, none⟩]⟩,
  ⟨"DEV_GPIO_OE", 0x108, [], 4, .none, [⟨0, 8, .rw, 0, none⟩]⟩,
  ⟨"DEV_FLASH_SRC", 0x200, [], 8, .none, [⟨0, 64, .rw, 0, none⟩]⟩,
  ⟨"DEV_FLASH_OFFSET", 0x208, [], 4, .none, [⟨0, 28, .rw, 0, none⟩]⟩,
  ⟨"DEV_FLASH_CTRL", 0x20c, [], 4, .none, [⟨0, 24, .rw, 0, none⟩, ⟨31, 1, .wo, 0, none⟩]⟩,
  ⟨"DEV_FLASH_RESULT", 0x210, [], 4, .none, [⟨0, 8, .ro, 0, none⟩, ⟨8, 1, .ro, 0, none⟩]⟩]

/-- Registers of the STRATA block. -/
def regsStrata : List RegDef := [
  ⟨"STRATA_STATUS", 0x0, [], 4, .none, [⟨0, 2, .ro, 0, none⟩, ⟨2, 1, .ro, 0, none⟩, ⟨3, 1, .ro, 0, none⟩]⟩,
  ⟨"STRATA_IMAGE_VER", 0x4, [], 4, .none, [⟨0, 32, .ro, 0, none⟩]⟩,
  ⟨"STRATA_RELOAD_ADDR", 0x8, [], 8, .none, [⟨0, 64, .rw, 0, none⟩]⟩,
  ⟨"STRATA_RELOAD_CTRL", 0x10, [], 4, .none, [⟨0, 1, .wo, 0, none⟩, ⟨1, 1, .wo, 0, none⟩]⟩,
  ⟨"STRATA_RELOAD_RESULT", 0x14, [], 4, .none, [⟨0, 8, .ro, 0, none⟩, ⟨8, 8, .ro, 0, none⟩, ⟨16, 16, .ro, 0, none⟩]⟩,
  ⟨"STRATA_SWITCH_CTRL", 0x18, [], 4, .none, [⟨0, 2, .rw, 0, some (0, 2)⟩, ⟨2, 10, .rw, 0, none⟩, ⟨12, 7, .rw, 0, some (0, 79)⟩, ⟨31, 1, .wo, 0, none⟩]⟩,
  ⟨"STRATA_SWITCH_TIME", 0x20, [], 8, .none, [⟨0, 30, .rw, 0, none⟩, ⟨32, 32, .rw, 0, none⟩]⟩,
  ⟨"STRATA_EVENT", 0x28, [], 4, .none, [⟨0, 1, .w1c, 0, none⟩, ⟨1, 1, .w1c, 0, none⟩, ⟨2, 1, .w1c, 0, none⟩, ⟨3, 1, .w1c, 0, none⟩, ⟨4, 1, .w1c, 0, none⟩, ⟨5, 1, .w1c, 0, none⟩]⟩,
  ⟨"STRATA_WINDOW_ERR", 0x2c, [], 4, .none, [⟨0, 32, .rc, 0, none⟩]⟩,
  ⟨"TBL_SELECT", 0x30, [], 4, .none, [⟨0, 8, .rw, 1, none⟩]⟩,
  ⟨"TBL_STATE", 0x34, [], 4, .none, [⟨0, 16, .ro, 0, none⟩, ⟨16, 1, .ro, 0, none⟩, ⟨17, 1, .ro, 0, none⟩, ⟨18, 12, .ro, 0, none⟩]⟩,
  ⟨"CG_COMMIT", 0x100, [], 4, .none, [⟨0, 8, .wo, 0, none⟩, ⟨8, 8, .wo, 0, none⟩, ⟨16, 8, .wo, 0, none⟩, ⟨24, 8, .wo, 0, none⟩]⟩,
  ⟨"CG_STATUS", 0x104, [], 4, .none, [⟨0, 8, .ro, 0, none⟩, ⟨8, 1, .ro, 0, none⟩, ⟨9, 1, .ro, 0, none⟩, ⟨16, 8, .ro, 0, none⟩, ⟨24, 8, .ro, 0, none⟩]⟩,
  ⟨"CG_DISCARD", 0x108, [], 4, .none, [⟨0, 24, .wo, 0, none⟩]⟩,
  ⟨"CG_SUPERSEDED", 0x10c, [], 4, .none, [⟨0, 8, .rc, 0, none⟩, ⟨8, 1, .rc, 0, none⟩, ⟨9, 1, .rc, 0, none⟩]⟩,
  ⟨"STRATA_DIGEST", 0x40, [⟨16, 4⟩], 4, .none, [⟨0, 32, .ro, 0, none⟩]⟩]

/-- Registers of the TIME block, part 1. -/
def regsTime1 : List RegDef := [
  ⟨"TIME_STATUS", 0x0, [], 4, .none, [⟨0, 1, .ro, 0, none⟩, ⟨1, 1, .ro, 0, none⟩, ⟨2, 1, .ro, 0, none⟩, ⟨3, 1, .ro, 0, none⟩, ⟨4, 2, .ro, 0, none⟩]⟩,
  ⟨"TIME_CAPTURE", 0x4, [], 4, .none, [⟨0, 1, .wo, 0, none⟩]⟩,
  ⟨"TIME_CAP_NS", 0x8, [], 8, .none, [⟨0, 16, .ro, 0, none⟩, ⟨16, 30, .ro, 0, none⟩]⟩,
  ⟨"TIME_CAP_SEC", 0x10, [], 8, .none, [⟨0, 48, .ro, 0, none⟩]⟩,
  ⟨"TIME_CAP_GAP", 0x18, [], 4, .none, [⟨0, 32, .ro, 0, none⟩]⟩,
  ⟨"TIME_HO_ELAPSED", 0x1c, [], 4, .none, [⟨0, 32, .ro, 0, none⟩]⟩,
  ⟨"TIME_EVENT", 0x20, [], 4, .none, [⟨0, 1, .w1c, 0, none⟩, ⟨1, 1, .w1c, 0, none⟩, ⟨2, 1, .w1c, 0, none⟩, ⟨3, 1, .w1c, 0, none⟩, ⟨4, 1, .w1c, 0, none⟩, ⟨5, 1, .w1c, 0, none⟩, ⟨6, 1, .w1c, 0, none⟩, ⟨7, 1, .w1c, 0, none⟩]⟩,
  ⟨"TIME_SEL_CTRL", 0x40, [], 4, .fixed 0, [⟨0, 1, .rw, 0, none⟩, ⟨1, 1, .rw, 0, none⟩, ⟨2, 1, .rw, 0, none⟩, ⟨3, 6, .rw, 10, some (1, 40)⟩, ⟨9, 12, .rw, 0, none⟩]⟩,
  ⟨"TIME_SEL_SWITCH", 0x44, [], 4, .fixed 0, [⟨0, 16, .rw, 1100, some (1, 65535)⟩]⟩,
  ⟨"TIME_HO_CFG", 0x48, [], 4, .fixed 3, [⟨0, 16, .rw, 120, some (1, 65535)⟩, ⟨16, 16, .rw, 3600, some (1, 65535)⟩]⟩,
  ⟨"TIME_HO_ACT", 0x4c, [], 4, .fixed 3, [⟨0, 1, .rw, 1, none⟩]⟩,
  ⟨"TIME_DOM_CFG", 0x100, [⟨2, 128⟩], 4, .indexed 1 0, [⟨0, 1, .rw, 0, none⟩, ⟨1, 1, .rw, 0, none⟩, ⟨2, 1, .rw, 0, none⟩, ⟨3, 8, .rw, 0, none⟩, ⟨11, 6, .rw, 0, some (0, 39)⟩, ⟨17, 6, .rw, 0, some (0, 39)⟩, ⟨23, 1, .rw, 0, none⟩]⟩,
  ⟨"TIME_DOM_LOOP", 0x104, [⟨2, 128⟩], 4, .indexed 1 0, [⟨0, 4, .rw, 5, some (1, 12)⟩, ⟨4, 4, .rw, 12, some (2, 15)⟩, ⟨8, 10, .rw, 100, some (1, 1023)⟩, ⟨18, 12, .rw, 250, some (2, 4095)⟩]⟩,
  ⟨"TIME_DOM_STATUS", 0x110, [⟨2, 128⟩], 4, .none, [⟨0, 2, .ro, 0, none⟩, ⟨2, 6, .ro, 0, none⟩, ⟨8, 8, .ro, 255, none⟩]⟩,
  ⟨"TIME_DOM_OFFSET", 0x114, [⟨2, 128⟩], 4, .none, [⟨0, 32, .ro, 0, none⟩]⟩,
  ⟨"TIME_DOM_FREQ", 0x118, [⟨2, 128⟩], 4, .none, [⟨0, 32, .ro, 0, none⟩]⟩,
  ⟨"TIME_DOM_PATH", 0x11c, [⟨2, 128⟩], 4, .none, [⟨0, 32, .ro, 0, none⟩]⟩,
  ⟨"TIME_DOM_GM", 0x120, [⟨2, 128⟩], 8, .none, [⟨0, 64, .ro, 0, none⟩]⟩,
  ⟨"TIME_DOM_UPDATES", 0x128, [⟨2, 128⟩], 4, .none, [⟨0, 32, .ro, 0, none⟩]⟩,
  ⟨"TIME_SYNCE_CFG", 0x200, [], 4, .fixed 4, [⟨0, 1, .rw, 0, none⟩, ⟨1, 6, .rw, 0, none⟩, ⟨7, 1, .rw, 0, none⟩, ⟨8, 6, .rw, 0, none⟩, ⟨14, 1, .rw, 0, none⟩, ⟨15, 6, .rw, 0, none⟩, ⟨21, 1, .rw, 0, none⟩, ⟨22, 6, .rw, 0, none⟩, ⟨28, 1, .rw, 0, none⟩, ⟨29, 1, .rw, 1, none⟩]⟩,
  ⟨"TIME_SYNCE_TIMING", 0x204, [], 4, .fixed 4, [⟨0, 12, .rw, 300, none⟩, ⟨12, 10, .rw, 500, some (300, 1023)⟩]⟩,
  ⟨"TIME_SYNCE_STATUS", 0x208, [], 4, .none, [⟨0, 6, .ro, 0, none⟩, ⟨6, 4, .ro, 0, none⟩]⟩,
  ⟨"TIME_TOD_CFG", 0x300, [], 4, .fixed 5, [⟨0, 16, .rw, 0, some (-10000, 10000)⟩, ⟨16, 16, .rw, 0, none⟩]⟩,
  ⟨"TIME_TOD_LEAP", 0x304, [], 4, .fixed 5, [⟨0, 2, .rw, 0, some (0, 2)⟩]⟩]

/-- Registers of the TIME block, part 2. -/
def regsTime2 : List RegDef := [
  ⟨"TIME_TOD_STATUS", 0x308, [], 4, .none, [⟨0, 2, .ro, 0, none⟩]⟩,
  ⟨"TIME_TOD_RX_OK", 0x30c, [], 4, .none, [⟨0, 32, .rc, 0, none⟩]⟩,
  ⟨"TIME_TOD_RX_ERR", 0x310, [], 4, .none, [⟨0, 32, .rc, 0, none⟩]⟩,
  ⟨"TIME_MASTER_MASK", 0x400, [], 8, .fixed 6, [⟨0, 40, .rw, 0, none⟩]⟩,
  ⟨"TIME_MASTER_CFG", 0x408, [], 4, .fixed 6, [⟨0, 8, .rw, 0, none⟩, ⟨8, 1, .rw, 0, none⟩, ⟨9, 1, .rw, 0, none⟩]⟩,
  ⟨"TIME_PORT_ASYM", 0x1000, [⟨40, 4⟩], 4, .none, [⟨0, 32, .rw, 0, none⟩]⟩]

/-- Registers of the POWER block. -/
def regsPower : List RegDef := [
  ⟨"POWER_STATUS", 0x0, [], 4, .none, [⟨0, 2, .ro, 0, none⟩, ⟨2, 1, .ro, 0, none⟩, ⟨3, 4, .ro, 0, none⟩, ⟨7, 1, .ro, 0, none⟩, ⟨8, 1, .ro, 0, none⟩]⟩,
  ⟨"POWER_EVENT", 0x4, [], 4, .none, [⟨0, 1, .w1c, 0, none⟩, ⟨1, 1, .w1c, 0, none⟩, ⟨2, 1, .w1c, 0, none⟩, ⟨3, 1, .w1c, 0, none⟩, ⟨4, 1, .w1c, 0, none⟩, ⟨5, 1, .w1c, 0, none⟩]⟩,
  ⟨"POWER_TOTAL_MW", 0x8, [], 4, .none, [⟨0, 32, .ro, 0, none⟩]⟩,
  ⟨"POWER_MAX_MW", 0xc, [], 4, .none, [⟨0, 32, .rc, 0, none⟩]⟩,
  ⟨"POWER_MODE_CFG", 0x10, [], 4, .fixed 0, [⟨0, 2, .rw, 0, some (0, 2)⟩, ⟨2, 9, .rw, 450, some (300, 450)⟩, ⟨11, 7, .rw, 95, some (85, 100)⟩]⟩,
  ⟨"POWER_SHED_CFG", 0x14, [], 4, .fixed 1, [⟨0, 3, .rw, 0, none⟩, ⟨3, 2, .rw, 2, none⟩]⟩,
  ⟨"POWER_ENERGY", 0x18, [], 8, .none, [⟨0, 64, .ro, 0, none⟩]⟩,
  ⟨"POWER_VDD_CORE", 0x20, [], 4, .none, [⟨0, 10, .ro, 0, none⟩, ⟨16, 10, .ro, 0, none⟩]⟩,
  ⟨"POWER_SECTOR", 0x100, [⟨8, 16⟩], 4, .none, [⟨0, 3, .ro, 0, none⟩, ⟨3, 1, .ro, 0, none⟩, ⟨4, 1, .ro, 0, none⟩, ⟨5, 12, .ro, 0, none⟩]⟩,
  ⟨"POWER_SECTOR_MW", 0x104, [⟨8, 16⟩], 4, .none, [⟨0, 32, .ro, 0, none⟩]⟩,
  ⟨"POWER_SECTOR_TJMAX", 0x108, [⟨8, 16⟩], 4, .none, [⟨0, 12, .rc, 0, none⟩]⟩]

/-- Registers of the SEC block. -/
def regsSec : List RegDef := [
  ⟨"SEC_STATUS", 0x0, [], 4, .none, [⟨0, 1, .ro, 0, none⟩, ⟨1, 1, .ro, 1, none⟩, ⟨2, 4, .ro, 0, none⟩, ⟨6, 1, .ro, 0, none⟩, ⟨7, 1, .ro, 0, none⟩]⟩,
  ⟨"SEC_DEVICE_ID", 0x10, [⟨8, 4⟩], 4, .none, [⟨0, 32, .ro, 0, none⟩]⟩,
  ⟨"SEC_ROLLBACK", 0x40, [⟨16, 4⟩], 4, .none, [⟨0, 32, .ro, 0, none⟩]⟩,
  ⟨"SEC_ENROL_ADDR", 0x100, [], 8, .none, [⟨0, 64, .rw, 0, none⟩]⟩,
  ⟨"SEC_ENROL_CTRL", 0x108, [], 4, .none, [⟨0, 1, .wo, 0, none⟩]⟩,
  ⟨"SEC_ENROL_RESULT", 0x10c, [], 4, .none, [⟨0, 8, .ro, 0, none⟩, ⟨8, 1, .ro, 0, none⟩]⟩,
  ⟨"SEC_OWNER_KEYID", 0x200, [⟨4, 32⟩, ⟨8, 4⟩], 4, .none, [⟨0, 32, .ro, 0, none⟩]⟩,
  ⟨"SEC_OWNER_USAGE", 0x280, [⟨4, 4⟩], 4, .none, [⟨0, 3, .ro, 0, none⟩, ⟨3, 1, .ro, 0, none⟩]⟩,
  ⟨"SEC_MR", 0x1000, [⟨16, 64⟩, ⟨16, 4⟩], 4, .none, [⟨0, 32, .ro, 0, none⟩]⟩,
  ⟨"SEC_EXTEND_DATA", 0x1400, [⟨16, 4⟩], 4, .none, [⟨0, 32, .rw, 0, none⟩]⟩,
  ⟨"SEC_EXTEND_CTRL", 0x1440, [], 4, .none, [⟨0, 4, .wo, 0, none⟩, ⟨31, 1, .wo, 0, none⟩]⟩,
  ⟨"SEC_EVLOG_HEAD", 0x1800, [], 4, .none, [⟨0, 32, .ro, 0, none⟩]⟩,
  ⟨"SEC_EVLOG_SEL", 0x1804, [], 4, .none, [⟨0, 32, .rw, 0, none⟩]⟩,
  ⟨"SEC_EVLOG_DATA", 0x1840, [⟨20, 4⟩], 4, .none, [⟨0, 32, .ro, 0, none⟩]⟩,
  ⟨"REQ_CTRL", 0x2000, [⟨4, 64⟩], 4, .none, [⟨0, 2, .rw, 0, none⟩, ⟨8, 8, .rw, 0, none⟩, ⟨31, 1, .rw, 0, none⟩]⟩,
  ⟨"REQ_MASK", 0x2004, [⟨4, 64⟩], 4, .none, [⟨0, 18, .rw, 0, none⟩]⟩,
  ⟨"REQ_NONCE_ADDR", 0x2008, [⟨4, 64⟩], 8, .none, [⟨0, 64, .rw, 0, none⟩]⟩,
  ⟨"REQ_OUT_ADDR", 0x2010, [⟨4, 64⟩], 8, .none, [⟨0, 64, .rw, 0, none⟩]⟩,
  ⟨"REQ_OUT_LEN", 0x2018, [⟨4, 64⟩], 4, .none, [⟨0, 17, .rw, 0, none⟩]⟩,
  ⟨"REQ_STATUS", 0x201c, [⟨4, 64⟩], 4, .none, [⟨0, 8, .ro, 0, none⟩, ⟨8, 8, .ro, 0, none⟩, ⟨16, 16, .ro, 0, none⟩]⟩]

/-- Registers of the FW block. -/
def regsFw : List RegDef := [
  ⟨"FW_STATUS", 0x0, [], 4, .none, [⟨0, 2, .ro, 0, none⟩, ⟨2, 1, .ro, 0, none⟩, ⟨3, 1, .ro, 0, none⟩]⟩,
  ⟨"FW_EVENT", 0x4, [], 4, .none, [⟨0, 1, .w1c, 0, none⟩, ⟨1, 1, .w1c, 0, none⟩, ⟨2, 1, .w1c, 0, none⟩, ⟨3, 1, .w1c, 0, none⟩, ⟨4, 1, .w1c, 0, none⟩]⟩,
  ⟨"FW_NOTIFY_PEND", 0x8, [], 4, .none, [⟨0, 12, .ro, 0, none⟩]⟩,
  ⟨"FW_NOTIFY_MASK", 0xc, [], 4, .fixed 0, [⟨0, 12, .rw, 4095, none⟩]⟩,
  ⟨"FW_NOTIFY_ROUTE", 0x10, [], 4, .fixed 0, [⟨0, 2, .rw, 0, some (0, 2)⟩]⟩,
  ⟨"FW_BOOT_RETRIES", 0x14, [], 4, .none, [⟨0, 16, .rws, 0, none⟩]⟩,
  ⟨"FW_SVC_DROP", 0x18, [], 4, .none, [⟨0, 32, .rc, 0, none⟩]⟩,
  ⟨"FW_LOG_LEVEL", 0x1c, [], 4, .none, [⟨0, 3, .rw, 2, none⟩, ⟨3, 3, .rw, 2, none⟩, ⟨6, 3, .rw, 2, none⟩, ⟨9, 3, .rw, 2, none⟩]⟩,
  ⟨"FW_SET_DIGEST", 0x40, [⟨16, 4⟩], 4, .none, [⟨0, 32, .ro, 0, none⟩]⟩,
  ⟨"FW_IMAGE_VER", 0x80, [⟨5, 4⟩], 4, .none, [⟨0, 32, .ro, 0, none⟩]⟩,
  ⟨"FW_IFACE_LEVEL", 0xa0, [⟨5, 4⟩], 4, .none, [⟨0, 8, .ro, 0, none⟩]⟩,
  ⟨"FW_CORE_STATUS", 0x100, [⟨23, 4⟩], 4, .none, [⟨0, 3, .ro, 0, none⟩, ⟨3, 1, .ro, 0, none⟩, ⟨4, 4, .ro, 0, none⟩, ⟨8, 2, .ro, 0, none⟩]⟩,
  ⟨"FW_CORE_CRASHES", 0x180, [⟨23, 4⟩], 4, .none, [⟨0, 16, .rws, 0, none⟩]⟩,
  ⟨"FW_CORE_CTRL", 0x200, [], 4, .none, [⟨0, 5, .wo, 0, none⟩, ⟨5, 1, .wo, 0, none⟩]⟩,
  ⟨"FW_CORE_KICK", 0x204, [], 4, .none, [⟨0, 32, .wo, 0, none⟩]⟩,
  ⟨"FW_LOG_HEAD", 0x300, [], 4, .none, [⟨0, 32, .ro, 0, none⟩]⟩,
  ⟨"FW_LOG_SEL", 0x304, [], 4, .none, [⟨0, 32, .rw, 0, none⟩]⟩,
  ⟨"FW_LOG_DATA", 0x320, [⟨8, 4⟩], 4, .none, [⟨0, 32, .ro, 0, none⟩]⟩]

/-- Registers of the ASSAY block. -/
def regsAssay : List RegDef := [
  ⟨"ASSAY_CTRL", 0x0, [], 4, .none, [⟨0, 1, .rw, 1, none⟩, ⟨1, 4, .rw, 12, some (8, 16)⟩, ⟨5, 1, .rw, 0, none⟩, ⟨6, 7, .rw, 85, some (60, 104)⟩]⟩,
  ⟨"ASSAY_STATUS", 0x4, [], 4, .none, [⟨0, 3, .ro, 0, none⟩, ⟨3, 1, .ro, 0, none⟩, ⟨4, 1, .ro, 0, none⟩]⟩,
  ⟨"ASSAY_EVENT", 0x8, [], 4, .none, [⟨0, 1, .w1c, 0, none⟩, ⟨1, 1, .w1c, 0, none⟩, ⟨2, 1, .w1c, 0, none⟩, ⟨3, 1, .w1c, 0, none⟩]⟩,
  ⟨"ASSAY_SAMPLED", 0x10, [], 4, .none, [⟨0, 32, .rc, 0, none⟩]⟩,
  ⟨"ASSAY_CHECKED", 0x14, [], 4, .none, [⟨0, 32, .rc, 0, none⟩]⟩,
  ⟨"ASSAY_DROPPED", 0x18, [], 4, .none, [⟨0, 32, .rc, 0, none⟩]⟩,
  ⟨"ASSAY_MISMATCH", 0x1c, [], 4, .none, [⟨0, 32, .rc, 0, none⟩]⟩,
  ⟨"ASSAY_UNRESOLVED", 0x20, [], 4, .none, [⟨0, 32, .rc, 0, none⟩]⟩,
  ⟨"ASSAY_RETIRED", 0x24, [], 4, .none, [⟨0, 8, .ro, 0, none⟩]⟩,
  ⟨"ASSAY_HEALTH", 0x28, [], 4, .none, [⟨0, 1, .ro, 0, none⟩, ⟨1, 5, .ro, 0, none⟩]⟩,
  ⟨"ASSAY_LOG_SEL", 0x100, [], 4, .none, [⟨0, 8, .rw, 0, none⟩]⟩,
  ⟨"ASSAY_LOG_DATA", 0x120, [⟨8, 4⟩], 4, .none, [⟨0, 32, .ro, 0, none⟩]⟩,
  ⟨"ASSAY_TILE_STRIKES", 0x200, [⟨136, 4⟩], 4, .none, [⟨0, 2, .ro, 0, none⟩]⟩]

/-- Registers of the TILE block, part 1. -/
def regsTile1 : List RegDef := [
  ⟨"TILE_SCALE", 0x7000, [⟨1024, 4⟩], 4, .none, [⟨0, 8, .ro, 0, none⟩, ⟨8, 8, .ro, 0, none⟩, ⟨16, 8, .ro, 0, none⟩, ⟨24, 8, .ro, 0, none⟩]⟩,
  ⟨"TILE_QSTAT_SEQ", 0x6000, [], 4, .none, [⟨0, 32, .ro, 0, none⟩]⟩,
  ⟨"TILE_QSTAT_HDR", 0x6004, [], 4, .none, [⟨0, 9, .ro, 0, none⟩, ⟨9, 1, .ro, 0, none⟩]⟩,
  ⟨"TILE_QSTAT_SAT", 0x6008, [], 4, .none, [⟨0, 32, .ro, 0, none⟩]⟩,
  ⟨"TILE_QSTAT_NONFIN", 0x600c, [], 4, .none, [⟨0, 32, .ro, 0, none⟩]⟩,
  ⟨"TILE_QSTAT_SSE", 0x6400, [⟨256, 8⟩], 4, .none, [⟨0, 32, .ro, 0, none⟩]⟩,
  ⟨"TILE_QSTAT_CNT", 0x6404, [⟨256, 8⟩], 4, .none, [⟨0, 32, .ro, 0, none⟩]⟩,
  ⟨"TILE_ARRAY_STATUS", 0x5000, [], 4, .none, [⟨0, 3, .ro, 0, none⟩, ⟨3, 5, .ro, 0, none⟩, ⟨8, 1, .ro, 0, none⟩, ⟨9, 1, .ro, 0, none⟩]⟩,
  ⟨"TILE_ARRAY_SHAPING", 0x5004, [], 4, .none, [⟨0, 1, .rw, 0, none⟩, ⟨1, 5, .rw, 8, some (0, 16)⟩]⟩,
  ⟨"TILE_ARRAY_ERR", 0x5008, [], 4, .none, [⟨0, 1, .w1c, 0, none⟩, ⟨1, 1, .w1c, 0, none⟩, ⟨2, 1, .w1c, 0, none⟩]⟩,
  ⟨"TILE_ARRAY_ROW_CYC", 0x5010, [], 8, .none, [⟨0, 64, .ro, 0, none⟩]⟩,
  ⟨"TILE_ARRAY_DUMMY_CYC", 0x5018, [], 8, .none, [⟨0, 64, .ro, 0, none⟩]⟩,
  ⟨"TILE_ARRAY_MACS", 0x5020, [], 8, .none, [⟨0, 64, .ro, 0, none⟩]⟩,
  ⟨"TILE_CMDQ_BASE", 0x4000, [⟨4, 64⟩], 8, .none, [⟨6, 51, .ro, 0, none⟩]⟩,
  ⟨"TILE_CMDQ_SIZE", 0x4008, [⟨4, 64⟩], 4, .none, [⟨0, 4, .ro, 4, none⟩]⟩,
  ⟨"TILE_CMDQ_HEAD", 0x400c, [⟨4, 64⟩], 4, .none, [⟨0, 32, .ro, 0, none⟩]⟩,
  ⟨"TILE_CMDQ_TAIL", 0x4010, [⟨4, 64⟩], 4, .none, [⟨0, 32, .ro, 0, none⟩]⟩,
  ⟨"TILE_CMDQ_DONE", 0x4014, [⟨4, 64⟩], 4, .none, [⟨0, 32, .ro, 0, none⟩]⟩,
  ⟨"TILE_CMDQ_STATUS", 0x4018, [⟨4, 64⟩], 4, .none, [⟨0, 3, .ro, 0, none⟩, ⟨8, 8, .ro, 0, none⟩, ⟨16, 8, .ro, 0, none⟩, ⟨24, 1, .ro, 0, none⟩]⟩,
  ⟨"TILE_CMDQ_ERR_INDEX", 0x401c, [⟨4, 64⟩], 4, .none, [⟨0, 32, .ro, 0, none⟩]⟩,
  ⟨"TILE_ARRIVAL", 0x3000, [⟨64, 4⟩], 4, .none, [⟨0, 32, .ro, 0, none⟩]⟩,
  ⟨"TILE_SRAM_BANK_STATE", 0x2000, [], 8, .none, [⟨0, 2, .ro, 0, none⟩, ⟨2, 2, .ro, 0, none⟩, ⟨4, 2, .ro, 0, none⟩, ⟨6, 2, .ro, 0, none⟩, ⟨8, 2, .ro, 0, none⟩, ⟨10, 2, .ro, 0, none⟩, ⟨12, 2, .ro, 0, none⟩, ⟨14, 2, .ro, 0, none⟩, ⟨16, 2, .ro, 0, none⟩, ⟨18, 2, .ro, 0, none⟩, ⟨20, 2, .ro, 0, none⟩, ⟨22, 2, .ro, 0, none⟩, ⟨24, 2, .ro, 0, none⟩, ⟨26, 2, .ro, 0, none⟩, ⟨28, 2, .ro, 0, none⟩, ⟨30, 2, .ro, 0, none⟩, ⟨32, 2, .ro, 0, none⟩, ⟨34, 2, .ro, 0, none⟩, ⟨36, 2, .ro, 0, none⟩, ⟨38, 2, .ro, 0, none⟩, ⟨40, 2, .ro, 0, none⟩, ⟨42, 2, .ro, 0, none⟩, ⟨44, 2, .ro, 0, none⟩, ⟨46, 2, .ro, 0, none⟩]⟩,
  ⟨"TILE_SRAM_ECC_CORR", 0x2008, [], 4, .none, [⟨0, 32, .rc, 0, none⟩]⟩,
  ⟨"TILE_SRAM_ECC_UNCORR", 0x200c, [], 4, .none, [⟨0, 32, .rc, 0, none⟩]⟩]

/-- Registers of the TILE block, part 2. -/
def regsTile2 : List RegDef := [
  ⟨"TILE_SRAM_ECC_ADDR", 0x2010, [], 4, .none, [⟨0, 22, .ro, 0, none⟩]⟩,
  ⟨"TILE_SEAM_BIND", 0x5800, [], 4, .none, [⟨0, 1, .ro, 0, none⟩, ⟨1, 8, .ro, 0, none⟩, ⟨9, 1, .ro, 0, none⟩, ⟨10, 8, .ro, 0, none⟩]⟩,
  ⟨"TILE_SFU_STATUS", 0x5c00, [], 4, .none, [⟨0, 1, .ro, 0, none⟩, ⟨1, 1, .ro, 0, none⟩, ⟨2, 5, .ro, 0, none⟩]⟩,
  ⟨"TILE_SFU_EVALS", 0x5c08, [], 8, .none, [⟨0, 64, .ro, 0, none⟩]⟩,
  ⟨"TILE_SFU_BUSY_CYC", 0x5c10, [], 8, .none, [⟨0, 64, .ro, 0, none⟩]⟩,
  ⟨"TILE_NORM_ROWS", 0x5c18, [], 8, .none, [⟨0, 64, .ro, 0, none⟩]⟩]

/-- Registers of the VAULT block. -/
def regsVault : List RegDef := [
  ⟨"VAULT_PORT_MODE", 0x1000, [], 4, .none, [⟨0, 1, .ro, 0, none⟩, ⟨1, 1, .ro, 0, none⟩, ⟨2, 1, .ro, 0, none⟩]⟩,
  ⟨"VAULT_SEAM_STATUS", 0x1004, [], 4, .none, [⟨0, 3, .ro, 0, none⟩, ⟨3, 2, .ro, 0, none⟩, ⟨5, 1, .ro, 0, none⟩, ⟨6, 8, .ro, 0, none⟩, ⟨14, 2, .ro, 0, none⟩]⟩,
  ⟨"VAULT_SEAM_ERR", 0x1008, [], 4, .none, [⟨0, 1, .w1c, 0, none⟩, ⟨1, 1, .w1c, 0, none⟩]⟩,
  ⟨"VAULT_SEAM_XFERS", 0x1010, [], 8, .none, [⟨0, 64, .ro, 0, none⟩]⟩,
  ⟨"VAULT_SEAM_MACS", 0x1018, [], 8, .none, [⟨0, 64, .ro, 0, none⟩]⟩,
  ⟨"VAULT_SEAM_REFRESH_CYC", 0x1020, [], 8, .none, [⟨0, 64, .ro, 0, none⟩]⟩,
  ⟨"VAULT_SEAM_YIELD_CYC", 0x1028, [], 8, .none, [⟨0, 64, .ro, 0, none⟩]⟩,
  ⟨"VAULT_WQ_LEVEL", 0x1030, [], 4, .none, [⟨0, 17, .ro, 0, none⟩]⟩,
  ⟨"VAULT_STATUS", 0x0, [], 4, .none, [⟨0, 2, .ro, 0, none⟩, ⟨2, 1, .ro, 0, none⟩, ⟨3, 1, .ro, 0, none⟩, ⟨4, 8, .ro, 0, none⟩, ⟨12, 1, .ro, 0, none⟩, ⟨13, 1, .ro, 0, none⟩]⟩,
  ⟨"VAULT_FREE_SLABS", 0x4, [], 4, .none, [⟨0, 9, .ro, 0, none⟩]⟩,
  ⟨"VAULT_ECC_CORR", 0x8, [], 4, .none, [⟨0, 32, .rc, 0, none⟩]⟩,
  ⟨"VAULT_ECC_UNCORR", 0xc, [], 4, .none, [⟨0, 32, .rc, 0, none⟩]⟩,
  ⟨"VAULT_ECC_ADDR", 0x10, [], 4, .none, [⟨5, 25, .ro, 0, none⟩, ⟨30, 1, .ro, 0, none⟩]⟩,
  ⟨"VAULT_PATROL_PASS", 0x14, [], 4, .none, [⟨0, 32, .ro, 0, none⟩]⟩]

/-- Registers of the RADIO block, part 1. -/
def regsRadio1 : List RegDef := [
  ⟨"RADIO_CL_STATUS", 0x0, [], 4, .none, [⟨0, 13, .ro, 0, none⟩]⟩,
  ⟨"RADIO_ERR", 0x4, [], 4, .none, [⟨0, 1, .w1c, 0, none⟩, ⟨1, 1, .w1c, 0, none⟩, ⟨2, 1, .w1c, 0, none⟩]⟩,
  ⟨"RADIO_TRIG_DROP", 0x8, [], 4, .none, [⟨0, 32, .rc, 0, none⟩]⟩,
  ⟨"RADIO_LAST_FAIL", 0xc, [], 4, .none, [⟨0, 8, .ro, 0, none⟩, ⟨8, 4, .ro, 0, none⟩, ⟨12, 8, .ro, 0, none⟩]⟩,
  ⟨"RADIO_LAST_STREAM", 0x10, [], 4, .none, [⟨0, 23, .ro, 0, none⟩]⟩,
  ⟨"RADIO_CNT", 0x100, [⟨64, 4⟩], 4, .none, [⟨0, 32, .ro, 0, none⟩]⟩,
  ⟨"RADIO_UNIT_STATUS", 0x200, [⟨13, 32⟩], 4, .none, [⟨0, 2, .ro, 0, none⟩, ⟨2, 5, .ro, 0, none⟩]⟩,
  ⟨"RADIO_UNIT_STREAM", 0x204, [⟨13, 32⟩], 4, .none, [⟨0, 23, .ro, 0, none⟩]⟩,
  ⟨"RADIO_UNIT_DONE", 0x208, [⟨13, 32⟩], 4, .none, [⟨0, 32, .ro, 0, none⟩]⟩,
  ⟨"RADIO_UNIT_FAIL", 0x20c, [⟨13, 32⟩], 4, .none, [⟨0, 32, .rc, 0, none⟩]⟩,
  ⟨"RADIO_SRAM_ECC_CORR", 0x400, [], 4, .none, [⟨0, 32, .rc, 0, none⟩]⟩,
  ⟨"RADIO_SRAM_ECC_UNCORR", 0x404, [], 4, .none, [⟨0, 32, .rc, 0, none⟩]⟩,
  ⟨"RADIO_SRAM_ECC_ADDR", 0x408, [], 4, .none, [⟨0, 23, .ro, 0, none⟩]⟩,
  ⟨"RADIO_MICA_SAT", 0x410, [], 4, .none, [⟨0, 32, .rc, 0, none⟩]⟩,
  ⟨"RADIO_LDPC_CB", 0x500, [], 8, .none, [⟨0, 64, .ro, 0, none⟩]⟩,
  ⟨"RADIO_LDPC_ITER", 0x508, [], 8, .none, [⟨0, 64, .ro, 0, none⟩]⟩,
  ⟨"RADIO_LDPC_CAPPED", 0x510, [], 4, .none, [⟨0, 32, .rc, 0, none⟩]⟩,
  ⟨"RADIO_LDPC_CRCFAIL", 0x514, [], 4, .none, [⟨0, 32, .rc, 0, none⟩]⟩,
  ⟨"RX_PRACH_THR", 0x800, [⟨16, 64⟩], 4, .indexed 0 1, [⟨0, 16, .rw, 1160, none⟩, ⟨16, 16, .rw, 768, none⟩]⟩,
  ⟨"RX_PRACH_QUAL", 0x804, [⟨16, 64⟩], 4, .indexed 0 1, [⟨0, 8, .rw, 64, none⟩, ⟨8, 1, .rw, 0, none⟩, ⟨16, 16, .rw, 0, none⟩]⟩,
  ⟨"RX_NF_CTRL", 0x808, [⟨16, 64⟩], 4, .indexed 0 1, [⟨0, 1, .rw, 0, none⟩, ⟨1, 3, .rw, 4, none⟩, ⟨4, 8, .rw, 48, some (12, 255)⟩]⟩,
  ⟨"RX_NF_TIME", 0x80c, [⟨16, 64⟩], 4, .indexed 0 1, [⟨0, 16, .rw, 256, some (1, 65535)⟩, ⟨16, 16, .rw, 59536, none⟩]⟩,
  ⟨"RX_TRK_CTRL", 0x810, [⟨16, 64⟩], 4, .indexed 0 1, [⟨0, 3, .rw, 3, none⟩, ⟨3, 3, .rw, 3, none⟩, ⟨6, 10, .rw, 16, some (1, 1023)⟩, ⟨16, 16, .rw, 700, none⟩]⟩,
  ⟨"RX_FB_CTRL", 0x814, [⟨16, 64⟩], 4, .indexed 0 1, [⟨0, 4, .rw, 1, some (1, 8)⟩]⟩]

/-- Registers of the RADIO block, part 2. -/
def regsRadio2 : List RegDef := [
  ⟨"RX_PRACH_DET", 0xc00, [⟨16, 32⟩], 4, .none, [⟨0, 32, .rc, 0, none⟩]⟩,
  ⟨"RX_PRACH_PSR_REJ", 0xc04, [⟨16, 32⟩], 4, .none, [⟨0, 32, .rc, 0, none⟩]⟩,
  ⟨"RX_PRACH_REP_REJ", 0xc08, [⟨16, 32⟩], 4, .none, [⟨0, 32, .rc, 0, none⟩]⟩,
  ⟨"RX_PRACH_DEFAULT", 0xc0c, [⟨16, 32⟩], 4, .none, [⟨0, 32, .rc, 0, none⟩]⟩,
  ⟨"TRK_NOCTX", 0xc10, [⟨16, 32⟩], 4, .none, [⟨0, 32, .rc, 0, none⟩]⟩,
  ⟨"TRK_CLAMP", 0xc14, [⟨16, 32⟩], 4, .none, [⟨0, 32, .rc, 0, none⟩]⟩,
  ⟨"TRK_EVICT", 0xc18, [⟨16, 32⟩], 4, .none, [⟨0, 32, .rc, 0, none⟩]⟩,
  ⟨"RX_FALLBACK", 0xc1c, [⟨16, 32⟩], 4, .none, [⟨0, 32, .rc, 0, none⟩]⟩]

/-- Registers of the MESH block. -/
def regsMesh : List RegDef := [
  ⟨"MESH_STOP_CTRL", 0x0, [], 4, .none, [⟨0, 1, .ro, 0, none⟩, ⟨1, 1, .ro, 0, none⟩]⟩,
  ⟨"MESH_PLANE_VIOL", 0x8, [], 4, .none, [⟨0, 32, .rc, 0, none⟩]⟩]

/-- Registers of the HUB block. -/
def regsHub : List RegDef := [
  ⟨"HUB_DRAM_TEMP", 0x0, [], 4, .none, [⟨0, 12, .ro, 0, none⟩, ⟨12, 1, .ro, 0, none⟩]⟩,
  ⟨"HUB_THERM_STATE", 0x4, [], 4, .none, [⟨0, 2, .ro, 0, none⟩]⟩,
  ⟨"HUB_TEMP_MAX", 0x8, [], 4, .none, [⟨0, 12, .rc, 0, none⟩]⟩,
  ⟨"HUB_MIG_STATUS", 0x10, [], 4, .none, [⟨0, 3, .ro, 0, none⟩, ⟨16, 16, .ro, 0, none⟩]⟩,
  ⟨"HUB_DMA0_BYTES", 0x18, [], 8, .none, [⟨0, 64, .ro, 0, none⟩]⟩,
  ⟨"HUB_DMA1_BYTES", 0x20, [], 8, .none, [⟨0, 64, .ro, 0, none⟩]⟩]

/-- Registers of the SCHED block. -/
def regsSched : List RegDef := [
  ⟨"SCHED_STATUS", 0x0, [], 4, .none, [⟨0, 1, .ro, 0, none⟩, ⟨1, 1, .ro, 0, none⟩, ⟨2, 7, .ro, 0, none⟩, ⟨9, 6, .ro, 0, none⟩, ⟨15, 6, .ro, 0, none⟩]⟩,
  ⟨"SCHED_CTRL", 0x4, [], 4, .none, [⟨0, 1, .rw, 1, none⟩]⟩,
  ⟨"SCHED_TILE", 0x400, [⟨136, 4⟩], 4, .none, [⟨0, 7, .ro, 0, none⟩, ⟨7, 1, .ro, 0, none⟩, ⟨8, 3, .ro, 0, none⟩, ⟨11, 1, .ro, 0, none⟩]⟩,
  ⟨"SCHED_SG_WEIGHT", 0x1000, [⟨256, 4⟩], 4, .fixed 0, [⟨0, 16, .rw, 0, none⟩]⟩,
  ⟨"SCHED_QMAP", 0x2000, [⟨64, 32⟩, ⟨8, 4⟩], 4, .fixed 0, [⟨0, 8, .rw, 0, none⟩, ⟨8, 8, .rw, 0, none⟩, ⟨16, 8, .rw, 0, none⟩, ⟨24, 8, .rw, 0, none⟩]⟩,
  ⟨"SCHED_PRIV_MASK", 0x3000, [], 8, .fixed 1, [⟨0, 64, .rw, 0, none⟩]⟩,
  ⟨"SCHED_PRIV_CHUNK", 0x3100, [⟨64, 4⟩], 4, .fixed 1, [⟨0, 6, .rw, 8, some (4, 32)⟩]⟩,
  ⟨"SCHED_SG_CYC", 0x4000, [⟨256, 16⟩], 8, .none, [⟨0, 64, .ro, 0, none⟩]⟩,
  ⟨"SCHED_SG_BAL", 0x4008, [⟨256, 16⟩], 8, .none, [⟨0, 64, .ro, 0, none⟩]⟩,
  ⟨"SCHED_CLIPPED", 0x6000, [], 8, .none, [⟨0, 64, .ro, 0, none⟩]⟩,
  ⟨"SCHED_CLAIM_COUNT", 0x6010, [], 4, .none, [⟨0, 32, .rc, 0, none⟩]⟩,
  ⟨"SCHED_CLAIM_OVER", 0x6014, [], 4, .none, [⟨0, 32, .rc, 0, none⟩]⟩,
  ⟨"SCHED_CLAIM_MAX_NS", 0x6018, [], 4, .none, [⟨0, 32, .rc, 0, none⟩]⟩,
  ⟨"SCHED_FALLBACKS", 0x601c, [], 4, .none, [⟨0, 32, .rc, 0, none⟩]⟩,
  ⟨"SCHED_RADIO_CNT", 0x6020, [⟨4, 4⟩], 4, .none, [⟨0, 32, .ro, 0, none⟩]⟩]

/-- Registers of the MEMMGR block. -/
def regsMemmgr : List RegDef := [
  ⟨"MEM_POOL_TOTAL", 0x0, [], 4, .none, [⟨0, 16, .ro, 0, none⟩]⟩,
  ⟨"MEM_POOL_FREE", 0x4, [], 4, .none, [⟨0, 16, .ro, 0, none⟩]⟩,
  ⟨"MEM_POOL_HELD", 0x8, [], 4, .none, [⟨0, 16, .ro, 0, none⟩]⟩,
  ⟨"MEM_POOL_LENT", 0xc, [], 4, .none, [⟨0, 16, .ro, 0, none⟩]⟩,
  ⟨"MEM_T3_AVAIL", 0x10, [], 4, .none, [⟨0, 17, .ro, 0, none⟩]⟩,
  ⟨"MEM_EVENT", 0x14, [], 4, .none, [⟨0, 1, .w1c, 0, none⟩, ⟨1, 1, .w1c, 0, none⟩, ⟨2, 1, .w1c, 0, none⟩, ⟨3, 1, .w1c, 0, none⟩]⟩,
  ⟨"MEM_QUERY_VA", 0x20, [], 8, .none, [⟨21, 36, .rw, 0, none⟩, ⟨57, 6, .rw, 0, none⟩]⟩,
  ⟨"MEM_QUERY_RESULT", 0x28, [], 8, .none, [⟨0, 64, .ro, 0, none⟩]⟩,
  ⟨"MEM_ACCT_USED", 0x100, [⟨64, 4⟩], 4, .none, [⟨0, 16, .ro, 0, none⟩, ⟨16, 16, .ro, 0, none⟩]⟩,
  ⟨"MEM_QUOTA", 0x1000, [⟨64, 8⟩], 4, .indexed 0 0, [⟨0, 16, .rw, 0, none⟩, ⟨16, 16, .rw, 0, none⟩]⟩,
  ⟨"MEM_QUOTA_T3", 0x1004, [⟨64, 8⟩], 4, .indexed 0 0, [⟨0, 16, .rw, 0, none⟩]⟩,
  ⟨"MEM_LEND", 0x2000, [⟨16, 8⟩], 4, .indexed 128 0, [⟨0, 8, .rw, 0, none⟩, ⟨8, 1, .rw, 0, none⟩]⟩,
  ⟨"MEM_LEND_SLABS", 0x2004, [⟨16, 8⟩], 4, .indexed 128 0, [⟨0, 16, .rw, 0, none⟩]⟩]

/-- Registers of the SLICECTL block. -/
def regsSlicectl : List RegDef := [
  ⟨"SLICECTL_STATUS", 0x0, [], 4, .none, [⟨0, 7, .ro, 0, none⟩, ⟨7, 3, .ro, 0, none⟩]⟩,
  ⟨"SLICECTL_CMD", 0x4, [], 4, .none, [⟨0, 6, .wo, 0, none⟩, ⟨6, 2, .wo, 0, none⟩, ⟨8, 4, .wo, 0, none⟩, ⟨31, 1, .wo, 0, none⟩]⟩,
  ⟨"SLICECTL_RESULT", 0x8, [], 4, .none, [⟨0, 8, .ro, 0, none⟩, ⟨8, 6, .ro, 0, none⟩]⟩,
  ⟨"SLICECTL_EVENT", 0xc, [], 4, .none, [⟨0, 1, .w1c, 0, none⟩, ⟨1, 1, .w1c, 0, none⟩]⟩,
  ⟨"SLICECTL_EP_UNMATCHED", 0x10, [], 4, .none, [⟨0, 32, .rc, 0, none⟩]⟩,
  ⟨"SC_LIMITS", 0x1000, [⟨64, 64⟩], 4, .indexed 0 0, [⟨0, 5, .rw, 0, none⟩, ⟨5, 8, .rw, 0, none⟩]⟩,
  ⟨"SC_SEQ", 0x1004, [⟨64, 64⟩], 4, .indexed 0 0, [⟨0, 14, .rw, 0, none⟩, ⟨14, 15, .rw, 0, none⟩]⟩,
  ⟨"SC_STALE_DROP", 0x1008, [⟨64, 64⟩], 4, .none, [⟨0, 32, .rc, 0, none⟩]⟩,
  ⟨"SC_LAST_RESET_NS", 0x100c, [⟨64, 64⟩], 4, .none, [⟨0, 32, .ro, 0, none⟩]⟩,
  ⟨"PASID_ENTRY", 0x4000, [⟨512, 8⟩], 4, .fixed 64, [⟨0, 20, .rw, 0, none⟩, ⟨20, 6, .rw, 0, none⟩, ⟨26, 1, .rw, 0, none⟩, ⟨27, 1, .rw, 0, none⟩]⟩,
  ⟨"EP_MATCH", 0x6000, [⟨256, 16⟩], 8, .fixed 65, [⟨0, 48, .rw, 0, none⟩, ⟨48, 12, .rw, 0, none⟩, ⟨60, 3, .rw, 0, none⟩, ⟨63, 1, .rw, 0, none⟩]⟩,
  ⟨"EP_TARGET", 0x6008, [⟨256, 16⟩], 4, .fixed 65, [⟨0, 6, .rw, 0, none⟩, ⟨6, 4, .rw, 0, none⟩]⟩]

/-- Registers of the AIR block, part 1. -/
def regsAir1 : List RegDef := [
  ⟨"AIR_STATUS", 0x0, [], 4, .none, [⟨0, 1, .ro, 0, none⟩, ⟨1, 1, .ro, 0, none⟩, ⟨2, 7, .ro, 0, none⟩, ⟨9, 9, .ro, 0, none⟩]⟩,
  ⟨"AIR_NOW", 0x8, [], 8, .none, [⟨0, 10, .ro, 0, none⟩, ⟨10, 4, .ro, 0, none⟩, ⟨14, 7, .ro, 0, none⟩, ⟨21, 5, .ro, 0, none⟩, ⟨26, 4, .ro, 0, none⟩, ⟨32, 32, .ro, 0, none⟩]⟩,
  ⟨"AIR_TIME_OFFSET", 0x10, [], 4, .fixed 0, [⟨0, 32, .rw, 0, some (-5000000, 5000000)⟩]⟩,
  ⟨"AIR_PATCH_GUARD", 0x14, [], 4, .fixed 0, [⟨0, 16, .rw, 0, some (1000, 50000)⟩]⟩,
  ⟨"AIR_BEAM_HOLD", 0x18, [], 4, .fixed 0, [⟨0, 4, .rw, 8, some (1, 15)⟩]⟩,
  ⟨"AIR_EVENT", 0x20, [], 4, .none, [⟨0, 1, .w1c, 0, none⟩, ⟨1, 1, .w1c, 0, none⟩, ⟨2, 1, .w1c, 0, none⟩, ⟨3, 1, .w1c, 0, none⟩, ⟨4, 1, .w1c, 0, none⟩, ⟨5, 1, .w1c, 0, none⟩]⟩,
  ⟨"AIR_TABLE_RESULT", 0x24, [], 4, .none, [⟨0, 8, .ro, 0, none⟩, ⟨8, 4, .ro, 0, none⟩, ⟨12, 17, .ro, 0, none⟩]⟩,
  ⟨"AIR_FH_T1A_MAX_UP", 0x40, [⟨3, 32⟩], 4, .indexed 1 0, [⟨0, 32, .rw, 0, none⟩]⟩,
  ⟨"AIR_FH_T1A_MIN_UP", 0x44, [⟨3, 32⟩], 4, .indexed 1 0, [⟨0, 32, .rw, 0, none⟩]⟩,
  ⟨"AIR_FH_TCP_ADV_DL", 0x48, [⟨3, 32⟩], 4, .indexed 1 0, [⟨0, 32, .rw, 0, none⟩]⟩,
  ⟨"AIR_FH_TA4_MIN", 0x4c, [⟨3, 32⟩], 4, .indexed 1 0, [⟨0, 32, .rw, 0, none⟩]⟩,
  ⟨"AIR_FH_TA4_MAX", 0x50, [⟨3, 32⟩], 4, .indexed 1 0, [⟨0, 32, .rw, 0, none⟩]⟩,
  ⟨"AIR_CL_STATUS", 0x200, [⟨16, 16⟩], 4, .none, [⟨0, 2, .ro, 0, none⟩, ⟨2, 6, .ro, 0, none⟩, ⟨8, 4, .ro, 0, none⟩]⟩,
  ⟨"AIR_CL_MISSED", 0x204, [⟨16, 16⟩], 4, .none, [⟨0, 32, .rc, 0, none⟩]⟩,
  ⟨"AIR_CL_OVERRUN", 0x208, [⟨16, 16⟩], 4, .none, [⟨0, 32, .rc, 0, none⟩]⟩,
  ⟨"AIR_CL_LATE_ENTRY", 0x20c, [⟨16, 16⟩], 4, .none, [⟨0, 32, .rc, 0, none⟩]⟩,
  ⟨"AIR_CARRIER", 0x1000, [⟨256, 8⟩], 4, .none, [⟨0, 3, .ro, 0, none⟩, ⟨3, 4, .ro, 0, none⟩, ⟨7, 4, .ro, 0, none⟩, ⟨11, 4, .ro, 0, none⟩, ⟨15, 6, .ro, 0, none⟩]⟩,
  ⟨"AIR_CARRIER_NULL", 0x1004, [⟨256, 8⟩], 4, .none, [⟨0, 32, .rc, 0, none⟩]⟩,
  ⟨"AIR_RU_STATE", 0x4000, [⟨64, 32⟩], 4, .none, [⟨0, 3, .ro, 0, none⟩, ⟨3, 5, .ro, 0, none⟩, ⟨8, 1, .ro, 0, none⟩]⟩,
  ⟨"AIR_RU_MAC", 0x4008, [⟨64, 32⟩], 8, .none, [⟨0, 48, .ro, 0, none⟩]⟩,
  ⟨"AIR_RU_SUP_MISS", 0x4010, [⟨64, 32⟩], 4, .none, [⟨0, 32, .rc, 0, none⟩]⟩,
  ⟨"AIR_FH_UL_EARLY", 0x6000, [⟨16, 16⟩], 4, .none, [⟨0, 32, .rc, 0, none⟩]⟩,
  ⟨"AIR_FH_UL_LATE", 0x6004, [⟨16, 16⟩], 4, .none, [⟨0, 32, .rc, 0, none⟩]⟩,
  ⟨"AIR_FH_PRB_MISSING", 0x6008, [⟨16, 16⟩], 4, .none, [⟨0, 32, .rc, 0, none⟩]⟩]

/-- Registers of the AIR block, part 2. -/
def regsAir2 : List RegDef := [
  ⟨"AIR_FH_DROPPED", 0x600c, [⟨16, 16⟩], 4, .none, [⟨0, 32, .rc, 0, none⟩]⟩,
  ⟨"NF_HDR", 0x40000, [⟨256, 1024⟩], 4, .none, [⟨0, 5, .ro, 0, none⟩, ⟨5, 5, .ro, 0, none⟩, ⟨10, 1, .ro, 0, none⟩]⟩,
  ⟨"NF_SLOT", 0x40004, [⟨256, 1024⟩], 4, .none, [⟨0, 19, .ro, 0, none⟩]⟩,
  ⟨"NF_STALE", 0x40008, [⟨256, 1024⟩], 4, .none, [⟨0, 18, .ro, 0, none⟩]⟩,
  ⟨"NF_UPDATES", 0x4000c, [⟨256, 1024⟩], 4, .none, [⟨0, 32, .ro, 0, none⟩]⟩,
  ⟨"NF_LEVEL", 0x40010, [⟨256, 1024⟩, ⟨16, 36⟩, ⟨9, 4⟩], 4, .none, [⟨0, 16, .ro, 32768, none⟩, ⟨16, 16, .ro, 32768, none⟩]⟩]

/-- Registers of the PORT block, part 1. -/
def regsPort1 : List RegDef := [
  ⟨"PORT_STATUS", 0x0, [], 4, .none, [⟨0, 2, .ro, 0, none⟩, ⟨2, 2, .ro, 0, none⟩, ⟨4, 1, .ro, 0, none⟩, ⟨5, 1, .ro, 0, none⟩]⟩,
  ⟨"PORT_EVENT", 0x4, [], 4, .none, [⟨0, 1, .w1c, 0, none⟩, ⟨1, 1, .w1c, 0, none⟩, ⟨2, 1, .w1c, 0, none⟩, ⟨3, 1, .w1c, 0, none⟩]⟩,
  ⟨"PORT_CTRL", 0x10, [], 4, .fixed 0, [⟨0, 1, .rw, 0, none⟩, ⟨1, 14, .rw, 0, some (64, 9216)⟩, ⟨15, 4, .rw, 0, none⟩, ⟨19, 10, .rw, 100, some (1, 1023)⟩]⟩,
  ⟨"PORT_QMAP", 0x14, [], 4, .fixed 0, [⟨0, 4, .rw, 0, none⟩, ⟨4, 4, .rw, 0, none⟩, ⟨8, 4, .rw, 0, none⟩, ⟨12, 4, .rw, 0, none⟩, ⟨16, 4, .rw, 0, none⟩, ⟨20, 4, .rw, 0, none⟩, ⟨24, 4, .rw, 0, none⟩, ⟨28, 4, .rw, 0, none⟩]⟩,
  ⟨"PORT_SRC_PCP", 0x18, [], 4, .fixed 0, [⟨0, 3, .rw, 0, none⟩, ⟨3, 3, .rw, 0, none⟩, ⟨6, 3, .rw, 0, none⟩, ⟨9, 3, .rw, 0, none⟩]⟩,
  ⟨"PORT_VLAN", 0x1c, [], 4, .fixed 0, [⟨0, 12, .rw, 0, none⟩, ⟨12, 12, .rw, 0, none⟩]⟩,
  ⟨"PORT_Q_SHAPE", 0x100, [⟨16, 16⟩], 4, .fixed 1, [⟨0, 32, .rw, 0, none⟩]⟩,
  ⟨"PORT_Q_BURST", 0x104, [⟨16, 16⟩], 4, .fixed 1, [⟨0, 16, .rw, 0, none⟩, ⟨16, 1, .rw, 0, none⟩]⟩,
  ⟨"PORT_Q_LIMIT", 0x108, [⟨16, 16⟩], 4, .fixed 1, [⟨0, 8, .rw, 0, some (1, 128)⟩]⟩,
  ⟨"PORT_POL_CIR", 0x400, [⟨8, 16⟩], 4, .fixed 2, [⟨0, 20, .rw, 0, none⟩, ⟨20, 1, .rw, 0, none⟩, ⟨21, 1, .rw, 0, none⟩, ⟨22, 1, .rw, 0, none⟩]⟩,
  ⟨"PORT_POL_PIR", 0x404, [⟨8, 16⟩], 4, .fixed 2, [⟨0, 20, .rw, 0, none⟩]⟩,
  ⟨"PORT_POL_CBS", 0x408, [⟨8, 16⟩], 4, .fixed 2, [⟨0, 24, .rw, 0, none⟩]⟩,
  ⟨"PORT_POL_PBS", 0x40c, [⟨8, 16⟩], 4, .fixed 2, [⟨0, 24, .rw, 0, none⟩]⟩,
  ⟨"GATE_CTRL", 0x800, [], 4, .fixed 3, [⟨0, 1, .rw, 0, none⟩]⟩,
  ⟨"GATE_BASE_TIME", 0x808, [], 8, .fixed 3, [⟨0, 64, .rw, 0, none⟩]⟩,
  ⟨"GATE_CYCLE", 0x810, [], 4, .fixed 3, [⟨0, 32, .rw, 0, some (1000, 1000000000)⟩]⟩,
  ⟨"GATE_CYCLE_EXT", 0x814, [], 4, .fixed 3, [⟨0, 32, .rw, 0, none⟩]⟩,
  ⟨"GATE_LIST_LEN", 0x818, [], 4, .fixed 3, [⟨0, 11, .rw, 0, some (1, 1024)⟩]⟩,
  ⟨"GATE_CHANGE_TIME", 0x820, [], 8, .none, [⟨0, 64, .ro, 0, none⟩]⟩,
  ⟨"GATE_LIST", 0x2000, [⟨1024, 8⟩], 8, .fixed 3, [⟨0, 64, .rw, 0, none⟩]⟩,
  ⟨"PORT_RX_FRAMES", 0x4000, [], 8, .none, [⟨0, 64, .ro, 0, none⟩]⟩,
  ⟨"PORT_RX_BYTES", 0x4008, [], 8, .none, [⟨0, 64, .ro, 0, none⟩]⟩,
  ⟨"PORT_TX_FRAMES", 0x4010, [], 8, .none, [⟨0, 64, .ro, 0, none⟩]⟩,
  ⟨"PORT_TX_BYTES", 0x4018, [], 8, .none, [⟨0, 64, .ro, 0, none⟩]⟩]

/-- Registers of the PORT block, part 2. -/
def regsPort2 : List RegDef := [
  ⟨"PORT_RX_FCS_ERR", 0x4020, [], 4, .none, [⟨0, 32, .rc, 0, none⟩]⟩,
  ⟨"PORT_RX_LEN_ERR", 0x4024, [], 4, .none, [⟨0, 32, .rc, 0, none⟩]⟩,
  ⟨"PORT_RX_PAUSE", 0x4028, [], 4, .none, [⟨0, 32, .rc, 0, none⟩]⟩,
  ⟨"PORT_RX_UNCLAIMED", 0x402c, [], 4, .none, [⟨0, 32, .rc, 0, none⟩]⟩,
  ⟨"PORT_LINK_FLAPS", 0x4030, [], 4, .none, [⟨0, 32, .rc, 0, none⟩]⟩,
  ⟨"PORT_Q_TX_FRAMES", 0x4100, [⟨16, 32⟩], 8, .none, [⟨0, 64, .ro, 0, none⟩]⟩,
  ⟨"PORT_Q_DROP_FULL", 0x4108, [⟨16, 32⟩], 4, .none, [⟨0, 32, .rc, 0, none⟩]⟩,
  ⟨"PORT_Q_GATE_DROP", 0x410c, [⟨16, 32⟩], 4, .none, [⟨0, 32, .rc, 0, none⟩]⟩,
  ⟨"PORT_Q_TX_LATE", 0x4110, [⟨16, 32⟩], 4, .none, [⟨0, 32, .rc, 0, none⟩]⟩,
  ⟨"PORT_Q_LINK_DROP", 0x4114, [⟨16, 32⟩], 4, .none, [⟨0, 32, .rc, 0, none⟩]⟩,
  ⟨"PORT_POL_GREEN", 0x4400, [⟨8, 16⟩], 4, .none, [⟨0, 32, .rc, 0, none⟩]⟩,
  ⟨"PORT_POL_YELLOW", 0x4404, [⟨8, 16⟩], 4, .none, [⟨0, 32, .rc, 0, none⟩]⟩,
  ⟨"PORT_POL_RED", 0x4408, [⟨8, 16⟩], 4, .none, [⟨0, 32, .rc, 0, none⟩]⟩]

/-- Registers of the FABRIC block, part 1. -/
def regsFabric1 : List RegDef := [
  ⟨"FAB_STATUS", 0x0, [], 4, .none, [⟨0, 4, .ro, 0, none⟩, ⟨4, 8, .ro, 0, none⟩, ⟨12, 16, .ro, 0, none⟩, ⟨28, 1, .ro, 0, none⟩]⟩,
  ⟨"FAB_EVENT", 0x4, [], 4, .none, [⟨0, 1, .w1c, 0, none⟩, ⟨1, 1, .w1c, 0, none⟩, ⟨2, 1, .w1c, 0, none⟩, ⟨3, 1, .w1c, 0, none⟩, ⟨4, 1, .w1c, 0, none⟩]⟩,
  ⟨"FAB_CFG", 0x8, [], 4, .fixed 0, [⟨0, 1, .rw, 0, none⟩, ⟨1, 4, .rw, 0, none⟩, ⟨5, 8, .rw, 0, none⟩]⟩,
  ⟨"FAB_LAST_FAULT", 0xc, [], 4, .none, [⟨0, 8, .ro, 0, none⟩]⟩,
  ⟨"FAB_PKEY_REJECT", 0x10, [], 4, .none, [⟨0, 32, .rc, 0, none⟩]⟩,
  ⟨"FAB_BAD_FLIT", 0x14, [], 4, .none, [⟨0, 32, .rc, 0, none⟩]⟩,
  ⟨"FAB_LINK_STATUS", 0x100, [⟨6, 64⟩], 4, .none, [⟨0, 2, .ro, 0, none⟩, ⟨2, 1, .ro, 0, none⟩, ⟨3, 8, .ro, 0, none⟩, ⟨11, 4, .ro, 0, none⟩]⟩,
  ⟨"FAB_LINK_FEC_CORR", 0x108, [⟨6, 64⟩], 8, .none, [⟨0, 64, .ro, 0, none⟩]⟩,
  ⟨"FAB_LINK_FEC_UNCORR", 0x110, [⟨6, 64⟩], 4, .none, [⟨0, 32, .rc, 0, none⟩]⟩,
  ⟨"FAB_LINK_CRC_ERR", 0x114, [⟨6, 64⟩], 4, .none, [⟨0, 32, .rc, 0, none⟩]⟩,
  ⟨"FAB_LINK_REPLAYS", 0x118, [⟨6, 64⟩], 4, .none, [⟨0, 32, .rc, 0, none⟩]⟩,
  ⟨"FAB_LINK_CREDIT", 0x11c, [⟨6, 64⟩], 4, .none, [⟨0, 8, .ro, 0, none⟩, ⟨8, 8, .ro, 0, none⟩, ⟨16, 8, .ro, 0, none⟩, ⟨24, 8, .ro, 0, none⟩]⟩,
  ⟨"FAB_PEER", 0x1000, [⟨256, 4⟩], 4, .none, [⟨0, 2, .ro, 0, none⟩, ⟨2, 16, .ro, 0, none⟩, ⟨18, 6, .ro, 0, none⟩]⟩,
  ⟨"FAB_WIN_CTRL", 0x2000, [⟨192, 32⟩], 4, .indexed 64 0, [⟨0, 2, .rw, 0, none⟩, ⟨2, 1, .rw, 0, none⟩, ⟨3, 1, .rw, 0, none⟩, ⟨4, 8, .rw, 0, none⟩, ⟨12, 1, .rw, 0, none⟩, ⟨13, 16, .rw, 0, none⟩]⟩,
  ⟨"FAB_WIN_TARGET", 0x2004, [⟨192, 32⟩], 4, .indexed 64 0, [⟨0, 4, .rw, 0, none⟩, ⟨4, 6, .rw, 0, none⟩, ⟨10, 8, .rw, 0, none⟩, ⟨18, 4, .rw, 0, none⟩]⟩,
  ⟨"FAB_WIN_BASE", 0x2008, [⟨192, 32⟩], 8, .indexed 64 0, [⟨0, 64, .rw, 0, none⟩]⟩,
  ⟨"FAB_WIN_HEAD", 0x2010, [⟨192, 32⟩], 4, .none, [⟨0, 32, .rw, 0, none⟩]⟩,
  ⟨"FAB_WIN_TAIL", 0x2014, [⟨192, 32⟩], 4, .none, [⟨0, 32, .ro, 0, none⟩]⟩,
  ⟨"FAB_OPQ_BASE", 0x8000, [⟨32, 64⟩], 8, .fixed 2, [⟨0, 64, .rw, 0, none⟩]⟩,
  ⟨"FAB_OPQ_CFG", 0x8008, [⟨32, 64⟩], 4, .fixed 2, [⟨0, 4, .rw, 0, some (4, 12)⟩, ⟨4, 5, .rw, 0, none⟩, ⟨9, 6, .rw, 0, none⟩, ⟨15, 1, .rw, 0, none⟩]⟩,
  ⟨"FAB_OPQ_TAIL", 0x800c, [⟨32, 64⟩], 4, .none, [⟨0, 32, .rw, 0, none⟩]⟩,
  ⟨"FAB_OPQ_HEAD", 0x8010, [⟨32, 64⟩], 4, .none, [⟨0, 32, .ro, 0, none⟩]⟩,
  ⟨"FAB_RLC_CTRL", 0xc000, [], 4, .none, [⟨0, 1, .rw, 0, none⟩, ⟨1, 1, .wo, 0, none⟩, ⟨2, 1, .ro, 0, none⟩]⟩,
  ⟨"FAB_RLC_HITS", 0xc008, [], 8, .none, [⟨0, 64, .ro, 0, none⟩]⟩]

/-- Registers of the FABRIC block, part 2. -/
def regsFabric2 : List RegDef := [
  ⟨"FAB_RLC_MISSES", 0xc010, [], 8, .none, [⟨0, 64, .ro, 0, none⟩]⟩,
  ⟨"FAB_CAIRN_LEVEL", 0xc100, [], 4, .none, [⟨0, 13, .ro, 0, none⟩]⟩,
  ⟨"FAB_CAIRN_MAX", 0xc104, [], 4, .none, [⟨0, 13, .rc, 0, none⟩]⟩,
  ⟨"FAB_CAIRN_COALESCED", 0xc108, [], 8, .none, [⟨0, 64, .ro, 0, none⟩]⟩,
  ⟨"FAB_RPL_LEVEL", 0xc200, [⟨6, 4⟩], 4, .none, [⟨0, 13, .ro, 0, none⟩]⟩,
  ⟨"FAB_RPL_HITS", 0xc220, [], 4, .none, [⟨0, 32, .rc, 0, none⟩]⟩,
  ⟨"FAB_RPL_UNKNOWN", 0xc224, [], 4, .none, [⟨0, 32, .rc, 0, none⟩]⟩,
  ⟨"FAB_RPL_FULL", 0xc228, [], 4, .none, [⟨0, 32, .rc, 0, none⟩]⟩,
  ⟨"FAB_SLICE_PKEY", 0xd000, [⟨64, 4⟩], 4, .fixed 1, [⟨0, 16, .rw, 0, none⟩]⟩,
  ⟨"FAB_LINK_PARK", 0x120, [⟨6, 64⟩], 4, .none, [⟨0, 1, .rws, 0, none⟩, ⟨1, 3, .rws, 0, none⟩, ⟨4, 1, .rws, 0, none⟩, ⟨5, 1, .wo, 0, none⟩]⟩,
  ⟨"FAB_LINK_RETRAINS", 0x124, [⟨6, 64⟩], 4, .none, [⟨0, 32, .rc, 0, none⟩]⟩,
  ⟨"FAB_LANE_CHARGE", 0x128, [⟨6, 64⟩], 4, .none, [⟨0, 2, .ro, 0, none⟩, ⟨2, 2, .ro, 0, none⟩, ⟨4, 2, .ro, 0, none⟩, ⟨6, 2, .ro, 0, none⟩, ⟨8, 2, .ro, 0, none⟩, ⟨10, 2, .ro, 0, none⟩, ⟨12, 2, .ro, 0, none⟩, ⟨14, 2, .ro, 0, none⟩]⟩,
  ⟨"FAB_LANE_WARN", 0x12c, [⟨6, 64⟩], 4, .none, [⟨0, 8, .ro, 0, none⟩]⟩,
  ⟨"FAB_DETECT_CFG", 0x400, [], 4, .fixed 3, [⟨0, 7, .rw, 10, some (2, 100)⟩, ⟨7, 7, .rw, 16, some (1, 64)⟩, ⟨14, 7, .rw, 8, some (0, 63)⟩]⟩,
  ⟨"FAB_DETECT_LAG", 0x404, [], 4, .fixed 3, [⟨0, 24, .rw, 20000, some (1, 16777215)⟩]⟩,
  ⟨"FAB_DETECT_WARN", 0x408, [], 4, .fixed 3, [⟨0, 24, .rw, 1000000, none⟩]⟩,
  ⟨"FAB_FENCE_STATUS", 0x410, [], 4, .none, [⟨0, 1, .ro, 0, none⟩, ⟨1, 1, .ro, 0, none⟩]⟩,
  ⟨"FAB_FENCE_CTRL", 0x414, [], 4, .none, [⟨0, 8, .wo, 0, none⟩, ⟨8, 1, .wo, 0, none⟩, ⟨9, 1, .wo, 0, none⟩]⟩,
  ⟨"FAB_FENCE_COUNT", 0x418, [], 4, .none, [⟨0, 32, .rc, 0, none⟩]⟩,
  ⟨"FAB_FAULT_EVENT", 0x41c, [], 4, .none, [⟨0, 1, .w1c, 0, none⟩, ⟨1, 1, .w1c, 0, none⟩, ⟨2, 1, .w1c, 0, none⟩, ⟨3, 1, .w1c, 0, none⟩, ⟨4, 1, .w1c, 0, none⟩, ⟨5, 1, .w1c, 0, none⟩, ⟨6, 1, .w1c, 0, none⟩]⟩,
  ⟨"FAB_BAR_CFG", 0x420, [⟨16, 16⟩], 4, .fixed 3, [⟨0, 8, .rw, 0, none⟩, ⟨8, 1, .rw, 0, none⟩, ⟨9, 8, .rw, 0, some (1, 255)⟩]⟩,
  ⟨"FAB_BAR_LAST", 0x424, [⟨16, 16⟩], 4, .none, [⟨0, 8, .ro, 0, none⟩, ⟨8, 24, .ro, 0, none⟩]⟩,
  ⟨"FAB_BAR_OFFSET", 0x428, [⟨16, 16⟩], 8, .fixed 3, [⟨3, 33, .rw, 0, none⟩]⟩,
  ⟨"FAB_PEER_LAST", 0x600, [⟨256, 4⟩], 4, .none, [⟨0, 7, .ro, 0, none⟩, ⟨7, 1, .ro, 0, none⟩]⟩]

/-- Registers of the FABRIC block, part 3. -/
def regsFabric3 : List RegDef := [
  ⟨"FAB_BOOKS_SNAP", 0xe000, [], 4, .none, [⟨0, 8, .wo, 0, none⟩, ⟨8, 16, .wo, 0, none⟩, ⟨31, 1, .wo, 0, none⟩]⟩,
  ⟨"FAB_BOOKS_STATUS", 0xe004, [], 4, .none, [⟨0, 1, .ro, 0, none⟩, ⟨1, 1, .ro, 0, none⟩, ⟨8, 8, .ro, 0, none⟩, ⟨16, 16, .ro, 0, none⟩]⟩,
  ⟨"FAB_BOOKS_A", 0xe008, [], 8, .none, [⟨0, 64, .ro, 0, none⟩]⟩,
  ⟨"FAB_BOOKS_B", 0xe010, [], 8, .none, [⟨0, 64, .ro, 0, none⟩]⟩,
  ⟨"FAB_BOOKS_C", 0xe018, [], 8, .none, [⟨0, 64, .ro, 0, none⟩]⟩,
  ⟨"FAB_BOOKS_TIME", 0xe020, [], 8, .none, [⟨0, 64, .ro, 0, none⟩]⟩,
  ⟨"FAB_BOOKS_FAULT", 0xe028, [], 4, .none, [⟨1, 9, .w1c, 0, none⟩]⟩,
  ⟨"FAB_BOOKS_FAULT_INDEX", 0xe02c, [], 4, .none, [⟨0, 16, .ro, 0, none⟩, ⟨16, 8, .ro, 0, none⟩]⟩]

/-- Registers of the PCIE block. -/
def regsPcie : List RegDef := [
  ⟨"PCIE_LINK", 0x0, [], 4, .none, [⟨0, 2, .ro, 0, none⟩, ⟨2, 5, .ro, 0, none⟩, ⟨7, 3, .ro, 0, none⟩]⟩,
  ⟨"PCIE_SESSION", 0x4, [], 4, .none, [⟨0, 2, .ro, 0, none⟩, ⟨2, 16, .ro, 0, none⟩, ⟨18, 8, .ro, 0, none⟩]⟩,
  ⟨"PCIE_HB_AGE", 0x8, [], 4, .none, [⟨0, 32, .ro, 0, none⟩]⟩,
  ⟨"PCIE_STALE_DROP", 0xc, [], 4, .none, [⟨0, 32, .rc, 0, none⟩]⟩,
  ⟨"PCIE_HB_BAD", 0x10, [], 4, .none, [⟨0, 32, .rc, 0, none⟩]⟩,
  ⟨"PCIE_WQ_DROP", 0x14, [], 4, .none, [⟨0, 32, .rc, 0, none⟩]⟩,
  ⟨"PCIE_ATTACH", 0x100, [⟨64, 8⟩], 8, .none, [⟨0, 32, .ro, 0, none⟩, ⟨32, 6, .ro, 0, none⟩]⟩]

/-- Registers of the SLICE block, part 1. -/
def regsSlice1 : List RegDef := [
  ⟨"SLICE_CG_COMMIT", 0x100, [], 4, .none, [⟨0, 8, .wo, 0, none⟩, ⟨8, 8, .wo, 0, none⟩, ⟨16, 8, .wo, 0, none⟩, ⟨24, 8, .wo, 0, none⟩]⟩,
  ⟨"SLICE_CG_STATUS", 0x104, [], 4, .none, [⟨0, 8, .ro, 0, none⟩, ⟨8, 1, .ro, 0, none⟩, ⟨9, 1, .ro, 0, none⟩, ⟨16, 8, .ro, 0, none⟩, ⟨24, 8, .ro, 0, none⟩]⟩,
  ⟨"SLICE_CG_DISCARD", 0x108, [], 4, .none, [⟨0, 24, .wo, 0, none⟩]⟩,
  ⟨"SLICE_CG_SUPERSEDED", 0x10c, [], 4, .none, [⟨0, 8, .rc, 0, none⟩, ⟨8, 1, .rc, 0, none⟩, ⟨9, 1, .rc, 0, none⟩]⟩,
  ⟨"MEM_REQ_CTRL", 0x50100, [⟨16, 32⟩], 4, .none, [⟨0, 8, .rw, 0, none⟩, ⟨8, 8, .rw, 0, none⟩, ⟨16, 4, .rw, 0, none⟩, ⟨31, 1, .rw, 0, none⟩]⟩,
  ⟨"MEM_REQ_HANDLE", 0x50104, [⟨16, 32⟩], 4, .none, [⟨0, 32, .rw, 0, none⟩]⟩,
  ⟨"MEM_REQ_VADDR", 0x50108, [⟨16, 32⟩], 8, .none, [⟨0, 64, .rw, 0, none⟩]⟩,
  ⟨"MEM_REQ_FIRST", 0x50110, [⟨16, 32⟩], 4, .none, [⟨0, 16, .rw, 0, none⟩]⟩,
  ⟨"MEM_REQ_COUNT", 0x50114, [⟨16, 32⟩], 4, .none, [⟨0, 17, .rw, 0, none⟩]⟩,
  ⟨"MEM_REQ_TARGET", 0x50118, [⟨16, 32⟩], 4, .none, [⟨0, 8, .rw, 0, none⟩]⟩,
  ⟨"MEM_REQ_STATUS", 0x5011c, [⟨16, 32⟩], 4, .none, [⟨0, 8, .ro, 0, none⟩, ⟨8, 8, .ro, 0, none⟩, ⟨16, 16, .ro, 0, none⟩]⟩,
  ⟨"MEM_Q_USED", 0x50000, [], 4, .none, [⟨0, 16, .ro, 0, none⟩, ⟨16, 16, .ro, 0, none⟩]⟩,
  ⟨"MEM_Q_LIMITS", 0x50004, [], 4, .none, [⟨0, 16, .ro, 0, none⟩, ⟨16, 16, .ro, 0, none⟩]⟩,
  ⟨"MEM_Q_T3", 0x50008, [], 4, .none, [⟨0, 16, .ro, 0, none⟩, ⟨16, 16, .ro, 0, none⟩]⟩,
  ⟨"MEM_Q_EVICTED", 0x5000c, [], 4, .none, [⟨0, 32, .rc, 0, none⟩]⟩,
  ⟨"JQ_BASE", 0x1000, [⟨32, 64⟩], 8, .indexed 0 1, [⟨7, 50, .rw, 0, none⟩]⟩,
  ⟨"JQ_SIZE", 0x1008, [⟨32, 64⟩], 4, .indexed 0 1, [⟨0, 4, .rw, 4, some (4, 12)⟩]⟩,
  ⟨"JQ_TAIL", 0x100c, [⟨32, 64⟩], 4, .none, [⟨0, 32, .rw, 0, none⟩]⟩,
  ⟨"JQ_HEAD", 0x1010, [⟨32, 64⟩], 4, .none, [⟨0, 32, .ro, 0, none⟩]⟩,
  ⟨"CQ_BASE", 0x1018, [⟨32, 64⟩], 8, .indexed 0 1, [⟨5, 52, .rw, 0, none⟩]⟩,
  ⟨"CQ_SIZE", 0x1020, [⟨32, 64⟩], 4, .indexed 0 1, [⟨0, 4, .rw, 4, some (4, 12)⟩]⟩,
  ⟨"CQ_HEAD", 0x1024, [⟨32, 64⟩], 4, .none, [⟨0, 32, .rw, 0, none⟩]⟩,
  ⟨"CQ_TAIL", 0x1028, [⟨32, 64⟩], 4, .none, [⟨0, 32, .ro, 0, none⟩]⟩,
  ⟨"JQ_STATUS", 0x102c, [⟨32, 64⟩], 4, .none, [⟨0, 2, .ro, 0, none⟩, ⟨2, 8, .ro, 0, none⟩]⟩]

/-- Registers of the SLICE block, part 2. -/
def regsSlice2 : List RegDef := [
  ⟨"JQ_CTRL", 0x1030, [⟨32, 64⟩], 4, .indexed 0 1, [⟨0, 1, .rw, 0, none⟩, ⟨1, 1, .wo, 0, none⟩]⟩,
  ⟨"JQ_CNT_SUBMITTED", 0x60000, [⟨32, 16⟩], 4, .none, [⟨0, 32, .ro, 0, none⟩]⟩,
  ⟨"JQ_CNT_ADMITTED", 0x60004, [⟨32, 16⟩], 4, .none, [⟨0, 32, .ro, 0, none⟩]⟩,
  ⟨"JQ_CNT_COMPLETED", 0x60008, [⟨32, 16⟩], 4, .none, [⟨0, 32, .ro, 0, none⟩]⟩,
  ⟨"JQ_CNT_FAILED", 0x6000c, [⟨32, 16⟩], 4, .none, [⟨0, 32, .ro, 0, none⟩]⟩,
  ⟨"SEQ_STATE", 0x10000, [⟨16384, 16⟩], 4, .none, [⟨0, 2, .rw, 0, none⟩, ⟨8, 4, .rw, 0, none⟩]⟩,
  ⟨"SEQ_POS", 0x10004, [⟨16384, 16⟩], 4, .none, [⟨0, 32, .rw, 0, none⟩]⟩,
  ⟨"SEQ_PROMPT_LEN", 0x10008, [⟨16384, 16⟩], 4, .none, [⟨0, 32, .rw, 0, none⟩]⟩,
  ⟨"SEQ_KV_HANDLE", 0x1000c, [⟨16384, 16⟩], 4, .none, [⟨0, 32, .rw, 0, none⟩]⟩,
  ⟨"MODEL_STEP", 0x8000, [⟨16, 64⟩], 8, .none, [⟨0, 64, .rw, 0, none⟩]⟩,
  ⟨"MODEL_WLIST", 0x8008, [⟨16, 64⟩], 8, .none, [⟨0, 64, .rw, 0, none⟩]⟩,
  ⟨"MODEL_CTRL", 0x8010, [⟨16, 64⟩], 4, .none, [⟨0, 1, .rw, 0, none⟩, ⟨1, 3, .rw, 0, none⟩]⟩,
  ⟨"MODEL_STATUS", 0x8014, [⟨16, 64⟩], 4, .none, [⟨0, 8, .ro, 0, none⟩, ⟨8, 24, .ro, 0, none⟩]⟩,
  ⟨"MODEL_WLIST_LEN", 0x8018, [⟨16, 64⟩], 4, .none, [⟨0, 32, .rw, 0, none⟩]⟩,
  ⟨"SLICE_IDENT", 0x0, [], 4, .none, [⟨0, 6, .ro, 0, none⟩, ⟨8, 4, .ro, 0, none⟩]⟩,
  ⟨"SLICE_GEN", 0x4, [], 4, .none, [⟨0, 16, .rws, 0, none⟩]⟩,
  ⟨"SLICE_STATE", 0x8, [], 4, .none, [⟨0, 3, .ro, 0, none⟩]⟩,
  ⟨"SLICE_LIMITS", 0xc, [], 4, .none, [⟨0, 5, .ro, 0, none⟩, ⟨5, 8, .ro, 0, none⟩, ⟨13, 15, .ro, 0, none⟩]⟩,
  ⟨"SLICE_TILES", 0x10, [], 4, .none, [⟨0, 8, .ro, 0, none⟩, ⟨8, 8, .ro, 0, none⟩]⟩,
  ⟨"SREQ_CTRL", 0x60900, [⟨2, 64⟩], 4, .none, [⟨0, 2, .rw, 0, none⟩, ⟨8, 8, .rw, 0, none⟩, ⟨31, 1, .rw, 0, none⟩]⟩,
  ⟨"SREQ_MASK", 0x60904, [⟨2, 64⟩], 4, .none, [⟨0, 18, .rw, 0, none⟩]⟩,
  ⟨"SREQ_NONCE_ADDR", 0x60908, [⟨2, 64⟩], 8, .none, [⟨0, 64, .rw, 0, none⟩]⟩,
  ⟨"SREQ_OUT_ADDR", 0x60910, [⟨2, 64⟩], 8, .none, [⟨0, 64, .rw, 0, none⟩]⟩,
  ⟨"SREQ_OUT_LEN", 0x60918, [⟨2, 64⟩], 4, .none, [⟨0, 17, .rw, 0, none⟩]⟩]

/-- Registers of the SLICE block, part 3. -/
def regsSlice3 : List RegDef := [
  ⟨"SREQ_STATUS", 0x6091c, [⟨2, 64⟩], 4, .none, [⟨0, 8, .ro, 0, none⟩, ⟨8, 8, .ro, 0, none⟩, ⟨16, 16, .ro, 0, none⟩]⟩,
  ⟨"SLICE_MR_S0", 0x60800, [⟨16, 4⟩], 4, .none, [⟨0, 32, .ro, 0, none⟩]⟩,
  ⟨"SLICE_MR_S1", 0x60840, [⟨16, 4⟩], 4, .none, [⟨0, 32, .ro, 0, none⟩]⟩,
  ⟨"SLICE_EXTEND_DATA", 0x60880, [⟨16, 4⟩], 4, .none, [⟨0, 32, .rw, 0, none⟩]⟩,
  ⟨"SLICE_EXTEND_CTRL", 0x608c0, [], 4, .none, [⟨31, 1, .wo, 0, none⟩]⟩]

/-- Registers of the BAR0 block. -/
def regsBar0 : List RegDef := [
  ⟨"HB_IDENT", 0x0, [], 4, .none, [⟨0, 16, .ro, 29184, none⟩, ⟨16, 2, .ro, 0, none⟩, ⟨24, 4, .ro, 0, none⟩, ⟨28, 4, .ro, 0, none⟩]⟩,
  ⟨"HB_DEV_STATUS", 0x4, [], 4, .none, [⟨0, 32, .ro, 0, none⟩]⟩,
  ⟨"HB_SESSION_CTRL", 0x10, [], 4, .none, [⟨0, 2, .rw, 0, none⟩, ⟨2, 4, .rw, 0, none⟩, ⟨31, 1, .wo, 0, none⟩]⟩,
  ⟨"HB_SESSION_STATUS", 0x14, [], 4, .none, [⟨0, 2, .ro, 0, none⟩, ⟨2, 16, .ro, 0, none⟩]⟩,
  ⟨"HB_HEARTBEAT", 0x18, [], 4, .none, [⟨0, 16, .wo, 0, none⟩]⟩,
  ⟨"HB_SESSION_RESULT", 0x1c, [], 4, .none, [⟨0, 8, .ro, 0, none⟩, ⟨8, 1, .ro, 0, none⟩]⟩,
  ⟨"HB_ATTACH", 0x20, [], 4, .none, [⟨0, 6, .rw, 0, none⟩, ⟨6, 6, .rw, 0, none⟩, ⟨31, 1, .wo, 0, none⟩]⟩,
  ⟨"HB_ATTACH_QMASK", 0x24, [], 4, .none, [⟨0, 32, .rw, 0, none⟩]⟩,
  ⟨"HB_SLICE_GEN", 0x30, [], 4, .none, [⟨0, 16, .ro, 0, none⟩]⟩]

/-- The blocks of R73, the slice windows of R74 and the host block of R75 (whose 64 KiB the model places at
0x1_0000_0000, above the 32-bit register space: log entry 4). -/
def regBlocks : List BlockDef := [
  ⟨.dev, 0x0, [], 0x800, 0x1, regsDev⟩,
  ⟨.strata, 0x1000, [], 0x800, 0x2, regsStrata⟩,
  ⟨.time, 0x10000, [], 0x8000, 0x3, regsTime1 ++ regsTime2⟩,
  ⟨.power, 0x20000, [], 0x8000, 0x4, regsPower⟩,
  ⟨.sec, 0x30000, [], 0x8000, 0x5, regsSec⟩,
  ⟨.fw, 0x40000, [], 0x8000, 0x6, regsFw⟩,
  ⟨.assay, 0x50000, [], 0x8000, 0x7, regsAssay⟩,
  ⟨.tile, 0x100000, [⟨136, 65536⟩], 0x8000, 0x10, regsTile1 ++ regsTile2⟩,
  ⟨.vault, 0xa00000, [⟨152, 16384⟩], 0x2000, 0x11, regsVault⟩,
  ⟨.radio, 0x1000000, [⟨16, 262144⟩], 0x20000, 0x20, regsRadio1 ++ regsRadio2⟩,
  ⟨.mesh, 0x1400000, [⟨3, 262144⟩, ⟨160, 1024⟩], 0x200, 0x12, regsMesh⟩,
  ⟨.hub, 0x1800000, [⟨8, 65536⟩], 0x8000, 0x13, regsHub⟩,
  ⟨.sched, 0x2000000, [], 0x80000, 0x30, regsSched⟩,
  ⟨.memmgr, 0x2100000, [], 0x80000, 0x31, regsMemmgr⟩,
  ⟨.slicectl, 0x2200000, [], 0x80000, 0x32, regsSlicectl⟩,
  ⟨.air, 0x2800000, [], 0x80000, 0x21, regsAir1 ++ regsAir2⟩,
  ⟨.port, 0x3000000, [⟨40, 65536⟩], 0x8000, 0x40, regsPort1 ++ regsPort2⟩,
  ⟨.fabric, 0x3400000, [], 0x80000, 0x42, regsFabric1 ++ regsFabric2 ++ regsFabric3⟩,
  ⟨.pcie, 0x3600000, [], 0x80000, 0x43, regsPcie⟩,
  ⟨.slice, 0x10000000, [⟨64, 1048576⟩], 0x80000, 0x0, regsSlice1 ++ regsSlice2 ++ regsSlice3⟩,
  ⟨.bar0, 0x100000000, [], 0x0, 0xff, regsBar0⟩]

end Sys2Proof.Machine
end

