-- ==== Sys2Proof/Machine/RegFile.lean ====
section
/-! DEFINITION. The register file: where an address lies in the register space (R72 to R74), what a register reads
as before anything is written (R19), and reading and writing one field. -/

namespace Sys2Proof.Machine

/-- A register found at an address: its block, its row, the indices of the block instance and of the register,
and whether the address is the shadow address of a commit-group register (R64). -/
structure RegAt where
  block : BlockDef
  inst : List Nat
  reg : RegDef
  idx : List Nat
  shadow : Bool
deriving DecidableEq, Repr

/-- Splits `off` by the dimensions `ds`, the largest stride first; none where an index is out of range. -/
def dimSplit : List Dim → Nat → Option (List Nat × Nat)
  | [], off => some ([], off)
  | d :: ds, off =>
    if off / d.stride < d.count then
      match dimSplit ds (off % d.stride) with
      | some (is, r) => some (off / d.stride :: is, r)
      | none => none
    else none

/-- The indices of the register of row `r` that lies exactly at block offset `off`. -/
def regMatch (r : RegDef) (off : Nat) : Option (List Nat) :=
  if r.off ≤ off then
    match dimSplit r.dims (off - r.off) with
    | some (is, 0) => some is
    | _ => none
  else none

/-- The first row of `rs` with a register at block offset `off`. -/
def regLookup : List RegDef → Nat → Option (RegDef × List Nat)
  | [], _ => none
  | r :: rs, off =>
    match regMatch r off with
    | some is => some (r, is)
    | none => regLookup rs off

/-- Block `b`'s instance and in-instance offset for an address, if the address lies in the block. -/
def blockMatch (b : BlockDef) (a : Nat) : Option (List Nat × Nat) :=
  if b.base ≤ a then
    match dimSplit b.insts (a - b.base) with
    | some (is, off) => if b.half = 0 then (if off < 0x10000 then some (is, off) else none)
                        else if off < 2 * b.half then some (is, off) else none
    | none => none
  else none

/-- The register at address `a`, searched block by block. A register with commit-group fields is also found at its
shadow address, half a page above (R64). -/
def regFindIn : List BlockDef → Nat → Option RegAt
  | [], _ => none
  | b :: bs, a =>
    match blockMatch b a with
    | none => regFindIn bs a
    | some (inst, off) =>
      match regLookup b.regs off with
      | some (r, is) => some ⟨b, inst, r, is, false⟩
      | none =>
        if b.half ≤ off then
          match regLookup b.regs (off - b.half) with
          | some (r, is) => if r.group = .none then none else some ⟨b, inst, r, is, true⟩
          | none => none
        else none

/-- The register at address `a` (none: the address is unmapped, R72). -/
def regFind (a : Nat) : Option RegAt := regFindIn regBlocks a

/-- The reset word of a row: every field at its Reset column (R19). -/
def regResetWord (r : RegDef) : RegWord :=
  BitVec.ofNat 64 (r.fields.foldl (fun w f => w + f.reset * 2 ^ f.lo) 0)

/-- What the register at `a` reads as when nothing has written it. -/
def regReset (a : Nat) : RegWord :=
  match regFind a with
  | some x => regResetWord x.reg
  | none => 0

/-- `n` one bits starting at bit `lo`. -/
def bitMask (lo n : Nat) : RegWord := BitVec.ofNat 64 ((2 ^ n - 1) * 2 ^ lo)

/-- The value of `n` bits of `w` from bit `lo`. -/
def bitsOf (w : RegWord) (lo n : Nat) : Nat := (w.toNat >>> lo) % 2 ^ n

/-- `w` with `n` bits from bit `lo` replaced by the low bits of `v`. -/
def setBits (w : RegWord) (lo n v : Nat) : RegWord :=
  (w &&& ~~~ bitMask lo n) ||| (BitVec.ofNat 64 ((v % 2 ^ n) * 2 ^ lo) &&& bitMask lo n)

/-- The word the register file holds at address `a`. -/
def regWord (m : Tbl RegWord) (a : Nat) : RegWord := tblGet (regReset a) m a

/-- The register file with the word at `a` replaced. -/
def regSetWord (m : Tbl RegWord) (a : Nat) (w : RegWord) : Tbl RegWord := tblSet (regReset a) m a w

/-- The value of one field. -/
def fldGet (m : Tbl RegWord) (f : Fld) : Nat := bitsOf (regWord m f.addr) f.lo f.width

/-- The register file with one field replaced by the low bits of `v`. -/
def fldPut (m : Tbl RegWord) (f : Fld) (v : Nat) : Tbl RegWord :=
  regSetWord m f.addr (setBits (regWord m f.addr) f.lo f.width v)

/-- A field read as a two's complement number. -/
def signedOf (n v : Nat) : Int := if 2 ^ n ≤ 2 * v then (v : Int) - (2 ^ n : Nat) else v

/-- A number as the two's complement field of `n` bits that holds it. -/
def toField (n : Nat) (v : Int) : Nat := (v % (2 ^ n : Nat)).toNat

end Sys2Proof.Machine
end

