-- ==== Sys2Proof/Machine/Regs.lean ====
section
/-! DEFINITION. Every register of the device under the name the spec gives it: for each field of each register
table a constant `REGISTER_FIELD` (with the unit and array indices as arguments) that says at which address of the
register space (R72 to R74) and in which bits it lies. -/

namespace Sys2Proof.Machine.R

def DEV_STATUS_PHASE : Fld := ⟨0x0, 0, 4⟩
def DEV_STATUS_TIME_LOCK : Fld := ⟨0x0, 4, 1⟩
def DEV_STATUS_RADIO_READY : Fld := ⟨0x0, 5, 1⟩
def DEV_STATUS_INFER_OPEN : Fld := ⟨0x0, 6, 1⟩
def DEV_STATUS_DEGRADED : Fld := ⟨0x0, 7, 1⟩
def DEV_STATUS_UNTESTED_PAIRING : Fld := ⟨0x0, 8, 1⟩
def DEV_STATUS_HOST_SESSION : Fld := ⟨0x0, 9, 1⟩
def DEV_STATUS_SHED_STEP : Fld := ⟨0x0, 10, 4⟩
def DEV_INFO_GRADE : Fld := ⟨0x8, 0, 2⟩
def DEV_INFO_TILES_ENABLED : Fld := ⟨0x8, 2, 8⟩
def DEV_INFO_SWING_TILES : Fld := ⟨0x8, 10, 6⟩
def DEV_INFO_VAULTS_UNHOMED : Fld := ⟨0x8, 16, 5⟩
def DEV_INFO_REMAP_SECTORS : Fld := ⟨0x8, 21, 8⟩
def DEV_STOP_CAUSE_CAUSE : Fld := ⟨0x10, 0, 8⟩
def DEV_RESET_CTRL_KIND : Fld := ⟨0x18, 0, 2⟩
def DEV_RESET_CTRL_CONFIRM : Fld := ⟨0x18, 8, 8⟩
def DEV_RESET_CAUSE_CAUSE : Fld := ⟨0x1c, 0, 8⟩
def DEV_STRAP_STRAPS : Fld := ⟨0x20, 0, 4⟩
def DEV_PHASE_US_US (p : Nat) : Fld := ⟨0x40 + 4 * p, 0, 32⟩
def DEV_GPIO_IN_IN : Fld := ⟨0x100, 0, 8⟩
def DEV_GPIO_OUT_OUT : Fld := ⟨0x104, 0, 8⟩
def DEV_GPIO_OE_OE : Fld := ⟨0x108, 0, 8⟩
def DEV_FLASH_SRC_VADDR : Fld := ⟨0x200, 0, 64⟩
def DEV_FLASH_OFFSET_OFFSET : Fld := ⟨0x208, 0, 28⟩
def DEV_FLASH_CTRL_LEN_64K : Fld := ⟨0x20c, 0, 24⟩
def DEV_FLASH_CTRL_GO : Fld := ⟨0x20c, 31, 1⟩
def DEV_FLASH_RESULT_CODE : Fld := ⟨0x210, 0, 8⟩
def DEV_FLASH_RESULT_DONE : Fld := ⟨0x210, 8, 1⟩
def STRATA_STATUS_RELOAD : Fld := ⟨0x1000, 0, 2⟩
def STRATA_STATUS_SHORT : Fld := ⟨0x1000, 2, 1⟩
def STRATA_STATUS_ANY_DRAINING : Fld := ⟨0x1000, 3, 1⟩
def STRATA_IMAGE_VER_VER : Fld := ⟨0x1004, 0, 32⟩
def STRATA_RELOAD_ADDR_ADDR : Fld := ⟨0x1008, 0, 64⟩
def STRATA_RELOAD_CTRL_GO : Fld := ⟨0x1010, 0, 1⟩
def STRATA_RELOAD_CTRL_ABORT : Fld := ⟨0x1010, 1, 1⟩
def STRATA_RELOAD_RESULT_REASON : Fld := ⟨0x1014, 0, 8⟩
def STRATA_RELOAD_RESULT_SECTION : Fld := ⟨0x1014, 8, 8⟩
def STRATA_RELOAD_RESULT_DETAIL : Fld := ⟨0x1014, 16, 16⟩
def STRATA_SWITCH_CTRL_KIND : Fld := ⟨0x1018, 0, 2⟩
def STRATA_SWITCH_CTRL_SFN : Fld := ⟨0x1018, 2, 10⟩
def STRATA_SWITCH_CTRL_SLOT : Fld := ⟨0x1018, 12, 7⟩
def STRATA_SWITCH_CTRL_REQUEST : Fld := ⟨0x1018, 31, 1⟩
def STRATA_SWITCH_TIME_NS : Fld := ⟨0x1020, 0, 30⟩
def STRATA_SWITCH_TIME_SEC : Fld := ⟨0x1020, 32, 32⟩
def STRATA_EVENT_STAGED : Fld := ⟨0x1028, 0, 1⟩
def STRATA_EVENT_SWITCHED : Fld := ⟨0x1028, 1, 1⟩
def STRATA_EVENT_RELEASED : Fld := ⟨0x1028, 2, 1⟩
def STRATA_EVENT_DRAIN_STALL : Fld := ⟨0x1028, 3, 1⟩
def STRATA_EVENT_REJECTED : Fld := ⟨0x1028, 4, 1⟩
def STRATA_EVENT_WINDOW_ERR : Fld := ⟨0x1028, 5, 1⟩
def STRATA_WINDOW_ERR_COUNT : Fld := ⟨0x102c, 0, 32⟩
def TBL_SELECT_ID : Fld := ⟨0x1030, 0, 8⟩
def TBL_STATE_EPOCH : Fld := ⟨0x1034, 0, 16⟩
def TBL_STATE_ACTIVE_BANK : Fld := ⟨0x1034, 16, 1⟩
def TBL_STATE_STALLED : Fld := ⟨0x1034, 17, 1⟩
def TBL_STATE_OLD_INFLIGHT : Fld := ⟨0x1034, 18, 12⟩
def CG_COMMIT_GROUP : Fld := ⟨0x1100, 0, 8⟩
def CG_COMMIT_BLOCK_TYPE : Fld := ⟨0x1100, 8, 8⟩
def CG_COMMIT_INSTANCE : Fld := ⟨0x1100, 16, 8⟩
def CG_COMMIT_TICKET : Fld := ⟨0x1100, 24, 8⟩
def SLICE_CG_COMMIT_GROUP (slice : Nat) : Fld := ⟨0x10000100 + 1048576 * slice, 0, 8⟩
def SLICE_CG_COMMIT_BLOCK_TYPE (slice : Nat) : Fld := ⟨0x10000100 + 1048576 * slice, 8, 8⟩
def SLICE_CG_COMMIT_INSTANCE (slice : Nat) : Fld := ⟨0x10000100 + 1048576 * slice, 16, 8⟩
def SLICE_CG_COMMIT_TICKET (slice : Nat) : Fld := ⟨0x10000100 + 1048576 * slice, 24, 8⟩
def CG_STATUS_REASON : Fld := ⟨0x1104, 0, 8⟩
def CG_STATUS_CHECKING : Fld := ⟨0x1104, 8, 1⟩
def CG_STATUS_PENDING : Fld := ⟨0x1104, 9, 1⟩
def CG_STATUS_DETAIL : Fld := ⟨0x1104, 16, 8⟩
def CG_STATUS_TICKET : Fld := ⟨0x1104, 24, 8⟩
def SLICE_CG_STATUS_REASON (slice : Nat) : Fld := ⟨0x10000104 + 1048576 * slice, 0, 8⟩
def SLICE_CG_STATUS_CHECKING (slice : Nat) : Fld := ⟨0x10000104 + 1048576 * slice, 8, 1⟩
def SLICE_CG_STATUS_PENDING (slice : Nat) : Fld := ⟨0x10000104 + 1048576 * slice, 9, 1⟩
def SLICE_CG_STATUS_DETAIL (slice : Nat) : Fld := ⟨0x10000104 + 1048576 * slice, 16, 8⟩
def SLICE_CG_STATUS_TICKET (slice : Nat) : Fld := ⟨0x10000104 + 1048576 * slice, 24, 8⟩
def CG_DISCARD_TARGET : Fld := ⟨0x1108, 0, 24⟩
def SLICE_CG_DISCARD_TARGET (slice : Nat) : Fld := ⟨0x10000108 + 1048576 * slice, 0, 24⟩
def CG_SUPERSEDED_TICKET : Fld := ⟨0x110c, 0, 8⟩
def CG_SUPERSEDED_VALID : Fld := ⟨0x110c, 8, 1⟩
def CG_SUPERSEDED_OVERFLOW : Fld := ⟨0x110c, 9, 1⟩
def SLICE_CG_SUPERSEDED_TICKET (slice : Nat) : Fld := ⟨0x1000010c + 1048576 * slice, 0, 8⟩
def SLICE_CG_SUPERSEDED_VALID (slice : Nat) : Fld := ⟨0x1000010c + 1048576 * slice, 8, 1⟩
def SLICE_CG_SUPERSEDED_OVERFLOW (slice : Nat) : Fld := ⟨0x1000010c + 1048576 * slice, 9, 1⟩
def STRATA_DIGEST_DIGEST (wd : Nat) : Fld := ⟨0x1040 + 4 * wd, 0, 32⟩
def MESH_STOP_CTRL_ENABLED (plane stop : Nat) : Fld := ⟨0x1400000 + 262144 * plane + 1024 * stop, 0, 1⟩
def MESH_STOP_CTRL_BANK (plane stop : Nat) : Fld := ⟨0x1400000 + 262144 * plane + 1024 * stop, 1, 1⟩
def MESH_PLANE_VIOL_COUNT (plane stop : Nat) : Fld := ⟨0x1400008 + 262144 * plane + 1024 * stop, 0, 32⟩
def TILE_SCALE_ENTRY0 (site n : Nat) : Fld := ⟨0x107000 + 65536 * site + 4 * n, 0, 8⟩
def TILE_SCALE_ENTRY1 (site n : Nat) : Fld := ⟨0x107000 + 65536 * site + 4 * n, 8, 8⟩
def TILE_SCALE_ENTRY2 (site n : Nat) : Fld := ⟨0x107000 + 65536 * site + 4 * n, 16, 8⟩
def TILE_SCALE_ENTRY3 (site n : Nat) : Fld := ⟨0x107000 + 65536 * site + 4 * n, 24, 8⟩
def TILE_QSTAT_SEQ_SEQ (site : Nat) : Fld := ⟨0x106000 + 65536 * site, 0, 32⟩
def TILE_QSTAT_HDR_GROUPS (site : Nat) : Fld := ⟨0x106004 + 65536 * site, 0, 9⟩
def TILE_QSTAT_HDR_SSE_INF (site : Nat) : Fld := ⟨0x106004 + 65536 * site, 9, 1⟩
def TILE_QSTAT_SAT_SAT_COUNT (site : Nat) : Fld := ⟨0x106008 + 65536 * site, 0, 32⟩
def TILE_QSTAT_NONFIN_NONFINITE_COUNT (site : Nat) : Fld := ⟨0x10600c + 65536 * site, 0, 32⟩
def TILE_QSTAT_SSE_SSE (site g : Nat) : Fld := ⟨0x106400 + 65536 * site + 8 * g, 0, 32⟩
def TILE_QSTAT_CNT_COUNT (site g : Nat) : Fld := ⟨0x106404 + 65536 * site + 8 * g, 0, 32⟩
def TILE_ARRAY_STATUS_STATE (site : Nat) : Fld := ⟨0x105000 + 65536 * site, 0, 3⟩
def TILE_ARRAY_STATUS_LEVEL (site : Nat) : Fld := ⟨0x105000 + 65536 * site, 3, 5⟩
def TILE_ARRAY_STATUS_STAT_BANK (site : Nat) : Fld := ⟨0x105000 + 65536 * site, 8, 1⟩
def TILE_ARRAY_STATUS_SHAPING (site : Nat) : Fld := ⟨0x105000 + 65536 * site, 9, 1⟩
def TILE_ARRAY_SHAPING_MODE (site : Nat) : Fld := ⟨0x105004 + 65536 * site, 0, 1⟩
def TILE_ARRAY_SHAPING_FLOOR (site : Nat) : Fld := ⟨0x105004 + 65536 * site, 1, 5⟩
def TILE_ARRAY_ERR_PAR_STAT (site : Nat) : Fld := ⟨0x105008 + 65536 * site, 0, 1⟩
def TILE_ARRAY_ERR_PAR_ACC (site : Nat) : Fld := ⟨0x105008 + 65536 * site, 1, 1⟩
def TILE_ARRAY_ERR_BAD_WRITE (site : Nat) : Fld := ⟨0x105008 + 65536 * site, 2, 1⟩
def TILE_ARRAY_ROW_CYC_COUNT (site : Nat) : Fld := ⟨0x105010 + 65536 * site, 0, 64⟩
def TILE_ARRAY_DUMMY_CYC_COUNT (site : Nat) : Fld := ⟨0x105018 + 65536 * site, 0, 64⟩
def TILE_ARRAY_MACS_COUNT (site : Nat) : Fld := ⟨0x105020 + 65536 * site, 0, 64⟩
def TILE_CMDQ_BASE_ADDR (site q : Nat) : Fld := ⟨0x104000 + 65536 * site + 64 * q, 6, 51⟩
def TILE_CMDQ_SIZE_SIZE_LOG2 (site q : Nat) : Fld := ⟨0x104008 + 65536 * site + 64 * q, 0, 4⟩
def TILE_CMDQ_HEAD_HEAD (site q : Nat) : Fld := ⟨0x10400c + 65536 * site + 64 * q, 0, 32⟩
def TILE_CMDQ_TAIL_TAIL (site q : Nat) : Fld := ⟨0x104010 + 65536 * site + 64 * q, 0, 32⟩
def TILE_CMDQ_DONE_DONE (site q : Nat) : Fld := ⟨0x104014 + 65536 * site + 64 * q, 0, 32⟩
def TILE_CMDQ_STATUS_STATE (site q : Nat) : Fld := ⟨0x104018 + 65536 * site + 64 * q, 0, 3⟩
def TILE_CMDQ_STATUS_ERR_CODE (site q : Nat) : Fld := ⟨0x104018 + 65536 * site + 64 * q, 8, 8⟩
def TILE_CMDQ_STATUS_ERR_TAG (site q : Nat) : Fld := ⟨0x104018 + 65536 * site + 64 * q, 16, 8⟩
def TILE_CMDQ_STATUS_OVERRUN (site q : Nat) : Fld := ⟨0x104018 + 65536 * site + 64 * q, 24, 1⟩
def TILE_CMDQ_ERR_INDEX_INDEX (site q : Nat) : Fld := ⟨0x10401c + 65536 * site + 64 * q, 0, 32⟩
def TILE_ARRIVAL_VALUE (site n : Nat) : Fld := ⟨0x103000 + 65536 * site + 4 * n, 0, 32⟩
def TILE_SRAM_BANK_STATE_BANK0 (site : Nat) : Fld := ⟨0x102000 + 65536 * site, 0, 2⟩
def TILE_SRAM_BANK_STATE_BANK1 (site : Nat) : Fld := ⟨0x102000 + 65536 * site, 2, 2⟩
def TILE_SRAM_BANK_STATE_BANK2 (site : Nat) : Fld := ⟨0x102000 + 65536 * site, 4, 2⟩
def TILE_SRAM_BANK_STATE_BANK3 (site : Nat) : Fld := ⟨0x102000 + 65536 * site, 6, 2⟩
def TILE_SRAM_BANK_STATE_BANK4 (site : Nat) : Fld := ⟨0x102000 + 65536 * site, 8, 2⟩
def TILE_SRAM_BANK_STATE_BANK5 (site : Nat) : Fld := ⟨0x102000 + 65536 * site, 10, 2⟩
def TILE_SRAM_BANK_STATE_BANK6 (site : Nat) : Fld := ⟨0x102000 + 65536 * site, 12, 2⟩
def TILE_SRAM_BANK_STATE_BANK7 (site : Nat) : Fld := ⟨0x102000 + 65536 * site, 14, 2⟩
def TILE_SRAM_BANK_STATE_BANK8 (site : Nat) : Fld := ⟨0x102000 + 65536 * site, 16, 2⟩
def TILE_SRAM_BANK_STATE_BANK9 (site : Nat) : Fld := ⟨0x102000 + 65536 * site, 18, 2⟩
def TILE_SRAM_BANK_STATE_BANK10 (site : Nat) : Fld := ⟨0x102000 + 65536 * site, 20, 2⟩
def TILE_SRAM_BANK_STATE_BANK11 (site : Nat) : Fld := ⟨0x102000 + 65536 * site, 22, 2⟩
def TILE_SRAM_BANK_STATE_BANK12 (site : Nat) : Fld := ⟨0x102000 + 65536 * site, 24, 2⟩
def TILE_SRAM_BANK_STATE_BANK13 (site : Nat) : Fld := ⟨0x102000 + 65536 * site, 26, 2⟩
def TILE_SRAM_BANK_STATE_BANK14 (site : Nat) : Fld := ⟨0x102000 + 65536 * site, 28, 2⟩
def TILE_SRAM_BANK_STATE_BANK15 (site : Nat) : Fld := ⟨0x102000 + 65536 * site, 30, 2⟩
def TILE_SRAM_BANK_STATE_BANK16 (site : Nat) : Fld := ⟨0x102000 + 65536 * site, 32, 2⟩
def TILE_SRAM_BANK_STATE_BANK17 (site : Nat) : Fld := ⟨0x102000 + 65536 * site, 34, 2⟩
def TILE_SRAM_BANK_STATE_BANK18 (site : Nat) : Fld := ⟨0x102000 + 65536 * site, 36, 2⟩
def TILE_SRAM_BANK_STATE_BANK19 (site : Nat) : Fld := ⟨0x102000 + 65536 * site, 38, 2⟩
def TILE_SRAM_BANK_STATE_BANK20 (site : Nat) : Fld := ⟨0x102000 + 65536 * site, 40, 2⟩
def TILE_SRAM_BANK_STATE_BANK21 (site : Nat) : Fld := ⟨0x102000 + 65536 * site, 42, 2⟩
def TILE_SRAM_BANK_STATE_BANK22 (site : Nat) : Fld := ⟨0x102000 + 65536 * site, 44, 2⟩
def TILE_SRAM_BANK_STATE_BANK23 (site : Nat) : Fld := ⟨0x102000 + 65536 * site, 46, 2⟩
def TILE_SRAM_ECC_CORR_COUNT (site : Nat) : Fld := ⟨0x102008 + 65536 * site, 0, 32⟩
def TILE_SRAM_ECC_UNCORR_COUNT (site : Nat) : Fld := ⟨0x10200c + 65536 * site, 0, 32⟩
def TILE_SRAM_ECC_ADDR_ADDR (site : Nat) : Fld := ⟨0x102010 + 65536 * site, 0, 22⟩
def VAULT_PORT_MODE_RATE (vault : Nat) : Fld := ⟨0xa01000 + 16384 * vault, 0, 1⟩
def VAULT_PORT_MODE_WINDOW (vault : Nat) : Fld := ⟨0xa01000 + 16384 * vault, 1, 1⟩
def VAULT_PORT_MODE_RELOCK (vault : Nat) : Fld := ⟨0xa01000 + 16384 * vault, 2, 1⟩
def VAULT_SEAM_STATUS_STATE (vault : Nat) : Fld := ⟨0xa01004 + 16384 * vault, 0, 3⟩
def VAULT_SEAM_STATUS_QUEUED (vault : Nat) : Fld := ⟨0xa01004 + 16384 * vault, 3, 2⟩
def VAULT_SEAM_STATUS_DRIVER_VALID (vault : Nat) : Fld := ⟨0xa01004 + 16384 * vault, 5, 1⟩
def VAULT_SEAM_STATUS_DRIVER (vault : Nat) : Fld := ⟨0xa01004 + 16384 * vault, 6, 8⟩
def VAULT_SEAM_STATUS_DRIVER_KIND (vault : Nat) : Fld := ⟨0xa01004 + 16384 * vault, 14, 2⟩
def VAULT_SEAM_ERR_ECC_UNCORR (vault : Nat) : Fld := ⟨0xa01008 + 16384 * vault, 0, 1⟩
def VAULT_SEAM_ERR_ABORTED (vault : Nat) : Fld := ⟨0xa01008 + 16384 * vault, 1, 1⟩
def VAULT_SEAM_XFERS_COUNT (vault : Nat) : Fld := ⟨0xa01010 + 16384 * vault, 0, 64⟩
def VAULT_SEAM_MACS_COUNT (vault : Nat) : Fld := ⟨0xa01018 + 16384 * vault, 0, 64⟩
def VAULT_SEAM_REFRESH_CYC_COUNT (vault : Nat) : Fld := ⟨0xa01020 + 16384 * vault, 0, 64⟩
def VAULT_SEAM_YIELD_CYC_COUNT (vault : Nat) : Fld := ⟨0xa01028 + 16384 * vault, 0, 64⟩
def VAULT_WQ_LEVEL_BYTES (vault : Nat) : Fld := ⟨0xa01030 + 16384 * vault, 0, 17⟩
def TILE_SEAM_BIND_ADOPT_VALID (site : Nat) : Fld := ⟨0x105800 + 65536 * site, 0, 1⟩
def TILE_SEAM_BIND_ADOPT_VAULT (site : Nat) : Fld := ⟨0x105800 + 65536 * site, 1, 8⟩
def TILE_SEAM_BIND_STANDIN_VALID (site : Nat) : Fld := ⟨0x105800 + 65536 * site, 9, 1⟩
def TILE_SEAM_BIND_STANDIN_VAULT (site : Nat) : Fld := ⟨0x105800 + 65536 * site, 10, 8⟩
def TILE_SFU_STATUS_SFU_BUSY (site : Nat) : Fld := ⟨0x105c00 + 65536 * site, 0, 1⟩
def TILE_SFU_STATUS_NORM_BUSY (site : Nat) : Fld := ⟨0x105c00 + 65536 * site, 1, 1⟩
def TILE_SFU_STATUS_FUNC (site : Nat) : Fld := ⟨0x105c00 + 65536 * site, 2, 5⟩
def TILE_SFU_EVALS_EVALS (site : Nat) : Fld := ⟨0x105c08 + 65536 * site, 0, 64⟩
def TILE_SFU_BUSY_CYC_CYCLES (site : Nat) : Fld := ⟨0x105c10 + 65536 * site, 0, 64⟩
def TILE_NORM_ROWS_ROWS (site : Nat) : Fld := ⟨0x105c18 + 65536 * site, 0, 64⟩
def MEM_REQ_CTRL_OP (slice n : Nat) : Fld := ⟨0x10050100 + 1048576 * slice + 32 * n, 0, 8⟩
def MEM_REQ_CTRL_TICKET (slice n : Nat) : Fld := ⟨0x10050100 + 1048576 * slice + 32 * n, 8, 8⟩
def MEM_REQ_CTRL_HINT (slice n : Nat) : Fld := ⟨0x10050100 + 1048576 * slice + 32 * n, 16, 4⟩
def MEM_REQ_CTRL_GO (slice n : Nat) : Fld := ⟨0x10050100 + 1048576 * slice + 32 * n, 31, 1⟩
def MEM_REQ_HANDLE_HANDLE (slice n : Nat) : Fld := ⟨0x10050104 + 1048576 * slice + 32 * n, 0, 32⟩
def MEM_REQ_VADDR_VADDR (slice n : Nat) : Fld := ⟨0x10050108 + 1048576 * slice + 32 * n, 0, 64⟩
def MEM_REQ_FIRST_FIRST (slice n : Nat) : Fld := ⟨0x10050110 + 1048576 * slice + 32 * n, 0, 16⟩
def MEM_REQ_COUNT_COUNT (slice n : Nat) : Fld := ⟨0x10050114 + 1048576 * slice + 32 * n, 0, 17⟩
def MEM_REQ_TARGET_TARGET (slice n : Nat) : Fld := ⟨0x10050118 + 1048576 * slice + 32 * n, 0, 8⟩
def MEM_REQ_STATUS_STATUS (slice n : Nat) : Fld := ⟨0x1005011c + 1048576 * slice + 32 * n, 0, 8⟩
def MEM_REQ_STATUS_TICKET_ECHO (slice n : Nat) : Fld := ⟨0x1005011c + 1048576 * slice + 32 * n, 8, 8⟩
def MEM_REQ_STATUS_DONE (slice n : Nat) : Fld := ⟨0x1005011c + 1048576 * slice + 32 * n, 16, 16⟩
def MEM_Q_USED_USED (slice : Nat) : Fld := ⟨0x10050000 + 1048576 * slice, 0, 16⟩
def MEM_Q_USED_T3_USED (slice : Nat) : Fld := ⟨0x10050000 + 1048576 * slice, 16, 16⟩
def MEM_Q_LIMITS_FLOOR (slice : Nat) : Fld := ⟨0x10050004 + 1048576 * slice, 0, 16⟩
def MEM_Q_LIMITS_CEIL (slice : Nat) : Fld := ⟨0x10050004 + 1048576 * slice, 16, 16⟩
def MEM_Q_T3_T3_CEIL (slice : Nat) : Fld := ⟨0x10050008 + 1048576 * slice, 0, 16⟩
def MEM_Q_T3_GUARANTEED (slice : Nat) : Fld := ⟨0x10050008 + 1048576 * slice, 16, 16⟩
def MEM_Q_EVICTED_COUNT (slice : Nat) : Fld := ⟨0x1005000c + 1048576 * slice, 0, 32⟩
def MEM_POOL_TOTAL_SLABS : Fld := ⟨0x2100000, 0, 16⟩
def MEM_POOL_FREE_SLABS : Fld := ⟨0x2100004, 0, 16⟩
def MEM_POOL_HELD_SLABS : Fld := ⟨0x2100008, 0, 16⟩
def MEM_POOL_LENT_SLABS : Fld := ⟨0x210000c, 0, 16⟩
def MEM_T3_AVAIL_SLABS : Fld := ⟨0x2100010, 0, 17⟩
def MEM_EVENT_RELEASE_STALL : Fld := ⟨0x2100014, 0, 1⟩
def MEM_EVENT_LOST : Fld := ⟨0x2100014, 1, 1⟩
def MEM_EVENT_FLOOR_SHORT : Fld := ⟨0x2100014, 2, 1⟩
def MEM_EVENT_EVICT_FAIL : Fld := ⟨0x2100014, 3, 1⟩
def MEM_QUERY_VA_SLAB_VA : Fld := ⟨0x2100020, 21, 36⟩
def MEM_QUERY_VA_SLICE : Fld := ⟨0x2100020, 57, 6⟩
def MEM_QUERY_RESULT_ENTRY : Fld := ⟨0x2100028, 0, 64⟩
def MEM_ACCT_USED_USED (s : Nat) : Fld := ⟨0x2100100 + 4 * s, 0, 16⟩
def MEM_ACCT_USED_T3_USED (s : Nat) : Fld := ⟨0x2100100 + 4 * s, 16, 16⟩
def VAULT_STATUS_STATE (vault : Nat) : Fld := ⟨0xa00000 + 16384 * vault, 0, 2⟩
def VAULT_STATUS_DOMAIN (vault : Nat) : Fld := ⟨0xa00000 + 16384 * vault, 2, 1⟩
def VAULT_STATUS_HOMED (vault : Nat) : Fld := ⟨0xa00000 + 16384 * vault, 3, 1⟩
def VAULT_STATUS_HOME_TILE (vault : Nat) : Fld := ⟨0xa00000 + 16384 * vault, 4, 8⟩
def VAULT_STATUS_REFRESH_2X (vault : Nat) : Fld := ⟨0xa00000 + 16384 * vault, 12, 1⟩
def VAULT_STATUS_THROTTLED (vault : Nat) : Fld := ⟨0xa00000 + 16384 * vault, 13, 1⟩
def VAULT_FREE_SLABS_SLABS (vault : Nat) : Fld := ⟨0xa00004 + 16384 * vault, 0, 9⟩
def VAULT_ECC_CORR_COUNT (vault : Nat) : Fld := ⟨0xa00008 + 16384 * vault, 0, 32⟩
def VAULT_ECC_UNCORR_COUNT (vault : Nat) : Fld := ⟨0xa0000c + 16384 * vault, 0, 32⟩
def VAULT_ECC_ADDR_CODEWORD (vault : Nat) : Fld := ⟨0xa00010 + 16384 * vault, 5, 25⟩
def VAULT_ECC_ADDR_POISON (vault : Nat) : Fld := ⟨0xa00010 + 16384 * vault, 30, 1⟩
def VAULT_PATROL_PASS_COUNT (vault : Nat) : Fld := ⟨0xa00014 + 16384 * vault, 0, 32⟩
def HUB_DRAM_TEMP_TEMP (sector : Nat) : Fld := ⟨0x1800000 + 65536 * sector, 0, 12⟩
def HUB_DRAM_TEMP_VALID (sector : Nat) : Fld := ⟨0x1800000 + 65536 * sector, 12, 1⟩
def HUB_THERM_STATE_LEVEL (sector : Nat) : Fld := ⟨0x1800004 + 65536 * sector, 0, 2⟩
def HUB_TEMP_MAX_TEMP (sector : Nat) : Fld := ⟨0x1800008 + 65536 * sector, 0, 12⟩
def HUB_MIG_STATUS_MOVES (sector : Nat) : Fld := ⟨0x1800010 + 65536 * sector, 0, 3⟩
def HUB_MIG_STATUS_QUEUED (sector : Nat) : Fld := ⟨0x1800010 + 65536 * sector, 16, 16⟩
def HUB_DMA0_BYTES_BYTES (sector : Nat) : Fld := ⟨0x1800018 + 65536 * sector, 0, 64⟩
def HUB_DMA1_BYTES_BYTES (sector : Nat) : Fld := ⟨0x1800020 + 65536 * sector, 0, 64⟩
def MEM_QUOTA_FLOOR (s : Nat) : Fld := ⟨0x2101000 + 8 * s, 0, 16⟩
def MEM_QUOTA_CEIL (s : Nat) : Fld := ⟨0x2101000 + 8 * s, 16, 16⟩
def MEM_QUOTA_T3_T3_CEIL (s : Nat) : Fld := ⟨0x2101004 + 8 * s, 0, 16⟩
def MEM_LEND_DEVICE (k : Nat) : Fld := ⟨0x2102000 + 8 * k, 0, 8⟩
def MEM_LEND_VALID (k : Nat) : Fld := ⟨0x2102000 + 8 * k, 8, 1⟩
def MEM_LEND_SLABS_SLABS (k : Nat) : Fld := ⟨0x2102004 + 8 * k, 0, 16⟩
def JQ_BASE_ADDR (slice q : Nat) : Fld := ⟨0x10001000 + 1048576 * slice + 64 * q, 7, 50⟩
def JQ_SIZE_SIZE_LOG2 (slice q : Nat) : Fld := ⟨0x10001008 + 1048576 * slice + 64 * q, 0, 4⟩
def JQ_TAIL_TAIL (slice q : Nat) : Fld := ⟨0x1000100c + 1048576 * slice + 64 * q, 0, 32⟩
def JQ_HEAD_HEAD (slice q : Nat) : Fld := ⟨0x10001010 + 1048576 * slice + 64 * q, 0, 32⟩
def CQ_BASE_ADDR (slice q : Nat) : Fld := ⟨0x10001018 + 1048576 * slice + 64 * q, 5, 52⟩
def CQ_SIZE_SIZE_LOG2 (slice q : Nat) : Fld := ⟨0x10001020 + 1048576 * slice + 64 * q, 0, 4⟩
def CQ_HEAD_HEAD (slice q : Nat) : Fld := ⟨0x10001024 + 1048576 * slice + 64 * q, 0, 32⟩
def CQ_TAIL_TAIL (slice q : Nat) : Fld := ⟨0x10001028 + 1048576 * slice + 64 * q, 0, 32⟩
def JQ_STATUS_STATE (slice q : Nat) : Fld := ⟨0x1000102c + 1048576 * slice + 64 * q, 0, 2⟩
def JQ_STATUS_GROUP (slice q : Nat) : Fld := ⟨0x1000102c + 1048576 * slice + 64 * q, 2, 8⟩
def JQ_CTRL_ENABLE (slice q : Nat) : Fld := ⟨0x10001030 + 1048576 * slice + 64 * q, 0, 1⟩
def JQ_CTRL_FLUSH (slice q : Nat) : Fld := ⟨0x10001030 + 1048576 * slice + 64 * q, 1, 1⟩
def JQ_CNT_SUBMITTED_COUNT (slice q : Nat) : Fld := ⟨0x10060000 + 1048576 * slice + 16 * q, 0, 32⟩
def JQ_CNT_ADMITTED_COUNT (slice q : Nat) : Fld := ⟨0x10060004 + 1048576 * slice + 16 * q, 0, 32⟩
def JQ_CNT_COMPLETED_COUNT (slice q : Nat) : Fld := ⟨0x10060008 + 1048576 * slice + 16 * q, 0, 32⟩
def JQ_CNT_FAILED_COUNT (slice q : Nat) : Fld := ⟨0x1006000c + 1048576 * slice + 16 * q, 0, 32⟩
def SEQ_STATE_STATE (slice i : Nat) : Fld := ⟨0x10010000 + 1048576 * slice + 16 * i, 0, 2⟩
def SEQ_STATE_MODEL (slice i : Nat) : Fld := ⟨0x10010000 + 1048576 * slice + 16 * i, 8, 4⟩
def SEQ_POS_POS (slice i : Nat) : Fld := ⟨0x10010004 + 1048576 * slice + 16 * i, 0, 32⟩
def SEQ_PROMPT_LEN_PROMPT_LEN (slice i : Nat) : Fld := ⟨0x10010008 + 1048576 * slice + 16 * i, 0, 32⟩
def SEQ_KV_HANDLE_KV_HANDLE (slice i : Nat) : Fld := ⟨0x1001000c + 1048576 * slice + 16 * i, 0, 32⟩
def MODEL_STEP_DESC (slice m : Nat) : Fld := ⟨0x10008000 + 1048576 * slice + 64 * m, 0, 64⟩
def MODEL_WLIST_ADDR (slice m : Nat) : Fld := ⟨0x10008008 + 1048576 * slice + 64 * m, 0, 64⟩
def MODEL_CTRL_ENABLE (slice m : Nat) : Fld := ⟨0x10008010 + 1048576 * slice + 64 * m, 0, 1⟩
def MODEL_CTRL_PREFILL_SEQ_M1 (slice m : Nat) : Fld := ⟨0x10008010 + 1048576 * slice + 64 * m, 1, 3⟩
def MODEL_STATUS_LAST (slice m : Nat) : Fld := ⟨0x10008014 + 1048576 * slice + 64 * m, 0, 8⟩
def MODEL_STATUS_STEPS (slice m : Nat) : Fld := ⟨0x10008014 + 1048576 * slice + 64 * m, 8, 24⟩
def MODEL_WLIST_LEN_BYTES (slice m : Nat) : Fld := ⟨0x10008018 + 1048576 * slice + 64 * m, 0, 32⟩
def SCHED_STATUS_ADMIT_OPEN : Fld := ⟨0x2000000, 0, 1⟩
def SCHED_STATUS_RESTARTING : Fld := ⟨0x2000000, 1, 1⟩
def SCHED_STATUS_RT_ACTIVE : Fld := ⟨0x2000000, 2, 7⟩
def SCHED_STATUS_CLAIMED : Fld := ⟨0x2000000, 9, 6⟩
def SCHED_STATUS_RESERVE : Fld := ⟨0x2000000, 15, 6⟩
def SCHED_CTRL_ADMIT_EN : Fld := ⟨0x2000004, 0, 1⟩
def SCHED_TILE_HOLDER (site : Nat) : Fld := ⟨0x2000400 + 4 * site, 0, 7⟩
def SCHED_TILE_SWING (site : Nat) : Fld := ⟨0x2000400 + 4 * site, 7, 1⟩
def SCHED_TILE_STATE (site : Nat) : Fld := ⟨0x2000400 + 4 * site, 8, 3⟩
def SCHED_TILE_LAUNCH_PLANNED (site : Nat) : Fld := ⟨0x2000400 + 4 * site, 11, 1⟩
def SCHED_SG_WEIGHT_WEIGHT (g : Nat) : Fld := ⟨0x2001000 + 4 * g, 0, 16⟩
def SCHED_QMAP_GROUP0 (s r : Nat) : Fld := ⟨0x2002000 + 32 * s + 4 * r, 0, 8⟩
def SCHED_QMAP_GROUP1 (s r : Nat) : Fld := ⟨0x2002000 + 32 * s + 4 * r, 8, 8⟩
def SCHED_QMAP_GROUP2 (s r : Nat) : Fld := ⟨0x2002000 + 32 * s + 4 * r, 16, 8⟩
def SCHED_QMAP_GROUP3 (s r : Nat) : Fld := ⟨0x2002000 + 32 * s + 4 * r, 24, 8⟩
def SCHED_PRIV_MASK_MASK : Fld := ⟨0x2003000, 0, 64⟩
def SCHED_PRIV_CHUNK_CHUNK64 (s : Nat) : Fld := ⟨0x2003100 + 4 * s, 0, 6⟩
def SCHED_SG_CYC_CYCLES (g : Nat) : Fld := ⟨0x2004000 + 16 * g, 0, 64⟩
def SCHED_SG_BAL_BALANCE (g : Nat) : Fld := ⟨0x2004008 + 16 * g, 0, 64⟩
def SCHED_CLIPPED_CYCLES : Fld := ⟨0x2006000, 0, 64⟩
def SCHED_CLAIM_COUNT_COUNT : Fld := ⟨0x2006010, 0, 32⟩
def SCHED_CLAIM_OVER_COUNT : Fld := ⟨0x2006014, 0, 32⟩
def SCHED_CLAIM_MAX_NS_NS : Fld := ⟨0x2006018, 0, 32⟩
def SCHED_FALLBACKS_COUNT : Fld := ⟨0x200601c, 0, 32⟩
def SCHED_RADIO_CNT_COUNT (k : Nat) : Fld := ⟨0x2006020 + 4 * k, 0, 32⟩
def AIR_STATUS_RUNNING : Fld := ⟨0x2800000, 0, 1⟩
def AIR_STATUS_HOLDOVER : Fld := ⟨0x2800000, 1, 1⟩
def AIR_STATUS_RU_READY : Fld := ⟨0x2800000, 2, 7⟩
def AIR_STATUS_CARRIERS : Fld := ⟨0x2800000, 9, 9⟩
def AIR_NOW_SFN : Fld := ⟨0x2800008, 0, 10⟩
def AIR_NOW_SUBFRAME : Fld := ⟨0x2800008, 10, 4⟩
def AIR_NOW_SLOT3 : Fld := ⟨0x2800008, 14, 7⟩
def AIR_NOW_SLOT1 : Fld := ⟨0x2800008, 21, 5⟩
def AIR_NOW_SLOT0 : Fld := ⟨0x2800008, 26, 4⟩
def AIR_NOW_NS : Fld := ⟨0x2800008, 32, 32⟩
def AIR_TIME_OFFSET_OFFSET_NS : Fld := ⟨0x2800010, 0, 32⟩
def AIR_PATCH_GUARD_GUARD_NS : Fld := ⟨0x2800014, 0, 16⟩
def AIR_BEAM_HOLD_SLOTS : Fld := ⟨0x2800018, 0, 4⟩
def AIR_EVENT_SLOT_MISSED : Fld := ⟨0x2800020, 0, 1⟩
def AIR_EVENT_OVERRUN : Fld := ⟨0x2800020, 1, 1⟩
def AIR_EVENT_RU_LOST : Fld := ⟨0x2800020, 2, 1⟩
def AIR_EVENT_RU_READY : Fld := ⟨0x2800020, 3, 1⟩
def AIR_EVENT_BEAM_HOLD : Fld := ⟨0x2800020, 4, 1⟩
def AIR_EVENT_TABLE_REJECT : Fld := ⟨0x2800020, 5, 1⟩
def AIR_TABLE_RESULT_CODE : Fld := ⟨0x2800024, 0, 8⟩
def AIR_TABLE_RESULT_CLUSTER : Fld := ⟨0x2800024, 8, 4⟩
def AIR_TABLE_RESULT_SLOT_ID : Fld := ⟨0x2800024, 12, 17⟩
def AIR_FH_T1A_MAX_UP_NS (i : Nat) : Fld := ⟨0x2800040 + 32 * i, 0, 32⟩
def AIR_FH_T1A_MIN_UP_NS (i : Nat) : Fld := ⟨0x2800044 + 32 * i, 0, 32⟩
def AIR_FH_TCP_ADV_DL_NS (i : Nat) : Fld := ⟨0x2800048 + 32 * i, 0, 32⟩
def AIR_FH_TA4_MIN_NS (i : Nat) : Fld := ⟨0x280004c + 32 * i, 0, 32⟩
def AIR_FH_TA4_MAX_NS (i : Nat) : Fld := ⟨0x2800050 + 32 * i, 0, 32⟩
def AIR_CL_STATUS_MU (c : Nat) : Fld := ⟨0x2800200 + 16 * c, 0, 2⟩
def AIR_CL_STATUS_LU_USED (c : Nat) : Fld := ⟨0x2800200 + 16 * c, 2, 6⟩
def AIR_CL_STATUS_AHEAD (c : Nat) : Fld := ⟨0x2800200 + 16 * c, 8, 4⟩
def AIR_CL_MISSED_COUNT (c : Nat) : Fld := ⟨0x2800204 + 16 * c, 0, 32⟩
def AIR_CL_OVERRUN_COUNT (c : Nat) : Fld := ⟨0x2800208 + 16 * c, 0, 32⟩
def AIR_CL_LATE_ENTRY_COUNT (c : Nat) : Fld := ⟨0x280020c + 16 * c, 0, 32⟩
def AIR_CARRIER_STATE (k : Nat) : Fld := ⟨0x2801000 + 8 * k, 0, 3⟩
def AIR_CARRIER_CLUSTER (k : Nat) : Fld := ⟨0x2801000 + 8 * k, 3, 4⟩
def AIR_CARRIER_LOCAL (k : Nat) : Fld := ⟨0x2801000 + 8 * k, 7, 4⟩
def AIR_CARRIER_CLASS (k : Nat) : Fld := ⟨0x2801000 + 8 * k, 11, 4⟩
def AIR_CARRIER_RU (k : Nat) : Fld := ⟨0x2801000 + 8 * k, 15, 6⟩
def AIR_CARRIER_NULL_COUNT (k : Nat) : Fld := ⟨0x2801004 + 8 * k, 0, 32⟩
def AIR_RU_STATE_STATE (r : Nat) : Fld := ⟨0x2804000 + 32 * r, 0, 3⟩
def AIR_RU_STATE_PORT (r : Nat) : Fld := ⟨0x2804000 + 32 * r, 3, 5⟩
def AIR_RU_STATE_CAT_B (r : Nat) : Fld := ⟨0x2804000 + 32 * r, 8, 1⟩
def AIR_RU_MAC_MAC (r : Nat) : Fld := ⟨0x2804008 + 32 * r, 0, 48⟩
def AIR_RU_SUP_MISS_COUNT (r : Nat) : Fld := ⟨0x2804010 + 32 * r, 0, 32⟩
def AIR_FH_UL_EARLY_COUNT (c : Nat) : Fld := ⟨0x2806000 + 16 * c, 0, 32⟩
def AIR_FH_UL_LATE_COUNT (c : Nat) : Fld := ⟨0x2806004 + 16 * c, 0, 32⟩
def AIR_FH_PRB_MISSING_COUNT (c : Nat) : Fld := ⟨0x2806008 + 16 * c, 0, 32⟩
def AIR_FH_DROPPED_COUNT (c : Nat) : Fld := ⟨0x280600c + 16 * c, 0, 32⟩
def RADIO_CL_STATUS_BUSY (cluster : Nat) : Fld := ⟨0x1000000 + 262144 * cluster, 0, 13⟩
def RADIO_ERR_STREAM_FAIL (cluster : Nat) : Fld := ⟨0x1000004 + 262144 * cluster, 0, 1⟩
def RADIO_ERR_TRIG_DROP (cluster : Nat) : Fld := ⟨0x1000004 + 262144 * cluster, 1, 1⟩
def RADIO_ERR_SRAM_UNCORR (cluster : Nat) : Fld := ⟨0x1000004 + 262144 * cluster, 2, 1⟩
def RADIO_TRIG_DROP_COUNT (cluster : Nat) : Fld := ⟨0x1000008 + 262144 * cluster, 0, 32⟩
def RADIO_LAST_FAIL_CODE (cluster : Nat) : Fld := ⟨0x100000c + 262144 * cluster, 0, 8⟩
def RADIO_LAST_FAIL_UNIT (cluster : Nat) : Fld := ⟨0x100000c + 262144 * cluster, 8, 4⟩
def RADIO_LAST_FAIL_TAG (cluster : Nat) : Fld := ⟨0x100000c + 262144 * cluster, 12, 8⟩
def RADIO_LAST_STREAM_ADDR (cluster : Nat) : Fld := ⟨0x1000010 + 262144 * cluster, 0, 23⟩
def RADIO_CNT_VALUE (cluster n : Nat) : Fld := ⟨0x1000100 + 262144 * cluster + 4 * n, 0, 32⟩
def RADIO_UNIT_STATUS_STATE (cluster u : Nat) : Fld := ⟨0x1000200 + 262144 * cluster + 32 * u, 0, 2⟩
def RADIO_UNIT_STATUS_QUEUED (cluster u : Nat) : Fld := ⟨0x1000200 + 262144 * cluster + 32 * u, 2, 5⟩
def RADIO_UNIT_STREAM_ADDR (cluster u : Nat) : Fld := ⟨0x1000204 + 262144 * cluster + 32 * u, 0, 23⟩
def RADIO_UNIT_DONE_COUNT (cluster u : Nat) : Fld := ⟨0x1000208 + 262144 * cluster + 32 * u, 0, 32⟩
def RADIO_UNIT_FAIL_COUNT (cluster u : Nat) : Fld := ⟨0x100020c + 262144 * cluster + 32 * u, 0, 32⟩
def RADIO_SRAM_ECC_CORR_COUNT (cluster : Nat) : Fld := ⟨0x1000400 + 262144 * cluster, 0, 32⟩
def RADIO_SRAM_ECC_UNCORR_COUNT (cluster : Nat) : Fld := ⟨0x1000404 + 262144 * cluster, 0, 32⟩
def RADIO_SRAM_ECC_ADDR_ADDR (cluster : Nat) : Fld := ⟨0x1000408 + 262144 * cluster, 0, 23⟩
def RADIO_MICA_SAT_COUNT (cluster : Nat) : Fld := ⟨0x1000410 + 262144 * cluster, 0, 32⟩
def RADIO_LDPC_CB_COUNT (cluster : Nat) : Fld := ⟨0x1000500 + 262144 * cluster, 0, 64⟩
def RADIO_LDPC_ITER_COUNT (cluster : Nat) : Fld := ⟨0x1000508 + 262144 * cluster, 0, 64⟩
def RADIO_LDPC_CAPPED_COUNT (cluster : Nat) : Fld := ⟨0x1000510 + 262144 * cluster, 0, 32⟩
def RADIO_LDPC_CRCFAIL_COUNT (cluster : Nat) : Fld := ⟨0x1000514 + 262144 * cluster, 0, 32⟩
def NF_HDR_GROUPS (k : Nat) : Fld := ⟨0x2840000 + 1024 * k, 0, 5⟩
def NF_HDR_STREAMS (k : Nat) : Fld := ⟨0x2840000 + 1024 * k, 5, 5⟩
def NF_HDR_GROUP32 (k : Nat) : Fld := ⟨0x2840000 + 1024 * k, 10, 1⟩
def NF_SLOT_SLOT_ID (k : Nat) : Fld := ⟨0x2840004 + 1024 * k, 0, 19⟩
def NF_STALE_STALE (k : Nat) : Fld := ⟨0x2840008 + 1024 * k, 0, 18⟩
def NF_UPDATES_COUNT (k : Nat) : Fld := ⟨0x284000c + 1024 * k, 0, 32⟩
def NF_LEVEL_LEVEL_EVEN (k s w : Nat) : Fld := ⟨0x2840010 + 1024 * k + 36 * s + 4 * w, 0, 16⟩
def NF_LEVEL_LEVEL_ODD (k s w : Nat) : Fld := ⟨0x2840010 + 1024 * k + 36 * s + 4 * w, 16, 16⟩
def RX_PRACH_THR_THR (cluster l : Nat) : Fld := ⟨0x1000800 + 262144 * cluster + 64 * l, 0, 16⟩
def RX_PRACH_THR_THR_HALF (cluster l : Nat) : Fld := ⟨0x1000800 + 262144 * cluster + 64 * l, 16, 16⟩
def RX_PRACH_QUAL_PSR_MIN (cluster l : Nat) : Fld := ⟨0x1000804 + 262144 * cluster + 64 * l, 0, 8⟩
def RX_PRACH_QUAL_REP_CHK (cluster l : Nat) : Fld := ⟨0x1000804 + 262144 * cluster + 64 * l, 8, 1⟩
def RX_PRACH_QUAL_NF_ADJ (cluster l : Nat) : Fld := ⟨0x1000804 + 262144 * cluster + 64 * l, 16, 16⟩
def RX_NF_CTRL_GROUP32 (cluster l : Nat) : Fld := ⟨0x1000808 + 262144 * cluster + 64 * l, 0, 1⟩
def RX_NF_CTRL_ALPHA (cluster l : Nat) : Fld := ⟨0x1000808 + 262144 * cluster + 64 * l, 1, 3⟩
def RX_NF_CTRL_NF_MIN_RE (cluster l : Nat) : Fld := ⟨0x1000808 + 262144 * cluster + 64 * l, 4, 8⟩
def RX_NF_TIME_NF_STALE (cluster l : Nat) : Fld := ⟨0x100080c + 262144 * cluster + 64 * l, 0, 16⟩
def RX_NF_TIME_NF_DEFAULT (cluster l : Nat) : Fld := ⟨0x100080c + 262144 * cluster + 64 * l, 16, 16⟩
def RX_TRK_CTRL_KF (cluster l : Nat) : Fld := ⟨0x1000810 + 262144 * cluster + 64 * l, 0, 3⟩
def RX_TRK_CTRL_KT (cluster l : Nat) : Fld := ⟨0x1000810 + 262144 * cluster + 64 * l, 3, 3⟩
def RX_TRK_CTRL_TRK_IDLE (cluster l : Nat) : Fld := ⟨0x1000810 + 262144 * cluster + 64 * l, 6, 10⟩
def RX_TRK_CTRL_F_CLAMP (cluster l : Nat) : Fld := ⟨0x1000810 + 262144 * cluster + 64 * l, 16, 16⟩
def RX_FB_CTRL_CORES (cluster l : Nat) : Fld := ⟨0x1000814 + 262144 * cluster + 64 * l, 0, 4⟩
def RX_PRACH_DET_COUNT (cluster l : Nat) : Fld := ⟨0x1000c00 + 262144 * cluster + 32 * l, 0, 32⟩
def RX_PRACH_PSR_REJ_COUNT (cluster l : Nat) : Fld := ⟨0x1000c04 + 262144 * cluster + 32 * l, 0, 32⟩
def RX_PRACH_REP_REJ_COUNT (cluster l : Nat) : Fld := ⟨0x1000c08 + 262144 * cluster + 32 * l, 0, 32⟩
def RX_PRACH_DEFAULT_COUNT (cluster l : Nat) : Fld := ⟨0x1000c0c + 262144 * cluster + 32 * l, 0, 32⟩
def TRK_NOCTX_COUNT (cluster l : Nat) : Fld := ⟨0x1000c10 + 262144 * cluster + 32 * l, 0, 32⟩
def TRK_CLAMP_COUNT (cluster l : Nat) : Fld := ⟨0x1000c14 + 262144 * cluster + 32 * l, 0, 32⟩
def TRK_EVICT_COUNT (cluster l : Nat) : Fld := ⟨0x1000c18 + 262144 * cluster + 32 * l, 0, 32⟩
def RX_FALLBACK_COUNT (cluster l : Nat) : Fld := ⟨0x1000c1c + 262144 * cluster + 32 * l, 0, 32⟩
def TIME_STATUS_TIME_LOCK : Fld := ⟨0x10000, 0, 1⟩
def TIME_STATUS_ACTIVE : Fld := ⟨0x10000, 1, 1⟩
def TIME_STATUS_SLEWING : Fld := ⟨0x10000, 2, 1⟩
def TIME_STATUS_HO_EXPIRED : Fld := ⟨0x10000, 3, 1⟩
def TIME_STATUS_SYNCE_STATE : Fld := ⟨0x10000, 4, 2⟩
def TIME_CAPTURE_CAPTURE : Fld := ⟨0x10004, 0, 1⟩
def TIME_CAP_NS_FRAC : Fld := ⟨0x10008, 0, 16⟩
def TIME_CAP_NS_NS : Fld := ⟨0x10008, 16, 30⟩
def TIME_CAP_SEC_SEC : Fld := ⟨0x10010, 0, 48⟩
def TIME_CAP_GAP_GAP_NS : Fld := ⟨0x10018, 0, 32⟩
def TIME_HO_ELAPSED_SECONDS : Fld := ⟨0x1001c, 0, 32⟩
def TIME_EVENT_LOCK_LOST : Fld := ⟨0x10020, 0, 1⟩
def TIME_EVENT_LOCK_GAINED : Fld := ⟨0x10020, 1, 1⟩
def TIME_EVENT_SWITCHED : Fld := ⟨0x10020, 2, 1⟩
def TIME_EVENT_SWITCH_BLOCKED : Fld := ⟨0x10020, 3, 1⟩
def TIME_EVENT_HO_EXPIRED : Fld := ⟨0x10020, 4, 1⟩
def TIME_EVENT_STEPPED : Fld := ⟨0x10020, 5, 1⟩
def TIME_EVENT_SYNCE_REF_CHANGE : Fld := ⟨0x10020, 6, 1⟩
def TIME_EVENT_TOD_IN_ERR : Fld := ⟨0x10020, 7, 1⟩
def TIME_SEL_CTRL_AUTO : Fld := ⟨0x10040, 0, 1⟩
def TIME_SEL_CTRL_PREFERRED : Fld := ⟨0x10040, 1, 1⟩
def TIME_SEL_CTRL_MANUAL_ACTIVE : Fld := ⟨0x10040, 2, 1⟩
def TIME_SEL_CTRL_SLEW_PPB : Fld := ⟨0x10040, 3, 6⟩
def TIME_SEL_CTRL_REVERT_S : Fld := ⟨0x10040, 9, 12⟩
def TIME_SEL_SWITCH_SWITCH_MAX_NS : Fld := ⟨0x10044, 0, 16⟩
def TIME_HO_CFG_HO_LIMIT_S : Fld := ⟨0x10048, 0, 16⟩
def TIME_HO_CFG_HO_LIMIT_SE_S : Fld := ⟨0x10048, 16, 16⟩
def TIME_HO_ACT_HO_ACTION : Fld := ⟨0x1004c, 0, 1⟩
def TIME_DOM_CFG_SOURCE (d : Nat) : Fld := ⟨0x10100 + 128 * d, 0, 1⟩
def TIME_DOM_CFG_PPS_PIN (d : Nat) : Fld := ⟨0x10100 + 128 * d, 1, 1⟩
def TIME_DOM_CFG_MCAST (d : Nat) : Fld := ⟨0x10100 + 128 * d, 2, 1⟩
def TIME_DOM_CFG_DOMAIN_NUM (d : Nat) : Fld := ⟨0x10100 + 128 * d, 3, 8⟩
def TIME_DOM_CFG_PORT0 (d : Nat) : Fld := ⟨0x10100 + 128 * d, 11, 6⟩
def TIME_DOM_CFG_PORT1 (d : Nat) : Fld := ⟨0x10100 + 128 * d, 17, 6⟩
def TIME_DOM_CFG_PORT1_EN (d : Nat) : Fld := ⟨0x10100 + 128 * d, 23, 1⟩
def TIME_DOM_LOOP_KP_LOG2 (d : Nat) : Fld := ⟨0x10104 + 128 * d, 0, 4⟩
def TIME_DOM_LOOP_KI_LOG2 (d : Nat) : Fld := ⟨0x10104 + 128 * d, 4, 4⟩
def TIME_DOM_LOOP_LOCK_NS (d : Nat) : Fld := ⟨0x10104 + 128 * d, 8, 10⟩
def TIME_DOM_LOOP_UNLOCK_NS (d : Nat) : Fld := ⟨0x10104 + 128 * d, 18, 12⟩
def TIME_DOM_STATUS_STATE (d : Nat) : Fld := ⟨0x10110 + 128 * d, 0, 2⟩
def TIME_DOM_STATUS_PORT (d : Nat) : Fld := ⟨0x10110 + 128 * d, 2, 6⟩
def TIME_DOM_STATUS_GM_CLASS (d : Nat) : Fld := ⟨0x10110 + 128 * d, 8, 8⟩
def TIME_DOM_OFFSET_NS (d : Nat) : Fld := ⟨0x10114 + 128 * d, 0, 32⟩
def TIME_DOM_FREQ_PPB (d : Nat) : Fld := ⟨0x10118 + 128 * d, 0, 32⟩
def TIME_DOM_PATH_DELAY (d : Nat) : Fld := ⟨0x1011c + 128 * d, 0, 32⟩
def TIME_DOM_GM_IDENTITY (d : Nat) : Fld := ⟨0x10120 + 128 * d, 0, 64⟩
def TIME_DOM_UPDATES_COUNT (d : Nat) : Fld := ⟨0x10128 + 128 * d, 0, 32⟩
def TIME_SYNCE_CFG_EN : Fld := ⟨0x10200, 0, 1⟩
def TIME_SYNCE_CFG_CAND0 : Fld := ⟨0x10200, 1, 6⟩
def TIME_SYNCE_CFG_EN0 : Fld := ⟨0x10200, 7, 1⟩
def TIME_SYNCE_CFG_CAND1 : Fld := ⟨0x10200, 8, 6⟩
def TIME_SYNCE_CFG_EN1 : Fld := ⟨0x10200, 14, 1⟩
def TIME_SYNCE_CFG_CAND2 : Fld := ⟨0x10200, 15, 6⟩
def TIME_SYNCE_CFG_EN2 : Fld := ⟨0x10200, 21, 1⟩
def TIME_SYNCE_CFG_CAND3 : Fld := ⟨0x10200, 22, 6⟩
def TIME_SYNCE_CFG_EN3 : Fld := ⟨0x10200, 28, 1⟩
def TIME_SYNCE_CFG_QL_EN : Fld := ⟨0x10200, 29, 1⟩
def TIME_SYNCE_TIMING_WTR_S : Fld := ⟨0x10204, 0, 12⟩
def TIME_SYNCE_TIMING_HOLDOFF_MS : Fld := ⟨0x10204, 12, 10⟩
def TIME_SYNCE_STATUS_PORT : Fld := ⟨0x10208, 0, 6⟩
def TIME_SYNCE_STATUS_QL : Fld := ⟨0x10208, 6, 4⟩
def TIME_TOD_CFG_DELAY_COMP : Fld := ⟨0x10300, 0, 16⟩
def TIME_TOD_CFG_UTC_OFFSET : Fld := ⟨0x10300, 16, 16⟩
def TIME_TOD_LEAP_LEAP : Fld := ⟨0x10304, 0, 2⟩
def TIME_TOD_STATUS_ROLE : Fld := ⟨0x10308, 0, 2⟩
def TIME_TOD_RX_OK_COUNT : Fld := ⟨0x1030c, 0, 32⟩
def TIME_TOD_RX_ERR_COUNT : Fld := ⟨0x10310, 0, 32⟩
def TIME_MASTER_MASK_MASK : Fld := ⟨0x10400, 0, 40⟩
def TIME_MASTER_CFG_DOMAIN_NUM : Fld := ⟨0x10408, 0, 8⟩
def TIME_MASTER_CFG_TWO_STEP : Fld := ⟨0x10408, 8, 1⟩
def TIME_MASTER_CFG_MCAST : Fld := ⟨0x10408, 9, 1⟩
def TIME_PORT_ASYM_ASYM (p : Nat) : Fld := ⟨0x11000 + 4 * p, 0, 32⟩
def PORT_STATUS_LINK (port : Nat) : Fld := ⟨0x3000000 + 65536 * port, 0, 2⟩
def PORT_STATUS_SPEED (port : Nat) : Fld := ⟨0x3000000 + 65536 * port, 2, 2⟩
def PORT_STATUS_GATE_PENDING (port : Nat) : Fld := ⟨0x3000000 + 65536 * port, 4, 1⟩
def PORT_STATUS_GATE_ACTIVE (port : Nat) : Fld := ⟨0x3000000 + 65536 * port, 5, 1⟩
def PORT_EVENT_LINK_DOWN (port : Nat) : Fld := ⟨0x3000004 + 65536 * port, 0, 1⟩
def PORT_EVENT_LINK_UP (port : Nat) : Fld := ⟨0x3000004 + 65536 * port, 1, 1⟩
def PORT_EVENT_GATE_SWITCHED (port : Nat) : Fld := ⟨0x3000004 + 65536 * port, 2, 1⟩
def PORT_EVENT_TX_LATE (port : Nat) : Fld := ⟨0x3000004 + 65536 * port, 3, 1⟩
def PORT_CTRL_ADMIN_UP (port : Nat) : Fld := ⟨0x3000010 + 65536 * port, 0, 1⟩
def PORT_CTRL_MTU (port : Nat) : Fld := ⟨0x3000010 + 65536 * port, 1, 14⟩
def PORT_CTRL_DEFAULT_Q (port : Nat) : Fld := ⟨0x3000010 + 65536 * port, 15, 4⟩
def PORT_CTRL_UP_HOLD_MS (port : Nat) : Fld := ⟨0x3000010 + 65536 * port, 19, 10⟩
def PORT_QMAP_Q0 (port : Nat) : Fld := ⟨0x3000014 + 65536 * port, 0, 4⟩
def PORT_QMAP_Q1 (port : Nat) : Fld := ⟨0x3000014 + 65536 * port, 4, 4⟩
def PORT_QMAP_Q2 (port : Nat) : Fld := ⟨0x3000014 + 65536 * port, 8, 4⟩
def PORT_QMAP_Q3 (port : Nat) : Fld := ⟨0x3000014 + 65536 * port, 12, 4⟩
def PORT_QMAP_Q4 (port : Nat) : Fld := ⟨0x3000014 + 65536 * port, 16, 4⟩
def PORT_QMAP_Q5 (port : Nat) : Fld := ⟨0x3000014 + 65536 * port, 20, 4⟩
def PORT_QMAP_Q6 (port : Nat) : Fld := ⟨0x3000014 + 65536 * port, 24, 4⟩
def PORT_QMAP_Q7 (port : Nat) : Fld := ⟨0x3000014 + 65536 * port, 28, 4⟩
def PORT_SRC_PCP_PTP_PCP (port : Nat) : Fld := ⟨0x3000018 + 65536 * port, 0, 3⟩
def PORT_SRC_PCP_CPLANE_PCP (port : Nat) : Fld := ⟨0x3000018 + 65536 * port, 3, 3⟩
def PORT_SRC_PCP_UPLANE_PCP (port : Nat) : Fld := ⟨0x3000018 + 65536 * port, 6, 3⟩
def PORT_SRC_PCP_MPLANE_PCP (port : Nat) : Fld := ⟨0x3000018 + 65536 * port, 9, 3⟩
def PORT_VLAN_FH_VID (port : Nat) : Fld := ⟨0x300001c + 65536 * port, 0, 12⟩
def PORT_VLAN_MGMT_VID (port : Nat) : Fld := ⟨0x300001c + 65536 * port, 12, 12⟩
def PORT_Q_SHAPE_RATE (port q : Nat) : Fld := ⟨0x3000100 + 65536 * port + 16 * q, 0, 32⟩
def PORT_Q_BURST_BURST (port q : Nat) : Fld := ⟨0x3000104 + 65536 * port + 16 * q, 0, 16⟩
def PORT_Q_BURST_SH_EN (port q : Nat) : Fld := ⟨0x3000104 + 65536 * port + 16 * q, 16, 1⟩
def PORT_Q_LIMIT_LIMIT (port q : Nat) : Fld := ⟨0x3000108 + 65536 * port + 16 * q, 0, 8⟩
def PORT_POL_CIR_CIR_MBPS (port p : Nat) : Fld := ⟨0x3000400 + 65536 * port + 16 * p, 0, 20⟩
def PORT_POL_CIR_EN (port p : Nat) : Fld := ⟨0x3000400 + 65536 * port + 16 * p, 20, 1⟩
def PORT_POL_CIR_AWARE (port p : Nat) : Fld := ⟨0x3000400 + 65536 * port + 16 * p, 21, 1⟩
def PORT_POL_CIR_YELLOW_DROP (port p : Nat) : Fld := ⟨0x3000400 + 65536 * port + 16 * p, 22, 1⟩
def PORT_POL_PIR_PIR_MBPS (port p : Nat) : Fld := ⟨0x3000404 + 65536 * port + 16 * p, 0, 20⟩
def PORT_POL_CBS_CBS (port p : Nat) : Fld := ⟨0x3000408 + 65536 * port + 16 * p, 0, 24⟩
def PORT_POL_PBS_PBS (port p : Nat) : Fld := ⟨0x300040c + 65536 * port + 16 * p, 0, 24⟩
def GATE_CTRL_GATE_EN (port : Nat) : Fld := ⟨0x3000800 + 65536 * port, 0, 1⟩
def GATE_BASE_TIME_TIME (port : Nat) : Fld := ⟨0x3000808 + 65536 * port, 0, 64⟩
def GATE_CYCLE_CYCLE_NS (port : Nat) : Fld := ⟨0x3000810 + 65536 * port, 0, 32⟩
def GATE_CYCLE_EXT_CYCLE_EXT_NS (port : Nat) : Fld := ⟨0x3000814 + 65536 * port, 0, 32⟩
def GATE_LIST_LEN_LEN (port : Nat) : Fld := ⟨0x3000818 + 65536 * port, 0, 11⟩
def GATE_CHANGE_TIME_TIME (port : Nat) : Fld := ⟨0x3000820 + 65536 * port, 0, 64⟩
def GATE_LIST_ENTRY (port i : Nat) : Fld := ⟨0x3002000 + 65536 * port + 8 * i, 0, 64⟩
def PORT_RX_FRAMES_COUNT (port : Nat) : Fld := ⟨0x3004000 + 65536 * port, 0, 64⟩
def PORT_RX_BYTES_COUNT (port : Nat) : Fld := ⟨0x3004008 + 65536 * port, 0, 64⟩
def PORT_TX_FRAMES_COUNT (port : Nat) : Fld := ⟨0x3004010 + 65536 * port, 0, 64⟩
def PORT_TX_BYTES_COUNT (port : Nat) : Fld := ⟨0x3004018 + 65536 * port, 0, 64⟩
def PORT_RX_FCS_ERR_COUNT (port : Nat) : Fld := ⟨0x3004020 + 65536 * port, 0, 32⟩
def PORT_RX_LEN_ERR_COUNT (port : Nat) : Fld := ⟨0x3004024 + 65536 * port, 0, 32⟩
def PORT_RX_PAUSE_COUNT (port : Nat) : Fld := ⟨0x3004028 + 65536 * port, 0, 32⟩
def PORT_RX_UNCLAIMED_COUNT (port : Nat) : Fld := ⟨0x300402c + 65536 * port, 0, 32⟩
def PORT_LINK_FLAPS_COUNT (port : Nat) : Fld := ⟨0x3004030 + 65536 * port, 0, 32⟩
def PORT_Q_TX_FRAMES_COUNT (port q : Nat) : Fld := ⟨0x3004100 + 65536 * port + 32 * q, 0, 64⟩
def PORT_Q_DROP_FULL_COUNT (port q : Nat) : Fld := ⟨0x3004108 + 65536 * port + 32 * q, 0, 32⟩
def PORT_Q_GATE_DROP_COUNT (port q : Nat) : Fld := ⟨0x300410c + 65536 * port + 32 * q, 0, 32⟩
def PORT_Q_TX_LATE_COUNT (port q : Nat) : Fld := ⟨0x3004110 + 65536 * port + 32 * q, 0, 32⟩
def PORT_Q_LINK_DROP_COUNT (port q : Nat) : Fld := ⟨0x3004114 + 65536 * port + 32 * q, 0, 32⟩
def PORT_POL_GREEN_COUNT (port p : Nat) : Fld := ⟨0x3004400 + 65536 * port + 16 * p, 0, 32⟩
def PORT_POL_YELLOW_COUNT (port p : Nat) : Fld := ⟨0x3004404 + 65536 * port + 16 * p, 0, 32⟩
def PORT_POL_RED_COUNT (port p : Nat) : Fld := ⟨0x3004408 + 65536 * port + 16 * p, 0, 32⟩
def FAB_STATUS_POD : Fld := ⟨0x3400000, 0, 4⟩
def FAB_STATUS_DEV : Fld := ⟨0x3400000, 4, 8⟩
def FAB_STATUS_EPOCH : Fld := ⟨0x3400000, 12, 16⟩
def FAB_STATUS_NUMBERED : Fld := ⟨0x3400000, 28, 1⟩
def FAB_EVENT_LINK_DOWN : Fld := ⟨0x3400004, 0, 1⟩
def FAB_EVENT_PEER_UP : Fld := ⟨0x3400004, 1, 1⟩
def FAB_EVENT_PKEY_REJECT : Fld := ⟨0x3400004, 2, 1⟩
def FAB_EVENT_MISCABLED : Fld := ⟨0x3400004, 3, 1⟩
def FAB_EVENT_UNKNOWN_OUTCOME : Fld := ⟨0x3400004, 4, 1⟩
def FAB_CFG_DIRECT : Fld := ⟨0x3400008, 0, 1⟩
def FAB_CFG_DIRECT_POD : Fld := ⟨0x3400008, 1, 4⟩
def FAB_CFG_DIRECT_DEV : Fld := ⟨0x3400008, 5, 8⟩
def FAB_LAST_FAULT_CODE : Fld := ⟨0x340000c, 0, 8⟩
def FAB_PKEY_REJECT_COUNT : Fld := ⟨0x3400010, 0, 32⟩
def FAB_BAD_FLIT_COUNT : Fld := ⟨0x3400014, 0, 32⟩
def FAB_LINK_STATUS_STATE (l : Nat) : Fld := ⟨0x3400100 + 64 * l, 0, 2⟩
def FAB_LINK_STATUS_SWITCH (l : Nat) : Fld := ⟨0x3400100 + 64 * l, 2, 1⟩
def FAB_LINK_STATUS_PARTNER_PORT (l : Nat) : Fld := ⟨0x3400100 + 64 * l, 3, 8⟩
def FAB_LINK_STATUS_LANES (l : Nat) : Fld := ⟨0x3400100 + 64 * l, 11, 4⟩
def FAB_LINK_FEC_CORR_COUNT (l : Nat) : Fld := ⟨0x3400108 + 64 * l, 0, 64⟩
def FAB_LINK_FEC_UNCORR_COUNT (l : Nat) : Fld := ⟨0x3400110 + 64 * l, 0, 32⟩
def FAB_LINK_CRC_ERR_COUNT (l : Nat) : Fld := ⟨0x3400114 + 64 * l, 0, 32⟩
def FAB_LINK_REPLAYS_COUNT (l : Nat) : Fld := ⟨0x3400118 + 64 * l, 0, 32⟩
def FAB_LINK_CREDIT_VC0 (l : Nat) : Fld := ⟨0x340011c + 64 * l, 0, 8⟩
def FAB_LINK_CREDIT_VC1 (l : Nat) : Fld := ⟨0x340011c + 64 * l, 8, 8⟩
def FAB_LINK_CREDIT_VC2 (l : Nat) : Fld := ⟨0x340011c + 64 * l, 16, 8⟩
def FAB_LINK_CREDIT_VC3 (l : Nat) : Fld := ⟨0x340011c + 64 * l, 24, 8⟩
def FAB_PEER_STATE (d : Nat) : Fld := ⟨0x3401000 + 4 * d, 0, 2⟩
def FAB_PEER_EPOCH (d : Nat) : Fld := ⟨0x3401000 + 4 * d, 2, 16⟩
def FAB_PEER_LINKS (d : Nat) : Fld := ⟨0x3401000 + 4 * d, 18, 6⟩
def FAB_WIN_CTRL_KIND (w : Nat) : Fld := ⟨0x3402000 + 32 * w, 0, 2⟩
def FAB_WIN_CTRL_CACHEABLE (w : Nat) : Fld := ⟨0x3402000 + 32 * w, 2, 1⟩
def FAB_WIN_CTRL_SCOPE_FABRIC (w : Nat) : Fld := ⟨0x3402000 + 32 * w, 3, 1⟩
def FAB_WIN_CTRL_SRC_DEV (w : Nat) : Fld := ⟨0x3402000 + 32 * w, 4, 8⟩
def FAB_WIN_CTRL_SRC_ANY (w : Nat) : Fld := ⟨0x3402000 + 32 * w, 12, 1⟩
def FAB_WIN_CTRL_PKEY (w : Nat) : Fld := ⟨0x3402000 + 32 * w, 13, 16⟩
def FAB_WIN_TARGET_LEND (w : Nat) : Fld := ⟨0x3402004 + 32 * w, 0, 4⟩
def FAB_WIN_TARGET_SLICE (w : Nat) : Fld := ⟨0x3402004 + 32 * w, 4, 6⟩
def FAB_WIN_TARGET_TILE (w : Nat) : Fld := ⟨0x3402004 + 32 * w, 10, 8⟩
def FAB_WIN_TARGET_SLOTS_LOG2 (w : Nat) : Fld := ⟨0x3402004 + 32 * w, 18, 4⟩
def FAB_WIN_BASE_VADDR (w : Nat) : Fld := ⟨0x3402008 + 32 * w, 0, 64⟩
def FAB_WIN_HEAD_HEAD (w : Nat) : Fld := ⟨0x3402010 + 32 * w, 0, 32⟩
def FAB_WIN_TAIL_TAIL (w : Nat) : Fld := ⟨0x3402014 + 32 * w, 0, 32⟩
def FAB_OPQ_BASE_ADDR (q : Nat) : Fld := ⟨0x3408000 + 64 * q, 0, 64⟩
def FAB_OPQ_CFG_SIZE_LOG2 (q : Nat) : Fld := ⟨0x3408008 + 64 * q, 0, 4⟩
def FAB_OPQ_CFG_CORE (q : Nat) : Fld := ⟨0x3408008 + 64 * q, 4, 5⟩
def FAB_OPQ_CFG_SLICE (q : Nat) : Fld := ⟨0x3408008 + 64 * q, 9, 6⟩
def FAB_OPQ_CFG_OWNER (q : Nat) : Fld := ⟨0x3408008 + 64 * q, 15, 1⟩
def FAB_OPQ_TAIL_TAIL (q : Nat) : Fld := ⟨0x340800c + 64 * q, 0, 32⟩
def FAB_OPQ_HEAD_HEAD (q : Nat) : Fld := ⟨0x3408010 + 64 * q, 0, 32⟩
def FAB_RLC_CTRL_EN : Fld := ⟨0x340c000, 0, 1⟩
def FAB_RLC_CTRL_INV_ALL : Fld := ⟨0x340c000, 1, 1⟩
def FAB_RLC_CTRL_INV_BUSY : Fld := ⟨0x340c000, 2, 1⟩
def FAB_RLC_HITS_COUNT : Fld := ⟨0x340c008, 0, 64⟩
def FAB_RLC_MISSES_COUNT : Fld := ⟨0x340c010, 0, 64⟩
def FAB_CAIRN_LEVEL_ENTRIES : Fld := ⟨0x340c100, 0, 13⟩
def FAB_CAIRN_MAX_ENTRIES : Fld := ⟨0x340c104, 0, 13⟩
def FAB_CAIRN_COALESCED_COUNT : Fld := ⟨0x340c108, 0, 64⟩
def FAB_RPL_LEVEL_ENTRIES (l : Nat) : Fld := ⟨0x340c200 + 4 * l, 0, 13⟩
def FAB_RPL_HITS_COUNT : Fld := ⟨0x340c220, 0, 32⟩
def FAB_RPL_UNKNOWN_COUNT : Fld := ⟨0x340c224, 0, 32⟩
def FAB_RPL_FULL_COUNT : Fld := ⟨0x340c228, 0, 32⟩
def FAB_SLICE_PKEY_PKEY (s : Nat) : Fld := ⟨0x340d000 + 4 * s, 0, 16⟩
def FAB_LINK_PARK_PARKED (l : Nat) : Fld := ⟨0x3400120 + 64 * l, 0, 1⟩
def FAB_LINK_PARK_LANE (l : Nat) : Fld := ⟨0x3400120 + 64 * l, 1, 3⟩
def FAB_LINK_PARK_HELD (l : Nat) : Fld := ⟨0x3400120 + 64 * l, 4, 1⟩
def FAB_LINK_PARK_UNPARK (l : Nat) : Fld := ⟨0x3400120 + 64 * l, 5, 1⟩
def FAB_LINK_RETRAINS_COUNT (l : Nat) : Fld := ⟨0x3400124 + 64 * l, 0, 32⟩
def FAB_LANE_CHARGE_CHARGE0 (l : Nat) : Fld := ⟨0x3400128 + 64 * l, 0, 2⟩
def FAB_LANE_CHARGE_CHARGE1 (l : Nat) : Fld := ⟨0x3400128 + 64 * l, 2, 2⟩
def FAB_LANE_CHARGE_CHARGE2 (l : Nat) : Fld := ⟨0x3400128 + 64 * l, 4, 2⟩
def FAB_LANE_CHARGE_CHARGE3 (l : Nat) : Fld := ⟨0x3400128 + 64 * l, 6, 2⟩
def FAB_LANE_CHARGE_CHARGE4 (l : Nat) : Fld := ⟨0x3400128 + 64 * l, 8, 2⟩
def FAB_LANE_CHARGE_CHARGE5 (l : Nat) : Fld := ⟨0x3400128 + 64 * l, 10, 2⟩
def FAB_LANE_CHARGE_CHARGE6 (l : Nat) : Fld := ⟨0x3400128 + 64 * l, 12, 2⟩
def FAB_LANE_CHARGE_CHARGE7 (l : Nat) : Fld := ⟨0x3400128 + 64 * l, 14, 2⟩
def FAB_LANE_WARN_WARN (l : Nat) : Fld := ⟨0x340012c + 64 * l, 0, 8⟩
def FAB_DETECT_CFG_DEAD_HELLOS : Fld := ⟨0x3400400, 0, 7⟩
def FAB_DETECT_CFG_SUSPECT_SET : Fld := ⟨0x3400400, 7, 7⟩
def FAB_DETECT_CFG_SUSPECT_CLEAR : Fld := ⟨0x3400400, 14, 7⟩
def FAB_DETECT_LAG_SUSPECT_LAG_NS : Fld := ⟨0x3400404, 0, 24⟩
def FAB_DETECT_WARN_WARN_SYM : Fld := ⟨0x3400408, 0, 24⟩
def FAB_FENCE_STATUS_SELF_FENCED : Fld := ⟨0x3400410, 0, 1⟩
def FAB_FENCE_STATUS_HEAL_CONFLICT : Fld := ⟨0x3400410, 1, 1⟩
def FAB_FENCE_CTRL_DEV : Fld := ⟨0x3400414, 0, 8⟩
def FAB_FENCE_CTRL_FENCE : Fld := ⟨0x3400414, 8, 1⟩
def FAB_FENCE_CTRL_REJOIN : Fld := ⟨0x3400414, 9, 1⟩
def FAB_FENCE_COUNT_COUNT : Fld := ⟨0x3400418, 0, 32⟩
def FAB_FAULT_EVENT_PEER_FENCED : Fld := ⟨0x340041c, 0, 1⟩
def FAB_FAULT_EVENT_SELF_FENCE : Fld := ⟨0x340041c, 1, 1⟩
def FAB_FAULT_EVENT_SUSPECT : Fld := ⟨0x340041c, 2, 1⟩
def FAB_FAULT_EVENT_LANE_PARKED : Fld := ⟨0x340041c, 3, 1⟩
def FAB_FAULT_EVENT_LANE_WARN : Fld := ⟨0x340041c, 4, 1⟩
def FAB_FAULT_EVENT_CREDIT_LEAK : Fld := ⟨0x340041c, 5, 1⟩
def FAB_FAULT_EVENT_BOOKS_FAULT : Fld := ⟨0x340041c, 6, 1⟩
def FAB_BAR_CFG_WINDOW (n : Nat) : Fld := ⟨0x3400420 + 16 * n, 0, 8⟩
def FAB_BAR_CFG_EN (n : Nat) : Fld := ⟨0x3400420 + 16 * n, 8, 1⟩
def FAB_BAR_CFG_TARGET_M1 (n : Nat) : Fld := ⟨0x3400420 + 16 * n, 9, 8⟩
def FAB_BAR_LAST_DEV (n : Nat) : Fld := ⟨0x3400424 + 16 * n, 0, 8⟩
def FAB_BAR_LAST_LAG_NS (n : Nat) : Fld := ⟨0x3400424 + 16 * n, 8, 24⟩
def FAB_BAR_OFFSET_OFFSET (n : Nat) : Fld := ⟨0x3400428 + 16 * n, 3, 33⟩
def FAB_PEER_LAST_COUNT (d : Nat) : Fld := ⟨0x3400600 + 4 * d, 0, 7⟩
def FAB_PEER_LAST_SUSPECT (d : Nat) : Fld := ⟨0x3400600 + 4 * d, 7, 1⟩
def FAB_BOOKS_SNAP_QTY : Fld := ⟨0x340e000, 0, 8⟩
def FAB_BOOKS_SNAP_INDEX : Fld := ⟨0x340e000, 8, 16⟩
def FAB_BOOKS_SNAP_GO : Fld := ⟨0x340e000, 31, 1⟩
def FAB_BOOKS_STATUS_VALID : Fld := ⟨0x340e004, 0, 1⟩
def FAB_BOOKS_STATUS_BUSY : Fld := ⟨0x340e004, 1, 1⟩
def FAB_BOOKS_STATUS_QTY : Fld := ⟨0x340e004, 8, 8⟩
def FAB_BOOKS_STATUS_INDEX : Fld := ⟨0x340e004, 16, 16⟩
def FAB_BOOKS_A_A : Fld := ⟨0x340e008, 0, 64⟩
def FAB_BOOKS_B_B : Fld := ⟨0x340e010, 0, 64⟩
def FAB_BOOKS_C_C : Fld := ⟨0x340e018, 0, 64⟩
def FAB_BOOKS_TIME_TIME : Fld := ⟨0x340e020, 0, 64⟩
def FAB_BOOKS_FAULT_QTYn : Fld := ⟨0x340e028, 1, 9⟩
def FAB_BOOKS_FAULT_INDEX_INDEX : Fld := ⟨0x340e02c, 0, 16⟩
def FAB_BOOKS_FAULT_INDEX_QTY : Fld := ⟨0x340e02c, 16, 8⟩
def SLICE_IDENT_SLICE (slice : Nat) : Fld := ⟨0x10000000 + 1048576 * slice, 0, 6⟩
def SLICE_IDENT_TEMPLATE (slice : Nat) : Fld := ⟨0x10000000 + 1048576 * slice, 8, 4⟩
def SLICE_GEN_GEN (slice : Nat) : Fld := ⟨0x10000004 + 1048576 * slice, 0, 16⟩
def SLICE_STATE_STATE (slice : Nat) : Fld := ⟨0x10000008 + 1048576 * slice, 0, 3⟩
def SLICE_LIMITS_QUEUES (slice : Nat) : Fld := ⟨0x1000000c + 1048576 * slice, 0, 5⟩
def SLICE_LIMITS_JOB_TILES_MAX (slice : Nat) : Fld := ⟨0x1000000c + 1048576 * slice, 5, 8⟩
def SLICE_LIMITS_SEQ_SHARE (slice : Nat) : Fld := ⟨0x1000000c + 1048576 * slice, 13, 15⟩
def SLICE_TILES_PLANNED (slice : Nat) : Fld := ⟨0x10000010 + 1048576 * slice, 0, 8⟩
def SLICE_TILES_RUNNING (slice : Nat) : Fld := ⟨0x10000010 + 1048576 * slice, 8, 8⟩
def SLICECTL_STATUS_OPEN : Fld := ⟨0x2200000, 0, 7⟩
def SLICECTL_STATUS_ACTIVE : Fld := ⟨0x2200000, 7, 3⟩
def SLICECTL_CMD_SLICE : Fld := ⟨0x2200004, 0, 6⟩
def SLICECTL_CMD_OP : Fld := ⟨0x2200004, 6, 2⟩
def SLICECTL_CMD_TEMPLATE : Fld := ⟨0x2200004, 8, 4⟩
def SLICECTL_CMD_GO : Fld := ⟨0x2200004, 31, 1⟩
def SLICECTL_RESULT_CODE : Fld := ⟨0x2200008, 0, 8⟩
def SLICECTL_RESULT_SLICE : Fld := ⟨0x2200008, 8, 6⟩
def SLICECTL_EVENT_DONE : Fld := ⟨0x220000c, 0, 1⟩
def SLICECTL_EVENT_STALE : Fld := ⟨0x220000c, 1, 1⟩
def SLICECTL_EP_UNMATCHED_COUNT : Fld := ⟨0x2200010, 0, 32⟩
def SC_LIMITS_QUEUES (s : Nat) : Fld := ⟨0x2201000 + 64 * s, 0, 5⟩
def SC_LIMITS_JOB_TILES_MAX (s : Nat) : Fld := ⟨0x2201000 + 64 * s, 5, 8⟩
def SC_SEQ_SEQ_BASE (s : Nat) : Fld := ⟨0x2201004 + 64 * s, 0, 14⟩
def SC_SEQ_SEQ_SHARE (s : Nat) : Fld := ⟨0x2201004 + 64 * s, 14, 15⟩
def SC_STALE_DROP_COUNT (s : Nat) : Fld := ⟨0x2201008 + 64 * s, 0, 32⟩
def SC_LAST_RESET_NS_NS (s : Nat) : Fld := ⟨0x220100c + 64 * s, 0, 32⟩
def PASID_ENTRY_PASID (i : Nat) : Fld := ⟨0x2204000 + 8 * i, 0, 20⟩
def PASID_ENTRY_SLICE (i : Nat) : Fld := ⟨0x2204000 + 8 * i, 20, 6⟩
def PASID_ENTRY_VALID (i : Nat) : Fld := ⟨0x2204000 + 8 * i, 26, 1⟩
def PASID_ENTRY_HOST (i : Nat) : Fld := ⟨0x2204000 + 8 * i, 27, 1⟩
def EP_MATCH_MAC (e : Nat) : Fld := ⟨0x2206000 + 16 * e, 0, 48⟩
def EP_MATCH_VID (e : Nat) : Fld := ⟨0x2206000 + 16 * e, 48, 12⟩
def EP_MATCH_PORT (e : Nat) : Fld := ⟨0x2206000 + 16 * e, 60, 3⟩
def EP_MATCH_VALID (e : Nat) : Fld := ⟨0x2206000 + 16 * e, 63, 1⟩
def EP_TARGET_SLICE (e : Nat) : Fld := ⟨0x2206008 + 16 * e, 0, 6⟩
def EP_TARGET_CORE (e : Nat) : Fld := ⟨0x2206008 + 16 * e, 6, 4⟩
def FW_STATUS_PAIRING : Fld := ⟨0x40000, 0, 2⟩
def FW_STATUS_FLINT_ACTIVE : Fld := ⟨0x40000, 2, 1⟩
def FW_STATUS_STANDBY_OK : Fld := ⟨0x40000, 3, 1⟩
def FW_EVENT_CRASH : Fld := ⟨0x40004, 0, 1⟩
def FW_EVENT_TAKEOVER : Fld := ⟨0x40004, 1, 1⟩
def FW_EVENT_HELD : Fld := ⟨0x40004, 2, 1⟩
def FW_EVENT_ESCALATED : Fld := ⟨0x40004, 3, 1⟩
def FW_EVENT_SESSION : Fld := ⟨0x40004, 4, 1⟩
def FW_NOTIFY_PEND_PEND : Fld := ⟨0x40008, 0, 12⟩
def FW_NOTIFY_MASK_MASK : Fld := ⟨0x4000c, 0, 12⟩
def FW_NOTIFY_ROUTE_ROUTE : Fld := ⟨0x40010, 0, 2⟩
def FW_BOOT_RETRIES_COUNT : Fld := ⟨0x40014, 0, 16⟩
def FW_SVC_DROP_COUNT : Fld := ⟨0x40018, 0, 32⟩
def FW_LOG_LEVEL_AGATE : Fld := ⟨0x4001c, 0, 3⟩
def FW_LOG_LEVEL_JASPER : Fld := ⟨0x4001c, 3, 3⟩
def FW_LOG_LEVEL_FLINT : Fld := ⟨0x4001c, 6, 3⟩
def FW_LOG_LEVEL_SVC : Fld := ⟨0x4001c, 9, 3⟩
def FW_SET_DIGEST_DIGEST (wd : Nat) : Fld := ⟨0x40040 + 4 * wd, 0, 32⟩
def FW_IMAGE_VER_VERSION (k : Nat) : Fld := ⟨0x40080 + 4 * k, 0, 32⟩
def FW_IFACE_LEVEL_LEVEL (i : Nat) : Fld := ⟨0x400a0 + 4 * i, 0, 8⟩
def FW_CORE_STATUS_STATE (c : Nat) : Fld := ⟨0x40100 + 4 * c, 0, 3⟩
def FW_CORE_STATUS_FAPI (c : Nat) : Fld := ⟨0x40100 + 4 * c, 3, 1⟩
def FW_CORE_STATUS_RESTARTS (c : Nat) : Fld := ⟨0x40100 + 4 * c, 4, 4⟩
def FW_CORE_STATUS_LAST_CAUSE (c : Nat) : Fld := ⟨0x40100 + 4 * c, 8, 2⟩
def FW_CORE_CRASHES_COUNT (c : Nat) : Fld := ⟨0x40180 + 4 * c, 0, 16⟩
def FW_CORE_CTRL_CORE : Fld := ⟨0x40200, 0, 5⟩
def FW_CORE_CTRL_RESTART : Fld := ⟨0x40200, 5, 1⟩
def FW_CORE_KICK_KICK : Fld := ⟨0x40204, 0, 32⟩
def FW_LOG_HEAD_SEQ : Fld := ⟨0x40300, 0, 32⟩
def FW_LOG_SEL_SEQ : Fld := ⟨0x40304, 0, 32⟩
def FW_LOG_DATA_DATA (j : Nat) : Fld := ⟨0x40320 + 4 * j, 0, 32⟩
def PCIE_LINK_STATE : Fld := ⟨0x3600000, 0, 2⟩
def PCIE_LINK_WIDTH : Fld := ⟨0x3600000, 2, 5⟩
def PCIE_LINK_RATE : Fld := ⟨0x3600000, 7, 3⟩
def PCIE_SESSION_STATE : Fld := ⟨0x3600004, 0, 2⟩
def PCIE_SESSION_HGEN : Fld := ⟨0x3600004, 2, 16⟩
def PCIE_SESSION_LEVEL : Fld := ⟨0x3600004, 18, 8⟩
def PCIE_HB_AGE_US : Fld := ⟨0x3600008, 0, 32⟩
def PCIE_STALE_DROP_COUNT : Fld := ⟨0x360000c, 0, 32⟩
def PCIE_HB_BAD_COUNT : Fld := ⟨0x3600010, 0, 32⟩
def PCIE_WQ_DROP_COUNT : Fld := ⟨0x3600014, 0, 32⟩
def PCIE_ATTACH_QMASK (s : Nat) : Fld := ⟨0x3600100 + 8 * s, 0, 32⟩
def PCIE_ATTACH_VEC_BASE (s : Nat) : Fld := ⟨0x3600100 + 8 * s, 32, 6⟩
def HB_IDENT_PART : Fld := ⟨0x100000000, 0, 16⟩
def HB_IDENT_GRADE : Fld := ⟨0x100000000, 16, 2⟩
def HB_IDENT_LEVEL_MIN : Fld := ⟨0x100000000, 24, 4⟩
def HB_IDENT_LEVEL_MAX : Fld := ⟨0x100000000, 28, 4⟩
def HB_DEV_STATUS_STATUS : Fld := ⟨0x100000004, 0, 32⟩
def HB_SESSION_CTRL_OP : Fld := ⟨0x100000010, 0, 2⟩
def HB_SESSION_CTRL_LEVEL : Fld := ⟨0x100000010, 2, 4⟩
def HB_SESSION_CTRL_GO : Fld := ⟨0x100000010, 31, 1⟩
def HB_SESSION_STATUS_STATE : Fld := ⟨0x100000014, 0, 2⟩
def HB_SESSION_STATUS_HGEN : Fld := ⟨0x100000014, 2, 16⟩
def HB_HEARTBEAT_HGEN : Fld := ⟨0x100000018, 0, 16⟩
def HB_SESSION_RESULT_CODE : Fld := ⟨0x10000001c, 0, 8⟩
def HB_SESSION_RESULT_DONE : Fld := ⟨0x10000001c, 8, 1⟩
def HB_ATTACH_SLICE : Fld := ⟨0x100000020, 0, 6⟩
def HB_ATTACH_VEC_BASE : Fld := ⟨0x100000020, 6, 6⟩
def HB_ATTACH_GO : Fld := ⟨0x100000020, 31, 1⟩
def HB_ATTACH_QMASK_QMASK : Fld := ⟨0x100000024, 0, 32⟩
def HB_SLICE_GEN_GEN : Fld := ⟨0x100000030, 0, 16⟩
def SEC_STATUS_OWNED : Fld := ⟨0x30000, 0, 1⟩
def SEC_STATUS_UDS_LOCKED : Fld := ⟨0x30000, 1, 1⟩
def SEC_STATUS_FW_COPY : Fld := ⟨0x30000, 2, 4⟩
def SEC_STATUS_STRATA_COPY : Fld := ⟨0x30000, 6, 1⟩
def SEC_STATUS_EVLOG_OVERFLOW : Fld := ⟨0x30000, 7, 1⟩
def SEC_DEVICE_ID_ID (wd : Nat) : Fld := ⟨0x30010 + 4 * wd, 0, 32⟩
def SEC_ROLLBACK_VALUE (n : Nat) : Fld := ⟨0x30040 + 4 * n, 0, 32⟩
def SEC_ENROL_ADDR_VADDR : Fld := ⟨0x30100, 0, 64⟩
def SEC_ENROL_CTRL_GO : Fld := ⟨0x30108, 0, 1⟩
def SEC_ENROL_RESULT_CODE : Fld := ⟨0x3010c, 0, 8⟩
def SEC_ENROL_RESULT_DONE : Fld := ⟨0x3010c, 8, 1⟩
def SEC_OWNER_KEYID_KEYID (k wd : Nat) : Fld := ⟨0x30200 + 32 * k + 4 * wd, 0, 32⟩
def SEC_OWNER_USAGE_USAGE (k : Nat) : Fld := ⟨0x30280 + 4 * k, 0, 3⟩
def SEC_OWNER_USAGE_VALID (k : Nat) : Fld := ⟨0x30280 + 4 * k, 3, 1⟩
def SEC_MR_VALUE (n wd : Nat) : Fld := ⟨0x31000 + 64 * n + 4 * wd, 0, 32⟩
def SEC_EXTEND_DATA_DIGEST (wd : Nat) : Fld := ⟨0x31400 + 4 * wd, 0, 32⟩
def SEC_EXTEND_CTRL_MR : Fld := ⟨0x31440, 0, 4⟩
def SEC_EXTEND_CTRL_GO : Fld := ⟨0x31440, 31, 1⟩
def SEC_EVLOG_HEAD_COUNT : Fld := ⟨0x31800, 0, 32⟩
def SEC_EVLOG_SEL_INDEX : Fld := ⟨0x31804, 0, 32⟩
def SEC_EVLOG_DATA_DATA (j : Nat) : Fld := ⟨0x31840 + 4 * j, 0, 32⟩
def REQ_CTRL_OP (k : Nat) : Fld := ⟨0x32000 + 64 * k, 0, 2⟩
def REQ_CTRL_TICKET (k : Nat) : Fld := ⟨0x32000 + 64 * k, 8, 8⟩
def REQ_CTRL_GO (k : Nat) : Fld := ⟨0x32000 + 64 * k, 31, 1⟩
def REQ_MASK_MASK (k : Nat) : Fld := ⟨0x32004 + 64 * k, 0, 18⟩
def REQ_NONCE_ADDR_VADDR (k : Nat) : Fld := ⟨0x32008 + 64 * k, 0, 64⟩
def REQ_OUT_ADDR_VADDR (k : Nat) : Fld := ⟨0x32010 + 64 * k, 0, 64⟩
def REQ_OUT_LEN_LEN (k : Nat) : Fld := ⟨0x32018 + 64 * k, 0, 17⟩
def REQ_STATUS_CODE (k : Nat) : Fld := ⟨0x3201c + 64 * k, 0, 8⟩
def REQ_STATUS_TICKET_ECHO (k : Nat) : Fld := ⟨0x3201c + 64 * k, 8, 8⟩
def REQ_STATUS_WRITTEN (k : Nat) : Fld := ⟨0x3201c + 64 * k, 16, 16⟩
def SREQ_CTRL_OP (slice k : Nat) : Fld := ⟨0x10060900 + 1048576 * slice + 64 * k, 0, 2⟩
def SREQ_CTRL_TICKET (slice k : Nat) : Fld := ⟨0x10060900 + 1048576 * slice + 64 * k, 8, 8⟩
def SREQ_CTRL_GO (slice k : Nat) : Fld := ⟨0x10060900 + 1048576 * slice + 64 * k, 31, 1⟩
def SREQ_MASK_MASK (slice k : Nat) : Fld := ⟨0x10060904 + 1048576 * slice + 64 * k, 0, 18⟩
def SREQ_NONCE_ADDR_VADDR (slice k : Nat) : Fld := ⟨0x10060908 + 1048576 * slice + 64 * k, 0, 64⟩
def SREQ_OUT_ADDR_VADDR (slice k : Nat) : Fld := ⟨0x10060910 + 1048576 * slice + 64 * k, 0, 64⟩
def SREQ_OUT_LEN_LEN (slice k : Nat) : Fld := ⟨0x10060918 + 1048576 * slice + 64 * k, 0, 17⟩
def SREQ_STATUS_CODE (slice k : Nat) : Fld := ⟨0x1006091c + 1048576 * slice + 64 * k, 0, 8⟩
def SREQ_STATUS_TICKET_ECHO (slice k : Nat) : Fld := ⟨0x1006091c + 1048576 * slice + 64 * k, 8, 8⟩
def SREQ_STATUS_WRITTEN (slice k : Nat) : Fld := ⟨0x1006091c + 1048576 * slice + 64 * k, 16, 16⟩
def SLICE_MR_S0_VALUE (slice wd : Nat) : Fld := ⟨0x10060800 + 1048576 * slice + 4 * wd, 0, 32⟩
def SLICE_MR_S1_VALUE (slice wd : Nat) : Fld := ⟨0x10060840 + 1048576 * slice + 4 * wd, 0, 32⟩
def SLICE_EXTEND_DATA_DIGEST (slice wd : Nat) : Fld := ⟨0x10060880 + 1048576 * slice + 4 * wd, 0, 32⟩
def SLICE_EXTEND_CTRL_GO (slice : Nat) : Fld := ⟨0x100608c0 + 1048576 * slice, 31, 1⟩
def POWER_STATUS_MODE : Fld := ⟨0x20000, 0, 2⟩
def POWER_STATUS_STREAM_HELD : Fld := ⟨0x20000, 2, 1⟩
def POWER_STATUS_SHED_STEP : Fld := ⟨0x20000, 3, 4⟩
def POWER_STATUS_SAG : Fld := ⟨0x20000, 7, 1⟩
def POWER_STATUS_PEAK_BROKEN : Fld := ⟨0x20000, 8, 1⟩
def POWER_EVENT_SAG : Fld := ⟨0x20004, 0, 1⟩
def POWER_EVENT_STEP : Fld := ⟨0x20004, 1, 1⟩
def POWER_EVENT_RECOVERED : Fld := ⟨0x20004, 2, 1⟩
def POWER_EVENT_PEAK_BROKEN : Fld := ⟨0x20004, 3, 1⟩
def POWER_EVENT_THROTTLE : Fld := ⟨0x20004, 4, 1⟩
def POWER_EVENT_SENSOR_FAIL : Fld := ⟨0x20004, 5, 1⟩
def POWER_TOTAL_MW_MW : Fld := ⟨0x20008, 0, 32⟩
def POWER_MAX_MW_MW : Fld := ⟨0x2000c, 0, 32⟩
def POWER_MODE_CFG_MODE : Fld := ⟨0x20010, 0, 2⟩
def POWER_MODE_CFG_CAP_W : Fld := ⟨0x20010, 2, 9⟩
def POWER_MODE_CFG_TJ_THROTTLE : Fld := ⟨0x20010, 11, 7⟩
def POWER_SHED_CFG_KEEP_PORT : Fld := ⟨0x20014, 0, 3⟩
def POWER_SHED_CFG_PCIE_WIDTH : Fld := ⟨0x20014, 3, 2⟩
def POWER_ENERGY_MJ : Fld := ⟨0x20018, 0, 64⟩
def POWER_VDD_CORE_SET_MV : Fld := ⟨0x20020, 0, 10⟩
def POWER_VDD_CORE_MEAS_MV : Fld := ⟨0x20020, 16, 10⟩
def POWER_SECTOR_CLK_STEP (s : Nat) : Fld := ⟨0x20100 + 16 * s, 0, 3⟩
def POWER_SECTOR_HALTED (s : Nat) : Fld := ⟨0x20100 + 16 * s, 3, 1⟩
def POWER_SECTOR_TJ_VALID (s : Nat) : Fld := ⟨0x20100 + 16 * s, 4, 1⟩
def POWER_SECTOR_TJ (s : Nat) : Fld := ⟨0x20100 + 16 * s, 5, 12⟩
def POWER_SECTOR_MW_MW (s : Nat) : Fld := ⟨0x20104 + 16 * s, 0, 32⟩
def POWER_SECTOR_TJMAX_TJ (s : Nat) : Fld := ⟨0x20108 + 16 * s, 0, 12⟩
def ASSAY_CTRL_EN : Fld := ⟨0x50000, 0, 1⟩
def ASSAY_CTRL_RATE_LOG2 : Fld := ⟨0x50000, 1, 4⟩
def ASSAY_CTRL_COND_EN : Fld := ⟨0x50000, 5, 1⟩
def ASSAY_CTRL_COND_TJ : Fld := ⟨0x50000, 6, 7⟩
def ASSAY_STATUS_PENDING : Fld := ⟨0x50004, 0, 3⟩
def ASSAY_STATUS_NO_CHECKER : Fld := ⟨0x50004, 3, 1⟩
def ASSAY_STATUS_LOG_FULL : Fld := ⟨0x50004, 4, 1⟩
def ASSAY_EVENT_MISMATCH : Fld := ⟨0x50008, 0, 1⟩
def ASSAY_EVENT_STRIKE : Fld := ⟨0x50008, 1, 1⟩
def ASSAY_EVENT_RETIRED : Fld := ⟨0x50008, 2, 1⟩
def ASSAY_EVENT_REPLACE : Fld := ⟨0x50008, 3, 1⟩
def ASSAY_SAMPLED_COUNT : Fld := ⟨0x50010, 0, 32⟩
def ASSAY_CHECKED_COUNT : Fld := ⟨0x50014, 0, 32⟩
def ASSAY_DROPPED_COUNT : Fld := ⟨0x50018, 0, 32⟩
def ASSAY_MISMATCH_COUNT : Fld := ⟨0x5001c, 0, 32⟩
def ASSAY_UNRESOLVED_COUNT : Fld := ⟨0x50020, 0, 32⟩
def ASSAY_RETIRED_COUNT : Fld := ⟨0x50024, 0, 8⟩
def ASSAY_HEALTH_REPLACE : Fld := ⟨0x50028, 0, 1⟩
def ASSAY_HEALTH_REASON : Fld := ⟨0x50028, 1, 5⟩
def ASSAY_LOG_SEL_INDEX : Fld := ⟨0x50100, 0, 8⟩
def ASSAY_LOG_DATA_DATA (j : Nat) : Fld := ⟨0x50120 + 4 * j, 0, 32⟩
def ASSAY_TILE_STRIKES_COUNT (t : Nat) : Fld := ⟨0x50200 + 4 * t, 0, 2⟩

end Sys2Proof.Machine.R
end

