-- ==== Sys2Proof/Config.lean ====
section
/-! DEFINITION. What the spec leaves open: constants without a body, so that nothing can be proved about their
values. A free value is drawn by applying one of them to the counter `freeCtr` of the state, which the step advances,
or to the operands the value depends on. Each has a row in notes/assumptions. -/

namespace Sys2Proof.Config

/-- A byte the spec calls undefined (R112, R180, R232): free for each draw. Log entry 10. -/
opaque freeByte : Nat → BitVec 8

/-- A word of up to 64 bits that the spec leaves open; log entry 10. -/
opaque freeWord : Nat → BitVec 64

/-- What a built-in function of the special-function unit gives where R216 states only a bound: function code, and
sign, magnitude and exponent of the exact argument. Log entry 11. -/
opaque sfuRaw : Nat → Bool → Nat → Int → Nat

/-- The Nimre 5400 evaluation of a function of R250, of which only a bound is stated. Log entry 12. -/
opaque sfuCompat : Nat → Nat → Nat

/-- The dummy generator of R135 after so many steps from its seed; neither seed nor taps are stated. Log entry 13. -/
opaque dummyWord : Nat → BitVec 32

/-- SHA3-512 of a byte string, as a number below 2^512, byte 0 lowest; the spec names the function by its standard
and does not restate it. Log entry 14. -/
opaque sha3 : List (BitVec 8) → BitVec 512

/-- The nonzero entries in the first rows of a base graph of TS 38.212 (R378): graph, rows. Log entry 15. -/
opaque ldpcNnz : Nat → Nat → Nat

/-- What the LDPC decoder makes of a block (R377): fields and clamped LLRs to hard bits, the iterations it would run with
early termination, failed parity checks and whether the CRC passes. Log entry 15. -/
opaque ldpcDecode : List Nat → List (BitVec 8) → Nat × Nat × Nat × Bool

/-- The coded bits of a block (R377): fields and information bits. Log entry 15. -/
opaque ldpcEncode : List Nat → List (BitVec 8) → Nat

/-- TS 38.212 defines the combination of fields of a polar descriptor (R381). Log entry 16. -/
opaque polarDefined : List Nat → Bool

/-- The path the polar decoder writes, and whether its CRC passes (R381). Log entry 16. -/
opaque polarDecode : List Nat → List (BitVec 8) → Nat × Bool

/-- The rate-matched bits the polar encoder writes (R381). Log entry 16. -/
opaque polarEncode : List Nat → List (BitVec 8) → Nat

/-- The FFT engine on one block of samples (R382, R383): inverse, size, samples to output samples and exponent. Log
entry 17. -/
opaque fft : Bool → Nat → List (BitVec 8) → Nat × Nat

/-- One bin of a PRACH profile before saturation (R384, R397): the fields, the samples, root offset, bin. Log entry 18. -/
opaque prachBin : List Nat → List (BitVec 8) → Nat → Nat → Nat

/-- The hash of R481 that spreads requests over links; the spec fixes it without stating it: pod, device, window and
line of the destination (for messages source, destination and window). Log entry 19. -/
opaque fabHash : List Nat → Nat

/-- A byte of the 16-byte record of a message slot (R494), whose field positions are not stated: source pod and device,
epoch, key, length, pass over the ring; byte number. Log entry 21. -/
opaque ringRecord : List Nat → Nat → BitVec 8

/-- The unique device secret that ROM reconstructs from the PUF (R603). Log entry 74. -/
opaque uds : BitVec 512

/-- Identifier of the ML-DSA-87 key pair generated from a seed (R593, R603): the seed. Log entry 75. -/
opaque keyId : Nat → BitVec 256

/-- A byte of the ML-DSA-87 signature by the key of a seed over a message (R593): seed, message, draw, byte number. Log
entry 75. -/
opaque mldsa : Nat → List (BitVec 8) → Nat → Nat → BitVec 8

/-- Length of a DER certificate (R603, R610): layer (0 IDevID, 1 alias, 2 AK, 3 slice), seeds of subject and issuer. Log
entry 75. -/
opaque certLen : Nat → Nat → Nat → Nat

/-- A byte of such a certificate, which carries the measurements of its layer: layer, seeds, measurements, draw, byte
number. Log entry 75. -/
opaque certByte : Nat → Nat → Nat → List (BitVec 8) → Nat → Nat → BitVec 8

/-- The event type of a measurement log record (R605), whose values are not stated: register, source (0 ROM, 1 Agate,
2 section switch, 3 Assay, 4 owner, 5 tenant). Log entry 76. -/
opaque evType : Nat → Nat → BitVec 8

/-- The TRACE number of a log record that R572's table does not number: 0 a customer image refused (R581), 1 an AVS write
given up (R644). Log entry 77. -/
opaque traceOf : Nat → Nat

end Sys2Proof.Config
end

