-- ==== Sys2Proof/Machine/State/Clk.lean ====
section
/-! DEFINITION. State of the time engine beyond registers (R416 to R436). -/

namespace Sys2Proof.Machine

/-- A clock (R416, R417): its value in 2^-16 ns at the local instant `ref` (ns), and its frequency correction in
2^-28 ppb. -/
structure Clock where
  base : Nat
  ref : Nat
  rate : Int
deriving DecidableEq, Repr

/-- A clock that starts at zero. -/
def Clock.zero : Clock := ⟨0, 0, 0⟩

/-- 2^48 seconds in 2^-16 ns, where the seconds field wraps (R416). -/
def clockWrap : Nat := 2 ^ 48 * 1_000_000_000 * 65536

/-- The clock's value in 2^-16 ns at local instant `t`. -/
def Clock.read (c : Clock) (t : Nat) : Nat :=
  let dt : Int := ((t - c.ref : Nat) : Int)
  (((c.base : Int) + dt * 65536 + dt * c.rate / 4_096_000_000_000) % (clockWrap : Int)).toNat

/-- A domain clock and its servo (R423 to R425): the clock, consecutive updates within LOCK_NS and beyond UNLOCK_NS,
y over the last updates in LOCKED, newest first, the instants of the last update, of the last Sync and of entering
LOCKED, whether HOLDOVER came before the present state, and per slave port the last path-delay results, newest first,
the asymmetry sampled with the newest, the last Announce with its parent's clockAccuracy. -/
structure DomState where
  clk : Clock
  good : Nat
  bad : Nat
  ys : List Int
  updAt : Nat
  syncAt : Nat
  lockedAt : Nat
  afterHo : Bool
  paths : Tbl (List Int)
  asym : Tbl Int
  annAt : Tbl Nat
  accuracy : Nat
deriving DecidableEq, Repr

/-- A domain clock after a cold reset. -/
def DomState.reset : DomState := ⟨.zero, 0, 0, [], 0, 0, 0, false, [], [], [], 0xFE⟩

/-- The time engine: the device clock, the domain clocks, which way the device clock slews, whether RADIO_READY has
been 1 since the cold reset (R426), TIME_LOCK since the last reset (R427), the present SWITCH_BLOCKED episode, the
start of the present holdover (R429), the last edge of each pulse pin (plus 1), the ToD frame accepted since the last
edge of TOD_PPS (SECONDS, LOCKED), the last second whose pulse has gone out (plus 1), PTP transmit intervals, the quality
level received per port, SyncE candidates dropped, whether the EEC has been LOCKED,
and the instant after the latest loss of TIME_LOCK (R257). -/
structure ClkState where
  dev : Clock
  domA : DomState
  domB : DomState
  slew : Int
  settled : Bool
  everLocked : Bool
  blocked : Bool
  hoFrom : Option Nat
  edges : Tbl Nat
  frame : Option (Nat × Bool)
  emitted : Nat
  txCount : Nat
  ql : Tbl Nat
  dropped : List Nat
  eecWas : Bool
  lostAt : Nat
deriving DecidableEq, Repr

/-- The time engine after a cold reset (R439). -/
def ClkState.reset : ClkState where
  dev := .zero
  domA := .reset
  domB := .reset
  slew := 0
  settled := false
  everLocked := false
  blocked := false
  hoFrom := none
  edges := []
  frame := none
  emitted := 0
  txCount := 0
  ql := []
  dropped := []
  eecWas := false
  lostAt := 0

end Sys2Proof.Machine
end

