-- ==== Sys2Proof/Machine/State/Dev.lean ====
section
/-! DEFINITION. State of the device as a whole and of the Strata image in force, beyond registers: the part's map,
flash contents that outlive resets (R650), stop requests (R46), double-banked tables (R59 to R63), reloads (R55 to R57)
and commits (R65 to R68). -/

namespace Sys2Proof.Machine

/-- A stop in progress: none, requested before RUN (R46), closing down for the owner, or ordered by heat or supply. -/
inductive StopState where
  | none | asked | owner | ordered
deriving DecidableEq, Repr

/-- The device as a whole: its map, whether it is powered, the time its last reset ended, a stop in progress, the cause
that reached the stop controller last and when (R42), the GPS instant at which the radio is to stop, until it has, whether THERMTRIP_N is low and whether it fell during a reset, pin roles (bit p 1: GP[p] is
OWNER_OUT) from the PIN section, whether a slice has opened since RUN began (R44), and the flash
write in progress as source, offset and length (R653). -/
structure DevState where
  map : PartMap
  powered : Bool
  resetEnd : Nat
  stop : StopState
  stopCause : Nat
  stopSince : Nat
  radioStopAt : Option Nat
  thermtrip : Bool
  stuck : Bool
  pinRoles : Nat
  served : Bool
  writing : Option (Nat × Nat × Nat)
deriving DecidableEq, Repr

/-- The part's map before Agate has read the manufacturing record: grade 7200-A, matrix site 16 of each sector disabled
with its vault (log entry 3). -/
def unreadMap : PartMap :=
  ⟨0, [16, 33, 50, 67, 84, 101, 118, 135], [16, 35, 54, 73, 92, 111, 130, 149], [], 750⟩

/-- The device after a cold reset. -/
def DevState.reset : DevState where
  map := unreadMap
  powered := true
  resetEnd := 0
  stop := .none
  stopCause := 0
  stopSince := 0
  radioStopAt := none
  thermtrip := false
  stuck := false
  pinRoles := 0
  served := false
  writing := none

/-- One double-banked table (R59): its two banks' contents, the in-flight count of each (R60), which is active, its
epoch, the last switch instant, whether the old bank is stalled, and whether it is still held since that switch (R62). -/
structure TableState where
  bank0 : List Byte
  bank1 : List Byte
  fly0 : Nat
  fly1 : Nat
  active1 : Bool
  epoch : Nat
  switchedAt : Nat
  stalled : Bool
  held : Bool
deriving DecidableEq, Repr

/-- A table before BUILD loads it. -/
def TableState.reset : TableState := ⟨[], [], 0, 0, false, 0, 0, false, false⟩

/-- A commit under check or waiting for its act point (R65, R67): whose control it is (none: the owner's), what it
names, its ticket, the snapshot of the shadow registers (active address, word), and the instant the write came. -/
structure Commit where
  slice : Option Nat
  group : Nat
  btype : Nat
  inst : Nat
  ticket : Nat
  snap : List (Nat × RegWord)
  since : Nat
deriving DecidableEq, Repr

/-- One section of a Strata file as Agate reads it: the fields of its directory entry (R48), whether the entry's reserved
word is zero, the digest found of its body, and what the body holds (log entry 86): the commit-group registers it feeds
(register address and word), for ROUTE the digest of the route table it was compiled against (R55), for LANE the ports of
its group (port position and lanes), and the rest. -/
structure Section where
  kind : Nat
  tableId : Nat
  flags : Nat
  offset : Nat
  length : Nat
  reserved : Nat
  digest : List Byte
  found : List Byte
  regs : List (Nat × Nat)
  base : List Byte
  ports : List (Nat × Nat)
  body : List Byte
deriving DecidableEq, Repr

/-- A Strata file as Agate reads it: the fields of its header (R47) with its two reserved runs as numbers, its sections,
the signer key identifier and the last 13 bytes of the signature block (R49), and the digest of the whole file. -/
structure StrataFile where
  magic : Nat
  format : Nat
  count : Nat
  version : Nat
  rollback : Nat
  totalLen : Nat
  gradeMask : Nat
  kind : Nat
  zeroA : Nat
  baseDigest : BitVec 512
  zeroB : Nat
  sections : List Section
  keyId : Nat
  pad : Nat
  digest : BitVec 512
deriving DecidableEq, Repr

/-- The Strata unit: the tables by id, the file under reload, when its GO came, the accepted switch instant, the
ports each port group is bundled into (group 0 fabric, 1 fronthaul, 2 service, 3 PCIe: position and lanes),
the commits under check (owner's and slices'), the commits that wait, the bodies by logical index that the tables 0x04 and
0x05 in force were bound from (R51), and the radio domain's slabs as Flint assigns them
(R268): virtual slab number to region (vault × 384 + index, plus 1). -/
structure StrataState where
  tables : Tbl TableState
  staged : List Section
  file : Option StrataFile
  goAt : Nat
  switchAt : Nat
  lanes : Tbl (List (Nat × Nat))
  checking : List Commit
  waiting : List Commit
  raw : Tbl (List Byte)
  radioSlabs : Tbl Nat
deriving DecidableEq, Repr

/-- The Strata unit after reset. -/
def StrataState.reset : StrataState where
  tables := []
  staged := []
  file := none
  goAt := 0
  switchAt := 0
  lanes := []
  checking := []
  waiting := []
  raw := []
  radioSlabs := []

end Sys2Proof.Machine
end

