-- ==== Sys2Proof/Machine/State/Fab.lean ====
section
/-! DEFINITION. State of the Quecia fabric beyond its registers: links with their replay buffers (R472 to R476), peers
(R480, R481, R497, R518, R527), operation queues' work in progress (R487, R501, R504), the remote-line cache (R491),
message credits and rings (R494 to R496), the cairn queue (R498), replay tables (R502) and barrier watches (R526). -/

namespace Sys2Proof.Machine

/-- A flit to send (R470): KIND, VC, lines, destination, PKEY, tag, WINDOW, OFFSET, the code a response carries, and
its payload. -/
structure Flit where
  kind : Nat
  vc : Nat
  lines : Nat
  pod : Nat
  dev : Nat
  pkey : Nat
  tag : Nat
  window : Nat
  offset : Nat
  status : Nat
  data : List (BitVec 8)
deriving DecidableEq, Repr

/-- A sent flit in a replay buffer: SEQ, the instants it was first and last sent. -/
structure Sent where
  seq : Nat
  first : Nat
  last : Nat
  flit : Flit
deriving DecidableEq, Repr

/-- A link: next SEQ to send, unacknowledged flits (oldest first), flits that wait for a credit or for room, the SEQ
expected, whether a NAK of the present error episode is out, flits per VC in its receive buffers, credits per VC owed
to the partner, when ACK_SEQ last advanced and when a flit other than IDLE last passed, charges as (lane, device ns),
and the partner's pod and port. -/
structure LinkState where
  txSeq : Nat
  replay : List Sent
  wait : List Flit
  rxNext : Nat
  naking : Bool
  rxBuf : Tbl Nat
  owed : Tbl Nat
  progress : Nat
  lastFlit : Nat
  charges : List (Nat × Nat)
  pod : Nat
  port : Nat
deriving DecidableEq, Repr

/-- A link before its first start. -/
def LinkState.reset : LinkState := ⟨0, [], [], 0, false, [], [], 0, 0, [], 0, 0⟩

/-- A pod peer: the instant of its last HELLO, the links that LINK_STATE has named since its last HELLO on them, the
windows it advertises with their keys, the memory-semantic credits held toward it, its barrier history, and its
epochs retired here. -/
structure PeerState where
  heard : Nat
  off : List Nat
  windows : List (Nat × Nat)
  credits : Nat
  history : Nat
  retired : List Nat
deriving DecidableEq, Repr

/-- A peer not heard of: four credits (R497). -/
def PeerState.reset : PeerState := ⟨0, [], [], 4, 0, []⟩

/-- A descriptor in progress (R505): its number, queue, ring index, the generation of its slice, its words, what of it
has been sent (lines, or peers), its first code that is not OK, its result and the tag of its last send. -/
structure FabOp where
  id : Nat
  queue : Nat
  index : Nat
  gen : Nat
  desc : List (BitVec 8)
  sent : Nat
  code : Nat
  result : Nat
  tag : Nat
deriving DecidableEq, Repr

/-- A request without a response: tag, descriptor, KIND, destination, first line of the descriptor it covers and lines,
the instants of its first and latest send, whether it has been retried, and HOME_EPOCH of an atomic. -/
structure FabReq where
  tag : Nat
  op : Nat
  kind : Nat
  dev : Nat
  line : Nat
  lines : Nat
  first : Nat
  last : Nat
  retried : Bool
  homeEpoch : Nat
  flit : Flit
deriving DecidableEq, Repr

/-- A line of the remote-line cache (R491): home pod and device, window, offset, key, home epoch, data. -/
structure CacheLine where
  pod : Nat
  dev : Nat
  window : Nat
  offset : Nat
  pkey : Nat
  epoch : Nat
  data : List (BitVec 8)
deriving DecidableEq, Repr

/-- Message credits toward one window (R495): destination pod, device, window, the instants of the credits spent, and
the unconsumed slots the last resync reported. -/
structure MsgCredit where
  pod : Nat
  dev : Nat
  window : Nat
  spent : List Nat
  unconsumed : Nat
deriving DecidableEq, Repr

/-- An entry of the cairn queue (R498): the flit it came with, whether it is a copy line, its vault and line address,
its bytes with their mask. -/
structure CairnEntry where
  serial : Nat
  hdr : FabHdr
  kind : Nat
  vault : Nat
  addr : Nat
  data : List (BitVec 8)
  mask : Nat
deriving DecidableEq, Repr

/-- An applied atomic (R502): port, identity, old value, when it was stored. -/
structure ReplayEntry where
  port : Nat
  pod : Nat
  dev : Nat
  epoch : Nat
  tag : Nat
  old : Nat
  since : Nat
deriving DecidableEq, Repr

/-- A copy landing at this home (R489): its source and number, the lines landed, and the signal once its flit came:
counter, increment, lines of the copy. -/
structure Landing where
  dev : Nat
  epoch : Nat
  copy : Nat
  window : Nat
  landed : Nat
  sig : Option (Nat × Nat × Nat)
deriving DecidableEq, Repr

/-- A barrier watch (R526): whether an episode is open, who has arrived, the instant of the latest arrival. -/
structure BarState where
  open_ : Bool
  arrived : List Nat
  last : Nat
deriving DecidableEq, Repr

/-- A watch with no episode. -/
def BarState.reset : BarState := ⟨false, [], 0⟩

/-- The fabric. `tagsAt` are the tags of atomics with the instant of their last send (R501); `rings` the senders
(pod × 256 + device) of the unconsumed slots of each RECV window; `due` credit returns not yet sent (sender, window,
number); `notices` fence notices that wait for a slot (window, device, epoch); `poisoned` the flits in the cairn queue
that met a codeword that cannot be corrected; `fences` pairs fenced with the instant; `engCtr` arrival counters of the
DMA engines (R490), engine × 64 + counter; `heard` the instant of the last HELLO on any link. -/
structure FabState where
  links : Tbl LinkState
  peers : Tbl PeerState
  ops : List FabOp
  reqs : List FabReq
  nextOp : Nat
  nextTag : Nat
  tagsAt : List (Nat × Nat)
  cache : List CacheLine
  credits : List MsgCredit
  rings : Tbl (List Nat)
  due : List (Nat × Nat × Nat)
  notices : List (Nat × Nat × Nat)
  cairn : List CairnEntry
  nextSerial : Nat
  poisoned : List Nat
  replays : List ReplayEntry
  landings : List Landing
  watches : Tbl BarState
  fences : List (Nat × Nat × Nat)
  engCtr : Tbl Nat
  heard : Nat
deriving DecidableEq, Repr

/-- The fabric after reset (R508, R535). -/
def FabState.reset : FabState where
  links := []
  peers := []
  ops := []
  reqs := []
  nextOp := 0
  nextTag := 0
  tagsAt := []
  cache := []
  credits := []
  rings := []
  due := []
  notices := []
  cairn := []
  nextSerial := 0
  poisoned := []
  replays := []
  landings := []
  watches := []
  fences := []
  engCtr := []
  heard := 0

end Sys2Proof.Machine
end

