-- ==== Sys2Proof/Machine/State/Flash.lean ====
section
/-! DEFINITION. What the flash holds through every reset (R601, R602, R631, R650), and the state of identity,
measurement and attestation (R599 to R612). -/

namespace Sys2Proof.Machine

/-- A strike-log record (R631). -/
structure StrikeRec where
  time : Nat
  kind : Nat
  life : Nat
  unit : Nat
  tj : Nat
  vdd : Nat
  level : Nat
  step : Nat
  mw : Nat
  detail : Nat
deriving DecidableEq, Repr

/-- A slot of the owner key store (R606): the key's identifier, its USAGE and VALID. -/
structure OwnerKey where
  id : Nat
  usage : Nat
  valid : Bool
deriving DecidableEq, Repr

/-- An empty owner key slot. -/
def OwnerKey.empty : OwnerKey := ⟨0, 0, false⟩

/-- Flash contents that outlive every reset: the eight counters of R602, the fabric epoch (R479), the retired list
(R29), the strike log, oldest record first (R631), the owner key store (R606), ASSAY_HEALTH (R635: REPLACE and REASON
as the register shows them), and the hours a sector's sensors have been failed (R635). -/
structure FlashState where
  counters : Tbl Nat
  epoch : Nat
  retired : List Nat
  strikes : List StrikeRec
  keys : Tbl OwnerKey
  health : Nat
  sensorHours : Tbl Nat
deriving DecidableEq, Repr

/-- A flash with nothing recorded. -/
def FlashState.blank : FlashState := ⟨[], 0, [], [], [], 0, []⟩

/-- One record of the measurement event log (R605). -/
structure EvRec where
  reg : Nat
  type : Nat
  time : Nat
  digest : BitVec 512
deriving DecidableEq, Repr

/-- A request waiting for Agate (R611): requester (0 owner, 1 + slice), slot, and the slice's generation at GO. -/
structure SecReq where
  who : Nat
  slot : Nat
  gen : Nat
deriving DecidableEq, Repr

/-- Identity and attestation beyond registers: the derived secrets of the key vault (R599, R603), the event log (R605),
requests in GO order and whose turn is next (R611), the slot that signed the image in force (R608), the instant until
which a record is being checked (R612), and what the running images will raise the counters to at RUN entry (R602), the levels SVC_BASE provides on IFACE 0x0005
(R581), and the AGATE copy that runs. -/
structure SecState where
  cdiA : BitVec 512
  cdiB : BitVec 512
  log : List EvRec
  reqs : List SecReq
  turn : Nat
  imageSlot : Nat
  checkUntil : Nat
  svns : List (Nat × Nat)
  runtime : Nat × Nat
  agate : Option ImageCopy
deriving DecidableEq, Repr

/-- Identity and attestation after reset. -/
def SecState.reset : SecState where
  cdiA := 0
  cdiB := 0
  log := []
  reqs := []
  turn := 0
  imageSlot := 4
  checkUntil := 0
  svns := []
  runtime := (0, 0)
  agate := none

end Sys2Proof.Machine
end

