-- ==== Sys2Proof/Machine/State/Fw.lean ====
section
/-! DEFINITION. State of the firmware processors beyond their registers: the log ring (R572), watchdogs and crashes
(R564, R570), the notification path (R575). -/

namespace Sys2Proof.Machine

/-- A record of the log ring (R572): TIME, SEQ, CORE, LEVEL, TRACE and ARG0 to ARG3. -/
structure LogRec where
  time : Nat
  seq : Nat
  core : Nat
  level : Nat
  trace : Nat
  args : List Nat
deriving DecidableEq, Repr

/-- The firmware processors: the log ring by slot, per core the instant of its last kick and of its latest crash, the
device-clock instants of counted crashes per core class (Jasper 1, Flint 5, else the core), and the sources of the last
notification with its instant. -/
structure FwState where
  log : Tbl LogRec
  kicks : Tbl Nat
  crashAt : Tbl Nat
  crashes : Tbl (List Nat)
  notified : Nat
  notifyAt : Nat
deriving DecidableEq, Repr

/-- The firmware processors after a cold reset. -/
def FwState.reset : FwState := ⟨[], [], [], [], 0, 0⟩

end Sys2Proof.Machine
end

