-- ==== Sys2Proof/Machine/State/Host.lean ====
section
/-! DEFINITION. State of the host interface beyond its registers (R576, R583 to R587, R548). -/

namespace Sys2Proof.Machine

/-- The job queues of a slice attached to the host session (R584): slice, queue mask, MSI-X vector base. -/
structure Attach where
  slice : Nat
  qmask : Nat
  base : Nat
deriving DecidableEq, Repr

/-- A host action that waits for its handler (R577, R588): OPEN with the driver's level, CLOSE, or an attach of queues. -/
inductive HostAct where
  | opens (level : Nat)
  | closes
  | attaches (slice qmask base : Nat)
deriving DecidableEq, Repr

/-- The host interface: attachments, the instant of the last matching heartbeat, the instant the session entered LOST,
whether the PCIe link is up, when each MSI-X vector was last sent and which wait (R584), whether the configuration
space is loaded (R45), the actions that wait (R577), and the host-space translations cached (slice, slab; R548). -/
structure HostState where
  attached : List Attach
  beatAt : Nat
  lostAt : Nat
  linkUp : Bool
  vecAt : Tbl Nat
  vecDue : List Nat
  config : Bool
  waiting : List HostAct
  ats : List (Nat × Nat)
deriving DecidableEq, Repr

/-- The host interface after reset. -/
def HostState.reset : HostState where
  attached := []
  beatAt := 0
  lostAt := 0
  linkUp := false
  vecAt := []
  vecDue := []
  config := false
  waiting := []
  ats := []

end Sys2Proof.Machine
end

