-- ==== Sys2Proof/Machine/State/Mem.lean ====
section
/-! DEFINITION. State of the memory manager beyond its registers: the home table (R269, R270), objects (R271), moves
with their logs (R274 to R276), regions of the vaults (R281), lends (R285) and requests in order (R287). -/

namespace Sys2Proof.Machine

/-- The four states of a home-table entry (R269). -/
inductive HomeState where
  | unmapped | resident | transit | lost
deriving DecidableEq, Repr

/-- One home-table entry (R269, R270). `touched` is the instant of the last access, from which AGE follows. -/
structure HomeEntry where
  state : HomeState
  t3 : Bool
  home : Nat
  index : Nat
  newT3 : Bool
  newHome : Nat
  newIndex : Nat
  touched : Nat
deriving DecidableEq, Repr

/-- An unmapped slab. -/
def HomeEntry.unmapped : HomeEntry := ⟨.unmapped, false, 0, 0, false, 0, 0, 0⟩

/-- One object slot of a slice (R271): the serial of its present or last handle, whether it is in use, its first slab
number in the virtual range, its slabs, its hint and the hint's target (R272). -/
structure ObjRec where
  serial : Nat
  live : Bool
  base : Nat
  count : Nat
  hint : Nat
  target : Nat
deriving DecidableEq, Repr

/-- An object slot never used. -/
def ObjRec.unused : ObjRec := ⟨0, false, 0, 0, 0, 0⟩

/-- What a slab region of a vault holds (R281): free and zeroed, a slice's slab, held between accounts, or lent. -/
inductive Region where
  | free | used | held | lent (k : Nat)
deriving DecidableEq, Repr

/-- One move (R274 to R276): the slab, whether it is an eviction, the request it serves (slot plus 1, 0 for none),
the engine's sector, whether the engine has started it, its log of held bytes, whether the log is frozen, and the
writes that wait for the switch; then the hint, its target and the slab's place in its object, by which a
destination is chosen. Byte addresses are offsets within the slab. -/
structure Move where
  slice : Nat
  slab : Nat
  evict : Bool
  slot : Nat
  sector : Nat
  toT3 : Bool
  dest : Nat
  destIndex : Nat
  started : Bool
  log : List (Nat × BitVec 8)
  lines : Nat
  frozen : Bool
  late : List (Nat × BitVec 8)
  hint : Nat
  target : Nat
  nth : Nat
deriving DecidableEq, Repr

/-- A region on its way back to the pool (R278): where it is, when it left its account, whether a move left it, whether
its release has come, whether a stall has been reported, and the transfers (site, queue, index) that were under way in
it at the switch, its in-flight count. -/
structure OldRegion where
  vault : Nat
  index : Nat
  switchedAt : Nat
  moved : Bool
  released : Bool
  stalled : Bool
  flights : List (Nat × Nat × Nat)
deriving DecidableEq, Repr

/-- A request accepted and not complete (R287): slice, slot, OP, and for a MIGRATE the slabs still moving, those done,
the code it will end with, and whether it has begun. -/
structure MemReq where
  slice : Nat
  slot : Nat
  op : Nat
  moving : Nat
  done : Nat
  code : Nat
  begun : Bool
deriving DecidableEq, Repr

/-- A lend received from a peer (R285): the peer, its slabs, and the lend indices this device has homed slabs in. -/
structure LendIn where
  dev : Nat
  slabs : Nat
  used : List Nat
deriving DecidableEq, Repr

/-- The memory manager beyond its registers. `bad` marks vault codewords that cannot be corrected (1) or are poisoned
(2), keyed by vault × 2^25 + codeword, and those of slabs homed at peers (R265, R271); `pins` are the
slabs (slice, slab) that Seam commands pin (R192); `badSensor` counts a sector's invalid samples in a row (R286). `lentHomed` counts, per lend, the slabs the peer has homed in it. -/
structure MemState where
  homes : Tbl HomeEntry
  objects : Tbl ObjRec
  regions : Tbl Region
  moves : List Move
  old : List OldRegion
  reqs : List MemReq
  lendsIn : List LendIn
  lentHomed : Tbl Nat
  bad : Tbl Nat
  badSensor : Tbl Nat
  pins : List (Nat × Nat)
deriving DecidableEq, Repr

/-- The memory manager after reset: nothing mapped. -/
def MemState.reset : MemState where
  homes := []
  objects := []
  regions := []
  moves := []
  old := []
  reqs := []
  lendsIn := []
  lentHomed := []
  bad := []
  badSensor := []
  pins := []

/-- A slice beyond its registers: when its latest reset or removal was accepted (R551), and what that must still clear:
regions (vault, index) to be zeroed and sites to be scrubbed; and the instant after the latest end of one of its jobs, its
job boundary (R282). -/
structure SliceState where
  since : Nat
  regions : List (Nat × Nat)
  sites : List Nat
  ended : Nat
deriving DecidableEq, Repr

/-- A slice with nothing in progress. -/
def SliceState.reset : SliceState := ⟨0, [], [], 0⟩

end Sys2Proof.Machine
end

