-- ==== Sys2Proof/Machine/State/Msg.lean ====
section
/-! DEFINITION. What the device sends out: frames, flits, indications, records to hosts, notifications. The state keeps
them as a list in the order sent. -/

namespace Sys2Proof.Machine

/-- The kinds of message that leave the device. -/
inductive MsgKind where
  /-- A remote signal on its way to another tile (R167): site, counter, increment, earliest cycle. -/
  | remoteSignal
  /-- A record written by a completion writer (R302). -/
  | completion
  /-- Work handed to a DMA engine (R168). -/
  | transfer
  /-- An invalidate to the translation units (R277, R548): slice, slab. -/
  | invalidate
  /-- A FAPI message to an L2 (R349 to R351). -/
  | fapi
  /-- A fronthaul packet (R348). -/
  | fronthaul
  /-- A NETCONF message to a radio unit (R353). -/
  | netconf
  /-- A PTP message (R421). -/
  | ptp
  /-- An ESMC message (R431). -/
  | esmc
  /-- The pulse or the ToD frame of TOD_PPS (R433). -/
  | pps
  /-- An Ethernet frame (R451). -/
  | frame
  /-- A received frame handed to its consumer inside the device (R448, R546): port, consumer, core, slice. -/
  | deliver
  /-- A fabric flit or message (R471 to R484). -/
  | flit
  /-- An owner notification (R575). -/
  | notify
  /-- A PCIe message: MSI-X (R587), Request Retry Status (R45), a configuration reply (R576). -/
  | pcie
  /-- A console line of the UART (R647). -/
  | console
  /-- An interrupt or signal pin (R646, R433). -/
  | pin
  /-- A management message to a peer, such as a lend (R285). -/
  | management
  /-- The value a register read returns (R20): address, value. -/
  | read
deriving DecidableEq, Repr

/-- One message: its kind, its numbers in the order its sender lists them, and its payload. -/
structure Msg where
  kind : MsgKind
  args : List Nat
  data : List Byte
deriving DecidableEq, Repr

end Sys2Proof.Machine
end

