-- ==== Sys2Proof/Machine/State/Port.lean ====
section
/-! DEFINITION. State of an Ethernet port beyond its registers (R449 to R460). -/

namespace Sys2Proof.Machine

/-- A frame to send: its number, its length in bytes, the device time in ns after which it may not start (R452). -/
structure TxFrame where
  id : Nat
  len : Nat
  latest : Option Nat
deriving DecidableEq, Repr

/-- A gate list (R455): GATE_EN, CYCLE_NS, CYCLE_EXT_NS, entries as (GATES, INTERVAL), its change time in device ns
and the device time it was armed. -/
structure GateSet where
  en : Bool
  cycle : Nat
  ext : Nat
  list : List (Nat × Nat)
  start : Nat
  armed : Nat
deriving DecidableEq, Repr

/-- A port: frames queued (oldest first), the frame in flight with its queue and its end in ps of device time, shaper
credit per queue in 10^-6 packet, the bits missing from buckets C and P per policer, the lists in force and armed (none
in force: every gate is open), the gates now open, and the last whole microseconds the shapers and policers were fed at. -/
structure PortState where
  queues : Tbl (List TxFrame)
  flight : Option (TxFrame × Nat × Nat)
  credit : Tbl Nat
  missC : Tbl Nat
  missP : Tbl Nat
  force_ : Option GateSet
  next : Option GateSet
  open_ : Nat
  fedS : Nat
  fedP : Nat
deriving DecidableEq, Repr

/-- A port after reset (R463): queues empty, credit 0, buckets full, every gate open. -/
def PortState.reset : PortState := ⟨[], none, [], [], [], none, none, 0xFFFF, 0, 0⟩

end Sys2Proof.Machine
end

