-- ==== Sys2Proof/Machine/State/Pow.lean ====
section
/-! DEFINITION. State of the power governor (R616 to R621), the shedding controller (R622 to R626) and the Assay unit
(R627 to R630) beyond registers. -/

namespace Sys2Proof.Machine

/-- Governor and shedding controller. `samples` are the last totals in mW, newest first; `overSince` and `underSince`
the instants since which the mean has stayed above CAP with every sector at step 4, and below CAP − 20 W; `lastSlow`
and `lastClose` the latest step and closing (plus 1; 0 for none); `peakFirst` the first closing of a Peak episode;
`closed` the sectors whose admission the governor closed; `thermHeld` and `dramHeld` the sectors under a thermal rule
(R621, R286), `heldAt` the instant of a sector's latest thermal step (plus 1); `badTj` invalid samples in a row; `sources` the sag sources present (0 PWR_WARN,
1 VDD_CORE, from 2 the other rails); `sagFrom` the start of the present sag; `sagTime` what had accumulated before it;
`clearFrom` the end of the last sag, `lastUndo` the latest recovery step; `level` the lowest carrier priority shed so
far (16: none); `before1` the sectors' steps that shedding step 1 overrides, `widthWas` the PCIe lanes before step 6;
`energyFrac` the energy in pJ not yet counted, `lastSample` the instant of the last power sample; `avsTries` AVS writes in
a row that were not acknowledged (R644). -/
structure PowState where
  samples : List Nat
  overSince : Option Nat
  underSince : Option Nat
  lastSlow : Nat
  lastClose : Nat
  peakFirst : Option Nat
  closed : List Nat
  thermHeld : List Nat
  dramHeld : List Nat
  heldAt : Tbl Nat
  badTj : Tbl Nat
  sources : List Nat
  sagFrom : Option Nat
  sagTime : Nat
  episode : Bool
  clearFrom : Nat
  lastUndo : Option Nat
  level : Nat
  before1 : List Nat
  widthWas : Nat
  energyFrac : Nat
  lastSample : Nat
  avsTries : Nat
deriving DecidableEq, Repr

/-- Power after reset. -/
def PowState.reset : PowState where
  samples := []
  overSince := none
  underSince := none
  lastSlow := 0
  lastClose := 0
  peakFirst := none
  closed := []
  thermHeld := []
  dramHeld := []
  heldAt := []
  badTj := []
  sources := []
  sagFrom := none
  sagTime := 0
  episode := false
  clearFrom := 0
  lastUndo := none
  level := 16
  before1 := []
  widthWas := 0
  energyFrac := 0
  lastSample := 0
  avsTries := 0

/-- A sample the Assay unit has captured (R627): the site, the command's entry, whether it is a SEAM command, whether
it ran in compatibility mode, its result rows, when it was captured, and once a check runs its checker (plus 1). -/
structure Sample where
  site : Nat
  tag : Nat
  seam : Bool
  compat : Bool
  entry : BitVec 512
  inputs : List (BitVec 8)
  rows : List Nat
  at_ns : Nat
  checker : Nat
deriving DecidableEq, Repr

/-- The Assay unit: samples waiting or under check, oldest first, and tiles to be retired at the end of their job. -/
structure AssayState where
  samples : List Sample
  toRetire : List Nat
deriving DecidableEq, Repr

/-- The Assay unit after reset. -/
def AssayState.reset : AssayState := ⟨[], []⟩

end Sys2Proof.Machine
end

