-- ==== Sys2Proof/Machine/State/Tile.lean ====
section
/-! DEFINITION. State of the matrix tiles and of the vaults with their Seam engines, beyond what their registers
show: command queues with prefetch and loop buffers (R147, R163), commands in execution, transfers in flight (R168),
the activity level's history (R131 to R134), and the write queues of Stream mode (R200). -/

namespace Sys2Proof.Machine

/-- A fetched queue entry: its queue index and its 64 bytes, little-endian (R148, R151). -/
structure QEntry where
  index : Nat
  bits : BitVec 512
deriving DecidableEq, Repr

/-- One active loop of a nest (R163): the first entry of its body in the loop buffer, the body's length, its
iterations, the present index, the four slot strides and the target stride. -/
structure LoopFrame where
  start : Nat
  len : Nat
  count : Nat
  idx : Nat
  stride0 : Int
  stride1 : Int
  stride2 : Int
  stride3 : Int
  tstride : Int
deriving DecidableEq, Repr

/-- One command queue of a tile: the prefetch buffer of up to 16 entries (R147), the loop buffer with the entries of
the present nest that have been taken and the position in it (R163), the active loops, innermost first, the first
cycle in which the head has been next to issue, the scale ranges (first, count) that SCALE_LOADs of the queue have
written with the cycle of each (R98), whether a STOP has been issued (R150), and whether the job uses the queue
(R298). -/
structure CmdQueue where
  buf : List QEntry
  nest : List QEntry
  pos : Nat
  frames : List LoopFrame
  headAt : Nat
  loads : List (Nat × Nat × Nat)
  stopping : Bool
  used : Bool
deriving DecidableEq, Repr

/-- An empty command queue. -/
def CmdQueue.empty : CmdQueue := ⟨[], [], 0, [], 0, [], false, false⟩

/-- A run of bytes in tile SRAM. -/
structure Span where
  addr : Nat
  len : Nat
deriving DecidableEq, Repr

/-- Bytes that a command writes to tile SRAM from an address on. -/
structure Put where
  addr : Nat
  data : List (BitVec 8)
deriving DecidableEq, Repr

/-- The units of a tile that run commands (R146), and the two that do not hold one. -/
inductive TileUnit where
  | array | accPort | vector | sfu | quant | copy | seam | banks | none
deriving DecidableEq, Repr

/-- The signal a command owes on completion (R151): none, or a counter, an increment, and for a remote one the
logical tile. -/
structure Signal where
  enable : Bool
  remote : Bool
  counter : Nat
  inc : Nat
  tile : Nat
deriving DecidableEq, Repr

/-- The real-row cycles of one array command: the cycle of the first row, the chunk period, the chunks, the row cycles of
a chunk (R128, R251), and the first cycle in which no row is read any more (R143). -/
structure RowRun where
  first : Nat
  period : Nat
  chunks : Nat
  rows : Nat
  cut : Nat
deriving DecidableEq, Repr

/-- What an array command does over its run: its row cycles, columns, K, chunk length and cycles per A row, the stationary
bank of its first chunk (R116), and the cycle up to which its rows have been counted (R140). -/
structure ArrayWork where
  run : RowRun
  cols : Nat
  k : Nat
  chunk : Nat
  rowCycles : Nat
  bank : Nat
  counted : Nat
deriving DecidableEq, Repr

/-- How fast a command by rows goes (R219, R225, R231, R251): row `r` is whole `slow` × ⌈(r + 1) × `work` ÷ `rate`⌉ +
`lat` cycles after issue; the evaluations of a row, and the cycle of a row from which they run. -/
structure Pace where
  rows : Nat
  work : Nat
  rate : Nat
  slow : Nat
  lat : Nat
  evals : Nat
  evalFrom : Nat
deriving DecidableEq, Repr

/-- A SEAM command in its engine (R190, R197): the vault, transfers per group and in all, cycles from issue to the first
transfer, cycles per transfer as a fraction, N, K, B and K elements per transfer, the port cycles it yields (R199), and
the uncorrectable codeword it meets (vault, number, byte mask; R202). -/
structure SeamWork where
  vault : Nat
  perGroup : Nat
  total : Nat
  lead : Nat
  num : Nat
  den : Nat
  n : Nat
  k : Nat
  b : Nat
  step : Nat
  yields : Nat
  bad : Option (Nat × Nat × Nat)
deriving DecidableEq, Repr

/-- An issued command that has not completed: its queue, index, TAG, unit, issue cycle and fewest cycles to completion;
its pace by rows, by which an abort leaves the rest undefined (R232); its signal; the SRAM it reads, and what it will have
written to SRAM at its end, row by row (group by group for a SEAM); the accumulator rows and scale ranges it uses, whether
it writes them, and the scale entries it will have written; the code it completes with; the parity errors that its reads of
the array meet (R144); its statistics record (R111); the banks it still moves (R176); its row cycles (R140); its engine's work and the slabs it pins (R192). -/
structure RunCmd where
  queue : Nat
  index : Nat
  tag : Nat
  unit : TileUnit
  cyc : Nat
  dur : Nat
  pace : Option Pace
  sig : Signal
  ins : List Span
  outs : List (List Put)
  acc : Option (Nat × Nat)
  accOut : Bool
  scales : List (Nat × Nat)
  scaleOut : Bool
  scaleData : List (BitVec 8)
  code : Nat
  par : Nat
  record : List (BitVec 8)
  banks : List Nat
  array : Option ArrayWork
  seam : Option SeamWork
  pins : List (Nat × Nat)
deriving DecidableEq, Repr

/-- A transfer handed to a DMA engine whose arrival signal has not fired (R168): DIR, tile SRAM address, virtual
address, length, engine (16 + cluster for a claimed tile), the generation it carries (R540), the route table and bank its
packets took (none: the tile's stop dropped it, R34, R60), and the signal it owes. -/
structure XferRec where
  queue : Nat
  index : Nat
  tag : Nat
  toMemory : Bool
  sram : Nat
  vaddr : Nat
  len : Nat
  engine : Nat
  gen : Nat
  route : Option (Nat × Bool)
  sig : Signal
deriving DecidableEq, Repr

/-- A bank on its way to another power state (R176): bank, target, the cycle its count starts (moved on while a
deferral holds), and its cycles. -/
structure BankMove where
  bank : Nat
  target : Nat
  since : Nat
  dur : Nat
deriving DecidableEq, Repr

/-- A remote signal on its way to this tile (R167): counter, increment, earliest cycle, route table and bank (R60). -/
structure RemoteSig where
  counter : Nat
  inc : Nat
  earliest : Nat
  route : Nat × Bool
deriving DecidableEq, Repr

/-- The job a tile runs: its number, its holder (slice, or 64 + cluster while claimed), the slice's generation,
this tile's logical index, the sites of all its tiles in logical order, compatibility mode (R248), and the first cycle in
which its commands can issue (R254). -/
structure TileJob where
  job : Nat
  holder : Nat
  gen : Nat
  index : Nat
  tiles : List Nat
  compat : Bool
  opens : Nat
deriving DecidableEq, Repr

/-- A failure reported to the scheduler (R180, R181): cycle, lowest failing queue (4: an abort from outside), code, TAG;
and the queues, commands and transfers as they stood in that cycle, for what else ends or fails in it. -/
structure TileFail where
  cyc : Nat
  queue : Nat
  code : Nat
  tag : Nat
  queues : List CmdQueue
  running : List RunCmd
  xfers : List XferRec
deriving DecidableEq, Repr

/-- A tile beyond its registers. `landed` are the increments that reached counters in cycle `landCyc` (R167), `idleAt`
the last completion cycle of each unit, `served` the queue each unit served last (R149), `rows` the array's recent row
runs, `gapFrom` the first cycle of the present gap, `hold` the level sampled there, `rampUp` that a command waits for the
ramp (R132), `fullFrom` the cycle a ramp reached level 16, `rampEnd` a ramp-down without hold (R133, R143), `lastInt` the
start of the interval in force, `dummyTo` the cycle up to which dummy rows are counted, `dummySteps` how far the dummy
generator has run since its seed (R135), `xferTurn` the DMA engine the next XFER takes (R168), `stat0` and `stat1` the
stationary banks' images (R116). -/
structure TileState where
  q0 : CmdQueue
  q1 : CmdQueue
  q2 : CmdQueue
  q3 : CmdQueue
  running : List RunCmd
  xfers : List XferRec
  inbound : List RemoteSig
  bankMoves : List BankMove
  job : Option TileJob
  fail : Option TileFail
  landCyc : Nat
  landed : List (Nat × Nat)
  idleAt : List (TileUnit × Nat)
  served : List (TileUnit × Nat)
  rows : List RowRun
  gapFrom : Nat
  hold : Nat
  rampUp : Bool
  fullFrom : Nat
  rampEnd : Bool
  lastInt : Nat
  dummyTo : Nat
  dummySteps : Nat
  xferTurn : Nat
  stat0 : List (BitVec 8)
  stat1 : List (BitVec 8)
deriving DecidableEq, Repr

/-- A tile after reset (R141, R178). -/
def TileState.reset : TileState where
  q0 := .empty
  q1 := .empty
  q2 := .empty
  q3 := .empty
  running := []
  xfers := []
  inbound := []
  bankMoves := []
  job := none
  fail := none
  landCyc := 0
  landed := []
  idleAt := []
  served := []
  rows := []
  gapFrom := 0
  hold := 0
  rampUp := false
  fullFrom := 0
  rampEnd := false
  lastInt := 0
  dummyTo := 0
  dummySteps := 0
  xferTurn := 0
  stat0 := []
  stat1 := []

/-- Consecutive 64-byte lines written while a vault's port runs in Stream mode (R200): the vault address of the first, how
many, and since when they are in the write queue. Their bytes are in the memory already: a read of such a line returns
the queued data. -/
structure WqEntry where
  addr : Nat
  lines : Nat
  since : Nat
deriving DecidableEq, Repr

/-- A vault beyond its registers: the sites whose SEAM commands its engine holds, oldest first, the write queue, the
lines that wait on their mesh credits for room in it, the rate a mode change asks for, the patrol scrub's codeword (R266),
the refresh rate, since when the port relocks, and whether the open write window has drained the queue. -/
structure VaultState where
  held : List Nat
  wq : List WqEntry
  behind : List WqEntry
  wantStream : Bool
  patrolAt : Nat
  doubled : Bool
  relockAt : Nat
  drained : Bool
deriving DecidableEq, Repr

/-- A vault after reset. -/
def VaultState.reset : VaultState where
  held := []
  wq := []
  behind := []
  wantStream := false
  patrolAt := 0
  doubled := false
  relockAt := 0
  drained := false

end Sys2Proof.Machine
end

