-- ==== Sys2Proof/Machine/State/Radio.lean ====
section
/-! DEFINITION. State of the radio domain beyond its registers: slot tables (R337 to R345), carriers and their FAPI
endpoints (R349 to R352), radio units (R353), fronthaul reception (R348), Mica cores and engines (R360 to R376), tracking
contexts (R404, R405) and noise measurements (R393, R394). -/

namespace Sys2Proof.Machine

/-- An entry of a fired slot table (R340, R342): its 16 bytes, its trigger in units of 1/30720 ns, and whether it is
pending (0), armed past its trigger (1, COND only) or done (2). -/
structure TabEntry where
  bits : BitVec 128
  trig : Nat
  stage : Nat
deriving DecidableEq, Repr

/-- One slot table of a cluster (R337 to R342): the slot's number on the cluster's grid and SLOT_ID, skeleton and patch
entries in order, the masks of its header, the local carriers that run null from the seal, the receive settings sampled
at the seal (R411), its phase (0 SEALED, 1 CLOSED, 2 ACTIVE), its merged entries once it has fired, the local carriers
whose primary was aborted and those that took the classical path, the PUSCH and PUCCH allocations (local, handle, RNTI), what requests
have used of the limits of R330 and R334 (local × 8 + kind), and the banks of tables 0x07 and 0x08 it uses. -/
structure SlotTable where
  slot : Nat
  id : Nat
  skel : List (BitVec 128)
  patch : List (BitVec 128)
  carriers : Nat
  patched : Nat
  neural : Nat
  nulls : Nat
  settings : Tbl (List Nat)
  phase : Nat
  entries : List TabEntry
  aborted : List Nat
  fellBack : List Nat
  pusch : List (Nat × Nat × Nat)
  pucch : List (Nat × Nat × Nat)
  used : Tbl Nat
  bank7 : Bool
  bank8 : Bool
deriving DecidableEq, Repr

/-- A trigger waiting at a unit (R364, R365): STREAM, relocation in words, whether ARG breaks its rule, the table's slot
and the local carrier, and whether it is a COND entry. -/
structure Trigger where
  stream : Nat
  reloc : Nat
  bad : Bool
  slot : Nat
  local_ : Nat
  cond : Bool
deriving DecidableEq, Repr

/-- The stream a unit runs (R366): its trigger, the position of the next command or descriptor, whether it waits, and
what it has written. -/
structure StreamRun where
  trig : Trigger
  pc : Nat
  waits : Bool
  outs : List Span
deriving DecidableEq, Repr

/-- A unit of a cluster (R365). -/
structure UnitState where
  run : Option StreamRun
  queue : List Trigger
deriving DecidableEq, Repr

/-- An idle unit. -/
def UnitState.idle : UnitState := ⟨none, []⟩

/-- An address generator (R371, R372): BASE, o, MODE, INC, BITREV width, CIRCULAR length. -/
structure AddrGen where
  base : Nat
  off : Int
  mode : Nat
  inc : Int
  bits : Nat
  len : Nat
deriving DecidableEq, Repr

/-- A cleared address generator. -/
def AddrGen.zero : AddrGen := ⟨0, 0, 0, 0, 1, 1⟩

/-- An active repeat (R374): first and last position of its body, iterations left, AG, ADJ_EN, ADJ. -/
structure MicaLoop where
  first : Nat
  last : Nat
  left : Nat
  ag : Nat
  adjEn : Bool
  adj : Int
deriving DecidableEq, Repr

/-- A Mica core (R367): vectors (register × 32 + lane), accumulator parts (register × 64 + lane × 2 + part), address
generators, the loop stack, innermost first, and the loop buffer (position, command). -/
structure MicaState where
  v : Tbl (BitVec 32)
  acc : Tbl Int
  ag : Tbl AddrGen
  loops : List MicaLoop
  buf : Tbl (BitVec 128)
deriving DecidableEq, Repr

/-- A cleared Mica core. -/
def MicaState.zero : MicaState := ⟨[], [], [], [], []⟩

/-- A tracking context (R404, R405): its key, frequency offset in 1/16 Hz, timing offset in Tc ÷ 16, updates made, and
the slot of the last. -/
structure TrkCtx where
  local_ : Nat
  rnti : Nat
  freq : Int
  tau : Int
  n : Nat
  slot : Nat
deriving DecidableEq, Repr

/-- A radio cluster beyond its registers: units, Mica cores, slot tables in slot order, the next unsealed slot, and
tracking contexts. -/
structure ClusterState where
  units : Tbl UnitState
  mica : Tbl MicaState
  tables : List SlotTable
  next : Nat
  ctxs : List TrkCtx
deriving DecidableEq, Repr

/-- A cluster after reset. -/
def ClusterState.reset : ClusterState := ⟨[], [], [], 0, []⟩

/-- A filtered noise value (R394): F in Q24.8 (none: cleared) and slots since it was measured. -/
structure NoiseCell where
  f : Option Nat
  idle : Nat
deriving DecidableEq, Repr

/-- A cleared noise value. -/
def NoiseCell.clear : NoiseCell := ⟨none, 0⟩

/-- A carrier beyond its registers (R349 to R354): its PRB count, µ code, and streams from CONFIG, the first slot of a
START, the last slot of a STOP (plus 1), whether the governor has shed it, slots since its last good beam weights, the
instant of the last uplink U-plane packet, and downlink payloads handed in (slot, bytes). -/
structure CarrierState where
  prbs : Nat
  dl : Nat
  ul : Nat
  started : Bool
  startAt : Nat
  stopAt : Nat
  shed : Bool
  hold : Nat
  lastUl : Nat
  tx : List (Nat × List (BitVec 8))
deriving DecidableEq, Repr

/-- A carrier that is OFF. -/
def CarrierState.off : CarrierState := ⟨0, 0, 0, false, 0, 0, false, 0, 0, []⟩

/-- The uplink PRBs received of one symbol of a stream (R348): entry of table 0x08, symbol number on the cluster's
grid, PRBs received. -/
structure RxSymbol where
  entry : Nat
  sym : Nat
  prbs : List Nat
deriving DecidableEq, Repr

/-- The air timeline: carriers, noise values (carrier × 512 + stream × 18 + group), symbols under reception, and PRBs
marked as erasures (entry, symbol, PRB), and whether a radio unit has reached READY since reset (R44, R353). -/
structure AirState where
  carriers : Tbl CarrierState
  noise : Tbl NoiseCell
  rx : List RxSymbol
  erased : List (Nat × Nat × Nat)
  discovered : Bool
deriving DecidableEq, Repr

/-- The air timeline after reset (R357). -/
def AirState.reset : AirState := ⟨[], [], [], [], false⟩

end Sys2Proof.Machine
end

