-- ==== Sys2Proof/Machine/State/Sched.lean ====
section
/-! DEFINITION. State of the scheduler beyond its registers: jobs (R293 to R302), the deadline monitor (R316 to R318),
claims (R320 to R322), engine time (R304 to R306) and the step builder (R311 to R315). -/

namespace Sys2Proof.Machine

/-- Where a job stands: its descriptor fetched and waiting for tiles, held for its launch (R254), placed and about to
start, running, waiting for its fall-back to start (R317), waiting for the classical path (R318), or ended with its
record held by the completion writer (R302). -/
inductive JobPhase where
  | waiting | held | placed | running | fallbackDue | classical | ended
deriving DecidableEq, Repr

/-- One piece of a matrix operation under the split rule (R239): the operation's number, its block of output channels, the
piece's number along K, the logical tile it runs on, its first chunk and how many. -/
structure Piece where
  op : Nat
  block : Nat
  piece : Nat
  tile : Nat
  first : Nat
  chunks : Nat
deriving DecidableEq, Repr

/-- One job. `slice` is 64 + cluster for a job of Flint's. `desc`, `table`, `fbDesc` and `fbTable` are the descriptors
and stream tables as read at admission (R294, R295, R317); `mode`, `slack`, `launch` and `policy` the policy record's
words and address (R245); `count` its tiles, `bound` its job bound in ns, `reserved` its open reservation, `charge` what
has been charged (R306); `startNs` and `startCyc` its start on the local clock and in mesh ACLK cycles, `startWord` in
the format of R419; `checks` the checkpoints reached; `model` its step's model (plus 1) with the entries of the work
list (index, tokens, R313); `hgen` the host session generation of a host job (R586), 0 for others; `banks` the banks of
the JOB tables it refers to (R60); `fbMode` the MODE word of the fall-back's policy record (R248, R317); `air` the slot and
the local carrier that a neural primary of Flint's serves (R318); `ops` the matrix operations (N, K, K_c) of a model's step and `plan` how the
work-list builder splits them over the job's tiles (R239). -/
structure JobRec where
  id : Nat
  slice : Nat
  queue : Nat
  gen : Nat
  index : Nat
  phase : JobPhase
  desc : List (BitVec 8)
  table : List (BitVec 8)
  fbDesc : List (BitVec 8)
  fbTable : List (BitVec 8)
  mode : Nat
  split : Nat
  slack : Nat
  launch : Nat
  policy : Nat
  count : Nat
  tiles : List Nat
  bound : Nat
  group : Nat
  reserved : Nat
  charge : Nat
  startNs : Nat
  startCyc : Nat
  startWord : Nat
  launched : Bool
  closed : Bool
  checks : List Nat
  status : Option Nat
  code : Nat
  failTile : Nat
  failQueue : Nat
  failIndex : Nat
  fallback : Bool
  model : Nat
  entries : List (Nat × Nat)
  hgen : Nat
  banks : List (Nat × Bool)
  fbMode : Nat
  air : Option (Nat × Nat)
  ops : List (Nat × Nat × Nat)
  plan : List Piece
deriving DecidableEq, Repr

/-- One claim of a swing tile (R320): site, claiming cluster, the instant of acceptance, whether it is complete,
whether its release has come, and whether it has been counted as over 250 µs. -/
structure Claim where
  site : Nat
  cluster : Nat
  since : Nat
  done : Bool
  released : Bool
  overdue : Bool
deriving DecidableEq, Repr

/-- The scheduler: jobs in order of admission (ended ones at the end, in end order), the next job number, whose turn is
next in each share group (slice × 32 + queue), the ACLK count at its latest change of frequency, the period's supply so
far and the ACLK count up to which it is formed, claims, tiles that wait for a full scrub, CQ_TAIL when each ring was
set (R299), the models whose last step was a prefill step (R315), and per share group what has been credited since reset
and what of it was clipped (R305, R530), and the number of the latest
accounting period, in ms of the device clock. -/
structure SchedState where
  jobs : List JobRec
  nextId : Nat
  turns : Tbl Nat
  aclkNs : Nat
  aclkCyc : Nat
  supply : Nat
  supplyCyc : Nat
  claims : List Claim
  scrubDue : List Nat
  ringBase : Tbl Nat
  lastPrefill : List Nat
  credited : Tbl Nat
  clipped : Tbl Nat
  periodAt : Nat
deriving DecidableEq, Repr

/-- The scheduler after reset: no job. -/
def SchedState.reset : SchedState where
  jobs := []
  nextId := 0
  turns := []
  aclkNs := 0
  aclkCyc := 0
  supply := 0
  supplyCyc := 0
  claims := []
  scrubDue := []
  ringBase := []
  lastPrefill := []
  credited := []
  clipped := []
  periodAt := 0

end Sys2Proof.Machine
end

