-- ==== Sys2Proof/Machine/State.lean ====
section
/-! DEFINITION. The state of a Nimre 7200: the register file, the memories, what the device holds that no register
shows, and the commands that wait. -/

namespace Sys2Proof.Machine

/-- Why a command stops. -/
inductive Fault where
  /-- A command that names a unit the device does not have (R26, R33). Safe: no such unit exists to act. -/
  | noSuchUnit
deriving DecidableEq, Repr

/-- Why a command has no meaning. -/
inductive Refusal where
  /-- A row of the command table that has no meaning yet. Safe. -/
  | notModelled (mnemonic : String)
deriving DecidableEq, Repr

/-- The whole device. `now` is the instant of the latest command, in nanoseconds. -/
structure State where
  now : Nat
  regs : Tbl RegWord
  mem : List Host.Cell
  acc : Tbl (BitVec 32)
  dev : DevState
  strata : StrataState
  tiles : Tbl TileState
  vaults : Tbl VaultState
  mm : MemState
  slices : Tbl SliceState
  sched : SchedState
  host : HostState
  fw : FwState
  flash : FlashState
  sec : SecState
  pow : PowState
  assay : AssayState
  clk : ClkState
  air : AirState
  clusters : Tbl ClusterState
  ports : Tbl PortState
  fab : FabState
  out : List Msg
  freeCtr : Nat
  pending : List Instr
deriving DecidableEq, Repr

/-- The device right after a cold reset (R649): every register at its Reset column, nothing in any memory. -/
def State.reset : State where
  now := 0
  regs := []
  mem := []
  acc := []
  dev := .reset
  strata := .reset
  tiles := []
  vaults := []
  mm := .reset
  slices := []
  sched := .reset
  host := .reset
  fw := .reset
  flash := .blank
  sec := .reset
  pow := .reset
  assay := .reset
  clk := .reset
  air := .reset
  clusters := []
  ports := []
  fab := .reset
  out := []
  freeCtr := 0
  pending := []

end Sys2Proof.Machine
end

