-- ==== Sys2Proof/Machine/Ops.lean ====
section
/-! DEFINITION. The operations every meaning is made of: register fields, memory bytes, free values, messages, the
part's map (R25 to R29) and the double-banked tables (R59, R60). -/

namespace Sys2Proof.Machine

/-- The answer of a command. -/
abbrev Ans := Host.Outcome State Fault Refusal

/-- The answer `t` where the unit exists (R26, R33). -/
def onUnit (ok : Bool) (t : State) : Ans := if ok then .next t else .fault .noSuchUnit

/-- The state when an event at instant `t` is taken: time never runs backwards. -/
def State.atTime (s : State) (t : Nat) : State := { s with now := max s.now t }

/-! Registers -/

/-- The value of a register field. -/
def State.rd (s : State) (f : Fld) : Nat := fldGet s.regs f

/-- The state with a register field written by the hardware. -/
def State.wr (s : State) (f : Fld) (v : Nat) : State := { s with regs := fldPut s.regs f v }

/-- A field set to 1. -/
def State.flag (s : State) (f : Fld) : State := s.wr f 1

/-- A counter that saturates at all ones. -/
def State.sat (s : State) (f : Fld) (n : Nat) : State := s.wr f (min (s.rd f + n) (2 ^ f.width - 1))

/-- A counter that wraps. -/
def State.bump (s : State) (f : Fld) (n : Nat) : State := s.wr f (s.rd f + n)

/-- A field that falls by `n`, not below zero. -/
def State.drop (s : State) (f : Fld) (n : Nat) : State := s.wr f (s.rd f - n)

/-- Several fields written in order. -/
def State.wrs (s : State) : List (Fld × Nat) → State
  | [] => s
  | (f, v) :: l => (s.wr f v).wrs l

/-- A whole register word written. -/
def State.wrWord (s : State) (a : Nat) (w : RegWord) : State := { s with regs := regSetWord s.regs a w }

/-- `g` on the state if `b`, else the state. -/
def State.iff (s : State) (b : Bool) (g : State → State) : State := if b then g s else s

/-- `g` for each element of a list, from the first. -/
def State.each {α : Type} (s : State) (l : List α) (g : State → α → State) : State := l.foldl g s

/-- Half the page of the block an address lies in (R64); zero outside. -/
def halfPage (a : Nat) : Nat :=
  match regBlocks.find? (fun b => (blockMatch b a).isSome) with
  | some b => b.half
  | none => 0

/-- The shadow copy of a commit-group field (R64). -/
def Fld.shadow (f : Fld) : Fld := { f with addr := f.addr + halfPage f.addr }

/-- Registers in `[lo, hi)` back at their Reset column. -/
def State.resetRegs (s : State) (lo hi : Nat) : State := { s with regs := tblClear s.regs lo hi }

/-! Messages and free values -/

/-- The state with a message sent. -/
def State.emit (s : State) (k : MsgKind) (args : List Nat) (data : List Byte := []) : State :=
  { s with out := s.out ++ [⟨k, args, data⟩] }

/-- A fresh free byte, and the state that has drawn it. -/
def State.drawByte (s : State) : Byte × State :=
  (Config.freeByte s.freeCtr, { s with freeCtr := s.freeCtr + 1 })

/-- `n` fresh free bytes. -/
def State.drawBytes (s : State) (n : Nat) : List Byte × State :=
  ((List.range n).map (fun i => Config.freeByte (s.freeCtr + i)), { s with freeCtr := s.freeCtr + n })

/-- A fresh free word. -/
def State.drawWord (s : State) : RegWord × State :=
  (Config.freeWord s.freeCtr, { s with freeCtr := s.freeCtr + 1 })

/-! Memories: one list of bytes, keyed by space × 2^64 + address -/

/-- Address `a` of tile `site`'s SRAM (R171). -/
def tileKey (site a : Nat) : Nat := 0x1_0000_0000_0000_0000 + site * 0x40_0000 + a

/-- Byte `a` of vault `v` (R263). -/
def vaultKey (v a : Nat) : Nat := 0x2_0000_0000_0000_0000 + v * 0x4000_0000 + a

/-- Byte `a` of radio cluster `c`'s SRAM. -/
def clusterKey (c a : Nat) : Nat := 0x3_0000_0000_0000_0000 + c * 0x80_0000 + a

/-- Byte `a` of host memory, reached over PCIe (R547). -/
def hostKey (a : Nat) : Nat := 0x4_0000_0000_0000_0000 + a

/-- Byte `a` of the slabs this device has homed at pod peer `d` (R260, T3). -/
def peerKey (d a : Nat) : Nat := 0x5_0000_0000_0000_0000 + d * 0x100_0000_0000 + a

/-- Byte `a` of the flash's copy regions (R650). -/
def flashKey (a : Nat) : Nat := 0x6_0000_0000_0000_0000 + a

/-- Byte `a` of the owner's memory. -/
def ownerKey (a : Nat) : Nat := 0x7_0000_0000_0000_0000 + a

/-- What a byte of memory that nothing has written reads as (log entry 2). -/
def unwritten : Byte := 0

/-- The byte at a memory key. -/
def State.byte (s : State) (k : Nat) : Byte := tblGet unwritten s.mem k

/-- The state with one byte of memory written. -/
def State.setByte (s : State) (k : Nat) (b : Byte) : State := { s with mem := tblSet unwritten s.mem k b }

/-- `n` bytes from key `k` on. -/
def State.bytes (s : State) (k n : Nat) : List Byte := (List.range n).map fun i => s.byte (k + i)

/-- The state with bytes written from key `k` on. -/
def State.setBytes (s : State) (k : Nat) : List Byte → State
  | [] => s
  | b :: l => (s.setByte k b).setBytes (k + 1) l

/-- A little-endian number (R15). -/
def ofBytes : List Byte → Nat
  | [] => 0
  | b :: l => b.toNat + 256 * ofBytes l

/-- `n` bytes of a number, little-endian. -/
def toBytes : Nat → Nat → List Byte
  | 0, _ => []
  | n + 1, v => BitVec.ofNat 8 v :: toBytes n (v / 256)

/-- The little-endian number in `n` bytes from key `k` on. -/
def State.num (s : State) (k n : Nat) : Nat := ofBytes (s.bytes k n)

/-- The state with a number written as `n` little-endian bytes. -/
def State.setNum (s : State) (k n v : Nat) : State := s.setBytes k (toBytes n v)

/-- The keys in `[lo, hi)` unlisted: they read as unwritten bytes (zero). -/
def State.zeroKeys (s : State) (lo hi : Nat) : State := { s with mem := tblClear s.mem lo hi }

/-- `n` bytes from key `k` on left undefined: free bytes. -/
def State.scramble (s : State) (k n : Nat) : State :=
  let (l, t) := s.drawBytes n
  t.setBytes k l

/-! The part (R25 to R29) -/

/-- The sector of a matrix site (R26). -/
def sectorOfSite (site : Nat) : Nat := site / 17

/-- The sector of a vault (R26). -/
def sectorOfVault (v : Nat) : Nat := v / 19

/-- A vault of a radio site belongs to the radio domain for good (R30). -/
def radioVault (v : Nat) : Bool := 17 ≤ v % 19

/-- The vault numbers of the device. -/
def allVaults : List Nat := List.range 152

/-- The matrix sites of the device. -/
def allSites : List Nat := List.range 136

/-- The vault is not in the disabled-unit map (R27). -/
def State.vaultOn (s : State) (v : Nat) : Bool := v < 152 && !s.dev.map.vaults.contains v

/-- An enabled vault of the inference domain. -/
def State.inferVault (s : State) (v : Nat) : Bool := s.vaultOn v && !radioVault v

/-- The enabled inference vaults in ascending number. -/
def State.inferVaults (s : State) : List Nat := allVaults.filter s.inferVault

/-- The home vault of a matrix site, remaps included (R28). -/
def State.homeVault (s : State) (site : Nat) : Nat :=
  match s.dev.map.remaps.find? (fun r => r.1 == site) with
  | some r => r.2
  | none => site / 17 * 19 + site % 17

/-- Mesh stop of a vault or matrix site: column and row on the 20 by 8 grid (R25, R33). -/
def stopPlace (sector stop : Nat) : Nat × Nat := (sector % 4 * 5 + stop % 5, sector / 4 * 4 + stop / 5)

/-- Hops between two stops of the grid. -/
def hops (a b : Nat × Nat) : Nat := (a.1 - b.1) + (b.1 - a.1) + ((a.2 - b.2) + (b.2 - a.2))

/-- Hops between two vaults. -/
def vaultHops (v w : Nat) : Nat := hops (stopPlace (v / 19) (v % 19)) (stopPlace (w / 19) (w % 19))

/-- A matrix tile that the disabled-unit map in force leaves enabled (R27, R29). -/
def State.tileOn (s : State) (site : Nat) : Bool :=
  site < 136 && !s.dev.map.sites.contains site && !s.flash.retired.contains site

/-- The enabled matrix sites. -/
def State.tilesOn (s : State) : List Nat := allSites.filter s.tileOn

/-! The device clock (R416 to R419) -/

/-- The device clock in nanoseconds. -/
def State.devNs (s : State) : Nat := s.clk.dev.read s.now / 65536

/-- An instant in ns as a 64-bit time field (R419). -/
def timeWord (ns : Nat) : Nat := ns / 1_000_000_000 % 2 ^ 32 * 2 ^ 32 + ns % 1_000_000_000

/-- The device clock as a 64-bit time field. -/
def State.devTime (s : State) : Nat := timeWord s.devNs

/-- The instant of a 64-bit time field is reached (R419). -/
def State.reached (s : State) (w : Nat) : Bool :=
  let v := w / 2 ^ 32 * 1_000_000_000 + w % 2 ^ 30
  let m := 2 ^ 32 * 1_000_000_000
  (s.devNs % m + m - v % m) % m < 2 ^ 31 * 1_000_000_000

/-! Per-unit states -/

/-- Tile `site` beyond its registers. -/
def State.tile (s : State) (site : Nat) : TileState := tblGet TileState.reset s.tiles site

/-- The state with tile `site` replaced. -/
def State.setTile (s : State) (site : Nat) (x : TileState) : State :=
  { s with tiles := tblSet TileState.reset s.tiles site x }

/-- Vault `v` beyond its registers. -/
def State.vault (s : State) (v : Nat) : VaultState := tblGet VaultState.reset s.vaults v

/-- The state with vault `v` replaced. -/
def State.setVault (s : State) (v : Nat) (x : VaultState) : State :=
  { s with vaults := tblSet VaultState.reset s.vaults v x }

/-- Slice `x` beyond its registers. -/
def State.slice (s : State) (x : Nat) : SliceState := tblGet SliceState.reset s.slices x

/-- The state with slice `x` replaced. -/
def State.setSlice (s : State) (x : Nat) (v : SliceState) : State :=
  { s with slices := tblSet SliceState.reset s.slices x v }

/-- Cluster `c` beyond its registers. -/
def State.cluster (s : State) (c : Nat) : ClusterState := tblGet .reset s.clusters c

/-- The state with a cluster replaced. -/
def State.setCluster (s : State) (c : Nat) (x : ClusterState) : State :=
  { s with clusters := tblSet .reset s.clusters c x }

/-- The slice numbers. -/
def allSlices : List Nat := List.range 64

/-! Double-banked tables (R59, R60) -/

/-- Table `id`. -/
def State.table (s : State) (id : Nat) : TableState := tblGet TableState.reset s.strata.tables id

/-- The state with table `id` replaced. -/
def State.setTable (s : State) (id : Nat) (x : TableState) : State :=
  { s with strata := { s.strata with tables := tblSet TableState.reset s.strata.tables id x } }

/-- One bank of a table. -/
def TableState.bank (x : TableState) (one : Bool) : List Byte := if one then x.bank1 else x.bank0

/-- The bank in use for new lookups. -/
def State.activeBank (s : State) (id : Nat) : List Byte := (s.table id).bank (s.table id).active1

/-- Byte `i` of a bank; a byte past its end is `d`. -/
def bankByte (d : Nat) (b : List Byte) (i : Nat) : Nat := (b[i]?.map BitVec.toNat).getD d

/-- The little-endian number of `n` bytes at offset `i` of a bank. -/
def bankNum (b : List Byte) (i n : Nat) : Nat := ofBytes ((b.drop i).take n)

/-- The in-flight count of the bank that is not active (R83). -/
def TableState.oldFly (x : TableState) : Nat := if x.active1 then x.fly0 else x.fly1

/-- STRATA_STATUS.ANY_DRAINING. -/
def State.showDraining (s : State) : State :=
  s.wr R.STRATA_STATUS_ANY_DRAINING (if s.strata.tables.any fun e => e.2.oldFly != 0 then 1 else 0)

/-- Adds to the in-flight count of one bank of a table (R60). -/
def State.holdBank (s : State) (id : Nat) (one : Bool) (n : Nat) : State :=
  let x := s.table id
  (s.setTable id (if one then { x with fly1 := x.fly1 + n } else { x with fly0 := x.fly0 + n })).showDraining

/-- Takes from the in-flight count of one bank of a table (R60). -/
def State.leaveBank (s : State) (id : Nat) (one : Bool) (n : Nat) : State :=
  let x := s.table id
  (s.setTable id (if one then { x with fly1 := x.fly1 - n } else { x with fly0 := x.fly0 - n })).showDraining

/-- A service core has the FAPI role, as the Strata image assigns (R37). -/
def State.fapiRole (s : State) (c : Nat) : Bool := 7 ≤ c && s.rd (R.FW_CORE_STATUS_FAPI c) == 1

/-- A core joins the radio plane (R37): a Flint core, or a service core with the FAPI role. -/
def State.joinsRadio (s : State) (c : Nat) : Bool := c == 5 || c == 6 || s.fapiRole c

/-- A service core joins the inference plane (R37): one with an inference role, and no other. -/
def State.joinsInference (s : State) (c : Nat) : Bool := 7 ≤ c && !s.fapiRole c

/-- PLANE_VALID of FLAGS (R48). -/
def Section.planeValid (x : Section) : Bool := x.flags % 2 == 1

/-- PLANE of FLAGS: 0 radio, 1 inference, 2 management. -/
def Section.plane (x : Section) : Nat := x.flags / 2 % 4

/-- PORT_GROUP of FLAGS. -/
def Section.portGroup (x : Section) : Nat := x.flags / 8 % 32

/-- The double-banked table a section targets (R50, R59). -/
def sectionTable (x : Section) : Option Nat :=
  match x.kind with
  | 2 => some 4
  | 3 => some (1 + x.plane)
  | 6 => some 6
  | 7 => some x.tableId
  | _ => none

/-- The boundary of a table as STRATA_SWITCH_CTRL codes it: 0 JOB, 1 SLOT, 2 TIME (R59). -/
def tableBoundary (id : Nat) : Nat :=
  match id with
  | 1 => 1
  | 7 => 1
  | 8 => 1
  | 2 => 2
  | 3 => 2
  | 9 => 2
  | 10 => 2
  | _ => 0

/-- The boundary of a section; a LANE section counts as JOB (R656). -/
def sectionBoundary (x : Section) : Nat := ((sectionTable x).map tableBoundary).getD 0

/-- GPS time in ns as the air engine derives it (R335). -/
def State.gpsNs (s : State) : Nat :=
  ((s.devNs : Int) - 19_000_000_000 + signedOf 32 (s.rd R.AIR_TIME_OFFSET_OFFSET_NS)).toNat

/-- The accepted switch instant has come: a GPS instant for a SLOT switch, else one of the device clock. -/
def State.switchDue (s : State) : Bool :=
  if s.strata.staged.any (sectionBoundary · == 1) then s.strata.switchAt ≤ s.gpsNs else s.reached s.strata.switchAt

/-- The bank that a lookup starting now takes (R60): the active one, or from the switch instant on the new one (R63),
whether or not STRATA_SWITCH has been taken at that instant yet. -/
def State.newBank (s : State) (id : Nat) : Bool :=
  (s.table id).active1 ^^ (s.rd R.STRATA_STATUS_RELOAD == 3 && s.switchDue && s.strata.staged.any (sectionTable · == some id))

/-! Phases (R40) -/

/-- The phase RUN. -/
def State.inRun (s : State) : Bool := s.rd R.DEV_STATUS_PHASE == 4

/-- Jasper does not run: a restart is in progress or its cores are held (R566, R570). -/
def State.jasperDown (s : State) : Bool := 2 ≤ s.rd (R.FW_CORE_STATUS_STATE 1) && s.rd (R.FW_CORE_STATUS_STATE 1) ≤ 3

/-- The active Flint core runs (R569). -/
def State.flintUp (s : State) : Bool := s.rd (R.FW_CORE_STATUS_STATE (5 + s.rd R.FW_STATUS_FLINT_ACTIVE)) == 1

/-- Agate runs. -/
def State.agateUp (s : State) : Bool := s.rd (R.FW_CORE_STATUS_STATE 0) == 1

end Sys2Proof.Machine
end

