-- ==== Sys2Proof/Machine/Xlate.lean ====
section
/-! DEFINITION. Translation (R261, R547, R548) and access to memory through it: where a virtual byte lies, reading and
writing it under the transit rules (R276), uncorrectable codewords (R265) and the age of slabs (R270). -/

namespace Sys2Proof.Machine

/-- Key of slab number `slab` (virtual address bits 56 to 21) of slice `x` in the home table. -/
def homeKey (x slab : Nat) : Nat := x * 0x10_0000_0000 + slab

/-- The home-table entry of a slab. -/
def State.home (s : State) (x slab : Nat) : HomeEntry := tblGet HomeEntry.unmapped s.mm.homes (homeKey x slab)

/-- The state with a home-table entry replaced. -/
def State.setHome (s : State) (x slab : Nat) (h : HomeEntry) : State :=
  { s with mm := { s.mm with homes := tblSet HomeEntry.unmapped s.mm.homes (homeKey x slab) h } }

/-- The memory key at which the region of an entry starts. -/
def HomeEntry.key (h : HomeEntry) : Nat :=
  if h.t3 then peerKey h.home (h.index * 0x20_0000) else vaultKey h.home (h.index * 0x20_0000)

/-- Slice `x` may reach host space: a VALID entry with HOST names it and a host session is open (R545, R547). -/
def State.hostOpen (s : State) (x : Nat) : Bool :=
  s.rd R.DEV_STATUS_HOST_SESSION == 1 &&
  (List.range 512).any fun i => s.rd (R.PASID_ENTRY_VALID i) == 1 && s.rd (R.PASID_ENTRY_HOST i) == 1
    && s.rd (R.PASID_ENTRY_SLICE i) == x

/-- The memory key of a virtual byte of slice `x`: bit 56 selects host space (R547). None: unmapped or LOST. -/
def State.locate (s : State) (x va : Nat) : Option Nat :=
  if 2 ^ 57 ≤ va then none
  else if 2 ^ 56 ≤ va then (if s.hostOpen x then some (hostKey (va % 2 ^ 56)) else none)
  else
    let h := s.home x (va / 0x20_0000)
    match h.state with
    | .resident => some (h.key + va % 0x20_0000)
    | .transit => some (h.key + va % 0x20_0000)
    | _ => none

/-- The slab numbers that `n` bytes from `va` touch. -/
def slabsOf (va n : Nat) : List Nat :=
  (List.range ((va + n - 1) / 0x20_0000 + 1 - va / 0x20_0000)).map (· + va / 0x20_0000)

/-- Every byte of the range is mapped for slice `x`. -/
def State.mapped (s : State) (x va n : Nat) : Bool :=
  (slabsOf va n).all fun k => (s.locate x (k * 0x20_0000)).isSome

/-- The started move of a slab, if it is in TRANSIT. -/
def State.moveOf (s : State) (x slab : Nat) : Option Move :=
  s.mm.moves.find? fun m => m.slice == x && m.slab == slab && m.started

/-- The state with the started move of a slab replaced. -/
def State.mapMove (s : State) (x slab : Nat) (g : Move → Move) : State :=
  { s with mm := { s.mm with
      moves := s.mm.moves.map fun m => if m.slice == x && m.slab == slab && m.started then g m else m } }

/-- A virtual byte as read: from the log where a write is held there, else from the home (R276). -/
def State.vbyte (s : State) (x va : Nat) : Byte :=
  match s.locate x va with
  | none => 0
  | some k =>
    match s.moveOf x (va / 0x20_0000) with
    | none => s.byte k
    | some m => tblGet (s.byte k) m.log (va % 0x20_0000)

/-- `n` virtual bytes. -/
def State.vbytes (s : State) (x va n : Nat) : List Byte := (List.range n).map fun i => s.vbyte x (va + i)

/-- One held write (R276): into the log where its line is held already or the log has room, else kept for the switch. -/
def Move.hold (m : Move) (off : Nat) (b : Byte) : Move :=
  if m.frozen then { m with late := m.late ++ [(off, b)] }
  else if m.log.any (fun e => e.1 / 64 == off / 64) then { m with log := tblInsert off b (tblErase m.log off) }
  else if m.lines < 4096 then { m with log := tblInsert off b (tblErase m.log off), lines := m.lines + 1 }
  else { m with late := m.late ++ [(off, b)] }

/-- Writes one virtual byte under R276. An unmapped address takes nothing. -/
def State.vset (s : State) (x va : Nat) (b : Byte) : State :=
  match s.locate x va with
  | none => s
  | some k =>
    match s.moveOf x (va / 0x20_0000) with
    | none => s.setByte k b
    | some _ => s.mapMove x (va / 0x20_0000) fun m => m.hold (va % 0x20_0000) b

/-- Writes virtual bytes from `va` on. -/
def State.vsets (s : State) (x va : Nat) : List Byte → State
  | [] => s
  | b :: l => (s.vset x va b).vsets x (va + 1) l

/-- A little-endian number in virtual memory. -/
def State.vnum (s : State) (x va n : Nat) : Nat := ofBytes (s.vbytes x va n)

/-- A host-space translation is cached once it has been used (R548). -/
def State.cacheHost (s : State) (x slab : Nat) : State :=
  if !s.hostOpen x || s.host.ats.contains (x, slab) then s
  else { s with host := { s.host with ats := (x, slab) :: s.host.ats } }

/-- An access to the range: the age of every slab becomes 0 (R270); host slabs are cached by the translation unit. -/
def State.touch (s : State) (x va n : Nat) : State :=
  s.each (slabsOf va n) fun t k =>
    let h := t.home x k
    if 2 ^ 35 ≤ k then t.cacheHost x k
    else if h.state == .unmapped then t else t.setHome x k { h with touched := t.now }

/-- The AGE of an entry (R270): the boundaries of units of 2^20 ns since the unit of its last access. -/
def State.ageOf (s : State) (h : HomeEntry) : Nat :=
  if h.t3 then 0 else min (s.now / 0x10_0000 - h.touched / 0x10_0000) 16383

/-! Uncorrectable codewords (R264, R265) -/

/-- Key of the mark of the first codeword of an entry's region: of a vault, or of a peer's lend. -/
def HomeEntry.markKey (h : HomeEntry) : Nat :=
  if h.t3 then 152 * 0x200_0000 + h.home * 2 ^ 32 + h.index * 0x1_0000 else h.home * 0x200_0000 + h.index * 0x1_0000

/-- The mark of a codeword by key: 0 good, 1 uncorrectable, 2 poisoned. -/
def State.markAt (s : State) (k : Nat) : Nat := tblGet 0 s.mm.bad k

/-- The state with a codeword marked. -/
def State.setMark (s : State) (k m : Nat) : State := { s with mm := { s.mm with bad := tblSet 0 s.mm.bad k m } }

/-- The mark of a vault codeword. -/
def State.badAt (s : State) (v cw : Nat) : Nat := s.markAt (v * 0x200_0000 + cw)

/-- The state with a vault codeword marked. -/
def State.markBad (s : State) (v cw m : Nat) : State := s.setMark (v * 0x200_0000 + cw) m

/-- Vault and vault address of a virtual byte homed on the die. -/
def State.vaultPlace (s : State) (x va : Nat) : Option (Nat × Nat) :=
  if 2 ^ 56 ≤ va then none
  else
    let h := s.home x (va / 0x20_0000)
    if h.t3 || h.state == .unmapped || h.state == .lost then none
    else some (h.home, h.index * 0x20_0000 + va % 0x20_0000)

/-- Key of the mark of the codeword of a virtual byte. -/
def State.markPlace (s : State) (x va : Nat) : Option Nat :=
  if 2 ^ 56 ≤ va then none
  else
    let h := s.home x (va / 0x20_0000)
    if h.state == .unmapped || h.state == .lost then none else some (h.markKey + va % 0x20_0000 / 32)

/-- All of the 32 bytes from offset `off` are among the offsets `l`. -/
def wholeWord (l : List Nat) (off : Nat) : Bool := (List.range 32).all fun i => l.contains (off + i)

/-- The codeword of a virtual byte is held whole in the log of its slab's move (R276). -/
def State.heldWhole (s : State) (x va : Nat) : Bool :=
  match s.moveOf x (va / 0x20_0000) with
  | none => false
  | some m => wholeWord (m.log.map (·.1)) (va % 0x20_0000 / 32 * 32)

/-- The first uncorrectable codeword that reading `n` bytes at `va` meets: vault (from 152 on a peer), codeword, mark. A
line held in a log is served from there (R276). -/
def State.firstBad (s : State) (x va n : Nat) : Option (Nat × Nat × Nat) :=
  (List.range ((va % 32 + n + 31) / 32)).findSome? fun i =>
    let a := va - va % 32 + 32 * i
    match s.markPlace x a with
    | none => none
    | some k => if s.markAt k = 0 || s.heldWhole x a then none else some (k / 0x200_0000, k % 0x200_0000, s.markAt k)

/-- Counts and records an uncorrectable read at a vault (R265, R291). -/
def State.eccUncorr (s : State) (v cw m : Nat) : State :=
  (((s.sat (R.VAULT_ECC_UNCORR_COUNT v) 1).wr (R.VAULT_ECC_ADDR_CODEWORD v) cw).wr
    (R.VAULT_ECC_ADDR_POISON v) (if m = 2 then 1 else 0))

/-- Lines in the write queue. -/
def linesOf (l : List WqEntry) : Nat := (l.map (·.lines)).sum

/-- Lines that wait enter the queue while it has room, and wait on otherwise (R200). -/
def VaultState.takeLines (x : VaultState) (now : Nat) (l : List WqEntry) : VaultState :=
  l.foldl (fun x e =>
    let room := 1024 - linesOf x.wq
    let n := min e.lines room
    { x with
      wq := if n = 0 then x.wq else x.wq ++ [⟨e.addr, n, now⟩]
      behind := if e.lines = n then x.behind else x.behind ++ [⟨e.addr + 64 * n, e.lines - n, now⟩] }) { x with behind := [] }

/-- The queue of a vault and what VAULT_WQ_LEVEL shows of it. -/
def State.setWq (s : State) (v : Nat) (x : VaultState) : State :=
  (s.setVault v x).wr (R.VAULT_WQ_LEVEL_BYTES v) (64 * linesOf x.wq)

/-- `n` lines written from address `a` of a vault whose port runs in Stream mode enter its write queue of 64 KiB; with the
queue full they wait on their mesh credits (R200). -/
def State.queueLines (s : State) (v a n : Nat) : State :=
  if s.rd (R.VAULT_PORT_MODE_RATE v) = 0 then s
  else
    let x := s.vault v
    s.setWq v (x.takeLines s.now (x.behind ++ [⟨a, n, s.now⟩]))

/-- One line written to a vault. -/
def State.queueLine (s : State) (v a : Nat) : State := s.queueLines v a 1

/-- What a write of the virtual bytes from `lo` to `hi` of one line does at the vault: the codewords it replaces whole become
good (R265), and the line is queued (R200). While the slab is in TRANSIT the write is only held (R276). -/
def State.lineWritten (s : State) (x lo hi : Nat) : State :=
  if (s.moveOf x (lo / 0x20_0000)).isSome then s
  else
    let t := s.each ((List.range (hi / 32 - (lo + 31) / 32)).map (· + (lo + 31) / 32)) fun t c =>
      match t.markPlace x (32 * c) with
      | some k => t.setMark k 0
      | none => t
    match t.vaultPlace x lo with
    | some (v, a) => t.queueLine v (a / 64 * 64)
    | none => t

/-- Writes virtual memory: bytes, ages, the marks they clear, the lines they queue. -/
def State.vstore (s : State) (x va : Nat) (l : List Byte) : State :=
  let n := l.length
  let t := (s.vsets x va l).touch x va n
  t.each ((List.range ((va + n + 63) / 64 - va / 64)).map (· + va / 64)) fun t i =>
    t.lineWritten x (max va (64 * i)) (min (va + n) (64 * i + 64))

/-! Slices as holders -/

/-- Slice `x` is OPEN (R539). -/
def State.sliceOpen (s : State) (x : Nat) : Bool := s.rd (R.SLICE_STATE_STATE x) == 2

/-- The generation of slice `x` (R540). -/
def State.gen (s : State) (x : Nat) : Nat := s.rd (R.SLICE_GEN_GEN x)

/-- A stale completion of slice `x` is discarded (R541). -/
def State.staleDrop (s : State) (x : Nat) : State :=
  (s.sat (R.SC_STALE_DROP_COUNT x) 1).flag R.SLICECTL_EVENT_STALE

/-- A register access that R72 (or R64) turns away is counted. -/
def State.windowErr (s : State) : State := (s.sat R.STRATA_WINDOW_ERR_COUNT 1).flag R.STRATA_EVENT_WINDOW_ERR

/-- The holder the capacity plan in force gives a matrix site (R323). -/
def State.planHolder (s : State) (site : Nat) : Nat := bankByte 255 (s.activeBank 5) site

end Sys2Proof.Machine
end

