-- ==== Sys2Proof/Machine/Operands.lean ====
section
/-! DEFINITION. Operand forms of the tile commands: the 64-byte entry and its fields (R151 to R164), loop arithmetic
(R164), regions of tile SRAM and their banks (R171, R176), packed elements (R86) and scale entries (R95, R99). -/

namespace Sys2Proof.Machine

/-- `n` bits of a queue entry from bit `lo` of the word at byte offset `off`. -/
def QEntry.fld (e : QEntry) (off lo n : Nat) : Nat := (e.bits >>> (8 * off + lo)).toNat % 2 ^ n

/-- Every bit of the entry's body outside the listed fields (offset, first bit, width) is zero (R151). -/
def QEntry.clearBut (e : QEntry) (l : List (Nat × Nat × Nat)) : Bool :=
  let used := l.foldl (fun (m : BitVec 512) f =>
    m ||| (BitVec.ofNat 512 ((2 ^ f.2.2 - 1) * 2 ^ (8 * f.1 + f.2.1)))) (BitVec.ofNat 512 (2 ^ 128 - 1))
  e.bits &&& ~~~used == 0

/-! The header (R151) -/

/-- OPCODE. -/
def QEntry.opcode (e : QEntry) : Nat := e.fld 0 0 8
/-- ORDERED. -/
def QEntry.ordered (e : QEntry) : Bool := e.fld 0 15 1 == 1
/-- NO_ADVANCE. -/
def QEntry.noAdvance (e : QEntry) : Bool := e.fld 0 23 1 == 1
/-- TAG. -/
def QEntry.tag (e : QEntry) : Nat := e.fld 0x0C 24 8
/-- The signal fields. -/
def QEntry.signal (e : QEntry) : Signal :=
  ⟨e.fld 0 30 1 == 1, e.fld 0 31 1 == 1, e.fld 0 24 6, e.fld 0x0C 0 16, e.fld 0x0C 16 8⟩

/-- The header rule of R151: SIG_INC is not 0 where SIG_EN is 1. -/
def QEntry.headerBad (e : QEntry) : Bool := e.signal.enable && e.signal.inc == 0

/-- LOOP, STOP and BANKS carry no wait, signal or ORDERED bit (R162). -/
def QEntry.bareBad (e : QEntry) : Bool :=
  e.fld 0 14 1 == 1 || e.fld 0 22 1 == 1 || e.fld 0 30 1 == 1 || e.ordered

/-- Raw slot `k` (R152). -/
def QEntry.slot (e : QEntry) (k : Nat) : Nat := e.fld (0x10 + 4 * k) 0 22

/-- The stride of slot `k` in a loop. -/
def LoopFrame.stride (f : LoopFrame) (k : Nat) : Int :=
  match k with | 0 => f.stride0 | 1 => f.stride1 | 2 => f.stride2 | _ => f.stride3

/-- What the enclosing loops add to slot `k` (R164). -/
def slotAdd (fs : List LoopFrame) (k : Nat) : Int := (fs.map fun f => (f.idx : Int) * f.stride k).sum

/-- What the enclosing loops add to a wait target (R164). -/
def targetAdd (fs : List LoopFrame) : Int := (fs.map fun f => (f.idx : Int) * f.tstride).sum

/-- An entry as one instance of it issues: the loops that advance it (none where NO_ADVANCE is set). -/
structure Inst where
  e : QEntry
  frames : List LoopFrame
deriving DecidableEq, Repr

/-- The effective slot (R164); no wrap. -/
def Inst.slot (i : Inst) (k : Nat) : Int := i.e.slot k + slotAdd i.frames k

/-- The effective wait target. -/
def Inst.target (i : Inst) (off : Nat) : Nat := toField 32 ((i.e.fld off 0 32 : Int) + targetAdd i.frames)

/-- Every enclosing loop stands at its first index (FRESH_FIRST, R154). -/
def firstPass (fs : List LoopFrame) : Bool := fs.all fun f => f.idx == 0

/-! Regions of tile SRAM (R171) -/

/-- Bytes of tile SRAM. -/
def sramSize : Nat := 0x30_0000

/-- `n` rows of `len` bytes, `stride` bytes apart, from `a` on; an address below 0 counts as one outside. -/
def rowsAt (a : Int) (n stride len : Nat) : List Span :=
  (List.range n).map fun i => if a < 0 then ⟨sramSize, len⟩ else ⟨a.toNat + stride * i, len⟩

/-- One region of `len` bytes. -/
def oneAt (a : Int) (len : Nat) : List Span := rowsAt a 1 0 len

/-- Some byte of the spans lies outside tile SRAM (SRAM_RANGE). -/
def outside (l : List Span) : Bool := l.any fun s => sramSize < s.addr + s.len

/-- Two spans share a byte. -/
def Span.meets (a b : Span) : Bool := a.addr < b.addr + b.len && b.addr < a.addr + a.len

/-- Two lists of spans share a byte. -/
def meets (a b : List Span) : Bool := a.any fun x => b.any fun y => x.meets y

/-- The regions share bytes but are not the same bytes (R159, R215). -/
def badOverlap (a b : List Span) : Bool := meets a b && a != b

/-- A span touches bank `b` (R171): a line of the bank's group whose bits 8 to 6 match. -/
def Span.touches (s : Span) (b : Nat) : Bool :=
  let lo := max (s.addr / 64) (b / 8 * 16384)
  let hi := min ((s.addr + s.len - 1) / 64) (b / 8 * 16384 + 16383)
  s.len != 0 && lo ≤ hi && (8 ≤ hi - lo + 1 || (b % 8 + 8 - lo % 8) % 8 ≤ hi - lo)

/-- The bank-state field of bank `b` (R176). -/
def bankFld (site b : Nat) : Fld := { R.TILE_SRAM_BANK_STATE_BANK0 site with lo := 2 * b }

/-- A bank is in RETAIN or OFF, or on its way out of ON (R176). -/
def State.bankBad (s : State) (site b : Nat) : Bool :=
  match s.rd (bankFld site b) with
  | 0 => false
  | 3 => (s.tile site).bankMoves.any fun m => m.bank == b && m.target != 0
  | _ => true

/-- A bank is on its way to ON. -/
def State.bankRising (s : State) (site b : Nat) : Bool :=
  s.rd (bankFld site b) == 3 && !s.bankBad site b

/-- The banks that spans touch and `f` selects. -/
def banksOf (l : List Span) (f : Nat → Bool) : Bool :=
  (List.range 24).any fun b => f b && l.any fun x => x.touches b

/-! Elements and scales -/

/-- Element `k` of a packed row whose byte `i` is `g i` (R86). -/
def packedAt (f : Nat) (g : Nat → Byte) (k : Nat) : Nat :=
  match fmtBits f with
  | 4 => (g (k / 2)).toNat / 16 ^ (k % 2) % 16
  | 8 => (g k).toNat
  | 16 => (g (2 * k)).toNat + 256 * (g (2 * k + 1)).toNat
  | _ => (g (4 * k)).toNat + 256 * (g (4 * k + 1)).toNat + 65536 * (g (4 * k + 2)).toNat
         + 16777216 * (g (4 * k + 3)).toNat

/-- `n` codes packed into bytes (R86). -/
def packCodes (f : Nat) (l : List Nat) : List Byte :=
  match fmtBits f with
  | 4 => (List.range ((l.length + 1) / 2)).map fun i =>
      BitVec.ofNat 8 ((l.getD (2 * i) 0) % 16 + 16 * ((l.getD (2 * i + 1) 0) % 16))
  | n => l.flatMap fun c => toBytes (n / 8) c

/-- Element `k` of format `f` of the row at tile SRAM address `a`. -/
def State.elem (s : State) (site a f k : Nat) : Nat := packedAt f (fun i => s.byte (tileKey site (a + i))) k

/-- A BF16 or FP32 element as an FP32 code, exactly (R214). -/
def toF32 (f c : Nat) : Nat := if f = 5 then f32Canon (c * 65536) else f32Canon c

/-- An FP32 result in the output format (R91). -/
def fromF32 (f c : Nat) : Nat := if f = 5 then bf16Round (f32Val c) else c

/-- Scale register file entry `n` (R99, R103). -/
def scaleFld (site n : Nat) : Fld := { R.TILE_SCALE_ENTRY0 site (n / 4) with lo := 8 * (n % 4) }

/-- Scale entry `n`, signed. -/
def State.scale (s : State) (site n : Nat) : Int := signedOf 8 (s.rd (scaleFld site n))

/-- The scale of element (i, j) of an operand (R95). -/
def State.scaleAt (s : State) (site axis base sref i j : Nat) : Int :=
  match axis with
  | 1 => s.scale site (base + i)
  | 2 => s.scale site (base + j)
  | _ => signedOf 8 sref

/-- How many scale entries an operand of `r` rows and `c` columns reads (R95). -/
def scaleCount (axis r c : Nat) : Nat := match axis with | 1 => r | 2 => c | _ => 0

/-- Some scale entry of the range lies outside the offset window (R97). -/
def State.scaleBad (s : State) (site cls f axis base sref n : Nat) : Bool :=
  let w := offsetWindow cls f
  let bad := fun (d : Int) => d < w.1 || w.2 < d
  if axis = 0 then bad 0
  else (List.range n).any fun i => bad (s.scale site (base + i) - signedOf 8 sref)

/-- Accumulator entry: row 0 to 511, column (R117). -/
def accKey (site row col : Nat) : Nat := site * 65536 + row * 128 + col

/-- An accumulator value. -/
def State.accAt (s : State) (site row col : Nat) : Nat := (tblGet 0 s.acc (accKey site row col)).toNat

/-- The state with an accumulator value written. -/
def State.setAcc (s : State) (site row col v : Nat) : State :=
  { s with acc := tblSet 0 s.acc (accKey site row col) (BitVec.ofNat 32 v) }

/-- Accumulator rows left undefined: free values (R143, R144). -/
def State.scrambleAcc (s : State) (site row n : Nat) : State :=
  let t := s.each (List.range (n * 128)) fun t k =>
    t.setAcc site (row + k / 128) (k % 128) (Config.freeWord (s.freeCtr + k)).toNat
  { t with freeCtr := s.freeCtr + n * 128 }

end Sys2Proof.Machine
end

