-- ==== Sys2Proof/Machine/Strike.lean ====
section
/-! DEFINITION. The strike log (R631 to R633, R635): appending a record, the strikes of a tile, ASSAY_HEALTH. -/

namespace Sys2Proof.Machine

/-- Kinds 0x01 to 0x03 are strikes (R631). -/
def StrikeRec.isStrike (r : StrikeRec) : Bool := 1 ≤ r.kind && r.kind ≤ 3

/-- Unexpired strikes of a matrix site. -/
def State.strikesOf (s : State) (site : Nat) : Nat :=
  (s.flash.strikes.filter fun r => r.isStrike && r.unit == site && r.life != 0).length

/-- Unexpired records of one kind and unit. -/
def State.recordsOf (s : State) (kind : Nat) (unit : Option Nat) : Nat :=
  (s.flash.strikes.filter fun r => r.kind == kind && r.life != 0 && (unit.isNone || unit == some r.unit)).length

/-- ASSAY_TILE_STRIKES of every site follows the log. -/
def State.showStrikes (s : State) : State :=
  s.each allSites fun t k => t.wr (R.ASSAY_TILE_STRIKES_COUNT k) (min (t.strikesOf k) 3)

/-- A reason bit of R635 becomes true: REPLACE and the bit are set and stay. -/
def State.healthBit (s : State) (n : Nat) : State :=
  let was := s.flash.health
  let h := was ||| (1 + 2 ^ (n + 1))
  let t := { s with flash := { s.flash with health := h } }
  let t := (t.wr R.ASSAY_HEALTH_REPLACE 1).wr R.ASSAY_HEALTH_REASON (h / 2)
  if was % 2 = 0 then t.flag R.ASSAY_EVENT_REPLACE else t

/-- The reason bits that the state calls for (R635). -/
def State.checkHealth (s : State) : State :=
  let t := s.iff (4 ≤ s.flash.retired.length) (·.healthBit 0)
  let t := t.iff ((List.range 16).any fun c => 3 ≤ t.recordsOf 4 (some c)) (·.healthBit 1)
  let t := t.iff (allVaults.any fun v => 3 ≤ t.recordsOf 5 (some v)) (·.healthBit 2)
  let t := t.iff (3 ≤ t.recordsOf 6 none) (·.healthBit 3)
  t.iff ((List.range 16).any fun n => 24 < tblGet 0 t.flash.sensorHours n) (·.healthBit 4)

/-- Removes the first element that `f` selects. -/
def dropFirst {α : Type} (f : α → Bool) : List α → Option (List α)
  | [] => none
  | a :: l => if f a then some l else (dropFirst f l).map (a :: ·)

/-- The log with room for one more record, and whether it was full of unexpired strikes (R632): the oldest expired
record goes first, then the oldest of kind 0x04 to 0x07, then the oldest. -/
def makeRoom (l : List StrikeRec) : List StrikeRec × Bool :=
  if l.length < 256 then (l, false)
  else
    match dropFirst (fun r => r.life == 0) l with
    | some m => (m, false)
    | none =>
      match dropFirst (fun r => !r.isStrike) l with
      | some m => (m, false)
      | none => (l.drop 1, true)

/-- Appends a strike-log record (R631): kind, unit, the sector it lies in, the array level, the detail word. -/
def State.strike (s : State) (kind unit sector level detail : Nat) : State :=
  let rec_ : StrikeRec := ⟨s.devTime, kind, 24, unit, s.rd (R.POWER_SECTOR_TJ sector), s.rd R.POWER_VDD_CORE_MEAS_MV,
    level, s.rd (R.POWER_SECTOR_CLK_STEP sector), s.rd (R.POWER_SECTOR_MW_MW sector), detail⟩
  let (l, full) := makeRoom s.flash.strikes
  let t := { s with flash := { s.flash with strikes := l ++ [rec_] } }
  let t := (t.iff full (·.flag R.ASSAY_STATUS_LOG_FULL)).iff rec_.isStrike (·.flag R.ASSAY_EVENT_STRIKE)
  let t := t.iff (rec_.isStrike && 3 ≤ t.strikesOf unit && !t.flash.retired.contains unit
    && !t.assay.toRetire.contains unit) fun t => { t with assay := { t.assay with toRetire := t.assay.toRetire ++ [unit] } }
  (t.showStrikes).checkHealth

/-- A strike record of a matrix tile, with the temperature, voltage and level of the moment (R144, R175). -/
def State.tileStrike (s : State) (kind site detail : Nat) : State :=
  s.strike kind site (site / 17) (s.rd (R.TILE_ARRAY_STATUS_LEVEL site)) detail

/-- A read meets an uncorrectable codeword of a vault: counted, its address recorded, a log record (R265, R631). One at a
peer (from 152 on) is the peer's to count. -/
def State.vaultBad (s : State) (v cw m : Nat) : State :=
  if 152 ≤ v then s else (s.eccUncorr v cw m).strike 5 v (v / 19) 0 (32 * cw)

/-! The books that hardware checks (R530, R532) -/

/-- A hardware-checked identity fails (R532): its bit, the index, and the strike log with temperature, voltage and
activity; a quantity has no sector of its own, and the sample is sector 0's (log entry 26). -/
def State.booksFault (s : State) (qty index sector level : Nat) : State :=
  let f : Fld := { R.FAB_BOOKS_FAULT_QTYn with lo := qty, width := 1 }
  (s.wrs [(f, 1), (R.FAB_FAULT_EVENT_BOOKS_FAULT, 1), (R.FAB_BOOKS_FAULT_INDEX_INDEX, index),
    (R.FAB_BOOKS_FAULT_INDEX_QTY, qty)]).strike 6 qty sector level index

/-- Share tokens of a group: credited = SCHED_SG_CYC + BAL + open reservations + clipped. -/
def State.groupBooks (s : State) (g : Nat) : Bool :=
  let res := ((s.sched.jobs.filter fun j => j.group == g && j.phase != .ended).map (·.reserved)).sum
  (((tblGet 0 s.sched.credited g : Nat) : Int) == s.rd (R.SCHED_SG_CYC_CYCLES g) + signedOf 64 (s.rd (R.SCHED_SG_BAL_BALANCE g))
    + (res : Nat) + (tblGet 0 s.sched.clipped g : Nat))

/-- Jobs of a queue submitted and not ended. -/
def State.openJobs (s : State) (x q : Nat) : Nat :=
  (s.sched.jobs.filter fun j => j.slice == x && j.queue == q && j.phase != .ended).length

/-- Job counts of a queue: SUBMITTED − COMPLETED − FAILED are the jobs that wait, are held or run, modulo 2^32. -/
def State.jobBooks (s : State) (x q : Nat) : Bool :=
  toField 32 ((s.rd (R.JQ_CNT_SUBMITTED_COUNT x q) : Int) - s.rd (R.JQ_CNT_COMPLETED_COUNT x q) - s.rd (R.JQ_CNT_FAILED_COUNT x q))
    == s.openJobs x q

/-- Slabs of the slices. -/
def State.usedSum (s : State) : Nat := (allSlices.map fun x => s.rd (R.MEM_ACCT_USED_USED x)).sum

/-- Pool slabs: TOTAL = FREE + HELD + LENT + Σ USED. -/
def State.poolBooks (s : State) : Bool :=
  s.rd R.MEM_POOL_TOTAL_SLABS == s.rd R.MEM_POOL_FREE_SLABS + s.rd R.MEM_POOL_HELD_SLABS + s.rd R.MEM_POOL_LENT_SLABS + s.usedSum

/-- Identity 0x08 checked. -/
def State.checkPool (s : State) : State := s.iff (!s.poolBooks) fun t => t.booksFault 8 0 0 0

end Sys2Proof.Machine
end

