-- ==== Sys2Proof/Machine/Tile.lean ====
section
/-! DEFINITION. A tile's command queues: fetch (R147, R148), loop nests (R163, R164), waits and signals (R165 to R169),
issue and completion (R149, R179), failure and abort (R180, R181), bank moves (R176), job start and scrubs
(R133, R177, R178). A command reads its inputs when it issues, and its SRAM outputs are written when it completes (log
entry 30). -/

namespace Sys2Proof.Machine

/-! Queues -/

/-- Queue `q` of a tile. -/
def TileState.queue (x : TileState) (q : Nat) : CmdQueue :=
  match q with | 0 => x.q0 | 1 => x.q1 | 2 => x.q2 | _ => x.q3

/-- A tile with queue `q` replaced. -/
def TileState.setQueue (x : TileState) (q : Nat) (c : CmdQueue) : TileState :=
  match q with
  | 0 => { x with q0 := c }
  | 1 => { x with q1 := c }
  | 2 => { x with q2 := c }
  | _ => { x with q3 := c }

/-- The four queue numbers. -/
def allQueues : List Nat := [0, 1, 2, 3]

/-- Queue `q` of tile `site`. -/
def State.queue (s : State) (site q : Nat) : CmdQueue := (s.tile site).queue q

/-- The state with a queue replaced. -/
def State.setQueue (s : State) (site q : Nat) (c : CmdQueue) : State :=
  s.setTile site ((s.tile site).setQueue q c)

/-- The entry at the head: from the loop buffer within a nest, else from the prefetch buffer. -/
def CmdQueue.head (c : CmdQueue) : Option QEntry :=
  if c.pos < c.nest.length then c.nest[c.pos]? else c.buf.head?

/-- Loops, innermost first, that end at position `p`: the next iteration, or out of the loop. -/
def closeLoops (p : Nat) : List LoopFrame → Nat × List LoopFrame
  | [] => (p, [])
  | f :: fs =>
    if p = f.start + f.len then
      if f.idx + 1 < f.count then (f.start, { f with idx := f.idx + 1 } :: fs) else closeLoops p fs
    else (p, f :: fs)

/-- The queue after its head has been taken in cycle `cyc`. -/
def CmdQueue.take (c : CmdQueue) (cyc : Nat) : CmdQueue :=
  match c.frames with
  | [] => { c with buf := c.buf.drop 1, headAt := cyc + 1 }
  | _ :: _ =>
    let (nest, buf) :=
      if c.pos < c.nest.length then (c.nest, c.buf) else (c.nest ++ c.buf.take 1, c.buf.drop 1)
    match closeLoops (c.pos + 1) c.frames with
    | (_, []) => { c with buf := buf, nest := [], pos := 0, frames := [], headAt := cyc + 1 }
    | (p, f :: fs) => { c with buf := buf, nest := nest, pos := p, frames := f :: fs, headAt := cyc + 1 }

/-- The queue after a LOOP at its head: the entry joins the loop buffer of the enclosing nest, if there is one, and
its frame starts at the entry that follows. -/
def CmdQueue.openLoop (c : CmdQueue) (f : Nat → LoopFrame) : CmdQueue :=
  match c.frames with
  | [] => { c with buf := c.buf.drop 1, nest := [], pos := 0, frames := [f 0] }
  | _ :: _ =>
    let (nest, buf) :=
      if c.pos < c.nest.length then (c.nest, c.buf) else (c.nest ++ c.buf.take 1, c.buf.drop 1)
    { c with buf := buf, nest := nest, pos := c.pos + 1, frames := f (c.pos + 1) :: c.frames }

/-- The head of a queue as one instance: loops advance it unless it is a LOOP, STOP or BANKS, or has NO_ADVANCE. -/
def CmdQueue.inst (c : CmdQueue) : Option Inst :=
  c.head.map fun e =>
    ⟨e, if e.noAdvance || e.opcode == 0x0D || e.opcode == 0x0E || e.opcode == 0x0F then [] else c.frames⟩

/-! Addresses of the job's holder -/

/-- The memory key of a virtual byte of holder `h`: a slice, or from 64 on a radio cluster, which reaches only the
radio domain's slabs (R169, R268). -/
def State.hLocate (s : State) (h va : Nat) : Option Nat :=
  if h < 64 then s.locate h va
  else
    match tblGet 0 s.strata.radioSlabs (va / 0x20_0000) with
    | 0 => none
    | r + 1 => some (vaultKey (r / 384) (r % 384 * 0x20_0000 + va % 0x20_0000))

/-- Every byte of the range is mapped for holder `h`. -/
def State.hMapped (s : State) (h va n : Nat) : Bool :=
  (slabsOf va n).all fun k => (s.hLocate h (k * 0x20_0000)).isSome

/-- `n` bytes of holder `h`'s memory. -/
def State.hBytes (s : State) (h va n : Nat) : List Byte :=
  if h < 64 then s.vbytes h va n
  else (List.range n).map fun i => match s.hLocate h (va + i) with | some k => s.byte k | none => 0

/-- Key of the mark of the codeword of a byte of the radio domain's slabs. -/
def State.radioMark (s : State) (h va : Nat) : Option Nat :=
  if h < 64 then none
  else match tblGet 0 s.strata.radioSlabs (va / 0x20_0000) with
    | 0 => none
    | r + 1 => some (r / 384 * 0x200_0000 + r % 384 * 0x1_0000 + va % 0x20_0000 / 32)

/-- Bytes written to holder `h`'s memory; a codeword written whole becomes good (R265). -/
def State.hStore (s : State) (h va : Nat) (l : List Byte) : State :=
  if h < 64 then s.vstore h va l
  else
    let t := s.each (List.range l.length) fun t i =>
      match t.hLocate h (va + i) with | some k => t.setByte k (l.getD i 0) | none => t
    t.each ((List.range ((va + l.length) / 32 - (va + 31) / 32)).map (· + (va + 31) / 32)) fun t c =>
      match t.radioMark h (32 * c) with | some k => t.setMark k 0 | none => t

/-- The first uncorrectable codeword of the range (R265). -/
def State.hFirstBad (s : State) (h va n : Nat) : Option (Nat × Nat × Nat) :=
  if h < 64 then s.firstBad h va n
  else (List.range ((va % 32 + n + 31) / 32)).findSome? fun i =>
    match s.radioMark h (va - va % 32 + 32 * i) with
    | none => none
    | some k => if s.markAt k = 0 then none else some (k / 0x200_0000, k % 0x200_0000, s.markAt k)

/-! Counters (R165 to R167) -/

/-- A wait is reached (R166). -/
def countReached (value target : Nat) : Bool := toField 32 ((value : Int) - target) < 0x8000_0000

/-- Both waits of an instance are reached where counter `n` reads `v n`. -/
def Inst.waitsReached (i : Inst) (v : Nat → Nat) : Bool :=
  (i.e.fld 0 14 1 == 0 || countReached (v (i.e.fld 0 8 6)) (i.target 4)) &&
  (i.e.fld 0 22 1 == 0 || countReached (v (i.e.fld 0 16 6)) (i.target 8))

/-- A running queue shows WAIT while its head is fetched and its counters are not reached, else RUN (R150). -/
def State.showWait (s : State) (site q : Nat) : State :=
  let st := s.rd (R.TILE_CMDQ_STATUS_STATE site q)
  if st = 1 || st = 2 then
    let met := ((s.queue site q).inst.map fun i => i.waitsReached fun n => s.rd (R.TILE_ARRIVAL_VALUE site n)).getD true
    s.wr (R.TILE_CMDQ_STATUS_STATE site q) (if met then 1 else 2)
  else s

/-- An increment lands on a counter in cycle `cyc`. -/
def State.land (s : State) (site n inc cyc : Nat) : State :=
  let x := s.tile site
  let l := if x.landCyc = cyc then x.landed else []
  ((s.setTile site { x with landCyc := cyc, landed := (n, inc) :: l }).bump (R.TILE_ARRIVAL_VALUE site n) inc).each
    allQueues fun t q => t.showWait site q

/-- A counter at the end of the cycle before `cyc` (R167, R170). -/
def State.counterBefore (s : State) (site n cyc : Nat) : Nat :=
  let x := s.tile site
  let d := if x.landCyc = cyc then ((x.landed.filter fun e => e.1 == n).map (·.2)).sum else 0
  toField 32 ((s.rd (R.TILE_ARRIVAL_VALUE site n) : Int) - d)

/-- Both waits of an instance are reached in cycle `cyc`. -/
def State.waitsMet (s : State) (site cyc : Nat) (i : Inst) : Bool := i.waitsReached fun n => s.counterBefore site n cyc

/-- The mesh stop of a matrix site (R25). -/
def meshStop (site : Nat) : Nat := site / 17 * 20 + site % 17

/-- A packet that a unit offers at a stop on a plane (0 radio, 1 inference): the route table and bank it takes (R60), or none
where the plane is not assigned to the stop, which drops it and counts it (R34). -/
def State.offer (s : State) (plane stop : Nat) : Option (Nat × Bool) × State :=
  if s.rd (R.MESH_STOP_CTRL_ENABLED plane stop) = 1 then
    let r := (1 + plane, s.newBank (1 + plane))
    (some r, s.holdBank r.1 r.2 1)
  else (none, s.sat (R.MESH_PLANE_VIOL_COUNT plane stop) 1)

/-- The packets of a transfer or signal have all arrived or are gone: their route bank is released (R60). -/
def State.landPackets (s : State) (r : Option (Nat × Bool)) : State :=
  match r with
  | some b => s.leaveBank b.1 b.2 1
  | none => s

/-- A signal fires in cycle `cyc`: at once on the tile, on another over the inference plane no earlier than 10 cycles later
(R167). -/
def State.signal (s : State) (site cyc : Nat) (g : Signal) : State :=
  if !g.enable then s
  else if !g.remote then s.land site g.counter g.inc cyc
  else
    match (s.tile site).job with
    | none => s
    | some j =>
      match j.tiles[g.tile]? with
      | none => s
      | some d =>
        match s.offer 1 (meshStop site) with
        | (none, t) => t
        | (some r, t) =>
          let x := t.tile d
          t.setTile d { x with inbound := x.inbound ++ [RemoteSig.mk g.counter g.inc (cyc + 10) r] }

/-! Row cycles of the array (R128, R140) -/

/-- Row cycles of chunk `c` that lie before cycle `upto`. -/
def RowRun.chunkBefore (r : RowRun) (c upto : Nat) : Nat := min r.rows (min upto r.cut - (r.first + c * r.period))

/-- Row cycles that lie in `[lo, upto)`. -/
def RowRun.between (r : RowRun) (lo upto : Nat) : Nat :=
  ((List.range r.chunks).map fun c => r.chunkBefore c upto - r.chunkBefore c lo).sum

/-- The cycle of the last row. -/
def RowRun.last (r : RowRun) : Nat := r.first + (r.chunks - 1) * r.period + r.rows - 1

/-- Dummy cycles of the short chunks that lie before cycle `upto` (R128). -/
def RowRun.dummyBefore (r : RowRun) (upto : Nat) : Nat :=
  ((List.range (r.chunks - 1)).map fun c =>
    min (r.period - r.rows) (min upto r.cut - (r.first + c * r.period + r.rows))).sum

/-- Useful MACs of the rows read whole before cycle `upto` (R140). -/
def ArrayWork.macsBefore (w : ArrayWork) (upto : Nat) : Nat :=
  ((List.range w.run.chunks).map fun c =>
    min w.chunk (w.k - c * w.chunk) * (w.run.chunkBefore c upto / w.rowCycles)).sum * w.cols

/-- `n` dummy rows run: counted, and the generator steps (R135, R140). -/
def State.dummyRows (s : State) (site n : Nat) : State :=
  let x := s.tile site
  (s.setTile site { x with dummySteps := x.dummySteps + n }).bump (R.TILE_ARRAY_DUMMY_CYC_COUNT site) n

/-- The array counters for what a command has done since they were last settled and before cycle `upto`: row cycles, the
dummy cycles of its short chunks, useful MACs (R140), and the stationary bank in use (R137). -/
def State.tallyArray (s : State) (site upto : Nat) (w : ArrayWork) : State :=
  let r := w.run
  let from_ := min w.counted upto
  let t := (s.bump (R.TILE_ARRAY_ROW_CYC_COUNT site) (r.between from_ upto)).bump (R.TILE_ARRAY_MACS_COUNT site)
    (w.macsBefore upto - w.macsBefore from_)
  let t := t.dummyRows site (r.dummyBefore upto - r.dummyBefore from_)
  if upto ≤ r.first then t
  else t.wr (R.TILE_ARRAY_STATUS_STAT_BANK site) ((w.bank + min ((upto - 1 - r.first) / r.period) (r.chunks - 1)) % 2)

/-- Every running array command's rows counted up to cycle `upto`. -/
def State.tallyRows (s : State) (site upto : Nat) : State :=
  let x := s.tile site
  let t := s.each (x.running.filterMap (·.array)) fun t w => t.tallyArray site upto w
  t.setTile site { t.tile site with
    running := x.running.map fun c => { c with array := c.array.map fun w => { w with counted := max w.counted upto } } }

/-- Dummy rows of an interval at level `l` in its first `n` cycles: spread evenly (R131; log entry 33). -/
def spread (l n : Nat) : Nat := n * l / 16

/-- The dummy rows of the present gap counted up to cycle `upto`, at the level of the interval in force (R131, R140). -/
def State.tallyGap (s : State) (site upto : Nat) : State :=
  let x := s.tile site
  let g := max x.gapFrom x.lastInt
  let lo := max x.dummyTo x.gapFrom
  if upto ≤ lo then s
  else
    let l := s.rd (R.TILE_ARRAY_STATUS_LEVEL site)
    (s.setTile site { x with dummyTo := upto }).dummyRows site (spread l (upto - g) - spread l (lo - g))

/-! Commands at work -/

/-- The spans a command writes. -/
def Put.span (p : Put) : Span := ⟨p.addr, p.data.length⟩

/-- Everything of tile SRAM that a command touches. -/
def RunCmd.spans (c : RunCmd) : List Span := c.ins ++ c.outs.flatten.map Put.span

/-- Output rows that are whole `d` cycles after issue (R232). -/
def Pace.whole (p : Pace) (d : Nat) : Nat :=
  ((List.range p.rows).filter fun r => p.slow * (((r + 1) * p.work + p.rate - 1) / p.rate) + p.lat ≤ d).length

/-- Built-in evaluations made `d` cycles after issue (R235): 32 in a cycle, 8 in compatibility mode (R251). -/
def Pace.evalsBy (p : Pace) (d : Nat) : Nat :=
  if p.rate = 1 then
    let r := min p.rows (d / p.work)
    r * p.evals + (if r = p.rows then 0 else min p.evals ((d - r * p.work - p.evalFrom) * 32 / p.slow))
  else min (p.rows * p.evals) (d * 32 / p.slow)

/-- ACLK cycles from issue until transfer `n` of a SEAM has been read, at the port's full rate (R197). -/
def SeamWork.cycles (w : SeamWork) (n : Nat) : Nat := w.lead + (n * w.num + w.den - 1) / w.den

/-- The same with the refresh that R197 allows for at most. -/
def SeamWork.latest (w : SeamWork) (n : Nat) : Nat := w.cycles (n + 4 * ((n + 120) / 121))

/-- Useful MACs of the first `n` transfers (R190). -/
def SeamWork.macs (w : SeamWork) (n : Nat) : Nat :=
  let g := n / w.perGroup
  w.b * (min w.n (32 * g) * w.k + min 32 (w.n - 32 * g) * min w.k (n % w.perGroup * w.step))

/-- The vaults' engines show how many commands they hold and, in cycle `cyc` of their driver, what the oldest does (R206):
loading its vectors, streaming, or draining its last group. -/
def State.showEngine (s : State) (site cyc v : Nat) : State :=
  let n := (s.vault v).held.length
  let st := match (s.tile site).running.findSome? fun c => c.seam.bind fun w => if w.vault = v then some (c.cyc, w) else none with
    | none => 1
    | some (i, w) => if cyc - i < w.lead then 2 else if cyc - i < w.cycles w.total then 3 else 4
  s.wrs [(R.VAULT_SEAM_STATUS_QUEUED v, n), (R.VAULT_SEAM_STATUS_STATE v, if n = 0 then 1 else st)]

/-- The engine a VAULT_SEL names, plus 1; 0 where nothing is bound (R183, SEAM_BIND). -/
def State.seamVault (s : State) (site sel : Nat) : Nat :=
  match sel with
  | 0 => s.homeVault site + 1
  | 1 => if s.rd (R.TILE_SEAM_BIND_ADOPT_VALID site) = 1 then s.rd (R.TILE_SEAM_BIND_ADOPT_VAULT site) + 1 else 0
  | _ => if s.rd (R.TILE_SEAM_BIND_STANDIN_VALID site) = 1 then s.rd (R.TILE_SEAM_BIND_STANDIN_VAULT site) + 1 else 0

/-- The engines that a tile drives show what they do in its cycle `cyc`. -/
def State.showEngines (s : State) (site cyc : Nat) : State :=
  s.each ([0, 1, 2].filterMap fun sel => if s.seamVault site sel = 0 then none else some (s.seamVault site sel - 1)) fun t v =>
    if t.rd (R.VAULT_SEAM_STATUS_DRIVER_VALID v) = 1 && t.rd (R.VAULT_SEAM_STATUS_DRIVER v) = site then t.showEngine site cyc v
    else t

/-- A Seam command leaves its engine after `n` transfers: slot, pins (R192, R195), counts (R208). -/
def State.leaveEngine (s : State) (site cyc n : Nat) (c : RunCmd) (w : SeamWork) : State :=
  let v := w.vault
  let t := s.setVault v { s.vault v with held := (s.vault v).held.erase site }
  let pins := c.pins.foldl (fun l p => l.erase p) t.mm.pins
  let t := { t with mm := { t.mm with pins := pins } }.showEngine site cyc v
  ((t.bump (R.VAULT_SEAM_XFERS_COUNT v) n).bump (R.VAULT_SEAM_MACS_COUNT v) (w.macs n)).bump
    (R.VAULT_SEAM_YIELD_CYC_COUNT v) w.yields

/-- What a command's end in cycle `cyc` does apart from its code and its outputs: its unit is free from the next cycle on
(R146), the row counts and the telemetry are settled (R140, R235), and a deferred bank move starts its count (R176). An
engine has read `n` transfers for it. -/
def State.retire (s : State) (site cyc n : Nat) (c : RunCmd) : State :=
  let t := match c.array with
    | some w => s.tallyArray site cyc w
    | none => s
  let x := t.tile site
  let moves := x.bankMoves.map fun m =>
    if c.spans.any (fun p => p.touches m.bank) then { m with since := max m.since cyc } else m
  let t := t.setTile site { x with
    running := x.running.filter fun d => !(d.queue == c.queue && d.index == c.index && d.cyc == c.cyc && d.unit == c.unit)
    bankMoves := moves
    idleAt := (c.unit, cyc) :: x.idleAt.filter fun e => e.1 != c.unit }
  let d := cyc - c.cyc
  let t := match c.unit with
    | .sfu => ((t.wr (R.TILE_SFU_STATUS_SFU_BUSY site) 0).bump (R.TILE_SFU_BUSY_CYC_CYCLES site) d).bump
        (R.TILE_SFU_EVALS_EVALS site) ((c.pace.map (·.evalsBy d)).getD 0)
    | .vector => (t.wr (R.TILE_SFU_STATUS_NORM_BUSY site) 0).bump (R.TILE_NORM_ROWS_ROWS site)
        ((c.pace.map (·.whole d)).getD 0)
    | _ => t
  match c.seam with
  | some w => t.leaveEngine site cyc n c w
  | none => t

/-- Nothing issued earlier by queue `q` is still running or in flight (R149). -/
def State.queueDrained (s : State) (site q : Nat) : Bool :=
  !(s.tile site).running.any (fun c => c.queue == q) && !(s.tile site).xfers.any (fun c => c.queue == q)

/-- A STOP whose earlier commands have all completed stops its queue (R150). -/
def State.checkStop (s : State) (site q : Nat) : State :=
  if (s.queue site q).stopping && s.queueDrained site q && s.rd (R.TILE_CMDQ_STATUS_STATE site q) != 3 then
    (s.wr (R.TILE_CMDQ_STATUS_STATE site q) 3).bump (R.TILE_CMDQ_DONE_DONE site q) 1
  else s

/-- A command of queue `q` completes with OK: DONE and its signal. -/
def State.doneOk (s : State) (site q cyc : Nat) (g : Signal) : State :=
  ((s.bump (R.TILE_CMDQ_DONE_DONE site q) 1).signal site cyc g).checkStop site q

/-- Bytes of one output written to tile SRAM. -/
def State.write (s : State) (site : Nat) (p : Put) : State := s.setBytes (tileKey site p.addr) p.data

/-! Failure and abort (R143, R180, R181, R203, R232) -/

/-- The array ramps down without hold (R143, R144): from the next cycle on where rows were being read, else on the
intervals of the present gap. -/
def State.rampDown (s : State) (site cyc : Nat) : State :=
  let x := s.tile site
  if cyc < x.gapFrom then
    s.setTile site { x with
      gapFrom := cyc + 1, dummyTo := cyc + 1, rampUp := false, rampEnd := true
      rows := x.rows.map fun r => { r with cut := min r.cut (cyc + 1) } }
  else s.setTile site { x with rampUp := false, rampEnd := true }

/-- A free number from `lo` to `hi`. -/
def State.drawIn (s : State) (lo hi : Nat) : Nat × State :=
  let (w, t) := s.drawWord
  (lo + w.toNat % (hi - lo + 1), t)

/-- Transfers that a SEAM stopped in cycle `cyc` has read: R197 bounds them from both sides, and in between they are free
(log entry 97). -/
def State.seamRead (s : State) (cyc : Nat) (c : RunCmd) (w : SeamWork) : Nat × State :=
  let full := (cyc - c.cyc - w.lead) * w.den / w.num
  let hi := min w.total full
  s.drawIn (min hi (full * 121 / 125 - 4)) hi

/-- A SEAM that waits in its engine behind another (R198). -/
def State.seamWaits (s : State) (site : Nat) (c : RunCmd) (w : SeamWork) : Bool :=
  ((s.tile site).running.find? fun d => (d.seam.map (·.vault)) == some w.vault).any fun d => d.cyc != c.cyc

/-- The outputs of a stopped command: the first `whole` rows are written, the rest is undefined, as are its accumulator
rows and scale entries (R143, R180, R203, R232). -/
def State.spoil (s : State) (site whole : Nat) (c : RunCmd) : State :=
  let t := s.each (c.outs.take whole).flatten fun t p => t.write site p
  let t := t.each (c.outs.drop whole).flatten fun t p => t.scramble (tileKey site p.addr) p.data.length
  let t := match c.acc with
    | some (r, k) => if c.accOut then t.scrambleAcc site r k else t
    | none => t
  if c.scaleOut then
    t.each c.scales fun t r => t.each (List.range r.2) fun t i =>
      let (b, u) := t.drawByte
      u.wr (scaleFld site (r.1 + i)) b.toNat
  else t

/-- Output rows of a command that are whole in cycle `cyc`. -/
def RunCmd.wholeRows (c : RunCmd) (cyc : Nat) : Nat := (c.pace.map (·.whole (cyc - c.cyc))).getD 0

/-- One running command stopped in cycle `cyc`. An array row of that cycle is still read (R143). A SEAM that waits behind
another writes nothing; of the other the groups summed before stay (R203). -/
def State.stopRun (s : State) (site cyc : Nat) (c : RunCmd) : State :=
  match c.seam with
  | none => (s.spoil site (c.wholeRows cyc) c).retire site (if c.array.isSome then cyc + 1 else cyc) 0 c
  | some w =>
    let t := if s.seamWaits site c w then s.retire site cyc 0 c
      else
        let (n, t) := s.seamRead cyc c w
        (t.spoil site ((n - 1) / w.perGroup) c).retire site cyc n c
    t.wrs [(R.VAULT_SEAM_ERR_ABORTED w.vault, 1), (R.VAULT_SEAM_STATUS_STATE w.vault, 5)]

/-- A cancelled transfer leaves the rest of its region undefined and signals nothing (R180). -/
def State.cancelXfer (s : State) (site : Nat) (x : XferRec) : State :=
  let s := s.landPackets x.route
  if x.toMemory then
    match (s.tile site).job with
    | none => s
    | some j => let (l, t) := s.drawBytes x.len; t.hStore j.holder x.vaddr l
  else s.scramble (tileKey site x.sram) x.len

/-- Running commands not due in cycle `cyc` are stopped, transfers are cancelled, the array ramps down (R180). -/
def State.stopWork (s : State) (site cyc : Nat) : State :=
  let x := s.tile site
  let live := x.running.filter fun c => cyc < c.cyc + c.dur || c.unit == .banks
  let t := s.each live.reverse fun t c => t.stopRun site cyc c
  let t := t.each x.xfers fun t r => t.cancelXfer site r
  let t := if live.any (fun c => c.unit == .array) then t.rampDown site cyc else t
  t.setTile site { t.tile site with xfers := [], rampUp := false }

/-- Issue stops: the work of the tile is stopped, and the used queues outside `bad` drop their commands and enter DISCARD
(R180). -/
def State.stopTile (s : State) (site cyc : Nat) (bad : List Nat) : State :=
  (s.stopWork site cyc).each allQueues fun t q =>
    if (t.queue site q).used then
      let u := t.wr (R.TILE_CMDQ_STATUS_STATE site q) (if bad.contains q then 4 else 5)
      let c := u.queue site q
      u.setQueue site q { c with buf := [], nest := [], pos := 0, frames := [], stopping := false }
    else t

/-- The tile stops in cycle `cyc` for a failure of queue `q` (4: from outside); what stood in that cycle is kept. -/
def State.fails (s : State) (site cyc q code tag : Nat) (bad : List Nat) : State :=
  let x := s.tile site
  let t := s.stopTile site cyc bad
  t.setTile site { t.tile site with fail := some ⟨cyc, q, code, tag, [x.q0, x.q1, x.q2, x.q3], x.running, x.xfers⟩ }

/-- A command of queue `q` completes with a code other than OK in cycle `cyc`: the first stops the tile (R180), of several
in one cycle each queue records its own and the lowest queue is reported (R181). -/
def State.failCmd (s : State) (site q cyc code tag index : Nat) : State :=
  let rec_ := fun (t : State) => t.wrs [(R.TILE_CMDQ_STATUS_STATE site q, 4), (R.TILE_CMDQ_STATUS_ERR_CODE site q, code),
    (R.TILE_CMDQ_STATUS_ERR_TAG site q, tag), (R.TILE_CMDQ_ERR_INDEX_INDEX site q, index)]
  match (s.tile site).fail with
  | none => rec_ (s.fails site cyc q code tag [q])
  | some f =>
    if f.cyc ≠ cyc || s.rd (R.TILE_CMDQ_STATUS_STATE site q) == 4 then s
    else
      let t := rec_ s
      if q < f.queue then t.setTile site { t.tile site with fail := some { f with queue := q, code := code, tag := tag } }
      else t

/-- The tile's job is aborted from outside in cycle `cyc` (job bound, fence, slice reset): every queue discards,
unless a command failed in that cycle or before (R180, R181). -/
def State.abortTile (s : State) (site cyc : Nat) : State :=
  match (s.tile site).fail with
  | some _ => s
  | none => s.fails site cyc 4 0x34 0 []

/-- An uncorrectable word of tile SRAM is read: counted, its line recorded, a strike (R175). -/
def State.sramUncorr (s : State) (site addr : Nat) : State :=
  ((s.sat (R.TILE_SRAM_ECC_UNCORR_COUNT site) 1).wr (R.TILE_SRAM_ECC_ADDR_ADDR site) (addr / 64 * 64)).tileStrike
    3 site addr

/-- A parity error of the array in cycle `cyc` (R144): bit 0 of `par` a stationary bank, bit 1 the accumulator file. The
array halts and ramps down, one strike per bit; the accumulator rows become undefined. -/
def State.parity (s : State) (site cyc tag par : Nat) (acc : Option (Nat × Nat)) : State :=
  let t := s.iff (par % 2 == 1) fun t => (t.flag (R.TILE_ARRAY_ERR_PAR_STAT site)).tileStrike 2 site tag
  let t := t.iff (par / 2 % 2 == 1) fun t => (t.flag (R.TILE_ARRAY_ERR_PAR_ACC site)).tileStrike 2 site tag
  let t := match acc with
    | some (r, n) => t.scrambleAcc site r n
    | none => t
  (t.rampDown site cyc).wr (R.TILE_ARRAY_STATUS_STATE site) 6

/-! Issue -/

/-- What one instance would do at issue: the lowest failing check, whether it is held and what the hold leaves, the
record of the command while it runs (none: it completes in its issue cycle), and its effect. -/
structure Plan where
  code : Option Nat
  hold : Bool
  run : Option RunCmd
  effect : State → State
  held : State → State := fun t => t

/-- The first check of a list in rising order of code that fails (R114, R179). -/
def firstCode : List (Nat × Bool) → Option Nat
  | [] => none
  | (c, b) :: l => if b then some c else firstCode l

/-- The tile failed in this very cycle: issue goes on to the end of it (R180, R181). -/
def State.failing (s : State) (site cyc : Nat) : Option TileFail := (s.tile site).fail.filter fun f => f.cyc == cyc

/-- Queue `q` as it stands in cycle `cyc`: a failure of that cycle empties it only in the next (R180). -/
def State.queueIn (s : State) (site q cyc : Nat) : CmdQueue :=
  match s.failing site cyc with
  | some f => f.queues.getD q .empty
  | none => s.queue site q

/-- The tile may issue from queue `q` in cycle `cyc`: a job runs and its ramp at launch is over (R254), nothing failed before
this cycle, the queue runs. -/
def State.mayIssue (s : State) (site q cyc : Nat) : Bool :=
  let st := s.rd (R.TILE_CMDQ_STATUS_STATE site q)
  ((s.tile site).job.any fun j => j.opens ≤ cyc) && !(s.queueIn site q cyc).stopping &&
    (((s.tile site).fail.isNone && (st == 1 || st == 2)) ||
      ((s.failing site cyc).isSome && st == 5 && (s.queueIn site q cyc).used))

/-- The record of a command on a unit, before its own facts are filled in. -/
def Inst.onUnit (i : Inst) (q cyc : Nat) (u : TileUnit) (dur : Nat) (ins : List Span) (outs : List (List Put)) :
    RunCmd where
  queue := q
  index := i.e.index
  tag := i.e.tag
  unit := u
  cyc := cyc
  dur := dur
  pace := none
  sig := i.e.signal
  ins := ins
  outs := outs
  acc := none
  accOut := false
  scales := []
  scaleOut := false
  scaleData := []
  code := 0
  par := 0
  record := []
  banks := []
  array := none
  seam := none
  pins := []

/-- The unit runs a command, or completed one in this cycle (R146). -/
def State.unitBusy (s : State) (site cyc : Nat) (u : TileUnit) : Bool :=
  (s.tile site).running.any (fun c => c.unit == u) ||
  (s.tile site).idleAt.any fun e => e.1 == u && cyc ≤ e.2

/-- The head of queue `q` where the queue could issue it in cycle `cyc`: its waits are reached and ORDERED lets it (R149,
R166). -/
def State.ready (s : State) (site q cyc : Nat) : Option Inst :=
  (s.queueIn site q cyc).inst.filter fun i =>
    s.mayIssue site q cyc && s.waitsMet site cyc i && !(i.e.ordered && !s.queueDrained site q)

/-- An opcode of the table (R153). -/
def QEntry.listed (e : QEntry) : Bool := 0 < e.opcode && e.opcode ≤ 0x0F

/-- The units whose commands are taken round robin (R146, R149). -/
def TileUnit.fair (u : TileUnit) : Bool := !(u == .seam || u == .banks || u == .none)

/-- The queue a unit served last; before its first command the round starts at queue 0 (log entry 98). -/
def State.lastServed (s : State) (site : Nat) (u : TileUnit) : Nat :=
  (((s.tile site).served.find? fun e => e.1 == u).map (·.2)).getD 3

/-- Queue `a` comes before queue `b` in the round that starts after queue `l` (R149). -/
def turnBefore (l a b : Nat) : Bool := (a + 3 - l) % 4 < (b + 3 - l) % 4

/-- Another queue's head is issuable on the same unit in this cycle and its turn is earlier (R149). -/
def State.outranked (s : State) (site q cyc : Nat) (j : TileJob) (u : TileUnit)
    (plan : State → Nat → TileJob → Inst → Option Plan) : Bool :=
  u.fair && allQueues.any fun k => k != q && turnBefore (s.lastServed site u) k q &&
    ((s.ready site k cyc).bind fun i => plan s k j i).any fun p =>
      p.code.isNone && !p.hold && (p.run.map (·.unit)) == some u

/-- What is issued in the cycle of a failure is stopped with the rest (R180). -/
def State.stopLate (s : State) (site cyc : Nat) : State :=
  if (s.failing site cyc).isSome then s.stopWork site cyc else s

/-- The head leaves queue `q` in cycle `cyc`. -/
def State.takeHead (s : State) (site q cyc : Nat) : State :=
  match s.failing site cyc with
  | some f => s.setTile site { s.tile site with
      fail := some { f with queues := f.queues.set q ((s.queueIn site q cyc).take cyc) } }
  | none => (s.setQueue site q ((s.queue site q).take cyc)).showWait site q

/-- A command that passes its checks and is not held takes effect: its entry leaves the queue, and it runs on its unit, or
is done at once. -/
def State.started (s : State) (site q cyc : Nat) (i : Inst) (p : Plan) : State :=
  let t := (p.effect s).takeHead site q cyc
  let t := match p.run with
    | some c =>
      let x := t.tile site
      t.setTile site { x with
        running := x.running ++ [c], served := (c.unit, q) :: x.served.filter fun e => e.1 != c.unit }
    | none => t.doneOk site q cyc { i.e.signal with enable := i.e.signal.enable && i.e.opcode == 0x0C }
  t.stopLate site cyc

/-- Issues the head of a queue in cycle `cyc`, if it is a command that `mine` selects; any row of the table finds an
unlisted opcode (R153). Its checks run at issue (R114, R179): a command still held is not yet checked. `plan` answers for
every command of the unit. -/
def State.issue (s : State) (site q cyc : Nat) (mine : QEntry → Bool)
    (plan : State → Nat → TileJob → Inst → Option Plan) : State :=
  match s.ready site q cyc, (s.tile site).job with
  | some i, some j =>
    if !i.e.listed then s.failCmd site q cyc 0x10 i.e.tag i.e.index
    else if !mine i.e then s
    else
      match plan s q j i with
      | none => s
      | some p =>
        if p.hold then p.held s
        else
          match p.code with
          | some c => s.failCmd site q cyc c i.e.tag i.e.index
          | none =>
            if (p.run.map fun c => s.outranked site q cyc j c.unit plan).getD false then s else s.started site q cyc i p
  | _, _ => s

/-- The signal checks of every command (R151, R169): FIELD, then SIGNAL_TARGET. -/
def Inst.targetBad (i : Inst) (j : TileJob) : Bool :=
  i.e.signal.enable && i.e.signal.remote && j.tiles.length ≤ i.e.signal.tile

/-- The checks shared by the commands on tile SRAM, in order of code: FIELD, SRAM_RANGE, ALIGN, OVERLAP, BANK_STATE,
SIGNAL_TARGET, then the command's own. -/
def State.sramChecks (s : State) (site : Nat) (j : TileJob) (i : Inst) (field align overlap : Bool)
    (spans : List Span) (more : List (Nat × Bool)) : Option Nat :=
  firstCode ([(0x11, field || i.e.headerBad), (0x12, outside spans), (0x13, align), (0x14, overlap),
    (0x15, banksOf spans (s.bankBad site)), (0x17, i.targetBad j)] ++ more)

/-- The banks that the spans touch and that are on their way to ON hold the command at issue (R176). -/
def State.bankHold (s : State) (site : Nat) (spans : List Span) : Bool := banksOf spans (s.bankRising site)

/-! Rows of the table -/

/-- The ring entry of index `i` (R148). -/
def State.ringEntry (s : State) (site q i : Nat) : Nat :=
  s.rd (R.TILE_CMDQ_BASE_ADDR site q) * 64 + 64 * (i % 2 ^ s.rd (R.TILE_CMDQ_SIZE_SIZE_LOG2 site q))

/-- Fetches up to `n` entries; an entry that cannot be read fails with FETCH_FAULT (R179, R265). -/
def State.fetch (s : State) (site q cyc : Nat) (h : Nat) : Nat → State
  | 0 => s
  | n + 1 =>
    let i := s.rd (R.TILE_CMDQ_HEAD_HEAD site q)
    let a := s.ringEntry site q i
    if i = s.rd (R.TILE_CMDQ_TAIL_TAIL site q) then s
    else if !s.hMapped h a 64 then
      let (b, t) := s.drawByte
      t.failCmd site q cyc 0x1B b.toNat i
    else
      match s.hFirstBad h a 64 with
      | some (v, cw, m) =>
        let (b, t) := (s.vaultBad v cw m).drawByte
        t.failCmd site q cyc 0x1B b.toNat i
      | none =>
        let c := s.queue site q
        let e : QEntry := ⟨i, BitVec.ofNat 512 (ofBytes (s.hBytes h a 64))⟩
        let d := { c with buf := c.buf ++ [e], headAt := if c.head.isNone then cyc else c.headAt }
        (((s.setQueue site q d).bump (R.TILE_CMDQ_HEAD_HEAD site q) 1).showWait site q).fetch site q cyc h n

/-- CMD_FETCH: the prefetch buffer fills from the ring while it has room (R147, R148). A DISCARD or ERROR queue fetches
nothing (R180). -/
def execCmdFetch (site q cyc : Nat) (s : State) : Ans :=
  onUnit (s.tileOn site && q < 4) <|
    match (s.tile site).job with
    | none => s
    | some j =>
      if s.mayIssue site q cyc && (s.tile site).fail.isNone then s.fetch site q cyc j.holder (16 - (s.queue site q).buf.length) else s

/-- A TAIL write: ignored where the ring would overflow, and OVERRUN set (R148). -/
def State.setTail (s : State) (site q v : Nat) : State :=
  if 2 ^ s.rd (R.TILE_CMDQ_SIZE_SIZE_LOG2 site q) < toField 32 ((v : Int) - s.rd (R.TILE_CMDQ_HEAD_HEAD site q)) then
    s.flag (R.TILE_CMDQ_STATUS_OVERRUN site q)
  else s.wr (R.TILE_CMDQ_TAIL_TAIL site q) v

/-- The mirror of a quantiser command with statistics (R113). -/
def State.writeStats (s : State) (site : Nat) (c : RunCmd) : State :=
  if c.record.isEmpty then s
  else
    let n := fun i k => ofBytes ((c.record.drop i).take k)
    let t := (s.bump (R.TILE_QSTAT_SEQ_SEQ site) 1).wrs [(R.TILE_QSTAT_HDR_GROUPS site, n 0 2),
      (R.TILE_QSTAT_HDR_SSE_INF site, n 2 1 % 2), (R.TILE_QSTAT_SAT_SAT_COUNT site, n 4 4),
      (R.TILE_QSTAT_NONFIN_NONFINITE_COUNT site, n 8 4)]
    t.each (List.range 256) fun t g =>
      (t.wr (R.TILE_QSTAT_SSE_SSE site g) (n (0x10 + 8 * g) 4)).wr (R.TILE_QSTAT_CNT_COUNT site g) (n (0x14 + 8 * g) 4)

/-- What a command that comes to its end in cycle `cyc` leaves behind: its SRAM outputs, scale entries, the statistics
mirror; for a SEAM_ECC the error (R202). -/
def State.finish (s : State) (site q cyc : Nat) (c : RunCmd) : State :=
  let t := s.each c.outs.flatten fun t p => t.write site p
  let t := t.iff c.scaleOut fun t =>
    let (first, n) := (c.scales.head?).getD (0, 0)
    let u := t.each (List.range n) fun t k => t.wr (scaleFld site (first + k)) ((c.scaleData.getD k 0).toNat)
    let d := u.queue site q
    u.setQueue site q { d with loads := (first, n, cyc) :: d.loads.filter fun l => d.headAt ≤ l.2.2 }
  let t := t.writeStats site c
  match c.seam with
  | some w =>
    match w.bad with
    | some b => (t.vaultBad b.1 b.2.1 b.2.2).flag (R.VAULT_SEAM_ERR_ECC_UNCORR w.vault)
    | none => t
  | none => t

/-- The command of queue `q` with this index that runs, or that the failure of this very cycle has stopped (R145, R181,
R232). -/
def State.runOf (s : State) (site q index cyc : Nat) : Option (RunCmd × Bool) :=
  let mine := fun (c : RunCmd) => c.queue == q && c.index == index && c.unit != .banks
  match (s.tile site).running.find? mine with
  | some c => some (c, false)
  | none => (s.failing site cyc).bind fun f => (f.running.find? mine).map fun c => (c, true)

/-- The parity bits that a command's reads can meet (R144): a MATMUL reads both, an ACC_READ the accumulator file. -/
def RunCmd.parityOf (c : RunCmd) : Nat :=
  if c.unit == .array then c.par % 4 else if c.unit == .accPort && !c.accOut then c.par / 2 % 2 * 2 else 0

/-- Array commands issued in the cycle in which the array halts complete with ARRAY_HALTED (R145). -/
def State.haltLate (s : State) (site cyc : Nat) (c : RunCmd) : State :=
  s.each (((s.failing site cyc).map (·.running)).getD []) fun t d =>
    if d.unit == .array && d.cyc == cyc && d.queue != c.queue then t.failCmd site d.queue cyc 0x33 d.tag d.index else t

/-- A running command ends in cycle `cyc` because of what it reads: `bad` is the address plus 1 of an uncorrectable SRAM
word, `par` parity bits. -/
def State.failRun (s : State) (site cyc : Nat) (c : RunCmd) (stopped : Bool) (bad par : Nat) : State :=
  let t := if stopped then s
    else (s.spoil site (c.wholeRows cyc) c).retire site (if c.array.isSome then cyc + 1 else cyc) 0 c
  let t := t.iff (bad != 0) fun t => t.sramUncorr site (bad - 1)
  let t := t.iff (par != 0) fun t => t.parity site cyc c.tag par c.acc
  let t := t.failCmd site c.queue cyc (if bad = 0 then 0x32 else 0x1A) c.tag c.index
  t.iff (par != 0) fun t => t.haltLate site cyc c

/-- COMMAND_COMPLETE: the oldest running command of queue `q` with this index ends, no earlier than its time and, in an
engine, than the one before it; or earlier where it reads an uncorrectable word of tile SRAM (`bad` = its address plus 1,
R175) or the parity errors of the array that it meets (R144). `corr` SRAM words were corrected for it, and `vcorr` symbols of a
SEAM's vault (R202). The books of R532 are checked with it. -/
def execCommandComplete (site q index cyc corr bad : Nat) (s : State) (vcorr : Nat := 0) : Ans :=
  onUnit (s.tileOn site && q < 4) <|
    match s.runOf site q index cyc with
    | none => s
    | some (c, stopped) =>
      let s := s.sat (R.TILE_SRAM_ECC_CORR_COUNT site) corr
      let s := match c.seam with
        | some w => s.sat (R.VAULT_ECC_CORR_COUNT w.vault) vcorr
        | none => s
      let bad := if c.ins.isEmpty then 0 else bad
      let par := c.parityOf
      if bad ≠ 0 || par ≠ 0 then (s.failRun site cyc c stopped bad par).checkPool
      else if stopped || cyc < c.cyc + c.dur || (c.seam.map (s.seamWaits site c)).getD false then s
      else
        let n := (c.seam.map (·.total)).getD 0
        let t := ((s.finish site q cyc c).retire site cyc n c).checkPool
        if c.code ≠ 0 then t.failCmd site q cyc c.code c.tag index
        else t.doneOk site q cyc c.sig

/-- REMOTE_SIGNAL_ARRIVAL: a remote signal lands, no earlier than R167 lets it. -/
def execRemoteSignalArrival (site counter cyc : Nat) (s : State) : Ans :=
  onUnit (s.tileOn site && counter < 64) <|
    match (s.tile site).inbound.find? fun r => r.counter == counter && r.earliest ≤ cyc with
    | none => s
    | some r =>
      let x := s.tile site
      ((s.setTile site { x with inbound := x.inbound.erase r }).landPackets (some r.route)).land site counter r.inc cyc

/-! LOOP, STOP, SYNC and BANKS -/

/-- LOOP: opens a loop over the entries that follow (R163). It takes no cycles and is no command of DONE. -/
def execLoopBody (site q cyc : Nat) (s : State) : Ans :=
  onUnit (s.tileOn site && q < 4) <|
    match (s.queueIn site q cyc).inst with
    | none => s
    | some i =>
      if !s.mayIssue site q cyc then s
      else if !i.e.listed then s.failCmd site q cyc 0x10 i.e.tag i.e.index
      else if i.e.opcode ≠ 0x0D then s
      else
        let c := s.queueIn site q cyc
        let len := i.e.fld 0x10 16 6
        let p := if c.frames.isEmpty then 0 else c.pos + 1
        let runsPast := c.frames.any fun f => f.start + f.len < p + len
        let field := i.e.headerBad || i.e.bareBad || len == 0 || !i.e.clearBut
          [(0x10, 0, 22), (0x14, 0, 24), (0x18, 0, 24), (0x1C, 0, 24), (0x20, 0, 24), (0x24, 0, 16)]
        match firstCode [(0x11, field), (0x16, 4 ≤ c.frames.length || runsPast)] with
        | some code => s.failCmd site q cyc code i.e.tag i.e.index
        | none =>
          let str := fun off => signedOf 24 (i.e.fld off 0 24)
          (s.setQueue site q (c.openLoop fun b => ⟨b, len, i.e.fld 0x10 0 16 + 1, 0, str 0x14, str 0x18, str 0x1C,
            str 0x20, signedOf 16 (i.e.fld 0x24 0 16)⟩)).showWait site q

/-- STOP: the queue issues nothing more, and is STOPPED once every earlier command has completed (R150). -/
def execStopQueue (site q cyc : Nat) (s : State) : Ans :=
  onUnit (s.tileOn site && q < 4) <|
    match (s.queueIn site q cyc).inst with
    | none => s
    | some i =>
      if !s.mayIssue site q cyc then s
      else if !i.e.listed then s.failCmd site q cyc 0x10 i.e.tag i.e.index
      else if i.e.opcode ≠ 0x0E then s
      else if i.e.headerBad || i.e.bareBad || !i.e.clearBut [] then s.failCmd site q cyc 0x11 i.e.tag i.e.index
      else
        let c := s.queue site q
        ((s.setQueue site q { c.take cyc with stopping := true }).showWait site q).checkStop site q

/-- What SYNC does: nothing but its waits and its signal (R153, R162). -/
def syncPlan (j : TileJob) (i : Inst) : Plan :=
  { code := firstCode [(0x11, i.e.headerBad || !i.e.clearBut []), (0x17, i.targetBad j)], hold := false,
    run := none, effect := fun t => t }

/-- SYNC waits and signals through its header and completes in its issue cycle (R153, R162). -/
def execSync (site q cyc : Nat) (s : State) : Ans :=
  onUnit (s.tileOn site && q < 4) <|
    s.issue site q cyc (fun e => e.opcode == 0x0C) fun _ _ j i => some (syncPlan j i)

/-- Cycles of a bank from state `a` to state `b` (R176). -/
def bankCycles (a b : Nat) : Nat :=
  match a, b with
  | 0, 1 => 16
  | 1, 0 => 64
  | 2, 0 => 2400
  | 2, 1 => 2416
  | _, _ => if a = b then 0 else 16

/-- What a BANKS command for target state `tgt` does (R162, R176). -/
def State.banksPlan (s : State) (site q cyc : Nat) (tgt : Nat) (j : TileJob) (i : Inst) : Plan :=
  let named := (List.range 24).filter fun b => i.e.fld 0x20 b 1 == 1
  let moving := named.filter fun b => s.rd (bankFld site b) != tgt
  let field := i.e.headerBad || i.e.bareBad || !i.e.clearBut [(0x20, 0, 26)] || i.e.fld 0x20 24 2 == 3
  let run := if moving.isEmpty then none
    else some { i.onUnit q cyc .banks 0 [] [] with banks := moving }
  let start := fun (t : State) b =>
    let x := t.tile site
    let m : BankMove := ⟨b, tgt, cyc, bankCycles (t.rd (bankFld site b)) tgt⟩
    (t.setTile site { x with bankMoves := x.bankMoves ++ [m] }).wr (bankFld site b) 3
  { code := firstCode [(0x11, field), (0x17, i.targetBad j)], hold := named.any fun b => s.rd (bankFld site b) == 3,
    run := run, effect := fun t => t.each moving start }

/-- A BANKS command for target state `tgt` (R162, R176): held while a named bank is in transition. -/
def State.banks (s : State) (site q cyc tgt : Nat) : State :=
  s.issue site q cyc (fun e => e.opcode == 0x0F && (e.fld 0x20 24 2 == tgt || e.fld 0x20 24 2 == 3)) fun s q j i =>
    some (s.banksPlan site q cyc tgt j i)

/-- BANKS_ON. -/
def execBanksOn (site q cyc : Nat) (s : State) : Ans := onUnit (s.tileOn site && q < 4) (s.banks site q cyc 0)

/-- BANKS_RETAIN. -/
def execBanksRetain (site q cyc : Nat) (s : State) : Ans := onUnit (s.tileOn site && q < 4) (s.banks site q cyc 1)

/-- BANKS_OFF. -/
def execBanksOff (site q cyc : Nat) (s : State) : Ans := onUnit (s.tileOn site && q < 4) (s.banks site q cyc 2)

/-- The lines of one bank of a tile's SRAM read zero (R171, R176). -/
def State.zeroBank (s : State) (site b : Nat) : State :=
  { s with mem := s.mem.filter fun c =>
      !(tileKey site 0 ≤ c.1 && c.1 < tileKey site sramSize && Span.touches ⟨c.1 - tileKey site 0, 1⟩ b) }

/-- An issued command or a transfer still has an access pending to the bank (R176). -/
def State.bankInUse (s : State) (site b : Nat) : Bool :=
  (s.tile site).running.any (fun c => c.spans.any fun p => p.touches b) ||
  (s.tile site).xfers.any fun r => Span.touches ⟨r.sram, r.len⟩ b

/-- BANK_TRANSITION_DONE: a bank reaches its target once its cycles have run; a bank that was or becomes OFF reads
zero; a BANKS command with no bank left to move completes (R176). -/
def execBankTransitionDone (site bank cyc : Nat) (s : State) : Ans :=
  onUnit (s.tileOn site && bank < 24) <|
    match (s.tile site).bankMoves.find? fun m => m.bank == bank with
    | none => s
    | some m =>
      if s.bankInUse site bank || cyc < m.since + m.dur then s
      else
        let t := if m.target = 2 then s.zeroBank site bank else s
        let x := t.tile site
        let done := x.running.filter fun c => c.unit == .banks && c.banks == [bank]
        let left := (x.running.filter fun c => !done.contains c).map fun c => { c with banks := c.banks.erase bank }
        let t := (t.setTile site { x with bankMoves := x.bankMoves.erase m, running := left }).wr (bankFld site bank)
          m.target
        t.each done fun t c => t.doneOk site c.queue cyc c.sig

/-! Job start and scrubs (R133, R177, R178) -/

/-- Real-row cycles in the 1024 cycles before cycle `c`. -/
def TileState.rowsIn1024 (x : TileState) (c : Nat) : Nat := (x.rows.map fun r => r.between (c - 1024) c).sum

/-- The hold level sampled in gap cycle 0 (R134). -/
def State.holdLevel (s : State) (site cyc : Nat) : Nat :=
  if s.rd (R.TILE_ARRAY_SHAPING_MODE site) = 0 then 16
  else max (s.rd (R.TILE_ARRAY_SHAPING_FLOOR site)) ((16 * (s.tile site).rowsIn1024 cyc + 1023) / 1024)

/-- The shaping register sampled for the gap that starts, or at a job start, in cycle `cyc` (R134, R138). -/
def State.sampleShaping (s : State) (site cyc : Nat) : State :=
  (s.setTile site { s.tile site with hold := s.holdLevel site cyc }).wr (R.TILE_ARRAY_STATUS_SHAPING site)
    (s.rd (R.TILE_ARRAY_SHAPING_MODE site))

/-- A job starts on a tile (R177): counters zero, the queues given (number, ring base, ring size, first index, tail)
loaded and in RUN, error fields cleared. A tail too far above the first index is ignored and sets OVERRUN (R148). The
array goes on from level 0 in its 16-cycle intervals (R131, R133). -/
def State.tileJobStart (s : State) (site cyc : Nat) (j : TileJob) (qs : List (Nat × Nat × Nat × Nat × Nat)) : State :=
  let x := s.tile site
  let t := (s.setTile site { x with
    q0 := .empty, q1 := .empty, q2 := .empty, q3 := .empty, job := some j, fail := none, inbound := [], idleAt := [],
    rampUp := false, running := x.running.filter fun c => c.unit == .banks }).sampleShaping site cyc
  let t := t.each (List.range 64) fun t n => t.wr (R.TILE_ARRIVAL_VALUE site n) 0
  let t := t.each allQueues fun t q => t.wrs [(R.TILE_CMDQ_STATUS_STATE site q, 0),
    (R.TILE_CMDQ_STATUS_ERR_CODE site q, 0), (R.TILE_CMDQ_STATUS_ERR_TAG site q, 0),
    (R.TILE_CMDQ_STATUS_OVERRUN site q, 0), (R.TILE_CMDQ_ERR_INDEX_INDEX site q, 0)]
  t.each qs fun t e =>
    let u := t.wrs [(R.TILE_CMDQ_BASE_ADDR site e.1, e.2.1 / 64), (R.TILE_CMDQ_SIZE_SIZE_LOG2 site e.1, e.2.2.1),
      (R.TILE_CMDQ_HEAD_HEAD site e.1, e.2.2.2.1), (R.TILE_CMDQ_TAIL_TAIL site e.1, e.2.2.2.1),
      (R.TILE_CMDQ_STATUS_STATE site e.1, 1)]
    (u.setQueue site e.1 { CmdQueue.empty with used := true, headAt := cyc }).setTail site e.1 e.2.2.2.2

/-- A tile that waits for its full scrub at level 0 shows SCRUB (R133, R137, R327): its holder changes, its slice was reset, or
a claim of it is under way. -/
def State.showScrub (s : State) (site : Nat) : State :=
  let radio := s.rd (R.SCHED_TILE_STATE site) == 6
  if s.tileOn site && (s.tile site).job.isNone && s.rd (R.TILE_ARRAY_STATUS_LEVEL site) == 0
    && ((s.sched.claims.any fun c => c.site == site && (!c.done || c.released)) ||
      (!radio && (s.sched.scrubDue.contains site || s.rd (R.SCHED_TILE_HOLDER site) != s.planHolder site))) then
    (s.wr (R.TILE_ARRAY_STATUS_STATE site) 7).iff (!s.sched.claims.any fun c => c.site == site) (·.wr (R.SCHED_TILE_STATE site) 5)
  else s

/-- The job-end scrub (R177). The array ramps down on its present intervals (R131, R133). -/
def State.jobEndScrub (s : State) (site cyc : Nat) : State :=
  let x := s.tile site
  let t := s.each (x.running.filter fun c => c.unit != .banks) fun t c => t.retire site cyc 0 c
  let t := t.each x.xfers fun t r => t.landPackets r.route
  let t := t.each x.inbound fun t r => t.landPackets (some r.route)
  let t := t.rampDown site cyc
  let y := t.tile site
  let t := t.setTile site { y with
    q0 := .empty, q1 := .empty, q2 := .empty, q3 := .empty, xfers := [], inbound := [], job := none, fail := none,
    landed := [], running := y.running.filter fun c => c.unit == .banks }
  let t := t.each allQueues fun t q => t.wr (R.TILE_CMDQ_STATUS_STATE site q) 0
  let t := t.each (List.range 64) fun t n => t.wr (R.TILE_ARRIVAL_VALUE site n) 0
  t.wr (R.TILE_ARRAY_STATUS_STATE site) (if t.rd (R.TILE_ARRAY_STATUS_LEVEL site) = 0 then 1 else 5)

/-- A full scrub (R102, R113, R135, R141, R178): everything of the job-end scrub, SRAM zero and ON, scale file,
statistics mirror and array cleared. -/
def State.fullScrub (s : State) (site cyc : Nat) : State :=
  let t := s.jobEndScrub site cyc
  let t := t.zeroKeys (tileKey site 0) (tileKey site sramSize)
  let x := t.tile site
  let t := t.setTile site { x with bankMoves := [], running := [], dummySteps := 0, stat0 := [], stat1 := [] }
  let b := 0x100000 + 65536 * site
  let t := ((t.resetRegs (b + 0x2000) (b + 0x2008)).resetRegs (b + 0x6000) (b + 0x6C00)).resetRegs (b + 0x7000) (b + 0x8000)
  let t := { t with acc := tblClear t.acc (accKey site 0 0) (accKey site 512 0) }
  t.wrs [(R.TILE_ARRAY_STATUS_STATE site, 1), (R.TILE_ARRAY_STATUS_LEVEL site, 0), (R.TILE_ARRAY_STATUS_STAT_BANK site, 0)]

/-- A tile after a cold or warm reset: a full scrub, every register of its block at its reset value (R178), STATE OFF
where the disabled-unit map says so (R137). -/
def State.resetTile (s : State) (site : Nat) : State :=
  let t := s.zeroKeys (tileKey site 0) (tileKey site sramSize)
  let t := (t.setTile site .reset).resetRegs (0x100000 + 65536 * site) (0x110000 + 65536 * site)
  { t with acc := tblClear t.acc (accKey site 0 0) (accKey site 512 0) }

end Sys2Proof.Machine
end

