-- ==== Sys2Proof/Machine/Adopt.lean ====
section
/-! DEFINITION. Which tile drives which Seam engine (R28, R182 to R186). -/

namespace Sys2Proof.Machine

/-- The enabled tile whose home is vault `v`. -/
def State.homeTile (s : State) (v : Nat) : Option Nat := s.tilesOn.find? fun t => s.homeVault t == v

/-- The driver of an engine: site and kind, or none (R206). -/
def State.setDriver (s : State) (v : Nat) (d : Option (Nat × Nat)) : State :=
  match d with
  | some (t, k) => s.wrs [(R.VAULT_SEAM_STATUS_DRIVER_VALID v, 1), (R.VAULT_SEAM_STATUS_DRIVER v, t),
      (R.VAULT_SEAM_STATUS_DRIVER_KIND v, k)]
  | none => s.wrs [(R.VAULT_SEAM_STATUS_DRIVER_VALID v, 0), (R.VAULT_SEAM_STATUS_DRIVER v, 0),
      (R.VAULT_SEAM_STATUS_DRIVER_KIND v, 0)]

/-- Hops between a tile and a vault of one sector (R25). -/
def tileHops (site v : Nat) : Nat := hops (site % 17 % 5, site % 17 / 5) (v % 19 % 5, v % 19 / 5)

/-- The adopted vault of a tile. -/
def State.adopted (s : State) (site : Nat) : Option Nat :=
  if s.rd (R.TILE_SEAM_BIND_ADOPT_VALID site) = 1 then some (s.rd (R.TILE_SEAM_BIND_ADOPT_VAULT site)) else none

/-- One unhomed vault goes to the nearest tile of its sector that adopts none yet, the lower site winning ties. -/
def State.adoptOne (s : State) (v : Nat) : State :=
  let l := s.tilesOn.filter fun t => t / 17 == v / 19 && (s.adopted t).isNone
  match l with
  | [] => s
  | a :: l =>
    let t := l.foldl (fun b c => if tileHops c v < tileHops b v then c else b) a
    (s.wrs [(R.TILE_SEAM_BIND_ADOPT_VALID t, 1), (R.TILE_SEAM_BIND_ADOPT_VAULT t, v)]).setDriver v (some (t, 1))

/-- Homes and adoptions of the disabled-unit map in force (R184): the registers that show them, and every engine's
driver. -/
def State.adopt (s : State) : State :=
  let t := s.each allSites fun t k =>
    t.wrs [(R.TILE_SEAM_BIND_ADOPT_VALID k, 0), (R.TILE_SEAM_BIND_ADOPT_VAULT k, 0)]
  let t := t.each s.inferVaults fun t v =>
    let u := t.wr (R.VAULT_SEAM_STATUS_STATE v) 1
    match s.homeTile v with
    | some k => (u.wrs [(R.VAULT_STATUS_HOMED v, 1), (R.VAULT_STATUS_HOME_TILE v, k)]).setDriver v (some (k, 0))
    | none => (u.wrs [(R.VAULT_STATUS_HOMED v, 0), (R.VAULT_STATUS_HOME_TILE v, 0)]).setDriver v none
  t.each (s.inferVaults.filter fun v => (s.homeTile v).isNone) State.adoptOne

/-- The engines a tile drives by the map lose their driver while the radio holds it (R185); one that a stand-in
holds keeps it. -/
def State.unbindTile (s : State) (site : Nat) : State :=
  let own := s.homeVault site :: (s.adopted site).toList
  s.each own fun t v => if t.rd (R.VAULT_SEAM_STATUS_DRIVER_KIND v) = 2 then t else t.setDriver v none

/-- They have it again when the tile returns, but for one that a stand-in still holds (R186). -/
def State.rebindTile (s : State) (site : Nat) : State :=
  let home := fun (t : State) => if t.rd (R.VAULT_SEAM_STATUS_DRIVER_KIND (s.homeVault site)) = 2 then t
    else t.setDriver (s.homeVault site) (some (site, 0))
  match s.adopted site with
  | none => home s
  | some v => if s.rd (R.VAULT_SEAM_STATUS_DRIVER_KIND v) = 2 then home s else (home s).setDriver v (some (site, 1))

/-- A stand-in binding made at job start (R183, R185). -/
def State.standIn (s : State) (site v : Nat) : State :=
  (s.wrs [(R.TILE_SEAM_BIND_STANDIN_VALID site, 1), (R.TILE_SEAM_BIND_STANDIN_VAULT site, v)]).setDriver v (some (site, 2))

/-- The engine `v` is one that a claimed tile of the sector of `site` has left without a driver (R185). -/
def State.lentEngine (s : State) (site v : Nat) : Bool :=
  s.sched.claims.any fun c => c.done && c.site / 17 == site / 17 &&
    (s.homeVault c.site == v || s.adopted c.site == some v) && s.rd (R.VAULT_SEAM_STATUS_DRIVER_VALID v) == 0

/-- The stand-in bindings (site, vault) that Jasper makes for a starting job of slice `x` on `tiles`: one per tile and per
vault, of engines that claimed tiles have left (R183, R185). -/
def State.standIns (s : State) (x : Nat) (tiles : List Nat) (l : List (Nat × Nat)) : State :=
  s.each l fun t b =>
    if x < 64 && tiles.contains b.1 && t.rd (R.TILE_SEAM_BIND_STANDIN_VALID b.1) == 0 && t.lentEngine b.1 b.2 then
      t.standIn b.1 b.2
    else t

/-- A stand-in binding ends with its job (R185): the engine returns to the tile that drives it by the map, if that
tile is not with the radio. -/
def State.endStandIn (s : State) (site : Nat) : State :=
  if s.rd (R.TILE_SEAM_BIND_STANDIN_VALID site) = 0 then s
  else
    let v := s.rd (R.TILE_SEAM_BIND_STANDIN_VAULT site)
    let t := (s.wrs [(R.TILE_SEAM_BIND_STANDIN_VALID site, 0), (R.TILE_SEAM_BIND_STANDIN_VAULT site, 0)]).setDriver v none
    let free := fun k => t.rd (R.SCHED_TILE_STATE k) != 6
    match s.homeTile v with
    | some k => if free k then t.setDriver v (some (k, 0)) else t
    | none =>
      match s.tilesOn.find? fun k => s.adopted k == some v with
      | some k => if free k then t.setDriver v (some (k, 1)) else t
      | none => t

end Sys2Proof.Machine
end

