-- ==== Sys2Proof/Machine/Sfu.lean ====
section
/-! DEFINITION. The special functions (R211 to R222) and RMS normalisation (R226 to R230), native and in
compatibility mode (R250). A built-in whose bits R216 does not fix gives a free value kept inside its stated bound:
the bound is measured against the exact function, evaluated here with 160 significant bits. Where free values together
would break the bound of a function composed of them, that function is composed of the built-ins' nearest values instead
(`best`; log entry 11). -/

namespace Sys2Proof.Machine

/-- The number cut to its 160 leading bits. -/
def Fp.cut (x : Fp) : Fp :=
  match x with
  | .fin n m e =>
    let l := Nat.log2 m
    if l < 160 then .fin n m e else .fin n (m >>> (l - 159)) (e + ((l - 159 : Nat) : Int))
  | y => y

/-- Product and sum for reference evaluation, cut to 160 bits. -/
def refMul (a b : Fp) : Fp := (a.mul b).cut

def refAdd (a b : Fp) : Fp := (a.add b).cut

/-- Quotient for reference evaluation, with at least 160 significant bits. -/
def refDiv (a b : Fp) : Fp :=
  match a, b with
  | .fin n m e, .fin k d f =>
    if d = 0 then .inf (n != k) else
    let s := 200 + Nat.log2 d
    Fp.cut (.fin (n != k) ((m <<< s) / d) (e - f - s))
  | _, _ => .nan

/-- The integer 1 as a number, and small rationals used by the reference evaluation. -/
def numOne : Fp := .fin false 1 0

/-- log2(e) to 200 fraction bits. -/
def refLog2e : Fp := .fin false 2318321547468254865173387471183990171487108758923299108729110 (-200)

/-- `sum of x^k / k!` over `n` terms from the `k`-th. -/
def refExpSeries (x : Fp) : Nat → Nat → Fp → Fp → Fp
  | 0, _, _, acc => acc
  | n + 1, k, t, acc =>
    let t' := refDiv (refMul t x) (.fin false k 0)
    refExpSeries x n (k + 1) t' (refAdd acc t')

/-- The integer below a finite number. -/
def numFloor (x : Fp) : Int :=
  match x with
  | .fin n m e => if 0 ≤ e then sgnInt n (m * pow2 e)
                  else if n then -(((m + pow2 (-e) - 1) >>> (-e).toNat : Nat) : Int) else ((m >>> (-e).toNat : Nat) : Int)
  | _ => 0

/-- An integer as a number. -/
def numOfInt (k : Int) : Fp := .fin (decide (k < 0)) k.natAbs 0

/-- Whether a finite number is an integer, and which. -/
def numInt? (x : Fp) : Option Int :=
  match x with
  | .fin _ _ _ => if (x.add (numOfInt (numFloor x)).neg) matches .fin _ 0 _ then some (numFloor x) else none
  | _ => none

/-- 2^x for a finite x, to 150 bits or better. -/
def refExp2 (x : Fp) : Fp :=
  let k := numFloor x
  let f := refAdd x (numOfInt k).neg
  (refExpSeries (refDiv f refLog2e) 60 1 numOne numOne).scale k

/-- `2 * (z + z^3/3 + z^5/5 + ...)` over `n` terms: the natural logarithm of (1+z)/(1-z). -/
def refAtanh2 (z2 : Fp) : Nat → Nat → Fp → Fp → Fp
  | 0, _, _, acc => acc.scale 1
  | n + 1, k, p, acc => refAtanh2 z2 n (k + 2) (refMul p z2) (refAdd acc (refDiv p (.fin false k 0)))

/-- log2 x for a finite x > 0. -/
def refLog2 (x : Fp) : Fp :=
  match x with
  | .fin _ m e =>
    let l := Nat.log2 m
    let u := Fp.fin false m (-(l : Int))
    let z := refDiv (u.add numOne.neg) (u.add numOne)
    refAdd (numOfInt (e + l)) (refMul (refAtanh2 (refMul z z) 60 1 z (.fin false 0 0)) refLog2e)
  | y => y

/-- 2/sqrt(pi) to 160 fraction bits. -/
def refTwoOverSqrtPi : Fp := .fin false 1649128000240172121335468122222580532118151184855 (-160)

/-- `sum of (-x²)^k / (k! (2k+1))` over `n` terms from the `k`-th. -/
def refErfSeries (x2 : Fp) : Nat → Nat → Fp → Fp → Fp
  | 0, _, _, acc => acc
  | n + 1, k, t, acc =>
    let t' := refDiv (refMul t x2).neg (.fin false k 0)
    refErfSeries x2 n (k + 1) t' (refAdd acc (refDiv t' (.fin false (2 * k + 1) 0)))

/-- erf x for a finite x; from |x| = 6 on it is ±1 to 2^−55. -/
def refErf (x : Fp) : Fp :=
  if (Fp.fin false 6 0).le x.abs then (if x.le (.fin false 0 0) then numOne.neg else numOne)
  else refMul (refMul x refTwoOverSqrtPi) (refErfSeries (refMul x x) (if (Fp.fin false 4 0).le x.abs then 220 else 120) 1 numOne numOne)

/-- One unit in the last place of y (R211). -/
def ulpOf (y : Fp) : Fp :=
  match y with
  | .fin _ m e => if m = 0 then .fin false 1 (-149) else .fin false 1 (max ((Nat.log2 m : Int) + e) (-126) - 23)
  | _ => .fin false 0 0

/-- Whether the FP32 code `c` lies within `k` ulp of y, or within the absolute distance `d` of it. -/
def withinBound (k : Nat) (d y : Fp) (c : Nat) : Bool :=
  match f32Val c with
  | .fin n m e =>
    let gap := ((Fp.fin n m e).add y.neg).abs
    gap.le ((ulpOf y).mul (.fin false k 0)) || gap.le d
  | _ => false

/-- The free FP32 value `raw` if it keeps the bound, else the exact value rounded. -/
def pickWithin (k : Nat) (d y : Fp) (raw : Nat) : Nat := if withinBound k d y (raw % 2 ^ 32) then raw % 2 ^ 32 else f32Round y

/-- A built-in's result where only the bound of 1 ulp is stated (R216). -/
def pickUlp (best : Bool) (y : Fp) (raw : Nat) : Nat := if best then f32Round y else pickWithin 1 (.fin true 1 0) y raw

/-- No absolute distance. -/
def noDist : Fp := .fin true 1 0

/-- EXP2 of an exact argument (R216). -/
def sfuExp2 (best : Bool) (x : Fp) : Nat :=
  match x with
  | .nan => canonNaN
  | .inf false => f32Round (.inf false)
  | .inf true => 0
  | .fin n m e =>
    if (Fp.fin false 128 0).le x then f32Round (.inf false)
    else if x.le (.fin true 150 0) then 0
    else match numInt? x with
      | some k => f32Round (.fin false 1 k)
      | none => pickUlp best (refExp2 x) (Config.sfuRaw 0 n m e)

/-- LOG2 of an FP32 code (R216). -/
def sfuLog2 (best : Bool) (c : Nat) : Nat :=
  match f32Val c with
  | .nan => canonNaN
  | .inf false => f32Round (.inf false)
  | .inf true => canonNaN
  | .fin n m e =>
    if m = 0 then f32Round (.inf true)
    else if n then canonNaN
    else if m = 2 ^ Nat.log2 m then f32Round (numOfInt (e + Nat.log2 m))
    else pickUlp best (refLog2 (.fin n m e)) (Config.sfuRaw 1 n m e)

/-- ERF of an FP32 code (R216): odd, and ±1 where the exact value lies within 2^−25 of it. -/
def sfuErf (best : Bool) (c : Nat) : Nat :=
  match f32Val c with
  | .nan => canonNaN
  | .inf n => f32Round (.fin n 1 0)
  | .fin n m e =>
    if m = 0 then f32Round (.fin n 0 0)
    else
      let a := Fp.fin false m e
      let one := f32Round (.fin n 1 0)
      if (f32Val 0x407AE148).le a then one
      else
        let y := refErf a
        if (numOne.add y.neg).le (.fin false 1 (-25)) then one
        else
          let r := pickUlp best y (Config.sfuRaw 2 false m e)
          if n then r % 2 ^ 31 + 2 ^ 31 else r

/-- The number rounded to `k` significant bits by RNE, with an unbounded exponent. -/
def roundSig (k : Nat) (x : Fp) : Fp :=
  match x with
  | .fin n m e =>
    let l := Nat.log2 m + 1
    if l ≤ k then .fin n m e else .fin n (rneShift m (l - k)) (e + ((l - k : Nat) : Int))
  | y => y

/-- e^d for an exact d (R217, R220): the product with log2(e) rounded once to 64 bits. -/
def sfuExpOf (best : Bool) (d : Fp) : Nat := sfuExp2 best (roundSig 64 (d.mul refLog2e))

/-- EXP of an FP32 code (R217, R218). -/
def sfuExp (c : Nat) : Nat := sfuExpOf false (f32Val c)

/-- 1 / (1 + e^−x) for reference; beyond |x| = 200 it is 1 or 0 to 2^−288. -/
def refSigmoid (x : Fp) : Fp :=
  if (Fp.fin false 200 0).le x then numOne
  else if x.le (.fin true 200 0) then .fin false 0 0
  else refDiv numOne (refAdd numOne (refExp2 (refMul x.neg refLog2e)))

/-- 2√(2/π) to 160 fraction bits. -/
def refTwoRootTwoOverPi : Fp := (refMul refTwoOverSqrtPi (refExp2 (.fin false 1 (-1))))

/-- 0.044715. -/
def refCubic : Fp := refDiv (.fin false 44715 0) (.fin false 1000000 0)

/-- The exact function of a FUNC code, for measuring a bound (R211). -/
def refFunc (f : Nat) (x : Fp) : Fp :=
  match f with
  | 0 => refExp2 x
  | 1 => refLog2 x
  | 2 => refErf x
  | 3 => refExp2 (refMul x refLog2e)
  | 4 => refDiv numOne x
  | 5 => refExp2 ((refLog2 x).neg.scale (-1))
  | 6 => refSigmoid x
  | 7 => refMul x (refSigmoid x)
  | 8 => refMul (x.scale (-1)) (refAdd numOne (refErf (refMul x (refDiv numOne (refExp2 (.fin false 1 (-1)))))))
  | _ => refMul x (refSigmoid (refMul refTwoRootTwoOverPi (refAdd x (refMul refCubic (refMul x (refMul x x))))))

/-- The bound in ulp of R216 and R217. -/
def nativeUlp (f : Nat) : Nat :=
  match f with
  | 3 => 2 | 5 => 2 | 6 => 3 | 7 => 4 | 8 => 3 | 9 => 5 | _ => 1

/-- The composition `g` of FUNC `f` at code `c`, from the free built-ins where that keeps the stated bound (R217), else from
their nearest values. -/
def composed (f c : Nat) (g : Bool → Nat) : Nat :=
  let x := f32Val c
  if withinBound (nativeUlp f) (if 8 ≤ f then x.abs.scale (-23) else noDist) (refFunc f x) (g false) then g false else g true

/-- The steps of RECIP on an FP32 code a ≥ 2^−126 (R217). -/
def recipSteps (best : Bool) (a : Nat) : Nat :=
  let r0 := sfuExp2 best (f32Val (sfuLog2 best a)).neg
  let h := f32Round (((f32Val a).neg.mul (f32Val r0)).add numOne)
  f32Fma r0 h r0

/-- RECIP of an FP32 code (R217, R218). -/
def sfuRecip (c : Nat) : Nat :=
  match f32Val c with
  | .nan => canonNaN
  | .inf n => f32Round (.fin n 0 0)
  | .fin n m e =>
    let sgn := if n then 2 ^ 31 else 0
    if m = 0 then f32Round (.inf n)
    else composed 4 c fun b =>
      if (Fp.fin false 1 (-126)).le (.fin false m e) then recipSteps b (c % 2 ^ 31) + sgn
      else f32Round ((f32Val (recipSteps b (f32Round (.fin false m (e + 64))))).scale 64) + sgn

/-- RSQRT of an FP32 code (R217, R218). -/
def sfuRsqrt (c : Nat) : Nat :=
  match f32Val c with
  | .nan => canonNaN
  | .inf false => 0
  | .inf true => canonNaN
  | .fin n m _ =>
    if m = 0 then f32Round (.inf n)
    else if n then canonNaN
    else composed 5 c fun b =>
      let r0 := sfuExp2 b ((f32Val (sfuLog2 b c)).neg.scale (-1))
      let p := f32Mul c r0
      let h := f32Round (((f32Val p).neg.mul (f32Val r0)).add numOne)
      f32Fma (f32Round ((f32Val r0).scale (-1))) h r0

/-- The recipe of SIGMOID at a finite code. -/
def sigmoidAt (best : Bool) (c : Nat) : Nat :=
  match f32Val c with
  | .fin n m e =>
    let u := sfuExpOf best (.fin true m e)
    let v := sfuRecip (f32Round (numOne.add (f32Val u)))
    if n && decide (m ≠ 0) then f32Mul u v else v
  | _ => canonNaN

/-- SIGMOID of an FP32 code (R217, R218). -/
def sfuSigmoid (c : Nat) : Nat :=
  match f32Val c with
  | .nan => canonNaN
  | .inf false => f32Round numOne
  | .inf true => 0
  | .fin _ _ _ => composed 6 c fun b => sigmoidAt b c

/-- `x * σ(z)` with the limits of SILU and the GELUs (R218). -/
def timesGate (c gate : Nat) : Nat :=
  match f32Val c with
  | .nan => canonNaN
  | .inf false => f32Round (.inf false)
  | .inf true => f32Round (.fin true 0 0)
  | .fin n m _ => if m = 0 then f32Round (.fin n 0 0) else f32Mul c gate

/-- SILU of an FP32 code (R217). -/
def sfuSilu (c : Nat) : Nat := composed 7 c fun b => timesGate c (if b then sigmoidAt true c else sfuSigmoid c)

/-- GELU_ERF of an FP32 code (R217, R218), k1 = RNE(1/√2). -/
def sfuGeluErf (c : Nat) : Nat :=
  match f32Val c with
  | .fin n m _ =>
    if m = 0 then f32Round (.fin n 0 0) else
    composed 8 c fun b =>
      let h := f32Round ((f32Val c).scale (-1))
      let g := sfuErf b (f32Mul c 0x3F3504F3)
      f32Fma h g h
  | _ => timesGate c 0

/-- GELU_TANH of an FP32 code (R217, R218), k2 = RNE(0.044715), k3 = RNE(2√(2/π)). -/
def sfuGeluTanh (c : Nat) : Nat :=
  match f32Val c with
  | .fin _ _ _ =>
    let s := f32Mul c c
    let w := f32Fma (f32Mul 0x3D372713 s) c c
    let z := f32Mul 0x3FCC422A w
    composed 9 c fun b => timesGate c (if b && f32Val z matches .fin _ _ _ then sigmoidAt true z else sfuSigmoid z)
  | _ => timesGate c 0

/-- Passes per element of a FUNC code (R216, R217). -/
def sfuPasses (f : Nat) : Nat :=
  match f with
  | 4 => 2 | 5 => 2 | 6 => 3 | 7 => 3 | 9 => 3 | _ => 1

/-- The native evaluation of FUNC codes 0x00 to 0x09 (R216, R217). -/
def sfuNative (f c : Nat) : Nat :=
  match f with
  | 0 => sfuExp2 false (f32Val c)
  | 1 => sfuLog2 false c
  | 2 => sfuErf false c
  | 3 => sfuExp c
  | 4 => sfuRecip c
  | 5 => sfuRsqrt c
  | 6 => sfuSigmoid c
  | 7 => sfuSilu c
  | 8 => sfuGeluErf c
  | _ => sfuGeluTanh c

/-- The bound in ulp of R250. -/
def compatUlp (f : Nat) : Nat :=
  match f with
  | 0 => 2 | 1 => 2 | 2 => 4 | 3 => 3 | 4 => 2 | 5 => 3 | 6 => 5 | 7 => 6 | _ => 5

/-- EXP overflows or underflows at a number (R216 on the wide product of R217). -/
def expStated (x : Fp) : Bool :=
  let p := roundSig 64 (x.mul refLog2e)
  (Fp.fin false 128 0).le p || p.le (.fin true 150 0)

/-- Whether R216 or R218 states the result of FUNC `f` at code `c` exactly (specials, exact powers, limits), so
that the compatibility evaluation shares it with the native one (R250). -/
def sfuStated (f c : Nat) : Bool :=
  match f32Val c with
  | .fin n m e =>
    let x := Fp.fin n m e
    decide (m = 0) ||
    (match f with
     | 0 => (numInt? x).isSome || (Fp.fin false 128 0).le x || x.le (.fin true 150 0)
     | 1 => n || decide (m = 2 ^ Nat.log2 m)
     | 2 => (Fp.fin false 4 0).le x.abs || (numOne.add (refErf x.abs).neg).le (.fin false 1 (-25))
     | 3 => expStated x
     | 4 => decide (m = 2 ^ Nat.log2 m) || x.abs.le (.fin false 1 (-128))
     | 5 => n || (decide (m = 2 ^ Nat.log2 m) && decide ((e + Nat.log2 m) % 2 = 0))
     | _ => false)
  | _ => true

/-- The compatibility evaluation (R250): the stated results, else a free value within the bound. -/
def sfuCompatEval (f c : Nat) : Nat :=
  if sfuStated f c then sfuNative f c
  else
    let x := f32Val c
    let d := if f = 8 then x.abs.scale (-22) else noDist
    pickWithin (compatUlp f) d (refFunc f x) (Config.sfuCompat f c)

/-- One evaluation of FUNC `f` in the mode of the job. -/
def sfuEval (compat : Bool) (f c : Nat) : Nat := if compat then sfuCompatEval f c else sfuNative f c

/-- One level of the pairwise tree (R222). -/
def pairLevel : List Nat → List Nat
  | a :: b :: r => f32Add a b :: pairLevel r
  | r => r

/-- `k` levels of the pairwise tree. -/
def pairLevels : Nat → List Nat → List Nat
  | 0, v => v
  | k + 1, v => pairLevels k (pairLevel v)

/-- The smallest k with n ≤ 2^k. -/
def clog2 (n : Nat) : Nat := if n ≤ 1 then 0 else Nat.log2 (n - 1) + 1

/-- The pairwise sum of R222. -/
def pairSum (v : List Nat) : Nat :=
  ((pairLevels (clog2 v.length) (v ++ List.replicate (2 ^ clog2 v.length - v.length) 0)).head?).getD 0

/-- The sum of a row: pairwise in native mode, sequential in compatibility mode (R222, R250). -/
def rowSum (compat : Bool) (v : List Nat) : Nat :=
  if compat then (match v with | [] => 0 | a :: r => r.foldl f32Add a) else pairSum v

/-- What a FP32 code is: 0 finite, 1 +∞, 2 −∞, 3 NaN. -/
def f32Kind (c : Nat) : Nat :=
  match f32Val c with
  | .fin _ _ _ => 0
  | .inf false => 1
  | .inf true => 2
  | .nan => 3

/-- The larger of two codes that are not NaN, +0 above −0 (R159, R221). -/
def f32MaxFin (a b : Nat) : Nat := if (f32Val a).le (f32Val b) then b else a

/-- The smaller of two codes that are not NaN, −0 below +0. -/
def f32MinFin (a b : Nat) : Nat := if (f32Val a).le (f32Val b) then a else b

/-- e^d for an exact difference d of a SOFTMAX row (R220; R250 in compatibility mode). -/
def softExp (compat best : Bool) (d : Fp) : Nat :=
  if compat then
    if d matches .fin _ 0 _ then f32Round numOne
    else if expStated d then sfuExpOf true d
    else if best then f32Round (refExp2 (refMul d refLog2e))
    else pickWithin 3 noDist (refExp2 (refMul d refLog2e)) (Config.sfuCompat 3 (f32Round d))
  else sfuExpOf best d

/-- The outputs and the sum of a row whose largest finite value is `m` (R220). -/
def softOut (compat best : Bool) (z : List Nat) (m : Nat) : List Nat × Nat :=
  let e := z.map fun c => if f32Kind c = 2 then 0 else softExp compat best ((f32Val c).add (f32Val m).neg)
  let s := rowSum compat e
  let r := if best then f32Round (refDiv numOne (f32Val s)) else sfuEval compat 4 s
  (e.map fun x => f32Mul x r, s)

/-- Every output keeps the bound of R223, or of R250. -/
def softHolds (compat : Bool) (z : List Nat) (m : Nat) (y : List Nat) : Bool :=
  let e := z.map fun c =>
    let d := (f32Val c).add (f32Val m).neg
    if f32Kind c = 2 || d.le (.fin true 300 0) then Fp.fin false 0 0 else refExp2 (refMul d refLog2e)
  let s := e.foldl refAdd (.fin false 0 0)
  let rel := if compat then 12 + z.length else 8 + clog2 z.length
  (List.range z.length).all fun i =>
    let x := refDiv (e.getD i numOne) s
    let gap := ((f32Val (y.getD i 0)).add x.neg).abs
    gap.le (refMul x (.fin false rel (-24))) || (!((Fp.fin false 1 (-126)).le x) && gap.le (.fin false 1 (-149)))

/-- SOFTMAX of one row of FP32 codes (R220, R221): the outputs, m and s. Free values that together would break the bound of
R223 give way to the nearest ones (log entry 11). -/
def softmaxRow (compat : Bool) (z : List Nat) : List Nat × Nat × Nat :=
  let kinds := z.map f32Kind
  if kinds.contains 3 then (z.map fun _ => canonNaN, canonNaN, canonNaN)
  else if kinds.contains 1 then
    let k := (kinds.filter (· = 1)).length
    let r := sfuEval compat 4 (f32Round (.fin false k 0))
    (kinds.map fun t => if t = 1 then r else 0, f32Round (.inf false), f32Round (.fin false k 0))
  else if kinds.all (· = 2) then (z.map fun _ => canonNaN, f32Round (.inf true), 0)
  else
    let m := (z.filter fun c => f32Kind c = 0).foldl f32MaxFin (f32Round (.inf true))
    let a := softOut compat false z m
    let b := if softHolds compat z m a.1 then a else softOut compat true z m
    (b.1, m, b.2)

/-- ⌊log2 |d|⌋ of a finite nonzero code. -/
def f32Exp (c : Nat) : Int :=
  match f32Val c with
  | .fin _ m e => (Nat.log2 m : Int) + e
  | _ => 0

/-- What NORM finds for one row (R227, R228): MEAN, MS, MS_SCALED and E. -/
structure NormStat where
  mean : Nat
  ms : Nat
  msScaled : Nat
  exp : Int
deriving DecidableEq, Repr

/-- The quotient of an FP32 code by a count, rounded once. -/
def f32DivNat (a n : Nat) : Nat :=
  match f32Val a with
  | .fin s m e =>
    let k := 64 + Nat.log2 n
    let q := (m <<< k) / n
    let sticky := if (m <<< k) % n = 0 then 0 else 1
    f32Round (.fin s (2 * q + sticky) (e - k - 1))
  | _ => f32Canon a

/-- The statistics of one row of FP32 codes (R227, R228; R250 in compatibility mode). -/
def normStat (compat : Bool) (d : List Nat) : NormStat :=
  let kinds := d.map f32Kind
  let pinf := f32Round (.inf false)
  if kinds.contains 3 then ⟨canonNaN, canonNaN, canonNaN, 0⟩
  else if kinds.contains 1 && kinds.contains 2 then ⟨canonNaN, pinf, pinf, 0⟩
  else if kinds.contains 1 then ⟨pinf, pinf, pinf, 0⟩
  else if kinds.contains 2 then ⟨f32Round (.inf true), pinf, pinf, 0⟩
  else if d.all (fun c => c % 2 ^ 31 = 0) then ⟨0, 0, 0, 0⟩
  else
    let e : Int := if compat then 0 else
      (d.filter fun c => c % 2 ^ 31 ≠ 0).foldl (fun a c => max a (f32Exp c)) (-149)
    let q := d.map fun c => f32Round (((f32Val c).scale (-e)).mul ((f32Val c).scale (-e)))
    let t := d.map fun c => f32Round ((f32Val c).scale (-e))
    let mss := f32DivNat (rowSum compat q) d.length
    let mes := f32DivNat (rowSum compat t) d.length
    ⟨f32Round ((f32Val mes).scale e), f32Round ((f32Val mss).scale (2 * e)), mss, e⟩

/-- The outputs of APPLY for one row before the gain (R229, R228; R250). -/
def normApply (compat : Bool) (d : List Nat) (eps : Nat) : List Nat :=
  let s := normStat compat d
  let kinds := d.map f32Kind
  if kinds.contains 3 then d.map fun _ => canonNaN
  else if kinds.contains 1 || kinds.contains 2 then
    d.map fun c => if f32Kind c = 0 then f32Round (.fin (decide (2 ^ 31 ≤ c)) 0 0) else canonNaN
  else if d.all (fun c => c % 2 ^ 31 = 0) then
    d.map fun c => if eps = 0 then canonNaN else f32Round (.fin (decide (2 ^ 31 ≤ c)) 0 0)
  else
    let eps' := f32Round ((f32Val eps).scale (-(2 * s.exp)))
    let r := sfuEval compat 5 (f32Add s.msScaled eps')
    d.map fun c => f32Round (((f32Val c).scale (-s.exp)).mul (f32Val r))

end Sys2Proof.Machine
end

