-- ==== Sys2Proof/Machine/Split.lean ====
section
/-! DEFINITION. The split rule (R239 to R241, R246): how a matrix operation is cut along K into pieces, where each piece runs,
and how the partial sums of an output element are combined. -/

namespace Sys2Proof.Machine

/-- G: blocks of 128 output channels. -/
def splitBlocks (n : Nat) : Nat := (n + 127) / 128

/-- n: chunks of K_c reduction elements. -/
def splitChunks (k kc : Nat) : Nat := (k + kc - 1) / kc

/-- The K-split factor f for split count S (R239). -/
def splitFactor (s g n : Nat) : Nat := if s ≤ g then 1 else min (min (s / g) n) 8

/-- Piece `p` of `n` chunks cut into `f`: its first chunk and how many; the first n mod f pieces have one more. -/
def pieceOf (n f p : Nat) : Nat × Nat := (p * (n / f) + min p (n % f), n / f + if p < n % f then 1 else 0)

/-- The tile, by logical index, of piece `p` of block `g`: with the K dimension split every piece has a tile of its own;
otherwise the blocks go round the S tiles (R246). -/
def pieceTile (s f g p : Nat) : Nat := if f ≤ 1 then g % s else g * f + p

/-- The plan of operation number `i` with `n` output channels, `k` reduction elements and K-chunk `kc` under split count `s`. -/
def opPlan (s i n k kc : Nat) : List Piece :=
  let g := splitBlocks n
  let c := splitChunks k kc
  let f := max 1 (splitFactor s g c)
  (List.range g).flatMap fun b => (List.range f).map fun p =>
    ⟨i, b, p, pieceTile s f b p, (pieceOf c f p).1, (pieceOf c f p).2⟩

/-- The plan of a list of operations (N, K, K_c). -/
def splitPlan (s : Nat) (ops : List (Nat × Nat × Nat)) : List Piece :=
  ops.zipIdx.flatMap fun e => opPlan s e.2 e.1.1 e.1.2.1 e.1.2.2

/-- The FP32 partial sums of an output element combined: the pairwise tree of R222, pieces in ascending order, each addition
a VEC ADD (R240). -/
def combinePieces (partials : List Nat) : Nat := pairSum partials

end Sys2Proof.Machine
end

