-- ==== Sys2Proof/Machine/Job.lean ====
section
/-! DEFINITION. Jobs before they run: descriptors and their checks (R294 to R296, R300, R245 to R247, R257), admission
(R307), engine time (R304 to R306), and how a job ends (R298 to R303). -/

namespace Sys2Proof.Machine

/-! Engine time -/

/-- The mesh ACLK in MHz: 2.0 GHz while Stream mode runs (R616, R617). -/
def State.aclkMHz (s : State) : Nat :=
  if s.rd R.POWER_STATUS_MODE = 1 && s.rd R.POWER_STATUS_STREAM_HELD = 0 then 2000 else 2400

/-- Mesh ACLK cycles up to now (R304). -/
def State.aclk (s : State) : Nat := s.sched.aclkCyc + (s.now - s.sched.aclkNs) * s.aclkMHz / 1000

/-- The clock of an inference tile in MHz (R618). -/
def State.tileMHz (s : State) (site : Nat) : Nat := 2400 - 200 * s.rd (R.POWER_SECTOR_CLK_STEP (site / 17))

/-- The mesh cycles that the ramp-down of a job's end still takes on its slowest tile (R133, R306). -/
def State.rampAclk (s : State) (tiles : List Nat) : Nat :=
  (tiles.map fun k => s.rd (R.TILE_ARRAY_STATUS_LEVEL k) * 16 * s.aclkMHz / s.tileMHz k).foldl max 0

/-- The state before a change of the mesh clock: cycles so far are kept. -/
def State.aclkMark (s : State) : State :=
  { s with sched := { s.sched with aclkCyc := s.aclk, aclkNs := s.now } }

/-- A tile counts toward the supply of R305: enabled, not claimed, not in the radio reserve. -/
def State.supplies (s : State) (site : Nat) : Bool :=
  s.tileOn site && s.rd (R.SCHED_TILE_STATE site) != 6 && !(0x40 ≤ s.rd (R.SCHED_TILE_HOLDER site)
    && s.rd (R.SCHED_TILE_HOLDER site) ≤ 0x4F)

/-- The period's supply formed up to now, before the set of supplying tiles changes (R305). -/
def State.supplyMark (s : State) : State :=
  let n := (allSites.filter s.supplies).length
  let c := s.aclk
  { s with sched := { s.sched with supply := s.sched.supply + n * (c - s.sched.supplyCyc), supplyCyc := c } }

/-- The balance of a share group. -/
def State.balance (s : State) (g : Nat) : Int := signedOf 64 (s.rd (R.SCHED_SG_BAL_BALANCE g))

/-- The state with a balance changed. -/
def State.addBalance (s : State) (g : Nat) (d : Int) : State :=
  s.wr (R.SCHED_SG_BAL_BALANCE g) (toField 64 (s.balance g + d))

/-- The share group of a job queue (R327). -/
def State.groupOf (s : State) (x q : Nat) : Nat :=
  s.rd { R.SCHED_QMAP_GROUP0 x (q / 4) with lo := 8 * (q % 4) }

/-! The list of jobs -/

/-- The job numbered `id`. -/
def State.job (s : State) (id : Nat) : Option JobRec := s.sched.jobs.find? fun j => j.id == id

/-- The state with the list of jobs replaced; RT_ACTIVE follows (R316). -/
def State.setJobs (s : State) (l : List JobRec) : State :=
  { s with sched := { s.sched with jobs := l } }.wr R.SCHED_STATUS_RT_ACTIVE
    (l.filter fun (j : JobRec) => bankNum j.desc 0 1 % 2 == 1 && j.count != 0).length

/-- The state with one job replaced. -/
def State.putJob (s : State) (j : JobRec) : State := s.setJobs (s.sched.jobs.map fun k => if k.id == j.id then j else k)

/-- The state with one job at the end of the list: ended jobs stand in end order. -/
def State.lastJob (s : State) (j : JobRec) : State := s.setJobs ((s.sched.jobs.filter fun k => k.id != j.id) ++ [j])

/-- The state without a job. -/
def State.dropJob (s : State) (id : Nat) : State := s.setJobs (s.sched.jobs.filter fun k => k.id != id)

/-- A job occupies tiles. -/
def JobRec.live (j : JobRec) : Bool := j.phase == .placed || j.phase == .running || j.phase == .fallbackDue

/-- A live job holds the tile (R293). -/
def State.jobOn (s : State) (site : Nat) : Bool := s.sched.jobs.any fun j => j.live && j.tiles.contains site

/-- SLICE_TILES of a slice (R558). -/
def State.showTiles (s : State) (x : Nat) : State :=
  let run := ((s.sched.jobs.filter fun j => j.slice == x && j.live).map fun j => j.tiles.length).sum
  if 64 ≤ x then s else s.wrs [(R.SLICE_TILES_PLANNED x, (s.tilesOn.filter fun t => s.planHolder t == x).length), (R.SLICE_TILES_RUNNING x, run)]

/-! Descriptor fields (R294) -/

/-- REALTIME. -/
def JobRec.realtime (j : JobRec) : Bool := bankNum j.desc 0 4 % 2 == 1
/-- TOTAL_US in ns. -/
def JobRec.total (j : JobRec) : Nat := bankNum j.desc 0x1C 4 * 1000
/-- DEADLINE. -/
def JobRec.deadline (j : JobRec) : Nat := bankNum j.desc 0x20 8
/-- MARGIN_US in ns. -/
def JobRec.margin (j : JobRec) : Nat := bankNum j.desc 0x28 4 * 1000
/-- FALLBACK_KIND. -/
def JobRec.fbKind (j : JobRec) : Nat := bankNum j.desc 0x2C 1
/-- Checkpoint `i`. -/
def JobRec.checkpoint (j : JobRec) (i : Nat) : Nat := bankNum j.desc (0x40 + 8 * i) 8
/-- The tiles its charge counts: a fall-back's own (R306, R317). -/
def JobRec.width (j : JobRec) : Nat := if j.fallback && j.fbKind == 1 then j.fbTable.length / 64 else j.tiles.length
/-- A REALTIME primary whose fall-back is the classical radio path (R318). -/
def JobRec.neural (j : JobRec) : Bool := j.realtime && j.fbKind == 2 && !j.fallback
/-- Compatibility mode (R245, R248). -/
def JobRec.compat (j : JobRec) : Bool := j.mode % 4 == 1
/-- A launch job (R254). -/
def JobRec.launchEn (j : JobRec) : Bool := j.mode / 8 % 2 == 1

/-- A 64-bit time field with an unlisted part (R294, R245). -/
def timeBad (w : Nat) : Bool := w / 2 ^ 30 % 4 != 0 || 1_000_000_000 ≤ w % 2 ^ 30

/-- A field of a descriptor breaks R294. Kind 0x02 is Flint's alone. -/
def descBad (d : List Byte) (flint : Bool) : Bool :=
  let n := bankNum d
  let rt := n 0 4 % 2 == 1
  1 < n 0 4 || 128 < n 4 2 || 5000 < n 6 2 || (!rt && (n 0x1C 4 != 0 || n 0x20 8 != 0 || n 0x28 4 != 0))
    || (rt && timeBad (n 0x20 8)) || 2 < n 0x2C 1 || (n 0x2C 1 == 2 && !flint) || (n 0x2C 1 == 0 && n 0x30 8 != 0)
    || n 0x2D 3 != 0 || n 0x38 8 != 0 || n 0x60 32 != 0
    || (List.range 4).any fun i => n (0x40 + 8 * i) 8 / 2 ^ 15 % 2 == 1

/-- The requested job bound in ns (R296). -/
def descBound (d : List Byte) : Nat := (if bankNum d 6 2 = 0 then 5000 else bankNum d 6 2) * 1000

/-- The ns from now to a 64-bit time field, negative once it is past (R419). -/
def State.untilWord (s : State) (w : Nat) : Int :=
  let m := 2 ^ 32 * 1_000_000_000
  let d := ((w / 2 ^ 32 * 1_000_000_000 + w % 2 ^ 30) + m - s.devNs % m) % m
  if d < m / 2 then d else (d : Int) - m

/-- Aligned and mapped for the holder. -/
def State.addrOk (s : State) (h a align n : Nat) : Bool := a % align == 0 && s.hMapped h a n

/-- Ring `i` of a stream table: base, log of its size, tail (R295). -/
def tableRing (t : List Byte) (i : Nat) : Nat × Nat × Nat :=
  (bankNum t (16 * i) 8, bankNum t (16 * i + 8) 1, bankNum t (16 * i + 12) 4)

/-- The rings of a stream table that are used. -/
def usedRings (t : List Byte) (n : Nat) : List Nat := (List.range n).filter fun i => (tableRing t i).1 != 0

/-- DESC_ADDR (R295): a stream table that is misaligned, unmapped or uses no queue, or a ring so. -/
def State.tableLost (s : State) (h a n : Nat) : Bool :=
  !s.addrOk h a 64 (64 * n) ||
  let t := s.hBytes h a (64 * n)
  (usedRings t (4 * n)).isEmpty || (usedRings t (4 * n)).any fun i => !s.addrOk h (tableRing t i).1 64 64

/-- DESC_FIELD of a stream table: the size or the zero bytes of a used ring. -/
def tableBad (t : List Byte) (n : Nat) : Bool :=
  (usedRings t (4 * n)).any fun i =>
    (tableRing t i).2.1 < 4 || 12 < (tableRing t i).2.1 || bankNum t (16 * i + 9) 3 != 0

/-- POLICY_FIELD (R245). -/
def State.policyBad (s : State) (h a : Nat) : Bool :=
  a != 0 && (!s.addrOk h a 64 128 ||
    let n := bankNum (s.hBytes h a 128)
    let mode := n 0 4
    1 < mode % 4 || 64 ≤ mode || (if mode / 4 % 2 = 1 then n 4 2 == 0 || 128 < n 4 2 else n 4 2 != 0)
      || (if mode / 8 % 2 = 1 then timeBad (n 8 8) else n 8 8 != 0) || n 0x10 16 != 0 || n 0x4C 52 != 0)

/-- A tile that R296 lets a job of slice `x` use under the plan in force. -/
def State.mayUse (s : State) (x bound : Nat) (noSwing : Bool) (site : Nat) : Bool :=
  s.tileOn site && s.planHolder site == x &&
    (s.rd (R.SCHED_TILE_SWING site) == 0 || (bound ≤ 200_000 && !noSwing))

/-- The tiles that radio cluster `c` has or is about to have: claimed by it, or in its reserve (R319, R320). -/
def State.tilesFor (s : State) (c : Nat) : List Nat :=
  s.tilesOn.filter fun k => s.rd (R.SCHED_TILE_HOLDER k) == 0x40 + c ||
    s.sched.claims.any fun d => d.site == k && d.cluster == c

/-- The most tiles a job may ask for (R296, R543); a job of Flint's asks for tiles of its cluster. -/
def State.tileLimit (s : State) (x bound : Nat) (noSwing : Bool) : Nat :=
  if 64 ≤ x then (s.tilesFor (x - 64)).length else
  min (s.rd (R.SC_LIMITS_JOB_TILES_MAX x)) (allSites.filter (s.mayUse x bound noSwing)).length

/-- The policy word MODE of a descriptor. -/
def State.policyMode (s : State) (h : Nat) (d : List Byte) : Nat :=
  let a := bankNum d 0x10 8
  if a = 0 then 0 else bankNum (s.hBytes h a 4) 0 4

/-- TILES resolved (R294, R543). -/
def State.tilesAsked (s : State) (x : Nat) (d : List Byte) : Nat :=
  if bankNum d 4 2 = 0 then s.tileLimit x (descBound d) (s.policyMode x d / 32 % 2 == 1) else bankNum d 4 2

/-- The admission checks of one descriptor in the order of R300; 0 where all pass. -/
def State.descCode (s : State) (x : Nat) (d : List Byte) : Nat :=
  let n := bankNum d
  let mode := s.policyMode x d
  let asked := s.tilesAsked x d
  let lim := s.tileLimit x (descBound d) (mode / 32 % 2 == 1)
  let pol := s.hBytes x (n 0x10 8) 128
  let toGo := s.untilWord (bankNum pol 8 8)
  if s.tableLost x (n 8 8) (max asked 1) then 0x81
  else if descBad d (64 ≤ x) || tableBad (s.hBytes x (n 8 8) (64 * asked)) asked then 0x80
  else if s.policyBad x (n 0x10 8) then 0x66
  else if asked = 0 || lim < asked then 0x82
  else if mode / 4 % 2 = 1 && (s.rd R.DEV_INFO_TILES_ENABLED < bankNum pol 4 2 || asked < bankNum pol 4 2) then 0x61
  else if n 0 4 % 2 = 1 && (n 0x2C 1 == 0 || s.untilWord (n 0x20 8) ≤ (n 0x28 4 * 1000 : Nat)
      || (List.range 4).any fun i => n (0x40 + 8 * i) 8 / 2 ^ 14 % 2 == 1 && asked ≤ n (0x40 + 8 * i) 8 % 256) then 0x83
  else if n 0 4 % 2 = 1 && 64 ≤ s.rd R.SCHED_STATUS_RT_ACTIVE then 0x84
  else if mode / 8 % 2 = 1 && toGo < 0 then 0x62
  else if mode / 8 % 2 = 1 && 10_000_000_000 < toGo then 0x63
  else 0

/-- The checks of a kind 0x01 fall-back, after every check of its primary, in the order of R300 (R317): those of R294, R295
and R245, its TILES, and that it is not REALTIME. -/
def State.fallbackCode (s : State) (x : Nat) (d : List Byte) : Nat :=
  let a := bankNum d 0x30 8
  if bankNum d 0 4 % 2 = 0 || bankNum d 0x2C 1 ≠ 1 then 0
  else if !s.addrOk x a 64 128 then 0x81
  else
    let f := s.hBytes x a 128
    let n := s.tilesAsked x f
    let t := bankNum f 8 8
    if s.tableLost x t (max n 1) then 0x81
    else if s.tilesAsked x d < n || bankNum f 0 4 % 2 = 1 || descBad f (64 ≤ x) || tableBad (s.hBytes x t (64 * n)) n then 0x80
    else if s.policyBad x (bankNum f 0x10 8) then 0x66
    else 0

/-- The device is in STOPPING, STOPPED or FAILED (ADMIT_STATE). -/
def State.stopping (s : State) : Bool :=
  s.rd R.DEV_STATUS_PHASE == 5 || s.rd R.DEV_STATUS_PHASE == 6 || s.rd R.DEV_STATUS_PHASE == 15

/-- The code a job is refused with, 0 if it is not (R300). -/
def State.admitCode (s : State) (x : Nat) (d : List Byte) : Nat :=
  if s.stopping then 0x85 else if s.descCode x d ≠ 0 then s.descCode x d else s.fallbackCode x d

/-! Host attachment (R584) -/

/-- The queue is attached to the host session. -/
def State.attachedQ (s : State) (x q : Nat) : Bool :=
  s.host.attached.any fun a => a.slice == x && a.qmask / 2 ^ q % 2 == 1

/-- The HGEN a job of the queue carries: 0 if it is no host job. -/
def State.hostGen (s : State) (x q : Nat) : Nat :=
  if s.attachedQ x q then s.rd R.HB_SESSION_STATUS_HGEN else 0

/-! Ends (R298, R299, R303) -/

/-- A count of a job's queue rises: 0 submitted, 1 admitted, 2 completed, 3 failed; Flint's in the owner window. -/
def State.jobCount (s : State) (x q k : Nat) : State :=
  if 64 ≤ x then s.bump (R.SCHED_RADIO_CNT_COUNT k) 1
  else
    match k with
    | 0 => s.bump (R.JQ_CNT_SUBMITTED_COUNT x q) 1
    | 1 => s.bump (R.JQ_CNT_ADMITTED_COUNT x q) 1
    | 2 => s.bump (R.JQ_CNT_COMPLETED_COUNT x q) 1
    | _ => s.bump (R.JQ_CNT_FAILED_COUNT x q) 1

/-- The entries of a model's step that a running step of the slice holds (R309). -/
def State.seqHeld (s : State) (x i : Nat) : Bool :=
  s.sched.jobs.any fun j => j.slice == x && j.model != 0 && j.phase != .ended && j.entries.any fun e => e.1 == i

/-- The entries marked DONE that no step holds become FREE (R309). -/
def State.freeDone (s : State) (x : Nat) : State :=
  s.each (List.range (s.rd (R.SC_SEQ_SEQ_SHARE x))) fun t i =>
    if t.rd (R.SEQ_STATE_STATE x i) = 3 && !t.seqHeld x i then t.wr (R.SEQ_STATE_STATE x i) 0 else t

/-- A step's end (R313): with OK every entry advances, and a PREFILL entry that reaches its prompt's end decodes;
otherwise ENABLE is cleared. -/
def State.stepEnd (s : State) (j : JobRec) (status : Nat) : State :=
  if j.model = 0 then s
  else
    let x := j.slice
    let m := j.model - 1
    let t := (s.wr (R.MODEL_STATUS_LAST x m) status).bump (R.MODEL_STATUS_STEPS x m) 1
    let t := if status ≠ 0 then t.wr (R.MODEL_CTRL_ENABLE x m) 0 else
      t.each j.entries fun t e =>
        let u := t.bump (R.SEQ_POS_POS x e.1) e.2
        if u.rd (R.SEQ_STATE_STATE x e.1) = 1 && u.rd (R.SEQ_PROMPT_LEN_PROMPT_LEN x e.1) ≤ u.rd (R.SEQ_POS_POS x e.1)
        then u.wr (R.SEQ_STATE_STATE x e.1) 2 else u
    t.freeDone x

/-- The references a job holds on the JOB tables are given back (R60). -/
def State.leaveTables (s : State) (j : JobRec) : State := s.each j.banks fun t b => t.leaveBank b.1 b.2 1

/-- A job of slice `x` that held tiles has ended: the slice is at a job boundary (R282). -/
def State.markEnd (s : State) (j : JobRec) : State :=
  s.iff (j.slice < 64 && j.count != 0) fun t => t.setSlice j.slice { t.slice j.slice with ended := t.now + 1 }

/-- A job ends with a status: counts, then its record waits for the completion writer (R298, R303). -/
def State.endJob (s : State) (j : JobRec) (status : Nat) : State :=
  let t := (s.lastJob { j with phase := .ended, status := some status }).markEnd j
  let t := t.leaveTables j
  let t := t.jobCount j.slice j.queue (if status = 0 || status = 5 then 2 else 3)
  let t := t.stepEnd j status
  t.each j.tiles fun t k => t.wr (R.SCHED_TILE_LAUNCH_PLANNED k) 0

/-- The record of an ended job (R299). -/
def JobRec.record (j : JobRec) (phase : Nat) : List Byte :=
  let st := j.status.getD 0
  toBytes 4 (bankNum j.desc 0x18 4) ++ toBytes 1 st ++ toBytes 1 (if st = 1 then j.code else 0) ++
  toBytes 1 j.failTile ++ toBytes 1 j.failQueue ++ toBytes 4 j.failIndex ++
  toBytes 4 ((if j.fallback then 1 else 0) + (if j.launched then 2 else 0) + phase * 2 ^ 31) ++
  toBytes 8 j.startWord ++ toBytes 8 j.charge

/-! Admission (R307) -/

/-- A new job from a descriptor. -/
def State.newJob (s : State) (x q index model : Nat) (entries : List (Nat × Nat)) (d : List Byte) : JobRec where
  id := s.sched.nextId
  slice := x
  queue := q
  gen := if x < 64 then s.gen x else 0
  index := index
  phase := .waiting
  desc := d
  table := []
  fbDesc := []
  fbTable := []
  mode := 0
  split := 0
  slack := 0
  launch := 0
  policy := 0
  count := 0
  tiles := []
  bound := 0
  group := 0
  reserved := 0
  charge := 0
  startNs := 0
  startCyc := 0
  startWord := 0
  launched := false
  closed := false
  checks := []
  status := none
  code := 0
  failTile := 0
  failQueue := 0
  failIndex := 0
  fallback := false
  model := model
  entries := entries
  hgen := if x < 64 then s.hostGen x q else 0
  banks := []
  fbMode := 0
  air := none
  ops := []
  plan := []

/-- A job joins the end of the list, submitted. -/
def State.submit (s : State) (x q index model : Nat) (entries : List (Nat × Nat)) (d : List Byte) : State :=
  let j := s.newJob x q index model entries d
  ({ s with sched := { s.sched with nextId := j.id + 1 } }.setJobs (s.sched.jobs ++ [j])).jobCount x q 0

/-- Records the ring holds. -/
def State.cqUsed (s : State) (x q : Nat) : Nat :=
  toField 32 ((s.rd (R.CQ_TAIL_TAIL x q) : Int) - s.rd (R.CQ_HEAD_HEAD x q))

/-- The completion ring has an entry beyond the records that already wait for it, so that a refusal leaves no more held
records than R302 allows. -/
def State.cqRoom (s : State) (x q : Nat) : Bool :=
  s.cqUsed x q + (s.sched.jobs.filter fun j => j.slice == x && j.queue == q && j.phase == .ended).length
    < 2 ^ s.rd (R.CQ_SIZE_SIZE_LOG2 x q)

/-- Queue `q` of slice `x` may be served: slice OPEN, ACTIVE, its ring not full, not held by a LOST host session. -/
def State.serves (s : State) (x q : Nat) : Bool :=
  s.sliceOpen x && s.rd (R.JQ_STATUS_STATE x q) == 1 && s.cqRoom x q && !(s.attachedQ x q && s.rd R.HB_SESSION_STATUS_STATE == 2)

/-- A job of the queue is fetched and waits. -/
def State.hasHead (s : State) (x q : Nat) : Bool :=
  s.sched.jobs.any fun j => j.slice == x && j.queue == q && j.phase == .waiting

/-- Address of the descriptor at HEAD. -/
def State.headAddr (s : State) (x q : Nat) : Nat :=
  s.rd (R.JQ_BASE_ADDR x q) * 128 + 128 * (s.rd (R.JQ_HEAD_HEAD x q) % 2 ^ s.rd (R.JQ_SIZE_SIZE_LOG2 x q))

/-- Fetches descriptors of a queue until one is not refused, at most `n`: one that cannot be read sets FAULT (R302). -/
def State.fetchHead (s : State) (x q : Nat) : Nat → State
  | 0 => s
  | n + 1 =>
    if !s.serves x q || q == 31 || s.hasHead x q || s.rd (R.JQ_HEAD_HEAD x q) == s.rd (R.JQ_TAIL_TAIL x q) then s
    else if !s.mapped x (s.headAddr x q) 128 || (s.firstBad x (s.headAddr x q) 128).isSome then
      s.wr (R.JQ_STATUS_STATE x q) 3
    else
      let d := s.vbytes x (s.headAddr x q) 128
      let i := s.rd (R.JQ_HEAD_HEAD x q)
      let t := (s.submit x q i 0 [] d).bump (R.JQ_HEAD_HEAD x q) 1
      match t.admitCode x d with
      | 0 => t
      | c =>
        match t.sched.jobs.getLast? with
        | some j => (t.endJob j c).fetchHead x q n
        | none => t

/-- The next job of a queue. -/
def State.fetchNext (s : State) (x q : Nat) : State :=
  s.fetchHead x q (toField 32 ((s.rd (R.JQ_TAIL_TAIL x q) : Int) - s.rd (R.JQ_HEAD_HEAD x q)))

/-- Heads of every queue. -/
def State.fetchHeads (s : State) : State :=
  s.each allSlices fun t x => if !t.sliceOpen x then t else t.each (List.range 31) fun t q => t.fetchNext x q

/-- A tile that could take a job now: held by its plan holder, idle, in an open sector (R307, R620). -/
def State.tileFree (s : State) (x site : Nat) : Bool :=
  s.rd (R.SCHED_TILE_HOLDER site) == x && s.rd (R.SCHED_TILE_STATE site) == 1 && (s.tile site).job.isNone
    && !s.sched.scrubDue.contains site && !s.pow.closed.contains (site / 17)
    && s.rd (R.POWER_SECTOR_HALTED (site / 17)) == 0

/-- The instant at which a tile's running job is bound to end; a tile that is not with its holder frees last. -/
def State.freeAt (s : State) (x site : Nat) : Nat :=
  if s.tileFree x site then 0
  else
    match s.sched.jobs.find? fun j => j.live && j.tiles.contains site with
    | some j => (if j.startNs = 0 then s.now else j.startNs) + j.bound
    | none => 2 ^ 64

/-- The tiles a blocked head reserves and the instant it waits for (R307, step 3). -/
def State.reservation (s : State) (j : JobRec) : List Nat × Nat :=
  let noSwing := s.policyMode j.slice j.desc / 32 % 2 == 1
  let can := allSites.filter (s.mayUse j.slice (descBound j.desc) noSwing)
  let l := can.mergeSort fun a b => s.freeAt j.slice a < s.freeAt j.slice b ||
    (s.freeAt j.slice a == s.freeAt j.slice b && a ≤ b)
  let take := l.take (s.tilesAsked j.slice j.desc)
  (take, (take.map (s.freeAt j.slice)).foldl max 0)

/-- A tile planned for a held launch that is closed to a job ending after the launch less 2 µs, from 5.05 ms before it on
(R255). -/
def State.closedFor (s : State) (bound site : Nat) : Bool :=
  s.sched.jobs.any fun j => j.phase == .held && (j.closed || s.untilWord j.launch ≤ 5_050_000) && j.tiles.contains site
    && s.untilWord j.launch < (bound + 2000 : Nat)

/-- The tiles a waiting job would take, if enough are free: the lowest sites (log entry 31). A launch job plans
tiles that other jobs may still hold (R255). -/
def State.placeJob (s : State) (j : JobRec) (blocks : List (Nat × List Nat × Nat)) : Option (List Nat) :=
  let mode := s.policyMode j.slice j.desc
  let bound := descBound j.desc
  let can := allSites.filter fun k => s.mayUse j.slice bound (mode / 32 % 2 == 1) k && !s.closedFor bound k
    && !blocks.any fun b => b.1 == j.slice && b.2.1.contains k && b.2.2 ≤ s.now + bound
  let ok := if mode / 8 % 2 = 1 then can.filter fun k => s.rd (R.SCHED_TILE_LAUNCH_PLANNED k) == 0
    else can.filter (s.tileFree j.slice)
  let n := s.tilesAsked j.slice j.desc
  if n ≤ ok.length then some (ok.take n) else none

/-- The 192 bytes of R243, from which RUN_ID is formed. -/
def State.runString (s : State) (mode split : Nat) : List Byte :=
  let fixed := mode / 4 % 2 == 1
  let sites := toBytes 17 ((s.tilesOn.map fun k => 2 ^ k).sum)
  let dis := (List.range 8).map fun n => match s.dev.map.vaults.find? fun v => v / 19 == n with
    | some v => BitVec.ofNat 8 (v % 19) | none => 0xFF
  let rem := (List.range 8).map fun n => match s.dev.map.remaps.find? fun r => r.1 / 17 == n with
    | some r => BitVec.ofNat 8 (r.1 % 17) | none => 0xFF
  let zero := List.replicate 33 (0 : Byte)
  toBytes 1 1 ++ toBytes 1 (mode % 4) ++ toBytes 1 (if fixed then 1 else 0) ++
  toBytes 1 (if fixed then 0xFF else s.rd R.DEV_INFO_GRADE) ++ toBytes 2 split ++ toBytes 2 0 ++
  (if fixed then zero else sites ++ dis ++ rem) ++ toBytes 23 0 ++
  (List.range 16).flatMap (fun i => toBytes 4 (s.rd (R.STRATA_DIGEST_DIGEST i))) ++
  (List.range 16).flatMap fun i => toBytes 4 (s.rd (R.FW_SET_DIGEST_DIGEST i))

/-- Bytes written to slice memory by the device. -/
def State.put (s : State) (h a : Nat) (l : List Byte) : State :=
  s.hStore h a l

/-- What Jasper writes into the policy record before the first command (R243 to R245). -/
def State.writePolicy (s : State) (x a mode split held : Nat) : State :=
  if a = 0 then s
  else
    let id := toBytes 32 ((Config.sha3 (s.runString mode split)).toNat)
    let flags := (if s.rd R.DEV_STATUS_UNTESTED_PAIRING = 0 then 1 else 0) + (if mode % 4 = 1 then 2 else 0)
    s.put x (a + 0x20) (id ++ toBytes 4 flags ++ toBytes 2 split ++ toBytes 2 held ++ toBytes 4 0)

/-- A job is admitted onto tiles (R245, R254, R306): what it runs from is read, its split planned under its S (R239, R241,
R246), its group debited, the JOB tables referred to; a launch job is held, its tiles planned. A job of Flint's has no share group (R304). -/
def State.admitJob (s : State) (j : JobRec) (tiles : List Nat) : State :=
  let x := j.slice
  let n := bankNum j.desc
  let a := n 0x10 8
  let mode := s.policyMode x j.desc
  let pol := if a = 0 then [] else s.hBytes x a 128
  let bound := descBound j.desc
  let fb := if j.realtime && j.fbKind = 1 then s.hBytes x (n 0x30 8) 128 else []
  let group := if j.slice < 64 then s.groupOf x j.queue else 0
  let reserve := if j.slice < 64 then tiles.length * (bound * s.aclkMHz / 1000) else 0
  let split := if mode / 4 % 2 = 1 then bankNum pol 4 2 else tiles.length
  let launch := mode / 8 % 2 == 1
  let k : JobRec := { j with
    phase := if launch then .held else .placed, table := s.hBytes x (n 8 8) (64 * tiles.length),
    fbDesc := fb, fbTable := if fb.isEmpty then [] else s.hBytes x (bankNum fb 8 8) (64 * s.tilesAsked x fb),
    mode := mode, split := split, slack := bankNum pol 6 2 * 1000, launch := bankNum pol 8 8, policy := a,
    count := tiles.length, tiles := tiles, bound := bound, group := group, reserved := reserve,
    fbMode := if fb.isEmpty then 0 else s.policyMode x fb, plan := splitPlan split j.ops,
    banks := [4, 5, 6].map fun i => (i, (s.table i).active1) }
  let t := (s.putJob k).addBalance group (-(reserve : Int))
  let t := t.each k.banks fun t b => t.holdBank b.1 b.2 1
  let t := (t.jobCount x j.queue 1).writePolicy x a mode split tiles.length
  let t := t.each tiles fun t i =>
    if launch then t.flag (R.SCHED_TILE_LAUNCH_PLANNED i) else if 64 ≤ x then t else t.wr (R.SCHED_TILE_STATE i) 2
  if 64 ≤ x then t else { t with sched := { t.sched with turns := tblSet 0 t.sched.turns group (x * 32 + j.queue + 1) } }.showTiles x

/-- Group `a` comes before group `b` (R307, step 2): positive balance first, then the larger BAL ÷ weight, a group of
weight 0 last, then the lower number. -/
def State.groupBefore (s : State) (a b : Nat) : Bool :=
  let w := fun g => s.rd (R.SCHED_SG_WEIGHT_WEIGHT g)
  let pos := fun g => decide (0 < s.balance g)
  if w a = 0 || w b = 0 then (w a != 0 && w b == 0) || ((w a == 0) == (w b == 0) && a < b)
  else if pos a != pos b then pos a
  else
    let l := s.balance a * w b
    let r := s.balance b * w a
    decide (r < l) || (decide (l = r) && a < b)

/-- Job `j` comes before job `k`: by group, then round robin among the group's queues. -/
def State.jobBefore (s : State) (j k : JobRec) : Bool :=
  let g := s.groupOf j.slice j.queue
  let h := s.groupOf k.slice k.queue
  if g != h then s.groupBefore g h
  else
    let last := tblGet 0 s.sched.turns g
    let turn := fun (j : JobRec) => (j.slice * 32 + j.queue + 2048 - last) % 2048
    turn j < turn k

/-- The heads that can be chosen: the first waiting job of each queue that is served and not in `shut`, so that no job
overtakes the one before it (R307). -/
def State.heads (s : State) (shut : List (Nat × Nat)) : List JobRec :=
  (s.sched.jobs.filter fun j => j.phase == .waiting && j.slice < 64).foldr (fun j l =>
    if shut.contains (j.slice, j.queue) || !s.serves j.slice j.queue then l
    else j :: l.filter fun k => k.slice != j.slice || k.queue != j.queue) []

/-- Places heads in order: the best head is placed and its queue's next job fetched; one that cannot be placed shuts its
queue for this decision and is its slice's blocked head (R307). -/
def State.placeAll (s : State) (shut : List (Nat × Nat)) (blocks : List (Nat × List Nat × Nat)) : Nat → State
  | 0 => s
  | n + 1 =>
    match s.heads shut with
    | [] => s
    | a :: l =>
      let j := l.foldl (fun b c => if s.jobBefore c b then c else b) a
      match s.admitCode j.slice j.desc with
      | 0 =>
        match s.placeJob j blocks with
        | some tiles => ((s.admitJob j tiles).fetchNext j.slice j.queue).placeAll shut blocks n
        | none =>
          let r := s.reservation j
          s.placeAll ((j.slice, j.queue) :: shut)
            (if blocks.any fun b => b.1 == j.slice then blocks else (j.slice, r.1, r.2) :: blocks) n
      | c => ((s.endJob j c).fetchNext j.slice j.queue).placeAll shut blocks n

/-- Flint's waiting jobs take the lowest tiles of their cluster that no other job of Flint's holds; a tile whose claim is
not complete yet is waited for at the start (R321, R322, log entry 31). -/
def State.placeRadio (s : State) : State :=
  s.each (s.sched.jobs.filter fun j => j.phase == .waiting && 64 ≤ j.slice) fun t j =>
    match t.admitCode j.slice j.desc with
    | 0 =>
      let free := (t.tilesFor (j.slice - 64)).filter fun k =>
        !t.sched.jobs.any fun i => 64 ≤ i.slice && (i.live || i.phase == .held) && i.tiles.contains k
      let n := t.tilesAsked j.slice j.desc
      if n ≤ free.length then t.admitJob j (free.take n) else t
    | c => t.endJob j c

/-- Admission runs: open, not stopped by the owner, no Jasper restart (R307, R326, R327). While the device stops, heads
are refused with ADMIT_STATE. -/
def State.admits (s : State) : Bool :=
  (s.rd R.SCHED_STATUS_ADMIT_OPEN == 1 || s.stopping) && s.rd R.SCHED_CTRL_ADMIT_EN == 1
    && !s.jasperDown

/-- ADMISSION_DECISION (R307): heads are fetched and placed until none of the rest can be; enough rounds for every tile of
the device to be placed once and every queue to be shut. Flint's jobs need no Jasper (R320). -/
def State.decision (s : State) : State :=
  let t := s.placeRadio
  if t.admits then t.fetchHeads.placeAll [] [] 4096 else t

end Sys2Proof.Machine
end

