-- ==== Sys2Proof/Machine/Air.lean ====
section
/-! DEFINITION. The air timeline (R335, R336), slot tables (R337 to R345), the PHY API (R349 to R352), fronthaul
reception (R347, R348), radio units (R353), beam weights (R354), noise floor and tracking (R390 to R405). -/

namespace Sys2Proof.Machine

/-! Carriers and grids -/

/-- Entry of carrier `k` in table 0x07 (R331). -/
def State.carrierEntry (s : State) (k : Nat) : Nat := bankNum (s.activeBank 7) (4 * k) 4

/-- VALID. -/
def State.carrierValid (s : State) (k : Nat) : Bool := s.carrierEntry k % 2 == 1

/-- CLUSTER of a carrier. -/
def State.carrierCluster (s : State) (k : Nat) : Nat := s.carrierEntry k / 2 % 16

/-- LOCAL of a carrier. -/
def State.carrierLocal (s : State) (k : Nat) : Nat := s.carrierEntry k / 32 % 16

/-- CLASS of a carrier. -/
def State.carrierClass (s : State) (k : Nat) : Nat := s.carrierEntry k / 512 % 16

/-- MU of a carrier. -/
def State.carrierMu (s : State) (k : Nat) : Nat := s.carrierEntry k / 8192 % 4

/-- The carrier indices. -/
def allCarriers : List Nat := List.range 256

/-- The VALID carrier with a local index on a cluster. -/
def State.carrierAt (s : State) (c l : Nat) : Option Nat :=
  allCarriers.find? fun k => s.carrierValid k && s.carrierCluster k == c && s.carrierLocal k == l

/-- The VALID carrier with a local index on a cluster in one bank of table 0x07: what a fired table looks up (R60). -/
def State.carrierIn (s : State) (one : Bool) (c l : Nat) : Option Nat :=
  allCarriers.find? fun k =>
    let e := bankNum ((s.table 7).bank one) (4 * k) 4
    e % 2 == 1 && e / 2 % 16 == c && e / 32 % 16 == l

/-- The VALID carriers of a cluster. -/
def State.carriersOf (s : State) (c : Nat) : List Nat :=
  allCarriers.filter fun k => s.carrierValid k && s.carrierCluster k == c

/-- Load units of a class (R329). -/
def classLu (c : Nat) : Nat := [1, 3, 2, 6, 4, 12, 16, 3, 6, 12].getD c 0

/-- Downlink streams of a class. -/
def classDl (c : Nat) : Nat := [4, 4, 8, 8, 16, 16, 16, 4, 4, 4].getD c 0

/-- Uplink streams of a class. -/
def classUl (c : Nat) : Nat := [4, 4, 8, 8, 16, 16, 8, 4, 4, 4].getD c 0

/-- The bandwidths of a class in MHz, and those that its µ allows (R329). -/
def classBand (c mu mhz : Nat) : Bool :=
  (match c with
    | 0 | 2 | 4 => decide (5 ≤ mhz ∧ mhz ≤ 40)
    | 1 | 3 | 5 => decide (45 ≤ mhz ∧ mhz ≤ 100)
    | 6 => decide (40 ≤ mhz ∧ mhz ≤ 100)
    | 7 => mhz == 50 || mhz == 100
    | 8 => mhz == 200
    | 9 => mhz == 400
    | _ => false) && (mu != 0 || mhz ≤ 50)

/-- A class allowed at a µ code (R329): 0 µ = 0, 1 µ = 1, 2 µ = 3. -/
def classMu (c mu : Nat) : Bool :=
  if c ≤ 5 then mu == 0 || mu == 1 else if c = 6 then mu == 1 else c ≤ 9 && mu == 2

/-- 2^µ of a µ code. -/
def muScale (mu : Nat) : Nat := if mu = 0 then 1 else if mu = 1 then 2 else 8

/-- Slots of a frame (R333). -/
def slotsPerFrame (mu : Nat) : Nat := 10 * muScale mu

/-- The length of a slot in ns. -/
def slotNs (mu : Nat) : Nat := 1_000_000 / muScale mu

/-- The µ code of a cluster; 3 where it has no carriers (R359). -/
def State.clusterMu (s : State) (c : Nat) : Nat := s.rd (R.AIR_CL_STATUS_MU c)

/-- The slot on air on the grid of a µ code, counted from the GPS epoch. -/
def State.slotNow (s : State) (mu : Nat) : Nat := s.gpsNs / slotNs mu

/-- The start of symbol number `a` of a grid in units of 1/30720 ns (R335): TS 38.211 clause 5.3.1 gives a symbol
2,192 × 64 ÷ 2^µ Tc, and 1,024 Tc more to symbols 0 and 7 × 2^µ of each ms of 1,966,080 Tc. -/
def symbolStart (mu a : Nat) : Nat :=
  let e := muScale mu
  let l := a % (14 * e)
  let tc := a / (14 * e) * 1_966_080 + l * (140_288 / e) + (if 0 < l then 1024 else 0) + (if 7 * e < l then 1024 else 0)
  tc * 15_625

/-- The present instant in units of 1/30720 ns. -/
def State.airUnits (s : State) : Nat := s.gpsNs * 30_720

/-- SLOT_ID of a slot (R339). -/
def slotId (mu n : Nat) : Nat := n / slotsPerFrame mu % 1024 + n % slotsPerFrame mu * 2 ^ 10 + mu * 2 ^ 17

/-- The slot nearest to the present one whose SLOT_ID is given. -/
def State.slotOf (s : State) (mu id : Nat) : Nat :=
  let spf := slotsPerFrame mu
  let period := 1024 * spf
  let want := id % 1024 * spf + id / 1024 % 128 % spf
  let cur := s.slotNow mu
  let d := (want + period - cur % period) % period
  if d < period / 2 then cur + d else (cur + d) - period

/-! Cluster state -/

/-- Unit `u` of a cluster. -/
def State.unit (s : State) (c u : Nat) : UnitState := tblGet .idle (s.cluster c).units u

/-- A unit replaced, with the registers that show it (R389). -/
def State.setUnit (s : State) (c u : Nat) (x : UnitState) : State :=
  let k := s.cluster c
  let t := s.setCluster c { k with units := tblSet .idle k.units u x }
  let busy := bitMask u 1
  let b := BitVec.ofNat 64 (t.rd (R.RADIO_CL_STATUS_BUSY c))
  match x.run with
  | none => t.wrs [(R.RADIO_UNIT_STATUS_STATE c u, 0), (R.RADIO_UNIT_STATUS_QUEUED c u, x.queue.length),
      (R.RADIO_CL_STATUS_BUSY c, (b &&& ~~~busy).toNat)]
  | some r => t.wrs [(R.RADIO_UNIT_STATUS_STATE c u, if r.waits then 2 else 1), (R.RADIO_UNIT_STATUS_QUEUED c u, x.queue.length),
      (R.RADIO_UNIT_STREAM_ADDR c u, r.trig.stream), (R.RADIO_CL_STATUS_BUSY c, (b ||| busy).toNat)]

/-- A slot table of a cluster. -/
def State.slotTable (s : State) (c n : Nat) : Option SlotTable := (s.cluster c).tables.find? fun t => t.slot == n

/-- AHEAD: consecutive tables after the slot on air (R359). -/
def State.showAhead (s : State) (c : Nat) : State :=
  let mu := s.clusterMu c
  let cur := s.slotNow mu
  let has := fun i => (s.slotTable c (cur + 1 + i)).isSome
  s.wr (R.AIR_CL_STATUS_AHEAD c) (((List.range 15).takeWhile has).length)

/-- The tables of a cluster replaced. -/
def State.setTables (s : State) (c : Nat) (l : List SlotTable) : State :=
  (s.setCluster c { s.cluster c with tables := l }).showAhead c

/-- One slot table replaced. -/
def State.putTable (s : State) (c : Nat) (t : SlotTable) : State :=
  s.setTables c ((s.cluster c).tables.map fun u => if u.slot == t.slot then t else u)

/-- A carrier beyond its registers. -/
def State.carrier (s : State) (k : Nat) : CarrierState := tblGet .off s.air.carriers k

/-- The state with a carrier replaced. -/
def State.setCarrier (s : State) (k : Nat) (x : CarrierState) : State :=
  { s with air := { s.air with carriers := tblSet .off s.air.carriers k x } }

/-- AIR_STATUS counts (R358). -/
def State.showAir (s : State) : State :=
  s.wrs [(R.AIR_STATUS_CARRIERS, (allCarriers.filter fun k => s.rd (R.AIR_CARRIER_STATE k) != 0).length),
    (R.AIR_STATUS_RU_READY, ((List.range 64).filter fun r => s.rd (R.AIR_RU_STATE_STATE r) == 3).length)]

/-- AIR_NOW at the present instant (R358). -/
def State.showNow (s : State) : State :=
  let g := s.gpsNs
  let f := g % 10_000_000
  s.wrs [(R.AIR_NOW_SFN, g / 10_000_000 % 1024), (R.AIR_NOW_SUBFRAME, f / 1_000_000), (R.AIR_NOW_SLOT3, f / 125_000),
    (R.AIR_NOW_SLOT1, f / 500_000), (R.AIR_NOW_SLOT0, f / 1_000_000), (R.AIR_NOW_NS, f)]

/-- A carrier becomes OFF: contexts freed, noise values cleared (R394, R404). -/
def State.carrierOff (s : State) (k : Nat) : State :=
  let c := s.carrierCluster k
  let x := s.cluster c
  let t := s.setCluster c { x with ctxs := x.ctxs.filter fun j => j.local_ != s.carrierLocal k }
  let a := t.air
  let t := { t with air := { a with noise := tblClear a.noise (k * 512) (k * 512 + 512) } }
  ((t.setCarrier k .off).wr (R.AIR_CARRIER_STATE k) 0).showAir

/-- The radio stops (R46, R356): every carrier OFF, every table gone; nothing is left to stop. -/
def State.radioStop (s : State) : State :=
  let s := { s with dev := { s.dev with radioStopAt := none } }
  let t := s.each allCarriers fun t k => if t.rd (R.AIR_CARRIER_STATE k) = 0 then t else t.carrierOff k
  let t := t.each (List.range 16) fun t c =>
    let u := t.each ((t.cluster c).tables.filter fun k => k.phase == 2) fun u k => (u.leaveBank 7 k.bank7 1).leaveBank 8 k.bank8 1
    u.setTables c []
  (t.wr R.AIR_STATUS_RUNNING 0).wr R.DEV_STATUS_RADIO_READY 0

/-- The radio stops once the boundary that a stop of the device has set is reached (R46, R626). -/
def State.settleStop (s : State) : State :=
  match s.dev.radioStopAt with
  | some w => if w ≤ s.gpsNs then s.radioStop else s
  | none => s

/-- A stop of the device has stopped the radio: no table is sealed and no carrier started any more. -/
def State.radioHalted (s : State) : Bool :=
  (s.dev.stop == .owner || s.dev.stop == .ordered) && s.dev.radioStopAt.isNone

/-- An event of the air timeline at instant `t`. -/
def State.airTime (s : State) (t : Nat) : State := (s.atTime t).settleStop.showNow

/-- The service core that terminates a carrier's endpoint runs (R331, R352, R561). -/
def State.endpointUp (s : State) (k : Nat) : Bool :=
  s.rd (R.FW_CORE_STATUS_STATE (7 + s.carrierEntry k / 2 ^ 15 % 16)) == 1

/-- A FAPI message of carrier `k`: its message number in 5G FAPI, then what it carries (log entry 60). -/
def State.fapi (s : State) (k msg : Nat) (l : List Nat) : State := s.emit .fapi (k :: msg :: l)

/-! Table 0x08 (R347) -/

/-- Entry `e` of the eAxC map. -/
def State.eaxc (s : State) (e : Nat) : Nat := bankNum (s.activeBank 8) (8 * e) 8

/-- VALID of an entry. -/
def eaxcValid (w : Nat) : Bool := w / 2 ^ 23 % 2 == 1
/-- PORT of an entry. -/
def eaxcPort (w : Nat) : Nat := w / 2 ^ 16 % 32
/-- CARRIER of an entry. -/
def eaxcCarrier (w : Nat) : Nat := w / 2 ^ 24 % 256
/-- COUNTER of an entry. -/
def eaxcCounter (w : Nat) : Nat := w / 2 ^ 37 % 64
/-- RU of an entry. -/
def eaxcRu (w : Nat) : Nat := w / 2 ^ 43 % 64

/-- The entry numbers that the bank in force holds. -/
def State.eaxcRange (s : State) : List Nat := List.range (min 4096 ((s.activeBank 8).length / 8))

/-- What the carrier registers show of tables 0x07 and 0x08 (R359). -/
def State.showCarriers (s : State) : State :=
  let t := s.each allCarriers fun t k =>
    let first := (s.eaxcRange.map s.eaxc).find? fun w => eaxcValid w && eaxcCarrier w == k
    t.wrs [(R.AIR_CARRIER_CLUSTER k, s.carrierCluster k), (R.AIR_CARRIER_LOCAL k, s.carrierLocal k),
      (R.AIR_CARRIER_CLASS k, s.carrierClass k), (R.AIR_CARRIER_RU k, (first.map eaxcRu).getD 0)]
  let t := t.each (List.range 16) fun t c =>
    let l := s.carriersOf c
    t.wrs [(R.AIR_CL_STATUS_MU c, match l with | k :: _ => s.carrierMu k | [] => 3),
      (R.AIR_CL_STATUS_LU_USED c, (l.map fun k => classLu (s.carrierClass k)).sum)]
  t.each (List.range 64) fun t r =>
    let first := (s.eaxcRange.map s.eaxc).find? fun w => eaxcValid w && eaxcRu w == r
    t.wr (R.AIR_RU_STATE_PORT r) ((first.map eaxcPort).getD 0)

/-! Entries of slot tables (R340) -/

/-- `n` bits of an entry from bit `lo`. -/
def entBits (e : BitVec 128) (lo n : Nat) : Nat := e.toNat / 2 ^ lo % 2 ^ n
/-- SYM. -/
def entSym (e : BitVec 128) : Int := signedOf 7 (entBits e 0 7)
/-- COND. -/
def entCond (e : BitVec 128) : Bool := entBits e 7 1 == 1
/-- LOCAL. -/
def entLocal (e : BitVec 128) : Nat := entBits e 22 4
/-- TARGET. -/
def entTarget (e : BitVec 128) : Nat := entBits e 26 4
/-- UNIT. -/
def entUnit (e : BitVec 128) : Nat := entBits e 32 8
/-- STREAM. -/
def entStream (e : BitVec 128) : Nat := entBits e 64 23
/-- ARG. -/
def entArg (e : BitVec 128) : Nat := entBits e 96 32

/-- The trigger of an entry of slot `n` in units of 1/30720 ns. -/
def entTrig (mu n : Nat) (e : BitVec 128) : Nat :=
  symbolStart mu ((14 * n : Nat) + entSym e).toNat + entBits e 8 14 * 8 * 30_720

/-- The entries of a run of bytes. -/
def entriesOf (l : List Byte) : List (BitVec 128) :=
  (List.range (l.length / 16)).map fun i => BitVec.ofNat 128 (bankNum l (16 * i) 16)

/-- The matrix tiles of a cluster in ascending site: its reserve and its completed claims (R319, R320). Logical tile i
is the i-th (log entry 61). -/
def State.clusterTiles (s : State) (c : Nat) : List Nat :=
  s.tilesOn.filter fun t => s.rd (R.SCHED_TILE_HOLDER t) == 0x40 + c ||
    s.sched.claims.any fun k => k.site == t && k.cluster == c && k.done

/-- TARGET and UNIT are listed, and a tile is the cluster's (R340, R341, R360). -/
def State.targetOk (s : State) (c : Nat) (e : BitVec 128) : Bool :=
  match entTarget e with
  | 0 => entUnit e < 8
  | 6 => true
  | 7 => entUnit e < 4 && entUnit e < (s.clusterTiles c).length
  | n => n < 6 && entUnit e == 0

/-- Triggers in non-descending order. -/
def trigsRise (mu n : Nat) : List (BitVec 128) → Bool
  | a :: b :: l => entTrig mu n a ≤ entTrig mu n b && trigsRise mu n (b :: l)
  | _ => true

/-- The code of R341 for entries written to the table of slot `n`: the lowest that applies (log entry 62). -/
def State.entryCode (s : State) (c mu n count : Nat) (l : List (BitVec 128)) (late slot : Bool) : Nat :=
  if !trigsRise mu n l then 1
  else if l.any fun e => decide (entSym e < -28 ∨ 41 < entSym e) then 2
  else if l.any fun e => !s.targetOk c e then 3
  else if 252 < count then 4
  else if late then 5
  else if slot then 6
  else if l.any fun e => (s.carrierAt c (entLocal e)).isNone then 7
  else 0

/-- A refused seal or patch (R341). -/
def State.tableReject (s : State) (c id code : Nat) : State :=
  (s.wrs [(R.AIR_TABLE_RESULT_CODE, code), (R.AIR_TABLE_RESULT_CLUSTER, c), (R.AIR_TABLE_RESULT_SLOT_ID, id)]).flag
    R.AIR_EVENT_TABLE_REJECT

/-- The fire instant of slot `n` in ns of GPS time (R337). -/
def fireNs (mu n : Nat) : Nat := (n - 2) * slotNs mu

/-- The registers of RX_CFG of a local carrier, sampled at a seal (R411). -/
def State.rxSettings (s : State) (c l : Nat) : List Nat :=
  [s.rd (R.RX_PRACH_THR_THR c l), s.rd (R.RX_PRACH_THR_THR_HALF c l), s.rd (R.RX_PRACH_QUAL_PSR_MIN c l),
   s.rd (R.RX_PRACH_QUAL_REP_CHK c l), s.rd (R.RX_PRACH_QUAL_NF_ADJ c l), s.rd (R.RX_NF_CTRL_GROUP32 c l),
   s.rd (R.RX_NF_CTRL_ALPHA c l), s.rd (R.RX_NF_CTRL_NF_MIN_RE c l), s.rd (R.RX_NF_TIME_NF_STALE c l),
   s.rd (R.RX_NF_TIME_NF_DEFAULT c l), s.rd (R.RX_TRK_CTRL_KF c l), s.rd (R.RX_TRK_CTRL_KT c l),
   s.rd (R.RX_TRK_CTRL_F_CLAMP c l)]

/-- Setting `i` of a local carrier as a table sampled it. -/
def SlotTable.setting (t : SlotTable) (l i : Nat) : Nat := (tblGet [] t.settings l).getD i 0

/-- The state a started carrier is in for the table being sealed (R351 to R354, R356, R429). -/
def State.carrierNow (s : State) (k : Nat) : Nat :=
  if s.rd (R.AIR_RU_STATE_STATE (s.rd (R.AIR_CARRIER_RU k))) = 4 then 6
  else if (s.carrier k).shed then 5
  else if s.rd R.TIME_STATUS_HO_EXPIRED = 1 && s.rd R.TIME_HO_ACT_HO_ACTION = 1 then 3
  else if !s.endpointUp k then 3
  else if s.rd R.AIR_BEAM_HOLD_SLOTS < (s.carrier k).hold then 4
  else 2

/-- A carrier serves its slots: RUNNING or DEGRADED_BEAM. -/
def State.carrierServes (s : State) (k : Nat) : Bool :=
  s.rd (R.AIR_CARRIER_STATE k) == 2 || s.rd (R.AIR_CARRIER_STATE k) == 4

/-- The carriers of a cluster take their state for the table of slot `n`. -/
def State.carriersAtSeal (s : State) (c n : Nat) : State :=
  s.each (s.carriersOf c) fun t k =>
    let x := t.carrier k
    if x.started && x.startAt ≤ n && x.stopAt = 0 then
      let t := if t.rd (R.AIR_CARRIER_STATE k) = 1 then t.setCarrier k { x with lastUl := t.now } else t
      t.wr (R.AIR_CARRIER_STATE k) (t.carrierNow k)
    else t

/-- A mask of local carriers. -/
def maskOf (f : Nat → Bool) : Nat := ((List.range 16).map fun l => if f l then 2 ^ l else 0).sum

/-- Bit `l` of a mask. -/
def hasBit (m l : Nat) : Bool := m / 2 ^ l % 2 == 1

/-- The neural primaries of a sealed table (R318, R355): Flint submits the job of each local carrier that uses a neural
receiver, its descriptor given as Flint wrote it. -/
def State.submitWorks (s : State) (c : Nat) (tab : SlotTable) (works : List (Nat × List (BitVec 8))) : State :=
  (s.each (works.filter fun w => hasBit tab.neural w.1) fun t w =>
    let u := t.submit (64 + c) 0 0 0 [] w.2
    match u.sched.jobs.getLast? with
    | some j => u.putJob { j with air := some (tab.slot, w.1) }
    | none => u).placeRadio

/-- TABLE_SEAL (R337, R338, R341): header and skeleton entries as Flint wrote them, and the job descriptors of the slot's
neural receivers (local carrier, 128 bytes); no table is sealed while no Flint core is active (R569). -/
def execTableSeal (c : Nat) (bytes : List (BitVec 8)) (t : Nat) (s : State) (works : List (Nat × List (BitVec 8)) := []) : Ans :=
  onUnit (c < 16) <|
    let s := s.airTime t
    let mu := s.clusterMu c
    let id := bankNum bytes 0 4
    let n := s.slotOf mu id
    let x := s.cluster c
    let count := bankNum bytes 4 2
    let l := entriesOf ((bytes.drop 64).take (16 * count))
    let next := max x.next (s.slotNow mu + 3)
    let late := fireNs mu n ≤ s.gpsNs
    let wrong := mu == 3 || id != slotId mu n || n != (if late then n else next) || s.gpsNs < (n - 9) * slotNs mu
    match if s.flintUp && !s.radioHalted then some (s.entryCode c mu n count l late wrong) else none with
    | none => s
    | some 0 =>
      let s := (s.carriersAtSeal c n).showAir
      let mask := bankNum bytes 8 2
      let nulls := maskOf fun i => match s.carrierAt c i with
        | some k => !s.carrierServes k || n < (s.carrier k).startAt
        | none => false
      let tab : SlotTable :=
        { slot := n, id := id, skel := l, patch := [], carriers := mask, patched := 0, neural := bankNum bytes 0xC 2,
          nulls := nulls, settings := (List.range 16).map fun i => (i, s.rxSettings c i), phase := 0, entries := [],
          aborted := [], fellBack := [], pusch := [], pucch := [], used := [], bank7 := false, bank8 := false }
      ((s.setCluster c { s.cluster c with next := n + 1 }).setTables c (x.tables ++ [tab])).submitWorks c tab works
    | some code => s.tableReject c id code

/-- The patch cutoff of slot `n` has come (R337). -/
def State.pastCutoff (s : State) (mu n : Nat) : Bool := fireNs mu n ≤ s.gpsNs + s.rd R.AIR_PATCH_GUARD_GUARD_NS

/-- Inserts an entry after every one whose trigger is not later. -/
def insertEntry (mu n : Nat) (e : BitVec 128) : List (BitVec 128) → List (BitVec 128)
  | [] => [e]
  | a :: l => if entTrig mu n e < entTrig mu n a then e :: a :: l else a :: insertEntry mu n e l

/-- PATCH_WRITE (R341, R350): entries of one local carrier; `done` sets its PATCHED bit. -/
def execPatchWrite (c l id : Nat) (bytes : List (BitVec 8)) (done : Bool) (t : Nat) (s : State) : Ans :=
  onUnit (c < 16 && l < 16) <|
    let s := s.airTime t
    let mu := s.clusterMu c
    let n := s.slotOf mu id
    let es := entriesOf bytes
    match s.slotTable c n with
    | none => s.tableReject c id (s.entryCode c mu n es.length es (s.pastCutoff mu n) true)
    | some tab =>
      let late := tab.phase != 0 || s.pastCutoff mu n
      match s.entryCode c mu n (tab.skel.length + tab.patch.length + es.length) es late false with
      | 0 => s.putTable c { tab with patch := es.foldl (fun p e => insertEntry mu n e p) tab.patch,
                                     patched := if done then (BitVec.ofNat 16 tab.patched ||| BitVec.ofNat 16 (2 ^ l)).toNat
                                       else tab.patched }
      | code => s.tableReject c id code

/-- PATCH_CUTOFF (R337). -/
def execPatchCutoff (c id t : Nat) (s : State) : Ans :=
  onUnit (c < 16) <|
    let s := s.airTime t
    let mu := s.clusterMu c
    match s.slotTable c (s.slotOf mu id) with
    | none => s
    | some tab => if tab.phase = 0 && s.pastCutoff mu tab.slot then s.putTable c { tab with phase := 1 } else s

/-- The instant is a slot boundary of a µ code's grid, to the ns. -/
def State.atSlot (s : State) (mu : Nat) : Bool :=
  let n := s.slotNow mu
  [n, n + 1].any fun k =>
    let start := (symbolStart mu (14 * k) + 30_719) / 30_720
    start ≤ s.gpsNs && s.gpsNs < start + 2

/-- Flint has preloaded 8 slots of a cluster: the tables of the 8 slots after the one on air, as AHEAD counts them in
steady state (R44, R338). -/
def State.eightReady (s : State) (c : Nat) : Bool :=
  let n := s.slotNow (s.clusterMu c)
  (List.range 8).all fun i => (s.slotTable c (n + 1 + i)).isSome

/-- Flint has preloaded 8 slots: for each cluster that serves a carrier which is not OFF, and for at least one cluster. -/
def State.preloaded (s : State) : Bool :=
  let busy := fun c => (s.carriersOf c).any fun k => s.rd (R.AIR_CARRIER_STATE k) != 0
  ((List.range 16).any s.eightReady) && (List.range 16).all fun c => !busy c || s.eightReady c

/-- RADIO_READY becomes 1 here and now (R44, R353): in RUN with no stop asked for, TIME_LOCK 1, a radio unit once READY, 8
slots preloaded, at a slot boundary. Where the clusters differ in numerology the spec does not say whose boundary is meant:
any cluster's that has its 8 slots (DESIGN CHOICE, log entry 92). -/
def State.readyNow (s : State) : Bool :=
  s.inRun && s.dev.stop == .none && s.rd R.DEV_STATUS_RADIO_READY == 0 && s.rd R.TIME_STATUS_TIME_LOCK == 1 && s.air.discovered
    && s.preloaded && (List.range 16).any fun c => s.eightReady c && s.atSlot (s.clusterMu c)

/-- RADIO_READY becomes 1 where its conditions hold; the clock is settled from then on (R436). -/
def State.makeReady (s : State) : State :=
  if s.readyNow then
    let c := s.clk
    ({ s with clk := { c with settled := true } }).wrs [(R.DEV_STATUS_RADIO_READY, 1), (R.AIR_STATUS_RUNNING, 1)]
  else s

/-- TABLE_FIRE (R342): the table becomes ACTIVE, its entries are merged, and carriers that are not served run null. The first
table fires with RADIO_READY (R40); before it no slot is served (R336), and a table whose fire instant has passed stays
unfired until it is released (log entry 94). -/
def execTableFire (c id t : Nat) (s : State) : Ans :=
  onUnit (c < 16) <|
    let s := (s.airTime t).makeReady
    let mu := s.clusterMu c
    let n := s.slotOf mu id
    match s.slotTable c n with
    | none => s
    | some tab =>
      if tab.phase = 2 || s.gpsNs < fireNs mu n || fireNs mu n + slotNs mu ≤ s.gpsNs || s.rd R.DEV_STATUS_RADIO_READY = 0 then s
      else
        let b7 := s.newBank 7
        let b8 := s.newBank 8
        let lost := fun l => match s.carrierIn b7 c l with
          | some k => s.rd (R.AIR_CARRIER_STATE k) == 6 || s.rd (R.AIR_CARRIER_STATE k) == 0
              || ((s.carrier k).stopAt != 0)
          | none => true
        let null := fun l => hasBit tab.nulls l || !hasBit tab.patched l || lost l
        let keep := tab.patch.filter fun e => !(hasBit tab.carriers (entLocal e) && null (entLocal e))
        let all := keep.foldl (fun p e => insertEntry mu n e p) tab.skel
        let s := (s.putTable c { tab with phase := 2, entries := all.map fun e => TabEntry.mk e (entTrig mu n e) 0,
                                          nulls := maskOf null, bank7 := b7, bank8 := b8 }).flag R.AIR_STATUS_RUNNING
        let s := (s.holdBank 7 b7 1).holdBank 8 b8 1
        s.each ((List.range 16).filter fun l => hasBit tab.carriers l && null l) fun u l =>
          match u.carrierIn b7 c l with
          | some k => u.sat (R.AIR_CARRIER_NULL_COUNT k) 1
          | none => u

/-- SLOT_MISSED (R344): no table for the slot at its fire instant. -/
def execSlotMissed (c id t : Nat) (s : State) : Ans :=
  onUnit (c < 16) <|
    let s := s.airTime t
    let mu := s.clusterMu c
    let n := s.slotOf mu id
    let x := s.cluster c
    if mu == 3 || s.gpsNs < fireNs mu n || (s.slotTable c n).isSome || n < x.next || s.rd R.DEV_STATUS_RADIO_READY = 0 then s
    else ((s.setCluster c { x with next := n + 1 }).sat (R.AIR_CL_MISSED_COUNT c) 1).flag R.AIR_EVENT_SLOT_MISSED

/-! Triggers (R343, R364, R365) -/

/-- A trigger starts its stream on an idle unit, or waits in the queue of 16, or is dropped. -/
def State.giveTrigger (s : State) (c u : Nat) (g : Trigger) : State :=
  let x := s.unit c u
  if x.run.isNone && x.queue.isEmpty then s.setUnit c u ⟨some ⟨g, 0, false, []⟩, []⟩
  else if x.queue.length < 16 then s.setUnit c u { x with queue := x.queue ++ [g] }
  else (s.sat (R.RADIO_TRIG_DROP_COUNT c) 1).flag (R.RADIO_ERR_TRIG_DROP c)

/-- A triggered entry acts on its target. -/
def State.fireEntry (s : State) (c n : Nat) (e : BitVec 128) : State :=
  let g : Trigger := ⟨entStream e, entArg e % 2 ^ 21, entArg e / 2 ^ 21 != 0, n, entLocal e, entCond e⟩
  match entTarget e with
  | 0 => s.giveTrigger c (entUnit e) g
  | 6 => s.emit .fronthaul [c, n, entLocal e, entStream e, entArg e]
  | 7 =>
    match (s.clusterTiles c)[entUnit e]? with
    | some site => s.setTail site (entArg e % 4) (s.num (clusterKey c (entStream e)) 4)
    | none => s
  | u => if u < 6 then s.giveTrigger c (7 + u) g else s

/-! Noise floor (R393 to R396) -/

/-- Key of a filtered noise value. -/
def noiseKey (k stream group : Nat) : Nat := k * 512 + stream * 18 + group

/-- A filtered noise value. -/
def State.noise (s : State) (k stream group : Nat) : NoiseCell := tblGet .clear s.air.noise (noiseKey k stream group)

/-- The state with a noise value replaced. -/
def State.setNoise (s : State) (k stream group : Nat) (x : NoiseCell) : State :=
  { s with air := { s.air with noise := tblSet .clear s.air.noise (noiseKey k stream group) x } }

/-- One measured group (R394): m = sum ÷ idle. -/
def NoiseCell.measure (x : NoiseCell) (idle sum alpha : Nat) : NoiseCell :=
  let m := rneShift0 (256 * sum) idle
  match x.f with
  | none => ⟨some m, 0⟩
  | some f =>
    let d : Int := (256 * sum : Nat) - (f * idle : Nat)
    ⟨some ((f : Int) + rneQuot d (idle * 2 ^ alpha)).toNat, 0⟩
where
  /-- An integer quotient to nearest, ties to even. -/
  rneQuot (a : Int) (b : Nat) : Int :=
    let q := a / (b : Int)
    let r := 2 * (a % (b : Int))
    if r < b then q else if (b : Int) < r then q + 1 else if q % 2 = 0 then q else q + 1
  /-- The same for natural numbers. -/
  rneShift0 (a b : Nat) : Nat := (rneQuot a b).toNat

/-- F ÷ 2^31 in Q24.8 is at least 10^((2 l − 1) ÷ 2000), by 2000th powers. -/
def levelAtLeast (f : Nat) (l : Int) : Bool :=
  let e := 2 * l - 1
  if 0 ≤ e then 10 ^ e.toNat * 2 ^ 78_000 ≤ f ^ 2000 else 2 ^ 78_000 ≤ f ^ 2000 * 10 ^ (-e).toNat

/-- The greatest level from `lo` on that F reaches, by halving `2^n` steps. -/
def levelSearch (f : Nat) (lo : Int) : Nat → Int
  | 0 => lo
  | n + 1 => levelSearch f (if levelAtLeast f (lo + 2 ^ n) then lo + 2 ^ n else lo) n

/-- LEVEL of R395: RNE(1000 × log10(F ÷ 2^31)) as a 16-bit field; 0x8000 for no measurement. -/
def noiseLevel (x : NoiseCell) : Nat :=
  match x.f with
  | none => 0x8000
  | some 0 => 0x8000
  | some f => toField 16 (levelSearch f (-16_000) 15)

/-- GROUP_PRB of a carrier by a sampled GROUP32. -/
def groupPrb (g32 : Nat) : Nat := if g32 = 1 then 32 else 16

/-- The groups of a carrier, at most 18. -/
def State.groupsOf (s : State) (k g32 : Nat) : Nat :=
  min 18 (((s.carrier k).prbs + groupPrb g32 - 1) / groupPrb g32)

/-- The streams of a carrier's record: its uplink streams. -/
def State.streamsOf (s : State) (k : Nat) : Nat := (s.carrier k).ul

/-- The noise record of a carrier is rewritten at the release of its table (R396). -/
def State.noiseRecord (s : State) (k id g32 stale : Nat) : State :=
  let groups := s.groupsOf k g32
  let streams := s.streamsOf k
  let isStale := fun g => groups ≤ g || (List.range streams).all fun st => decide (stale ≤ (s.noise k st g).idle)
  let mask := ((List.range groups).map fun g => if isStale g then 2 ^ g else 0).sum
  let t := (s.wrs [(R.NF_HDR_GROUPS k, groups), (R.NF_HDR_STREAMS k, streams), (R.NF_HDR_GROUP32 k, g32),
    (R.NF_SLOT_SLOT_ID k, id), (R.NF_STALE_STALE k, mask)]).bump (R.NF_UPDATES_COUNT k) 1
  let lev := fun st g => if streams ≤ st then 0 else if groups ≤ g then 0x8000 else noiseLevel (s.noise k st g)
  t.each (List.range 16) fun t st => t.each (List.range 9) fun t w =>
    t.wrs [(R.NF_LEVEL_LEVEL_EVEN k st w, lev st (2 * w)), (R.NF_LEVEL_LEVEL_ODD k st w, lev st (2 * w + 1))]

/-- 10^(a ÷ 1000) in units of 2^-256, rounded down, found bit by bit from bit `n`. -/
def tenMilli (a : Int) (r : Nat) : Nat → Nat
  | 0 => r
  | n + 1 =>
    let x := r + 2 ^ n
    let ok := if 0 ≤ a then x ^ 1000 ≤ 10 ^ a.toNat * 2 ^ 256_000 else x ^ 1000 * 10 ^ (-a).toNat ≤ 2 ^ 256_000
    tenMilli a (if ok then x else r) n

/-- 10^(a ÷ 1000) for a 16-bit signed a. -/
def powMilli (a : Int) : Nat := tenMilli a 0 370

/-- FLOOR of R400 in Q24.8, for `reps` repetitions, and whether a stream had no non-stale group. Noise powers are summed
in units of 2^-264 LSB². -/
def State.prachFloor (s : State) (k : Nat) (tab : SlotTable) (l first last reps lra streams : Nat) : Nat × Bool :=
  let g := groupPrb (tab.setting l 5)
  let stale := tab.setting l 8
  let adj := powMilli (signedOf 16 (tab.setting l 4))
  let one := fun st =>
    let cells := (((List.range 18).filter fun i => first / g ≤ i && i ≤ last / g).map fun i => s.noise k st i).filter
      fun x => x.f.isSome && x.idle < stale
    if cells.isEmpty then (2 ^ 39 * powMilli (signedOf 16 (tab.setting l 9)), true)
    else (((cells.map fun x => x.f.getD 0).sum * adj) / cells.length, false)
  let all := (List.range streams).map one
  let sum := (all.map (·.1)).sum
  ((NoiseCell.measure.rneQuot (reps * lra * sum) (4096 * 2 ^ 256)).toNat, all.any (·.2))

/-! Tracking (R404, R405) -/

/-- The context of a key, with one taken for it where it has none: free, else the oldest not updated in slot `n`. -/
def State.takeCtx (s : State) (c l rnti n : Nat) : Option (State × TrkCtx) :=
  let x := s.cluster c
  match x.ctxs.find? fun k => k.local_ == l && k.rnti == rnti with
  | some k => some (s, k)
  | none =>
    let new : TrkCtx := ⟨l, rnti, 0, 0, 0, n⟩
    if x.ctxs.length < 4096 then some (s.setCluster c { x with ctxs := x.ctxs ++ [new] }, new)
    else
      match x.ctxs.filter fun k => k.slot != n with
      | [] => none
      | a :: l =>
        let old := l.foldl (fun b k => if k.slot < b.slot then k else b) a
        some ((s.setCluster c { x with ctxs := x.ctxs.map fun k => if k == old then new else k }).sat
          (R.TRK_EVICT_COUNT c old.local_) 1, new)

/-- The gain max(1 ÷ n, 2^−K) as a divisor. -/
def gainDiv (n k : Nat) : Nat := min n (2 ^ k)

/-- A PRB of a symbol of stream `st` of carrier `k` was marked as an erasure (R348, R391), by the eAxC entries of the bank
that the slot's table took. -/
def State.erasedAt (s : State) (tab : SlotTable) (k st sym prb : Nat) : Bool :=
  s.air.erased.any fun e =>
    let w := bankNum ((s.table 8).bank tab.bank8) (8 * e.1) 8
    e.2 == (14 * tab.slot + sym, prb) && eaxcValid w && eaxcCarrier w == k && w / 2 ^ 21 % 2 == 1 && w / 2 ^ 32 % 32 == st

/-- The pilot elements of a PDU: all, and those that are not erased. -/
def State.pilotCount (s : State) (tab : SlotTable) (k : Nat) (p : PilotPdu) : Nat × Nat :=
  ((p.places.map fun e => e.2.2.2).sum,
   ((p.places.filter fun e => !s.erasedAt tab k e.1 e.2.1 e.2.2.1).map fun e => e.2.2.2).sum)

/-- One update of a context from its key's PDUs (R405, R406): residuals weighted by the pilot elements that are not erased;
none where more than half of them are. -/
def State.trackKey (s : State) (c l k : Nat) (tab : SlotTable) (key : Nat × List PilotPdu) : State :=
  match s.takeCtx c l key.1 tab.slot with
  | none => s.sat (R.TRK_NOCTX_COUNT c l) 1
  | some (t, x) =>
    let pdus := key.2.map fun p => (p, s.pilotCount tab k p)
    let all := (pdus.map (·.2.1)).sum
    let seen := (pdus.map (·.2.2)).sum
    if 2 * seen < all || seen = 0 then t
    else
      let m := min 255 (x.n + 1)
      let lim : Int := (tab.setting l 12 : Nat) * 160
      let df := gainDiv m (tab.setting l 10)
      let dt := gainDiv m (tab.setting l 11)
      let freqs := pdus.filter fun e => e.1.freq.isSome
      let wf := (freqs.map (·.2.2)).sum
      let ef : Int := (freqs.map fun e => e.1.freq.getD 0 * (e.2.2 : Int)).sum
      let et : Int := (pdus.map fun e => e.1.time * (e.2.2 : Int)).sum
      let f := if wf = 0 then x.freq else NoiseCell.measure.rneQuot (x.freq * 256 * df * wf + ef) (256 * df * wf)
      let f' := max (-lim) (min f lim)
      let tau := NoiseCell.measure.rneQuot (x.tau * 256 * dt * seen + et) (256 * dt * seen)
      let x' : TrkCtx := ⟨x.local_, x.rnti, f', tau, m, tab.slot⟩
      let y := t.cluster c
      let t := t.setCluster c { y with ctxs := y.ctxs.map fun j => if j.local_ == l && j.rnti == key.1 then x' else j }
      t.iff (f != f') (·.sat (R.TRK_CLAMP_COUNT c l) 1)

/-- Idle elements and sum of |y|² of a stream's PRB group over PRBs that are not erased (R391, R393). -/
def State.idleOf (s : State) (tab : SlotTable) (k : Nat) (f : FrontEnd) (st g : Nat) : Nat × Nat :=
  let l := f.noise.filter fun m =>
    m.1 == st && m.2.2.1 / groupPrb (tab.setting f.local_ 5) == g && !s.erasedAt tab k st m.2.1 m.2.2.1
  ((l.map fun m => m.2.2.2.1).sum, (l.map fun m => m.2.2.2.2).sum)

/-- The noise values of a carrier after a slot (R394): each group with enough idle elements is measured. -/
def State.noiseSlot (s : State) (k : Nat) (tab : SlotTable) (f : FrontEnd) : State :=
  let l := f.local_
  s.each (List.range (s.streamsOf k)) fun t st => t.each (List.range (s.groupsOf k (tab.setting l 5))) fun t g =>
    let m := s.idleOf tab k f st g
    let x := t.noise k st g
    t.setNoise k st g (if m.1 < tab.setting l 7 then { x with idle := min (x.idle + 1) 65_535 } else x.measure m.1 m.2 (tab.setting l 6))

/-- Channel estimates and LLRs of a slot in cluster SRAM: the estimate of an erased PRB is interpolated by a formula the spec
does not give (free bytes), and the equaliser writes LLR 0 for every bit that an erased PRB carries (R391). -/
def State.equalise (s : State) (c k : Nat) (tab : SlotTable) (f : FrontEnd) : State :=
  let t := s.each f.chans fun t e =>
    if s.erasedAt tab k e.2.1 e.2.2.1 e.2.2.2.1 then t.scramble (clusterKey c e.1) e.2.2.2.2.length
    else t.setBytes (clusterKey c e.1) e.2.2.2.2
  t.each f.llrs fun t e =>
    let lost := (List.range (s.streamsOf k)).any fun st => s.erasedAt tab k st e.2.1 e.2.2.1
    t.setBytes (clusterKey c e.1) (if lost then List.replicate e.2.2.2.length 0 else e.2.2.2)

/-- The front end of one carrier in one slot (R390 to R405). -/
def State.frontEnd (s : State) (c : Nat) (tab : SlotTable) (f : FrontEnd) : State :=
  match s.carrierIn tab.bank7 c f.local_ with
  | none => s
  | some k =>
    if hasBit tab.nulls f.local_ then s
    else
      let l := f.local_
      let t := ((s.noiseSlot k tab f).each f.pilots fun t p => t.trackKey c l k tab p).equalise c k tab f
      t.each f.prach fun t p =>
        let reps := p.2.2.1
        let (fl, dflt) := t.prachFloor k tab l p.1 p.2.1 reps p.2.2.2.1 p.2.2.2.2.1
        let (fh, _) := t.prachFloor k tab l p.1 p.2.1 ((reps + 1) / 2) p.2.2.2.1 p.2.2.2.2.1
        let rep := tab.setting l 3
        ((t.setNum (clusterKey c (p.2.2.2.2.2 + 0x28)) 4 (min fl 0xFFFF_FFFF)).setNum (clusterKey c (p.2.2.2.2.2 + 0x2C)) 4
          (if rep = 1 then min fh 0xFFFF_FFFF else 0)).iff dflt (·.sat (R.RX_PRACH_DEFAULT_COUNT c l) 1)

/-- ENTRY_TRIGGER (R340, R342, R343): entry `i` of the fired table at its trigger; `front` is what the front end measures
where the entry starts it. A COND entry fires if its carrier's primary has been aborted, else it stays armed. -/
def execEntryTrigger (c id i : Nat) (front : List FrontEnd) (t : Nat) (s : State) : Ans :=
  onUnit (c < 16) <|
    let s := s.airTime t
    let mu := s.clusterMu c
    let n := s.slotOf mu id
    match s.slotTable c n with
    | none => s
    | some tab =>
      match tab.entries[i]? with
      | none => s
      | some e =>
        if e.stage != 0 || s.airUnits < e.trig || (tab.entries.take i).any fun d => d.stage == 0 then s
        else
          let l := entLocal e.bits
          let go := !entCond e.bits || tab.aborted.contains l
          let tab' := { tab with entries := tab.entries.set i { e with stage := if go then 2 else 1 },
                                 fellBack := if go && entCond e.bits then l :: tab.fellBack else tab.fellBack }
          let s := s.putTable c tab'
          let s := s.each front fun t f => t.frontEnd c tab f
          if go then s.fireEntry c n e.bits else s

/-- The neural primary of a carrier in a slot still runs, or has ended with OK (R408). -/
def State.primaryStands (s : State) (c n l : Nat) : Bool :=
  s.sched.jobs.any fun j => j.slice == 64 + c && j.air == some (n, l) && !j.fallback &&
    (j.phase == .running || j.status == some 0)

/-- COND_ABORT_FIRE (R318, R342, R409): the abort signal of a local carrier, the monitor's, or Flint's own where a claim was
refused or late; its armed entries past their trigger fire. -/
def execCondAbortFire (c id l t : Nat) (s : State) : Ans :=
  onUnit (c < 16 && l < 16) <|
    let s := s.airTime t
    let mu := s.clusterMu c
    let n := s.slotOf mu id
    match if s.primaryStands c n l then none else s.slotTable c n with
    | none => s
    | some tab =>
      let hit := fun (e : TabEntry) => e.stage == 1 && entLocal e.bits == l
      let fired := tab.entries.filter hit
      let s := s.putTable c { tab with
        aborted := if tab.aborted.contains l then tab.aborted else l :: tab.aborted,
        fellBack := if fired.isEmpty then tab.fellBack else l :: tab.fellBack,
        entries := tab.entries.map fun e => if hit e then { e with stage := 2 } else e }
      s.each fired fun u e => u.fireEntry c n e.bits

/-! Ends of streams (R366) -/

/-- A stream ends: its unit is idle until its next queued trigger starts. -/
def State.endRun (s : State) (c u : Nat) : State := s.setUnit c u { s.unit c u with run := none }

/-- A failed or aborted stream (R366): its outputs are undefined. -/
def State.failStream (s : State) (c u code tag : Nat) : State :=
  match (s.unit c u).run with
  | none => s
  | some r =>
    let t := s.each r.outs fun t o => t.scramble (clusterKey c o.addr) o.len
    let t := (t.endRun c u).wrs [(R.RADIO_LAST_FAIL_CODE c, code), (R.RADIO_LAST_FAIL_UNIT c, u),
      (R.RADIO_LAST_FAIL_TAG c, tag), (R.RADIO_LAST_STREAM_ADDR c, r.trig.stream)]
    (t.flag (R.RADIO_ERR_STREAM_FAIL c)).sat (R.RADIO_UNIT_FAIL_COUNT c u) 1

/-- The carriers whose STOP ends with slot `n` (R351). -/
def State.stopCarriers (s : State) (c n : Nat) : State :=
  s.each (s.carriersOf c) fun t k =>
    if (t.carrier k).stopAt != 0 && (t.carrier k).stopAt ≤ n + 1 then (t.carrierOff k).fapi k 0x06 [] else t

/-- Beam weights of a class G carrier after a slot (R354). -/
def State.beamHold (s : State) (k : Nat) (good : Bool) : State :=
  let x := s.carrier k
  let h := if good then 0 else min (x.hold + 1) 16
  let t := s.setCarrier k { x with hold := h }
  let st := t.rd (R.AIR_CARRIER_STATE k)
  if good && st = 4 then t.wr (R.AIR_CARRIER_STATE k) 2
  else if st = 2 && t.rd R.AIR_BEAM_HOLD_SLOTS < h then (t.wr (R.AIR_CARRIER_STATE k) 4).flag R.AIR_EVENT_BEAM_HOLD
  else t

/-- The TimingAdvance field of a result (R407), as 5G FAPI codes it (PRESUMED, log entry 60): 31 for none, in steps of 1,024
Tc ÷ 2^µ, 0 to 63; 0xFFFF where the key has no context. -/
def State.advanceOf (s : State) (c mu l rnti : Nat) : Nat :=
  match (s.cluster c).ctxs.find? fun k => k.local_ == l && k.rnti == rnti with
  | none => 0xFFFF
  | some k => (max 0 (min (31 + NoiseCell.measure.rneQuot (k.tau * muScale mu) 16_384) 63)).toNat

/-- TABLE_RELEASE (R343, R396, R354): when all entries are done and no stream is left, or at the end of slot n + 2. A table
that never fired only gives its buffer back.
`decoded` are the PUSCH handles (local, handle) with a decoded result, `weights` the local carriers whose weight job
completed. Each PUSCH and PUCCH of the slot is reported (CRC.indication, UCI.indication) with its timing advance (R407). -/
def execTableRelease (c id : Nat) (decoded : List (Nat × Nat)) (weights : List Nat) (t : Nat) (s : State) : Ans :=
  onUnit (c < 16) <|
    let s := s.airTime t
    let mu := s.clusterMu c
    let n := s.slotOf mu id
    match s.slotTable c n with
    | none => s
    | some tab =>
      let us := List.range 13
      let mine := fun u => match (s.unit c u).run with | some r => r.trig.slot == n | none => false
      let left := us.filter mine
      let waiting := (us.map fun u => ((s.unit c u).queue.filter fun g => g.slot == n).length).sum
      let ended := (n + 3) * slotNs mu ≤ s.gpsNs
      let complete := tab.entries.all (fun e => e.stage == 2) && left.isEmpty && waiting == 0
      if tab.phase != 2 then (if ended then s.setTables c ((s.cluster c).tables.filter fun u => u.slot != n) else s)
      else if !(complete || ended) then s
      else
        let s := s.each left fun u k => u.failStream c k 8 0
        let s := s.each us fun u k => let x := u.unit c k; u.setUnit c k { x with queue := x.queue.filter fun g => g.slot != n }
        let over_ := left.length + waiting
        let s := (s.sat (R.AIR_CL_OVERRUN_COUNT c) over_).iff (0 < over_) (·.flag R.AIR_EVENT_OVERRUN)
        let s := s.each ((List.range 16).filter fun l => hasBit tab.carriers l) fun u l =>
          match u.carrierIn tab.bank7 c l with
          | none => u
          | some k =>
            let u := u.iff (hasBit tab.neural l && tab.fellBack.contains l) (·.sat (R.RX_FALLBACK_COUNT c l) 1)
            let u := u.iff (u.carrierClass k == 6) (·.beamHold k (weights.contains l))
            let u := u.each (tab.pusch.filter (·.1 == l)) fun u p =>
              u.fapi k 0x86 [tab.id, p.2.1, if decoded.contains (l, p.2.1) then 0 else 1, u.advanceOf c mu l p.2.2]
            let u := u.each (tab.pucch.filter (·.1 == l)) fun u p => u.fapi k 0x87 [tab.id, p.2.1, u.advanceOf c mu l p.2.2]
            if hasBit tab.nulls l then u else u.noiseRecord k tab.id (tab.setting l 5) (tab.setting l 8)
        let s := s.setTables c ((s.cluster c).tables.filter fun u => u.slot != n)
        let s := (s.leaveBank 7 tab.bank7 1).leaveBank 8 tab.bank8 1
        let a := s.air
        let done := fun e sym => s.carrierCluster (eaxcCarrier (s.eaxc e)) == c && sym / 14 ≤ n
        let s := { s with air := { a with rx := a.rx.filter fun r => !done r.entry r.sym,
                                          erased := a.erased.filter fun r => !done r.1 r.2.1 } }
        s.stopCarriers c n

/-- QUEUED_TRIGGER_START (R365): the next queued trigger starts late. -/
def execQueuedTriggerStart (c u t : Nat) (s : State) : Ans :=
  onUnit (c < 16 && u < 13) <|
    let s := s.airTime t
    match (s.unit c u).run, (s.unit c u).queue with
    | none, g :: q => (s.setUnit c u ⟨some ⟨g, 0, false, []⟩, q⟩).sat (R.AIR_CL_LATE_ENTRY_COUNT c) 1
    | _, _ => s

/-- TRACKING_IDLE_FREE (R404). -/
def execTrackingIdleFree (c l rnti t : Nat) (s : State) : Ans :=
  onUnit (c < 16 && l < 16) <|
    let s := s.airTime t
    let x := s.cluster c
    let due := fun (k : TrkCtx) => k.local_ == l && k.rnti == rnti &&
      k.slot + 64 * s.rd (R.RX_TRK_CTRL_TRK_IDLE c l) ≤ s.slotNow (s.clusterMu c)
    s.setCluster c { x with ctxs := x.ctxs.filter fun k => !due k }

/-! The PHY API (R349 to R351) -/

/-- FAPI_PARAM: PARAM.response (0x01). -/
def execFapiParam (k t : Nat) (s : State) : Ans :=
  onUnit (k < 256) <|
    let s := s.airTime t
    if !s.carrierValid k || !s.endpointUp k then s
    else s.fapi k 0x01 [s.rd (R.AIR_CARRIER_STATE k), s.carrierClass k]

/-- FAPI_CONFIG (R349): a request within the carrier's class configures it (CONFIG.response 0x03, code 0), any other is
refused with the configuration error (code 1). -/
def execFapiConfig (k mhz mu prbs dl ul t : Nat) (s : State) : Ans :=
  onUnit (k < 256) <|
    let s := s.airTime t
    let c := s.carrierClass k
    if !s.carrierValid k || !s.endpointUp k then s
    else if 1 < s.rd (R.AIR_CARRIER_STATE k) || mu != s.carrierMu k || !classBand c mu mhz || classDl c < dl || classUl c < ul
        || [270, 273, 264].getD mu 0 < prbs then s.fapi k 0x03 [1]
    else
      let x := s.carrier k
      (((s.setCarrier k { x with prbs := prbs, dl := dl, ul := ul }).wr (R.AIR_CARRIER_STATE k) 1).showAir).fapi k 0x03 [0]

/-- FAPI_START (R351, R353): from the first slot not sealed yet. A carrier whose radio unit is not READY cannot start. -/
def execFapiStart (k t : Nat) (s : State) : Ans :=
  onUnit (k < 256) <|
    let s := s.airTime t
    let c := s.carrierCluster k
    if !s.carrierValid k || !s.endpointUp k then s
    else if s.rd (R.AIR_CARRIER_STATE k) != 1 || s.rd (R.AIR_RU_STATE_STATE (s.rd (R.AIR_CARRIER_RU k))) != 3 || s.radioHalted then
      s.fapi k 0x07 [0x04, 5]
    else
      let x := s.carrier k
      s.setCarrier k { x with started := true, startAt := max (s.cluster c).next (s.slotNow (s.clusterMu c) + 3), stopAt := 0 }

/-- FAPI_STOP (R351): the sealed slots run null; OFF after the last of them. -/
def execFapiStop (k t : Nat) (s : State) : Ans :=
  onUnit (k < 256) <|
    let s := s.airTime t
    let c := s.carrierCluster k
    let x := s.carrier k
    if !s.carrierValid k || !s.endpointUp k then s
    else if !x.started then s.fapi k 0x07 [0x05, 5]
    else
      match (s.cluster c).tables.getLast? with
      | some tab => s.setCarrier k { x with started := false, stopAt := tab.slot + 1 }
      | none => (s.carrierOff k).fapi k 0x06 []

/-- One PDU of a request against the limits of R330 and R334. -/
def State.pduOk (s : State) (k : Nat) (used : Nat → Nat) (p : FapiPdu) : Bool :=
  let c := s.carrierClass k
  p.supported &&
  match p.kind with
  | 0 => decide (used 0 < 96)
  | 1 => decide (p.layers ≤ classDl c)
  | 2 => decide (p.layers ≤ min (classUl c) 8 ∧ used 2 + p.bits ≤ classLu c * slotNs (s.carrierMu k))
  | 3 => decide (used 3 < 128)
  | 4 => decide (used 4 < 16)
  | 5 => decide (used 5 < 4)
  | _ => true

/-- The PDUs of one request: those refused are answered one by one, the others wait to become patch entries. -/
def State.takePdus (s : State) (k c n msg : Nat) : List FapiPdu → State
  | [] => s
  | p :: l =>
    match s.slotTable c n with
    | none => s
    | some tab =>
      let i := s.carrierLocal k
      let used := fun kind => tblGet 0 tab.used (i * 8 + kind)
      if s.pduOk k used p then
        let more := if p.kind = 2 then p.bits else 1
        (s.putTable c { tab with used := tblSet 0 tab.used (i * 8 + p.kind) (used p.kind + more),
                                 pusch := if p.kind = 2 then tab.pusch ++ [(i, p.handle, p.rnti)] else tab.pusch,
                                 pucch := if p.kind = 3 then tab.pucch ++ [(i, p.handle, p.rnti)] else tab.pucch }).takePdus k c n msg l
      else (s.fapi k 0x07 [msg, 3, p.handle]).takePdus k c n msg l

/-- A request for a slot (R350): late ones are answered with ERROR.indication (0x07) cause 1, those for a slot that
cannot be served with cause 2. -/
def State.fapiRequest (s : State) (k id msg : Nat) (go : State → Nat → State) : State :=
  let c := s.carrierCluster k
  let mu := s.clusterMu c
  let n := s.slotOf mu id
  if !s.carrierValid k || !s.endpointUp k then s
  else if s.pastCutoff mu n then s.fapi k 0x07 [msg, 1, id]
  else
    match s.slotTable c n with
    | none => s.fapi k 0x07 [msg, 2, id]
    | some tab => if hasBit tab.nulls (s.carrierLocal k) then s.fapi k 0x07 [msg, 2, id] else go s n

/-- FAPI_DL_TTI. -/
def execFapiDlTti (k id : Nat) (pdus : List FapiPdu) (t : Nat) (s : State) : Ans :=
  onUnit (k < 256) <| (s.airTime t).fapiRequest k id 0x80 fun s n => s.takePdus k (s.carrierCluster k) n 0x80 pdus

/-- FAPI_UL_TTI: a PUSCH over the LU limit is refused (R330). -/
def execFapiUlTti (k id : Nat) (pdus : List FapiPdu) (t : Nat) (s : State) : Ans :=
  onUnit (k < 256) <| (s.airTime t).fapiRequest k id 0x81 fun s n => s.takePdus k (s.carrierCluster k) n 0x81 pdus

/-- FAPI_UL_DCI. -/
def execFapiUlDci (k id : Nat) (pdus : List FapiPdu) (t : Nat) (s : State) : Ans :=
  onUnit (k < 256) <| (s.airTime t).fapiRequest k id 0x83 fun s n => s.takePdus k (s.carrierCluster k) n 0x83 pdus

/-- FAPI_TX_DATA: the payload waits with the carrier for its slot. -/
def execFapiTxData (k id : Nat) (data : List (BitVec 8)) (t : Nat) (s : State) : Ans :=
  onUnit (k < 256) <| (s.airTime t).fapiRequest k id 0x84 fun s n =>
    let x := s.carrier k
    let cur := s.slotNow (s.carrierMu k)
    s.setCarrier k { x with tx := x.tx.filter (fun p => cur ≤ p.1) ++ [(n, data)] }

/-- SLOT_INDICATION (R351): the endpoints of a cluster's started carriers send SLOT.indication (0x82). -/
def execSlotIndication (c t : Nat) (s : State) : Ans :=
  onUnit (c < 16) <|
    let s := s.airTime t
    let mu := s.clusterMu c
    let n := s.slotNow mu
    s.each ((s.carriersOf c).filter fun k => s.endpointUp k && (s.carrier k).started && (s.carrier k).startAt ≤ n
      && 2 ≤ s.rd (R.AIR_CARRIER_STATE k)) fun u k => u.fapi k 0x82 [slotId mu n]

/-! Fronthaul reception (R347, R348) -/

/-- The VALID uplink entry of a port and eAxC. -/
def State.uplinkEntry (s : State) (port eaxc : Nat) : Option Nat :=
  s.eaxcRange.find? fun e =>
    let w := s.eaxc e
    eaxcValid w && eaxcPort w == port && w % 65536 == eaxc && w / 2 ^ 21 % 2 == 1

/-- The cluster whose AIR_FH_DROPPED counts a packet that no entry takes (log entry 63). -/
def State.dropCluster (s : State) (port : Nat) : Nat :=
  match (s.eaxcRange.map s.eaxc).find? fun w => eaxcValid w && eaxcPort w == port with
  | some w => s.carrierCluster (eaxcCarrier w)
  | none => 0

/-- The reception of one symbol of a stream. -/
def State.rxSymbol (s : State) (e sym : Nat) : RxSymbol :=
  (s.air.rx.find? fun r => r.entry == e && r.sym == sym).getD ⟨e, sym, []⟩

/-- The state with the reception of a symbol replaced. -/
def State.setRx (s : State) (r : RxSymbol) : State :=
  let a := s.air
  { s with air := { a with rx := a.rx.filter (fun q => !(q.entry == r.entry && q.sym == r.sym)) ++ [r] } }

/-- An arrival counter of a cluster advances (R363). -/
def State.radioCount (s : State) (c n inc : Nat) : State := s.bump (R.RADIO_CNT_VALUE c n) inc

/-- Bytes of one PRB in cluster SRAM: 12 samples of 4 bytes. -/
def prbBytes : Nat := 48

/-- FH_UL_PACKET (R346, R348): a packet of symbol `sym` of slot `id` with the decompressed samples of PRBs from `prb` on,
for the symbol's place `addr` in cluster SRAM, in which `total` PRBs are due; `ok` tells that it is within R346. -/
def execFhUlPacket (port eaxc id sym prb total addr : Nat) (data : List (BitVec 8)) (ok : Bool) (t : Nat) (s : State) : Ans :=
  onUnit (port < 32) <|
    let s := s.airTime t
    match s.uplinkEntry port eaxc with
    | none => s.sat (R.AIR_FH_DROPPED_COUNT (s.dropCluster port)) 1
    | some e =>
      let w := s.eaxc e
      let k := eaxcCarrier w
      let c := s.carrierCluster k
      let mu := s.carrierMu k
      if !ok then s.sat (R.AIR_FH_DROPPED_COUNT c) 1
      else
        let a := 14 * s.slotOf mu id + sym
        let air := symbolStart mu a
        if s.airUnits < air + s.rd (R.AIR_FH_TA4_MIN_NS mu) * 30_720 then s.sat (R.AIR_FH_UL_EARLY_COUNT c) 1
        else if air + s.rd (R.AIR_FH_TA4_MAX_NS mu) * 30_720 < s.airUnits then s.sat (R.AIR_FH_UL_LATE_COUNT c) 1
        else
          let r := s.rxSymbol e a
          let got := (List.range (data.length / prbBytes)).map (· + prb)
          let new := got.filter fun p => p < total && !r.prbs.contains p
          let s := s.setBytes (clusterKey c (addr + prbBytes * prb)) data
          let s := s.setRx { r with prbs := r.prbs ++ new }
          let s := s.setCarrier k { s.carrier k with lastUl := s.now }
          if !new.isEmpty && r.prbs.length + new.length == total then s.radioCount c (eaxcCounter w) 1 else s

/-- FH_WINDOW_CLOSE (R348): at TA4_MAX the missing PRBs are written as zeros and marked as erasures, and the counter
advances. -/
def execFhWindowClose (e id sym total addr t : Nat) (s : State) : Ans :=
  onUnit (e < 4096) <|
    let s := s.airTime t
    let w := s.eaxc e
    let k := eaxcCarrier w
    let c := s.carrierCluster k
    let mu := s.carrierMu k
    let a := 14 * s.slotOf mu id + sym
    if !eaxcValid w || s.airUnits < symbolStart mu a + s.rd (R.AIR_FH_TA4_MAX_NS mu) * 30_720 then s
    else
      let r := s.rxSymbol e a
      let miss := (List.range total).filter fun p => !r.prbs.contains p
      if miss.isEmpty then s
      else
        let s := s.each miss fun u p => u.setBytes (clusterKey c (addr + prbBytes * p)) (List.replicate prbBytes 0)
        let s := (s.setRx { r with prbs := r.prbs ++ miss }).sat (R.AIR_FH_PRB_MISSING_COUNT c) miss.length
        let b := s.air
        ({ s with air := { b with erased := b.erased ++ miss.map fun p => (e, a, p) } }).radioCount c (eaxcCounter w) 1

/-! Radio units (R353) -/

/-- RU_CALL_HOME: a radio unit that table 0x08 names at the port enters CONNECTING. -/
def execRuCallHome (r port mac t : Nat) (s : State) : Ans :=
  onUnit (r < 64 && port < 32) <|
    let s := s.airTime t
    let named := (s.eaxcRange.map s.eaxc).any fun w => eaxcValid w && eaxcRu w == r && eaxcPort w == port
    let st := s.rd (R.AIR_RU_STATE_STATE r)
    if !named || !(st == 0 || st == 4) then s
    else s.wrs [(R.AIR_RU_STATE_STATE r, 1), (R.AIR_RU_STATE_PORT r, port), (R.AIR_RU_MAC_MAC r, mac)]

/-- RU_SESSION_UP: the NETCONF session is up; configuration is written. -/
def execRuSessionUp (r t : Nat) (s : State) : Ans :=
  onUnit (r < 64) <|
    let s := s.airTime t
    if s.rd (R.AIR_RU_STATE_STATE r) != 1 then s else (s.wr (R.AIR_RU_STATE_STATE r) 2).emit .netconf [r]

/-- RU_CONFIGURED: READY. -/
def execRuConfigured (r : Nat) (catB : Bool) (t : Nat) (s : State) : Ans :=
  onUnit (r < 64) <|
    let s := s.airTime t
    if s.rd (R.AIR_RU_STATE_STATE r) != 2 then s
    else
      let s := { s with air := { s.air with discovered := true } }
      ((s.wrs [(R.AIR_RU_STATE_STATE r, 3), (R.AIR_RU_STATE_CAT_B r, if catB then 1 else 0)]).flag R.AIR_EVENT_RU_READY).showAir

/-- A READY radio unit becomes LOST; its started carriers show RU_LOST. -/
def State.ruLost (s : State) (r : Nat) : State :=
  let t := (s.wr (R.AIR_RU_STATE_STATE r) 4).flag R.AIR_EVENT_RU_LOST
  (t.each allCarriers fun t k =>
    if t.rd (R.AIR_CARRIER_RU k) = r && 2 ≤ t.rd (R.AIR_CARRIER_STATE k) then t.wr (R.AIR_CARRIER_STATE k) 6 else t).showAir

/-- RU_SUPERVISION_MISS: the miss is the `inRow`-th in a row. -/
def execRuSupervisionMiss (r inRow t : Nat) (s : State) : Ans :=
  onUnit (r < 64) <|
    let s := s.airTime t
    if s.rd (R.AIR_RU_STATE_STATE r) != 3 then s
    else
      let s := s.sat (R.AIR_RU_SUP_MISS_COUNT r) 1
      if 3 ≤ inRow then s.ruLost r else s

/-- RU_UPLANE_SILENCE: 10 frames without uplink U-plane on a RUNNING carrier. -/
def execRuUplaneSilence (k t : Nat) (s : State) : Ans :=
  onUnit (k < 256) <|
    let s := s.airTime t
    let r := s.rd (R.AIR_CARRIER_RU k)
    if s.rd (R.AIR_CARRIER_STATE k) != 2 || s.now < (s.carrier k).lastUl + 100_000_000
      || s.rd (R.AIR_RU_STATE_STATE r) != 3 then s
    else s.ruLost r

/-! Whole-domain operations -/

/-- The governor sheds a carrier, or lets it run again (R356, R623). -/
def State.shedCarrier (s : State) (k : Nat) (on : Bool) : State :=
  let t := s.setCarrier k { s.carrier k with shed := on }
  if on && 2 ≤ t.rd (R.AIR_CARRIER_STATE k) && t.rd (R.AIR_CARRIER_STATE k) != 6 then t.wr (R.AIR_CARRIER_STATE k) 5 else t

/-- What a reset does to the radio domain beyond registers and cluster SRAM (R357, R388, R415). -/
def State.radioReset (s : State) : State := { s with air := .reset, clusters := [] }

end Sys2Proof.Machine
end

