-- ==== Sys2Proof/Machine/Reset.lean ====
section
/-! DEFINITION. Cold and warm resets (R649 to R651, R439, R589, R638). -/

namespace Sys2Proof.Machine

/-- Memory keys from here on are outside the device (host memory, peers, flash, owner memory): a reset leaves them. -/
def outerKeys : Nat := 0x4_0000_0000_0000_0000

/-- A flash write in progress is lost: its region holds old, new or partial data (R643, R651). -/
def State.spoilFlash (s : State) : State :=
  match s.dev.writing with
  | none => s
  | some (_, off, n) => s.scramble (flashKey off) n

/-- What every reset keeps: the instant, everything outside the device, the flash, what has been sent, the queue. -/
def State.bare (s : State) : State :=
  let s := s.spoilFlash
  { State.reset with
    now := s.now, mem := s.mem.filter fun e => outerKeys ≤ e.1, flash := s.flash, out := s.out,
    freeCtr := s.freeCtr, pending := s.pending, dev := { DevState.reset with resetEnd := s.now },
    pow := { PowState.reset with lastSample := s.now } }

/-- The registers that show flash contents from ROM on (R635, R638). -/
def State.showFlash (s : State) : State :=
  (s.wrs [(R.ASSAY_HEALTH_REPLACE, s.flash.health % 2), (R.ASSAY_HEALTH_REASON, s.flash.health / 2),
    (R.ASSAY_RETIRED_COUNT, s.flash.retired.length)]).showStrikes

/-- The clocks a cold reset starts at zero (R439). -/
def clkFrom (t : Nat) : ClkState :=
  { ClkState.reset with
    dev := ⟨0, t, 0⟩, domA := { DomState.reset with clk := ⟨0, t, 0⟩, updAt := t, syncAt := t },
    domB := { DomState.reset with clk := ⟨0, t, 0⟩, updAt := t, syncAt := t } }

/-- A cold reset (R649): `cause` as DEV_RESET_CAUSE codes it, the sampled straps, and whether THERMTRIP_N falls during
it, which holds the device in reset until power is removed (R651). -/
def State.coldReset (s : State) (cause straps : Nat) (trip : Bool) : State :=
  let b := s.bare
  let b := { b with clk := clkFrom s.now, dev := { b.dev with thermtrip := trip, stuck := trip } }
  (b.showFlash).wrs [(R.DEV_RESET_CAUSE_CAUSE, cause), (R.DEV_STRAP_STRAPS, straps)]

/-- The fields of a register that a warm reset keeps (R650). -/
def keptMask (a : Nat) : RegWord :=
  match regFind a with
  | none => 0
  | some x => x.reg.fields.foldl (fun m f => match f.acc with
      | .rws => m ||| bitMask f.lo f.width
      | .roKept => m ||| bitMask f.lo f.width
      | _ => m) 0

/-- The registers a warm reset keeps, on a register file that it has cleared. -/
def State.keepRegs (s : State) (old : Tbl RegWord) : State :=
  s.each old fun t e =>
    let m := keptMask e.1
    if m = 0 then t else t.wrWord e.1 ((regReset e.1 &&& ~~~ m) ||| (e.2 &&& m))

/-- A domain across a warm reset (R439): its clock and y go on, its servo is in ACQUIRE. -/
def DomState.keep (x : DomState) (t : Nat) : DomState :=
  { DomState.reset with clk := x.clk, ys := x.ys, updAt := t, syncAt := t }

/-- The time engine across a warm reset (R439): no step follows. -/
def ClkState.keep (c : ClkState) (t : Nat) : ClkState :=
  { ClkState.reset with
    dev := c.dev, domA := c.domA.keep t, domB := c.domB.keep t, settled := true, emitted := c.emitted, eecWas := true }

/-- A warm reset (R650): `cause` as DEV_RESET_CAUSE codes it. -/
def State.warmReset (s : State) (cause : Nat) (trip : Bool) : State :=
  let b := s.bare
  let b := { b with
    clk := s.clk.keep s.now, fw := { FwState.reset with log := s.fw.log },
    dev := { b.dev with thermtrip := s.dev.thermtrip || trip, stuck := trip } }
  ((b.keepRegs s.regs).showFlash).wrs
    [(R.DEV_RESET_CAUSE_CAUSE, cause), (R.DEV_STRAP_STRAPS, s.rd R.DEV_STRAP_STRAPS), (R.FW_LOG_HEAD_SEQ, s.rd R.FW_LOG_HEAD_SEQ),
     (R.PCIE_SESSION_HGEN, s.rd R.PCIE_SESSION_HGEN), (R.HB_SESSION_STATUS_HGEN, s.rd R.PCIE_SESSION_HGEN),
     (R.TIME_DOM_STATUS_STATE 0, 1), (R.TIME_DOM_STATUS_STATE 1, 1), (R.TIME_STATUS_SYNCE_STATE, 2)]

end Sys2Proof.Machine
end

