-- ==== Sys2Proof/Machine/Phase.lean ====
section
/-! DEFINITION. The lifecycle and firmware status that several units share: the log ring (R572, R573), whether inference
admission is open (R44), DEV_STATUS.DEGRADED (R40), and the carriers' state after a firmware core stops or runs again. -/

namespace Sys2Proof.Machine

/-! The log ring -/

/-- FW_LOG_LEVEL of a core's class. -/
def State.logLevel (s : State) (core : Nat) : Nat :=
  if core = 0 then s.rd R.FW_LOG_LEVEL_AGATE
  else if core ≤ 4 then s.rd R.FW_LOG_LEVEL_JASPER
  else if core ≤ 6 then s.rd R.FW_LOG_LEVEL_FLINT
  else s.rd R.FW_LOG_LEVEL_SVC

/-- The UART echoes a record (R647): level 0 to 2, from ROM on with the CONSOLE strap, else from RUN on (log entry 70). -/
def State.echoes (s : State) (level : Nat) : Bool :=
  level ≤ 2 && (s.rd R.DEV_STRAP_STRAPS / 4 % 2 == 1 || 4 ≤ s.rd R.DEV_STATUS_PHASE)

/-- Appends a record (R572, R573): stamped with the device clock and the next SEQ, over the oldest of its slot. -/
def State.log (s : State) (core level trace : Nat) (args : List Nat) : State :=
  if 2 < level && s.logLevel core < level then s
  else
    let n := s.rd R.FW_LOG_HEAD_SEQ
    let r : LogRec := ⟨s.devTime, n, core, level, trace, args.map (· % 2 ^ 32)⟩
    let f := s.fw
    let t := { s with fw := { f with log := tblInsert (n % 32768) r (tblErase f.log (n % 32768)) } }
    (t.bump R.FW_LOG_HEAD_SEQ 1).iff (s.echoes level) fun t => t.emit .console [level, core, trace, n]

/-- A record as its 32 bytes (R572). -/
def LogRec.bytes (r : LogRec) : List Byte :=
  toBytes 8 r.time ++ toBytes 4 r.seq ++ toBytes 1 r.core ++ toBytes 1 r.level ++ toBytes 2 r.trace ++
  ((List.range 4).flatMap fun i => toBytes 4 (r.args.getD i 0))

/-! Admission and DEV_STATUS -/

/-- Inference admission may be open: in RUN, no stop asked for, Jasper not held, no shedding step from 3 on. The spec does
not say whether SCHED_CTRL.ADMIT_EN = 0 makes INFER_OPEN and ADMIT_OPEN fall; here it only keeps Jasper from deciding, and
both stay (DESIGN CHOICE, log entry 92). -/
def State.mayAdmit (s : State) : Bool :=
  s.inRun && s.dev.stop == .none && s.rd (R.FW_CORE_STATUS_STATE 1) != 3 && s.rd R.POWER_STATUS_SHED_STEP < 3

/-- SCHED_STATUS.ADMIT_OPEN and DEV_STATUS.INFER_OPEN follow (R44, R326, R570, R623). -/
def State.showAdmit (s : State) : State :=
  let n := fun (b : Bool) => if b then 1 else 0
  s.wrs [(R.SCHED_STATUS_ADMIT_OPEN, n (s.mayAdmit && !s.jasperDown)),
    (R.DEV_STATUS_INFER_OPEN, n (s.mayAdmit && s.dev.served))]

/-- DEV_STATUS.DEGRADED: a shedding step in force, or a restart of Agate, Jasper or Flint (R40, R566). -/
def State.showDegraded (s : State) : State :=
  let b := 0 < s.rd R.POWER_STATUS_SHED_STEP || (List.range 7).any fun c => s.rd (R.FW_CORE_STATUS_STATE c) == 2
  s.wr R.DEV_STATUS_DEGRADED (if b then 1 else 0)

/-- The carriers that serve or run null take the state the units around them give (R352, R359). -/
def State.refreshCarriers (s : State) : State :=
  s.each allCarriers fun t k =>
    let st := t.rd (R.AIR_CARRIER_STATE k)
    if 2 ≤ st && st ≤ 4 then t.wr (R.AIR_CARRIER_STATE k) (t.carrierNow k) else t

/-- The phase becomes `p`, with the time since the end of reset for BOOT, BUILD and RUN (R655). -/
def State.enterPhase (s : State) (p : Nat) : State :=
  let t := s.wr R.DEV_STATUS_PHASE p
  if 2 ≤ p && p ≤ 4 then t.wr (R.DEV_PHASE_US_US p) (min ((s.now - s.dev.resetEnd) / 1000) 0xFFFF_FFFF) else t

/-- The device enters FAILED with a cause (R42), recorded by Agate (trace 0x0007). -/
def State.failBoot (s : State) (cause detail : Nat) : State :=
  ((s.wr R.DEV_STOP_CAUSE_CAUSE cause).enterPhase 0xF).log 0 1 0x0007 [cause, detail, 0, 0]

end Sys2Proof.Machine
end

