-- ==== Sys2Proof/Machine/JobRun.lean ====
section
/-! DEFINITION. Jobs as they run: start and launch (R254 to R257, R297), ends and records (R298 to R302), the deadline
monitor (R316 to R318), flushes (R301), the accounting period (R305), sequences and steps (R308 to R315). -/

namespace Sys2Proof.Machine

/-- The rings of logical tile `k` in a stream table: queue, base, size, HEAD 0, TAIL (R295). -/
def ringsOf (t : List Byte) (k : Nat) : List (Nat × Nat × Nat × Nat × Nat) :=
  (allQueues.filter fun q => (tableRing t (4 * k + q)).1 != 0).map fun q =>
    let r := tableRing t (4 * k + q)
    (q, r.1, r.2.1, 0, r.2.2)

/-- The STATE a tile shows while a job runs on it: CLAIMING where a claim waits for it (R320), RADIO with the radio (R327). -/
def State.runState (s : State) (site : Nat) : Nat :=
  if s.sched.claims.any fun c => c.site == site && !c.done then 3
  else if s.rd (R.SCHED_TILE_STATE site) = 6 then 6
  else 2

/-- A job's tiles loaded from a stream table (R147, R177, R297); the commands of a launch job wait for the ramp (R254). -/
def State.loadTiles (s : State) (j : JobRec) (cyc : Nat) (tiles : List Nat) (table : List Byte) : State :=
  s.each (List.range tiles.length) fun t k =>
    let site := tiles.getD k 0
    let opens := if j.launchEn && !j.fallback then cyc + 256 else 0
    (t.tileJobStart site cyc ⟨j.id, j.slice, j.gen, k, tiles, j.compat, opens⟩ (ringsOf table k)).wr
      (R.SCHED_TILE_STATE site) (s.runState site)

/-- A tile leaves its job: free once its level is 0, with the claim that waits for it, or with the radio still (R298, R320,
R322). -/
def State.freeTile (s : State) (site : Nat) : State :=
  let t := s.endStandIn site
  let st := if s.runState site ≠ 2 then s.runState site else if s.rd (R.TILE_ARRAY_STATUS_LEVEL site) = 0 then 1 else 4
  (t.wr (R.SCHED_TILE_STATE site) st).showScrub site

/-- The tiles of a job scrubbed and given back (R177, R298). -/
def State.endTiles (s : State) (j : JobRec) (cyc : Nat) : State :=
  s.each j.tiles fun t k => (t.jobEndScrub k cyc).freeTile k

/-- Every tile of a job aborted (R180, R297). -/
def State.abortTiles (s : State) (j : JobRec) (cyc : Nat) : State := s.each j.tiles fun t k => t.abortTile k cyc

/-- The charge of a job that ends or is replaced, up to the end of the job-end scrub, and its reservation settled (R306). A
job of Flint's is charged to no share group (R304). -/
def State.settle (s : State) (j : JobRec) : State × JobRec :=
  let c := if j.startCyc = 0 && j.startNs = 0 then 0 else j.width * (s.aclk - j.startCyc + s.rampAclk j.tiles)
  let t := s.iff (j.slice < 64) fun s => (s.addBalance j.group ((j.reserved : Int) - c)).bump (R.SCHED_SG_CYC_CYCLES j.group) c
  (t, { j with reserved := 0, charge := j.charge + c })

/-- The monitor's abort signal to Flint for the primary of a carrier in a slot (R318, R342): the slot table, while there is
one, knows of it; the armed entries fire with COND_ABORT_FIRE. -/
def State.signalAbort (s : State) (j : JobRec) : State :=
  match j.air with
  | none => s
  | some (n, l) =>
    match s.slotTable (j.slice - 64) n with
    | none => s
    | some tab => if tab.aborted.contains l then s else s.putTable (j.slice - 64) { tab with aborted := l :: tab.aborted }

/-- A neural primary gives way to the classical path: its signal is raised and the monitor waits for the path's (R318). -/
def State.giveWay (s : State) (j : JobRec) : State :=
  (((s.putJob { j with phase := .classical, fallback := true }).sat R.SCHED_FALLBACKS_COUNT 1).signalAbort j).showTiles j.slice

/-- A job that never started ends: its reservation goes back, its tiles are released at once (R258). -/
def State.endUnstarted (s : State) (j : JobRec) (status : Nat) : State :=
  if j.neural then (s.leaveTables j |>.each j.tiles fun t k => t.wr (R.SCHED_TILE_LAUNCH_PLANNED k) 0).giveWay { j with banks := [] } else
  let t := s.addBalance j.group j.reserved
  let t := if j.phase == .placed then t.each j.tiles fun t k => t.freeTile k else t
  (t.endJob { j with reserved := 0 } status).showTiles j.slice

/-- Waiting and held jobs that `f` selects end with a status. -/
def State.endWaiting (s : State) (f : JobRec → Bool) (status : Nat) : State :=
  s.each (s.sched.jobs.filter fun j => (j.phase == .waiting || j.phase == .held) && f j) fun t j =>
    if j.phase == .held then t.endUnstarted j status else t.endJob j status

/-- No job runs, waits for its fall-back or its classical path, or is about to start. -/
def State.jobsEnded (s : State) : Bool := !(s.sched.jobs.any fun j => j.live || j.phase == .classical)

/-- A cause reaches the stop controller: of two in one cycle the lower nonzero code counts (R42). -/
def State.reachStop (s : State) (cause : Nat) : State :=
  let d := s.dev
  let c := if d.stopCause ≠ 0 && d.stopSince = s.now then min d.stopCause cause else cause
  { s with dev := { d with stopCause := c, stopSince := s.now } }

/-- The device enters STOPPING; DEV_STOP_CAUSE records the cause that reached the stop controller (R42). -/
def State.enterStopping (s : State) : State := (s.wr R.DEV_STOP_CAUSE_CAUSE s.dev.stopCause).enterPhase 5

/-- An owner stop in RUN is through: the running jobs have ended and the radio has stopped, so the device enters STOPPING
(R46), in which the jobs that have not started are refused (R299). -/
def State.passStop (s : State) : State :=
  if s.inRun && s.dev.stop == .owner && s.dev.radioStopAt.isNone && s.jobsEnded then
    ((((s.reachStop 1).enterStopping).showAdmit).endWaiting (fun _ => true) 0x85).decision
  else s

/-- The primary gives way to the classical path (R318): its tiles end, the monitor waits for the path's signal. -/
def State.toClassical (s : State) (j : JobRec) (cyc : Nat) : State :=
  let t := (s.abortTiles j cyc).endTiles j cyc
  let (t, k) := t.settle j
  t.giveWay k

/-- The monitor replaces a primary (R316, R317). -/
def State.replacePrimary (s : State) (j : JobRec) (cyc : Nat) : State :=
  if j.neural then s.toClassical j cyc
  else
    let t := s.abortTiles j cyc
    let t := t.each j.tiles fun t k => t.jobEndScrub k cyc
    let (t, k) := t.settle j
    (t.putJob { k with phase := .fallbackDue, fallback := true }).sat R.SCHED_FALLBACKS_COUNT 1

/-- A fall-back of kind 0x01 starts on the first of its primary's tiles, under its own numeric policy (R248, R317): what
Jasper writes into its policy record is written before its first command. -/
def State.startFallback (s : State) (j : JobRec) (cyc : Nat) : State :=
  let n := j.fbTable.length / 64
  let pol := bankNum j.fbDesc 0x10 8
  let split := if j.fbMode / 4 % 2 = 1 then bankNum (s.hBytes j.slice pol 128) 4 2 else n
  let k := { j with
    phase := .running, fallback := true, startNs := s.now, startCyc := s.aclk, mode := j.fbMode, split := split,
    bound := (s.untilWord j.deadline).toNat, status := none }
  ((s.putJob k).writePolicy j.slice pol j.fbMode split n).loadTiles k cyc (j.tiles.take n) j.fbTable

/-- A placed job starts (R297), or gives way to its fall-back at once (R316; R623 for the radio's from step 7 on). -/
def State.startJob (s : State) (j : JobRec) (cyc : Nat) : State :=
  let toL := s.untilWord j.deadline - j.margin
  let k := { j with startNs := s.now, startCyc := s.aclk, startWord := s.devTime, phase := .running }
  let shed := 64 ≤ j.slice && j.fbKind != 0 && 7 ≤ s.rd R.POWER_STATUS_SHED_STEP
  if j.realtime && (toL < j.total || shed) then
    if j.neural then s.toClassical k cyc
    else ((s.putJob k).sat R.SCHED_FALLBACKS_COUNT 1).startFallback k cyc
  else
    let k := if j.realtime then { k with bound := min j.bound toL.toNat } else k
    (s.putJob k).loadTiles k cyc j.tiles j.table

/-- Inference tiles halt at job boundary: shedding step 4 or later (R623). -/
def State.tilesHalt (s : State) (j : JobRec) : Bool := j.slice < 64 && 4 ≤ s.rd R.POWER_STATUS_SHED_STEP

/-- Every tile of a placed job can be loaded: a job of Flint's waits until its tiles are with the radio, idle and at level 0
(R321, R322). -/
def State.mayLoad (s : State) (j : JobRec) : Bool :=
  j.slice < 64 || j.tiles.all fun k =>
    s.rd (R.SCHED_TILE_STATE k) == 6 && (s.tile k).job.isNone && s.rd (R.TILE_ARRAY_STATUS_LEVEL k) == 0

/-- JOB_START: a placed job's queues are loaded, counters cleared, its bound timer started. `standIns` are the stand-in
bindings (site, vault) that Jasper makes for the job (R183, R185). -/
def execJobStart (job cyc t : Nat) (standIns : List (Nat × Nat)) (s : State) : Ans :=
  .next <|
    let s := s.atTime t
    match s.job job with
    | none => s
    | some j =>
      if j.phase != .placed || s.tilesHalt j || !s.mayLoad j then s
      else
        ((s.standIns j.slice j.tiles standIns).startJob j cyc).showTiles j.slice

/-- JOB_LAUNCH: the local clock has reached LAUNCH_TIME (R254, R256, R257). A planned tile that is still held, or a
Jasper restart, leaves the job held. A loss of lock in this very cycle counts as locked. -/
def execJobLaunch (job cyc t : Nat) (s : State) (standIns : List (Nat × Nat) := []) : Ans :=
  .next <|
    let s := s.atTime t
    match s.job job with
    | none => s
    | some j =>
      let late := (-(s.untilWord j.launch)).toNat
      if j.phase != .held || 0 < s.untilWord j.launch || s.jasperDown then s
      else if j.mode / 16 % 2 = 1 && s.rd R.DEV_STATUS_TIME_LOCK = 0 && s.clk.lostAt ≠ s.now + 1 then (s.endUnstarted j 0x64).decision
      else if j.slack ≠ 0 && j.slack < late then (s.endUnstarted j 0x65).decision
      else if s.tilesHalt j || !(if j.slice < 64 then j.tiles.all (s.tileFree j.slice) else s.mayLoad j) || s.rd R.HB_SESSION_STATUS_STATE = 2 && j.hgen ≠ 0 then s
      else
        let s := s.each j.tiles fun s k => s.wr (R.SCHED_TILE_LAUNCH_PLANNED k) 0
        let flags := ofBytes (s.hBytes j.slice (j.policy + 0x40) 4) % 4 + 4 + (if late = 0 then 0 else 8)
        let s := s.put j.slice (j.policy + 0x40) (toBytes 4 flags)
        let s := s.put j.slice (j.policy + 0x48) (toBytes 4 (min late 0xFFFF_FFFF))
        ((s.standIns j.slice j.tiles standIns).startJob { j with launched := true } cyc).showTiles j.slice

/-- LAUNCH_PLAN_CLOSE: from LAUNCH_TIME − 5.05 ms the planned tiles take only jobs that end in time (R255). -/
def execLaunchPlanClose (job t : Nat) (s : State) : Ans :=
  .next <|
    let s := s.atTime t
    match s.job job with
    | none => s
    | some j => if j.phase == .held && s.untilWord j.launch ≤ 5_050_000 then s.putJob { j with closed := true } else s

/-- LAUNCH_SLACK_EXPIRY: a launch job still unstarted when its slack has run ends with LAUNCH_MISSED (R256). -/
def execLaunchSlackExpiry (job t : Nat) (s : State) : Ans :=
  .next <|
    let s := s.atTime t
    match s.job job with
    | none => s
    | some j =>
      if j.phase == .held && j.slack ≠ 0 && s.untilWord j.launch < -(j.slack : Int) then
        (s.endUnstarted j 0x65).decision
      else s

/-- Every used queue of every tile has reached STOPPED (R298). -/
def State.allStopped (s : State) (j : JobRec) : Bool :=
  j.tiles.all fun k => allQueues.all fun q =>
    !(s.queue k q).used || s.rd (R.TILE_CMDQ_STATUS_STATE k q) == 3

/-- The failing command the job reports: on the tile that failed first, the lower logical tile on a tie (R180, R181). -/
def State.firstFail (s : State) (j : JobRec) : Option (Nat × TileFail) :=
  let l := (List.range j.tiles.length).filterMap fun k =>
    ((s.tile (j.tiles.getD k 0)).fail.filter fun f => f.queue < 4).map fun f => (k, f)
  match l with
  | [] => none
  | a :: l => some (l.foldl (fun b c => if c.2.cyc < b.2.cyc then c else b) a)

/-- Jasper closes the TILE windows of a slice that has no running job left (R509). -/
def State.closeTileWindows (s : State) (x : Nat) : State :=
  if x < 64 && !(s.sched.jobs.any fun j => j.slice == x && j.live) then
    s.each ((List.range 192).filter fun w => s.rd (R.FAB_WIN_CTRL_KIND w) == 2 && s.rd (R.FAB_WIN_TARGET_SLICE w) == x) fun t w =>
      (t.wr (R.FAB_WIN_CTRL_KIND w) 0).wr (R.FAB_WIN_CTRL_KIND w).shadow 0
  else s

/-- A running job ends in `status` (R298, R306, R317, R318). -/
def State.closeJob (s : State) (j : JobRec) (cyc status : Nat) : State :=
  let st := if j.fallback then (if status = 0 then 5 else 6) else status
  if j.neural && status ≠ 0 then s.toClassical j cyc
  else
    let t := (s.abortTiles j cyc).endTiles j cyc
    let (t, k) := t.settle j
    ((t.endJob k st).showTiles j.slice).closeTileWindows j.slice

/-- Identities 0x06 and 0x07 checked for the group and the queue of a job (R532). -/
def State.checkJob (s : State) (j : JobRec) : State :=
  let g := j.group
  let s := s.iff (!s.groupBooks g) fun u => u.booksFault 6 g 0 0
  s.iff (j.slice < 64 && !s.jobBooks j.slice j.queue) fun u => u.booksFault 7 (j.slice * 32 + j.queue) 0 0

/-- JOB_END: every used queue has stopped, or a command failed, or the job was aborted; then a new decision. -/
def execJobEnd (job cyc t : Nat) (s : State) : Ans :=
  .next <|
    let s := s.atTime t
    match s.job job with
    | none => s
    | some j =>
      if j.phase != .running then s
      else
        match s.firstFail j, j.status with
        | some (k, f), _ =>
          let site := j.tiles.getD k 0
          ((s.closeJob { j with
            code := f.code, failTile := k, failQueue := f.queue,
            failIndex := s.rd (R.TILE_CMDQ_ERR_INDEX_INDEX site f.queue) } cyc 1).decision.passStop).checkJob j
        | none, some st => ((s.closeJob j cyc st).decision.passStop).checkJob j
        | none, none => if s.allStopped j then ((s.closeJob j cyc 0).decision.passStop).checkJob j else s

/-- JOB_BOUND_EXPIRY: at start + bound the timer aborts the job on every tile; a job all of whose queues have stopped
in this cycle ends OK (R325), the primary of a REALTIME job gives way to its fall-back (R316). -/
def execJobBoundExpiry (job cyc t : Nat) (s : State) : Ans :=
  .next <|
    let s := s.atTime t
    match s.job job with
    | none => s
    | some j =>
      if j.phase != .running || s.now < j.startNs + j.bound || s.allStopped j || (s.firstFail j).isSome then s
      else if j.realtime && !j.fallback then s.replacePrimary j cyc
      else (s.abortTiles j cyc).putJob { j with status := some 2 }

/-- The instant L less a time, in ns from now: DEADLINE − MARGIN_US − `d`. -/
def State.beforeL (s : State) (j : JobRec) (d : Nat) : Int := s.untilWord j.deadline - j.margin - d

/-- A VALID checkpoint of a running REALTIME primary that has not been reached yet. -/
def JobRec.awaits (j : JobRec) (i : Nat) : Bool :=
  j.phase == .running && j.realtime && !j.fallback && i < 4 && j.checkpoint i / 2 ^ 14 % 2 == 1 && !j.checks.contains i

/-- REMAIN_US of a checkpoint in ns. -/
def JobRec.remain (j : JobRec) (i : Nat) : Nat := j.checkpoint i / 2 ^ 16 % 2 ^ 16 * 1000

/-- The counter of a checkpoint has reached its TARGET. -/
def State.checkReached (s : State) (j : JobRec) (i : Nat) : Bool :=
  let c := j.checkpoint i
  countReached (s.rd (R.TILE_ARRIVAL_VALUE (j.tiles.getD (c % 256) 0) (c / 2 ^ 8 % 64))) (c / 2 ^ 32)

/-- CHECKPOINT_REACHED: the projection is formed; beyond L the primary is aborted. -/
def execCheckpointReached (job i cyc t : Nat) (s : State) : Ans :=
  .next <|
    let s := s.atTime t
    match s.job job with
    | none => s
    | some j =>
      if !j.awaits i || !s.checkReached j i then s
      else if s.beforeL j (j.remain i) < 0 then s.replacePrimary j cyc
      else s.putJob { j with checks := i :: j.checks }

/-- CHECKPOINT_TIMEOUT: a checkpoint not reached by L − REMAIN_US; one reached in this very cycle is judged by its
projection (R325). -/
def execCheckpointTimeout (job i cyc t : Nat) (s : State) : Ans :=
  .next <|
    let s := s.atTime t
    match s.job job with
    | none => s
    | some j =>
      if !j.awaits i || 0 < s.beforeL j (j.remain i) then s
      else if s.checkReached j i && 0 ≤ s.beforeL j (j.remain i) then s.putJob { j with checks := i :: j.checks }
      else s.replacePrimary j cyc

/-- FALLBACK_START: a kind 0x01 fall-back starts once its tiles, which the job has kept, are at level 0. -/
def execFallbackStart (job cyc t : Nat) (s : State) : Ans :=
  .next <|
    let s := s.atTime t
    match s.job job with
    | none => s
    | some j =>
      if j.phase == .fallbackDue && j.tiles.all fun k => s.rd (R.TILE_ARRAY_STATUS_LEVEL k) == 0 && (s.tile k).job.isNone then
        s.startFallback j cyc
      else s

/-- CLASSICAL_DONE_SIGNAL: the last COND stream's signal arrives by DEADLINE (R318, R408). -/
def execClassicalDoneSignal (job t : Nat) (s : State) : Ans :=
  .next <|
    let s := s.atTime t
    match s.job job with
    | none => s
    | some j => if j.phase == .classical && 0 ≤ s.untilWord j.deadline then (s.endJob j 5).passStop else s

/-- DEADLINE_EXPIRY: DEADLINE has come without that signal (R318). -/
def execDeadlineExpiry (job t : Nat) (s : State) : Ans :=
  .next <|
    let s := s.atTime t
    match s.job job with
    | none => s
    | some j => if j.phase == .classical && s.untilWord j.deadline ≤ 0 then (s.endJob j 6).passStop else s

/-! Doorbells, records and flushes -/

/-- JQ_DOORBELL: a JQ_TAIL write, ignored where it would pass the ring's size (R148, R301); sampled at the decision it
brings. -/
def execJqDoorbell (x q tail t : Nat) (s : State) : Ans :=
  onUnit (x < 64 && q < 32) <|
    let s := s.atTime t
    if !s.sliceOpen x then s.windowErr
    else if 2 ^ s.rd (R.JQ_SIZE_SIZE_LOG2 x q) < toField 32 ((tail : Int) - s.rd (R.JQ_HEAD_HEAD x q)) then s
    else (s.wr (R.JQ_TAIL_TAIL x q) tail).decision

/-- CQ_FULL follows the free entries of the ring (R302). -/
def State.showCq (s : State) (x q : Nat) : State :=
  let full := 2 ^ s.rd (R.CQ_SIZE_SIZE_LOG2 x q) ≤ s.cqUsed x q
  match s.rd (R.JQ_STATUS_STATE x q) with
  | 1 => if full then s.wr (R.JQ_STATUS_STATE x q) 2 else s
  | 2 => if full then s else s.wr (R.JQ_STATUS_STATE x q) 1
  | _ => s

/-- One MSI-X vector: at most once per 2 µs, a send within that time waits (R584). -/
def State.sendVector (s : State) (v : Nat) : State :=
  let last := tblGet 0 s.host.vecAt v
  if last ≠ 0 && s.now < last + 2000 then
    { s with host := { s.host with vecDue := if s.host.vecDue.contains v then s.host.vecDue else v :: s.host.vecDue } }
  else { s with host := { s.host with vecAt := tblSet 0 s.host.vecAt v s.now } }.emit .pcie [0, v]

/-- The vector of an attached queue is sent for a record (R584). -/
def State.ringVector (s : State) (x q : Nat) : State :=
  match s.host.attached.find? fun a => a.slice == x && a.qmask / 2 ^ q % 2 == 1 with
  | some a => s.sendVector (a.base + q)
  | none => s

/-- COMPLETION_WRITE: the oldest held record of a queue goes to its ring when an entry is free; a record of an older
GEN or HGEN is dropped (R302, R541, R587). A job of Flint's reports to Flint, and a neural primary that ended with OK
advances arrival counter `decode` of its cluster, the one its decode entry waits on (R408). -/
def execCompletionWrite (x q decode t : Nat) (s : State) : Ans :=
  onUnit (x < 80 && q < 32 && decode < 64) <|
    let s := s.atTime t
    match s.sched.jobs.find? fun j => j.slice == x && j.queue == q && j.phase == .ended with
    | none => s
    | some j =>
      if 64 ≤ x then
        ((s.dropJob j.id).emit .completion [x, j.id] (j.record 0)).iff (j.fbKind == 2 && j.status == some 0)
          (·.bump (R.RADIO_CNT_VALUE (x - 64) decode) 1)
      else if s.gen x ≠ j.gen then (s.dropJob j.id).staleDrop x
      else
        let base := s.rd (R.CQ_BASE_ADDR x q) * 32
        let size := 2 ^ s.rd (R.CQ_SIZE_SIZE_LOG2 x q)
        let tail := s.rd (R.CQ_TAIL_TAIL x q)
        if (j.hgen ≠ 0 && j.hgen ≠ s.rd R.HB_SESSION_STATUS_HGEN)
          || (2 ^ 56 ≤ base && s.rd R.DEV_STATUS_HOST_SESSION = 0) then
          (s.dropJob j.id).sat R.PCIE_STALE_DROP_COUNT 1
        else if size ≤ s.cqUsed x q then s
        else
          let pass := toField 32 ((tail : Int) - tblGet 0 s.sched.ringBase (x * 32 + q)) / size
          let s := (s.dropJob j.id).put x (base + 32 * (tail % size)) (j.record (1 - pass % 2))
          (((s.bump (R.CQ_TAIL_TAIL x q) 1).showCq x q).emit .completion [x, q, tail]).ringVector x q

/-- The descriptors of a queue between HEAD and TAIL fetched, each a job that ends with a status. -/
def State.drainRing (s : State) (x q status : Nat) : Nat → State
  | 0 => s
  | n + 1 =>
    if s.rd (R.JQ_HEAD_HEAD x q) = s.rd (R.JQ_TAIL_TAIL x q) then s
    else
      let d := s.vbytes x (s.headAddr x q) 128
      let t := (s.submit x q (s.rd (R.JQ_HEAD_HEAD x q)) 0 [] d).bump (R.JQ_HEAD_HEAD x q) 1
      match t.sched.jobs.getLast? with
      | some j => (t.endJob j status).drainRing x q status n
      | none => t

/-- JQ_FLUSH: every waiting and held job of the queue completes with CANCELLED. -/
def execJqFlush (x q t : Nat) (s : State) : Ans :=
  onUnit (x < 64 && q < 32) <|
    let s := s.atTime t
    if !s.sliceOpen x then s.windowErr
    else (((s.endWaiting (fun j => j.slice == x && j.queue == q) 4).drainRing x q 4 4096)).decision

/-! Engine time (R305) -/

/-- A group has a waiting, held or running job. -/
def State.groupActive (s : State) (g : Nat) : Bool :=
  (s.sched.jobs.any fun j => j.phase != .ended && j.slice < 64 && s.groupOf j.slice j.queue == g) ||
  allSlices.any fun x => s.sliceOpen x && (List.range 31).any fun q =>
    s.rd (R.JQ_CTRL_ENABLE x q) == 1 && s.groupOf x q == g && s.rd (R.JQ_HEAD_HEAD x q) != s.rd (R.JQ_TAIL_TAIL x q)

/-- One group credited; the cap is 10 times the credit (R305). -/
def State.credit (s : State) (g c : Nat) : State :=
  let b := s.balance g + c
  let k := if (10 * c : Nat) < b then (b - (10 * c : Nat)).toNat else 0
  let x := s.sched
  let t := { s with sched := { x with credited := tblSet 0 x.credited g (tblGet 0 x.credited g + c),
                                      clipped := tblSet 0 x.clipped g (tblGet 0 x.clipped g + k) } }
  if (10 * c : Nat) < b then (t.wr (R.SCHED_SG_BAL_BALANCE g) (10 * c)).bump R.SCHED_CLIPPED_CYCLES k
  else t.addBalance g c

/-- The accounting period of an instant of the device clock, in ms (R305). -/
def State.periodNow (s : State) : Nat := s.devNs / 1_000_000

/-- ACCOUNTING_PERIOD: at a boundary of the local clock's milliseconds the period's supply is divided among the active groups
by weight, the remainder to the lowest; then a decision. -/
def execAccountingPeriod (t : Nat) (s : State) : Ans :=
  .next <|
    let s := (s.atTime t).supplyMark
    let u := s.sched.supply
    if s.periodNow = s.sched.periodAt then s else
    let s := { s with sched := { s.sched with supply := 0, periodAt := s.periodNow } }
    let act := (List.range 256).filter s.groupActive
    let w := fun g => s.rd (R.SCHED_SG_WEIGHT_WEIGHT g)
    let total := (act.map w).sum
    let share := fun g => if total = 0 then 0 else u * w g / total
    let rest := u - (act.map share).sum
    let s := s.each act fun t g => t.credit g (share g + if act.head? == some g then rest else 0)
    s.decision

/-! Sequences and steps -/

/-- SEQ_ENTRY_WRITE: a tenant write of word `w` of entry `i` (R308, R309). -/
def execSeqEntryWrite (x i w v t : Nat) (s : State) : Ans :=
  onUnit (x < 64 && w < 4) <|
    let s := s.atTime t
    if !s.sliceOpen x || s.rd (R.SC_SEQ_SEQ_SHARE x) ≤ i then s.windowErr
    else if s.rd (R.SEQ_STATE_STATE x i) ≠ 0 then
      if w = 0 && v % 4 = 3 then (s.wr (R.SEQ_STATE_STATE x i) 3).freeDone x else s
    else
      match w with
      | 1 => s.wr (R.SEQ_POS_POS x i) v
      | 2 => s.wr (R.SEQ_PROMPT_LEN_PROMPT_LEN x i) v
      | 3 => s.wr (R.SEQ_KV_HANDLE_KV_HANDLE x i) v
      | _ =>
        let st := if v % 4 = 1 && s.rd (R.SEQ_PROMPT_LEN_PROMPT_LEN x i) ≤ s.rd (R.SEQ_POS_POS x i) then 2 else v % 4
        ((s.wr (R.SEQ_STATE_STATE x i) st).wr (R.SEQ_STATE_MODEL x i) (v / 256 % 16)).freeDone x

/-- The entries of a model in a state. -/
def State.seqsOf (s : State) (x m st : Nat) : List Nat :=
  (List.range (s.rd (R.SC_SEQ_SEQ_SHARE x))).filter fun i =>
    s.rd (R.SEQ_STATE_STATE x i) == st && s.rd (R.SEQ_STATE_MODEL x i) == m

/-- The work list of a step (R312, R314, R315): decode entries, then prefill entries with their tokens. -/
def State.workList (s : State) (x m : Nat) : List Nat × List (Nat × Nat) :=
  let dec := s.seqsOf x m 2
  let pre := (s.seqsOf x m 1).take (s.rd (R.MODEL_CTRL_PREFILL_SEQ_M1 x m) + 1)
  let priv := s.rd R.SCHED_PRIV_MASK_MASK / 2 ^ x % 2 == 1
  let chunk := if priv then s.rd (R.SCHED_PRIV_CHUNK_CHUNK64 x) * 64 else 2048
  let toks := pre.map fun i => (i, min chunk (s.rd (R.SEQ_PROMPT_LEN_PROMPT_LEN x i) - s.rd (R.SEQ_POS_POS x i)))
  if priv || toks.isEmpty then (dec, toks)
  else if dec.isEmpty || !s.sched.lastPrefill.contains (x * 16 + m) then ([], toks)
  else (dec, [])

/-- The bytes of a work list (R312); the decode batches of a compatibility job go to the array (R252). -/
def State.workBytes (s : State) (x m : Nat) (compat : Bool) (dec : List Nat) (pre : List (Nat × Nat)) : List Byte :=
  let d := dec.length
  let path := if d = 0 then 2 else if d ≤ 8 && !compat then 0 else 1
  let batches := if d = 0 then 0 else if d ≤ 8 then 1 else (d + 255) / 256
  toBytes 4 (s.rd (R.MODEL_STATUS_STEPS x m)) ++ toBytes 2 d ++ toBytes 2 pre.length ++ toBytes 1 path ++
  toBytes 1 batches ++ toBytes 6 0 ++
  (dec.map (fun i => (i, 1)) ++ pre).flatMap fun (e : Nat × Nat) =>
    toBytes 2 e.1 ++ toBytes 2 e.2 ++ toBytes 4 (s.rd (R.SEQ_POS_POS x e.1))

/-- A step that ends before its job is submitted (R311). -/
def State.stepFails (s : State) (x m : Nat) : State :=
  ((s.wr (R.MODEL_STATUS_LAST x m) 0x81).bump (R.MODEL_STATUS_STEPS x m) 1).wr (R.MODEL_CTRL_ENABLE x m) 0

/-- The newest job carries the matrix operations of its step (R239, R246). -/
def State.withOps (s : State) (ops : List (Nat × Nat × Nat)) : State :=
  match s.sched.jobs.getLast? with
  | some j => s.putJob { j with ops := ops }
  | none => s

/-- STEP_BUILD: with ENABLE set and no step running, the work list is written and the step job submitted in queue 31. `ops`
are the matrix operations (N, K, K_c) of the model's step, which the builder splits (R239). -/
def execStepBuild (x m t : Nat) (s : State) (ops : List (Nat × Nat × Nat) := []) : Ans :=
  onUnit (x < 64 && m < 16) <|
    let s := s.atTime t
    let (dec, pre) := s.workList x m
    let busy := s.sched.jobs.any fun j => j.slice == x && j.model == m + 1 && j.phase != .ended
    if !s.sliceOpen x || s.rd (R.MODEL_CTRL_ENABLE x m) = 0 || busy || s.jasperDown
      || (dec.isEmpty && pre.isEmpty) then s
    else
      let a := s.rd (R.MODEL_WLIST_ADDR x m)
      let d := s.rd (R.MODEL_STEP_DESC x m)
      let l := s.workBytes x m (s.policyMode x (s.vbytes x d 128) % 4 == 1) dec pre
      let key := x * 16 + m
      let kinds := s.sched.lastPrefill.filter (· != key)
      let s := { s with sched := { s.sched with lastPrefill := if dec.isEmpty then key :: kinds else kinds } }
      if s.rd (R.MODEL_WLIST_LEN_BYTES x m) < l.length || !s.addrOk x a 64 l.length || !s.addrOk x d 64 128 then
        s.stepFails x m
      else
        let s := s.put x a l
        let u := s.submit x 31 (s.rd (R.MODEL_STATUS_STEPS x m)) (m + 1) (dec.map (fun i => (i, 1)) ++ pre) (s.vbytes x d 128)
        (u.withOps ops).decision

end Sys2Proof.Machine
end

