-- ==== Sys2Proof/Machine/Claim.lean ====
section
/-! DEFINITION. Swing tiles and the radio claim (R319 to R324), and the full scrub of a tile that changes holder
(R178). -/

namespace Sys2Proof.Machine

/-- The claim of a tile that is not released yet. -/
def State.claimOf (s : State) (site : Nat) : Option Claim := s.sched.claims.find? fun c => c.site == site

/-- The state with a tile's claim replaced. -/
def State.putClaim (s : State) (c : Claim) : State :=
  { s with sched := { s.sched with claims := s.sched.claims.map fun d => if d.site == c.site then c else d } }

/-- Tiles with a completed claim (R327). -/
def State.showClaimed (s : State) : State :=
  s.wr R.SCHED_STATUS_CLAIMED (s.sched.claims.filter fun c => c.done).length

/-- A job placed on the tile but not started stays at its queue head, uncharged and not admitted: the claim wins (R325). -/
def State.unplace (s : State) (site : Nat) : State :=
  match s.sched.jobs.find? fun j => j.phase == .placed && j.tiles.contains site with
  | none => s
  | some j =>
    let t := ((s.addBalance j.group j.reserved).leaveTables j).each j.tiles fun t k => t.wr (R.SCHED_TILE_STATE k) 1
    let n := R.JQ_CNT_ADMITTED_COUNT j.slice j.queue
    let t := t.wr n (toField 32 ((t.rd n : Int) - 1))
    t.putJob { j with phase := .waiting, tiles := [], count := 0, reserved := 0, banks := [] }

/-- CLAIM: accepted for a swing tile held by a slice or by no one; any other tile is refused (R320), and every claim
from shedding step 7 on (R623). No claim is sent while no Flint core is active (R569). -/
def execClaim (site cluster t : Nat) (s : State) : Ans :=
  onUnit (site < 136 && cluster < 16) <|
    let s := s.atTime t
    let h := s.rd (R.SCHED_TILE_HOLDER site)
    if !s.flintUp || 7 ≤ s.rd R.POWER_STATUS_SHED_STEP || !s.tileOn site || s.rd (R.SCHED_TILE_SWING site) = 0 || !(h < 64 || h == 0x7E) || (s.claimOf site).isSome then s
    else
      let s := s.unplace site
      let c : Claim := ⟨site, cluster, s.now, false, false, false⟩
      (({ s with sched := { s.sched with claims := s.sched.claims ++ [c] } }.sat R.SCHED_CLAIM_COUNT_COUNT 1).wr
        (R.SCHED_TILE_STATE site) 3).showScrub site

/-- A released tile scrubs and returns to its plan holder; its engines have their driver again (R186, R322, R324). -/
def State.returnTile (s : State) (site cyc : Nat) : State :=
  let s := s.supplyMark
  let t := (s.fullScrub site cyc).wrs [(R.SCHED_TILE_HOLDER site, s.planHolder site), (R.SCHED_TILE_STATE site, 1)]
  let t := { t with sched := { t.sched with
    claims := t.sched.claims.filter fun c => c.site != site, scrubDue := t.sched.scrubDue.filter (· != site) } }
  (t.rebindTile site).showClaimed

/-- A job of a slice holds the tile: placed, running, or with its fall-back due (R317). -/
def State.tenantOn (s : State) (site : Nat) : Bool :=
  s.sched.jobs.any fun j => j.slice < 64 && j.live && j.tiles.contains site

/-- CLAIM_COMPLETE: the job, its fall-back with it, has ended and the level is 0; the tile takes the full scrub and is rebound to the cluster.
A release that has come already acts in this cycle (R321, R322). -/
def execClaimComplete (site cyc t : Nat) (s : State) : Ans :=
  onUnit (site < 136) <|
    let s := s.atTime t
    match s.claimOf site with
    | none => s
    | some c =>
      if c.done || s.tenantOn site || (s.tile site).job.isSome || s.rd (R.TILE_ARRAY_STATUS_LEVEL site) ≠ 0 then s
      else
        let d := s.now - c.since
        let s := s.supplyMark
        let s := (s.fullScrub site cyc).wr (R.SCHED_TILE_STATE site) 6
        let s := { s with sched := { s.sched with scrubDue := s.sched.scrubDue.filter (· != site) } }
        let s := ((s.putClaim { c with done := true }).unbindTile site).showClaimed
        let s := s.wr R.SCHED_CLAIM_MAX_NS_NS (max (s.rd R.SCHED_CLAIM_MAX_NS_NS) (min d 0xFFFF_FFFF))
        if c.released then (s.returnTile site cyc).decision else s.placeRadio

/-- CLAIM_OVERRUN: a claim is not complete 250 µs after its acceptance. -/
def execClaimOverrun (site t : Nat) (s : State) : Ans :=
  onUnit (site < 136) <|
    let s := s.atTime t
    match s.claimOf site with
    | none => s
    | some c =>
      if c.done || c.overdue || s.now < c.since + 250_000 then s
      else (s.putClaim { c with overdue := true }).sat R.SCHED_CLAIM_OVER_COUNT 1

/-- A tile's holder follows the plan when it is free to move (R324). -/
def State.moveHolder (s : State) (site : Nat) : State :=
  let h := s.planHolder site
  s.wrs [(R.SCHED_TILE_HOLDER site, h), (R.SCHED_TILE_STATE site, if 0x40 ≤ h && h ≤ 0x4F then 6 else 1)]

/-- A tile of the radio reserve (R319). -/
def State.inReserve (s : State) (site : Nat) : Bool :=
  0x40 ≤ s.rd (R.SCHED_TILE_HOLDER site) && s.rd (R.SCHED_TILE_HOLDER site) ≤ 0x4F

/-- CLAIM_RELEASE: held until the claim is complete, and until a job of Flint's has left the tile and its level is 0 (R133);
then the tile returns, which is a tile-free event (R322). A reserve tile that the plan gives elsewhere moves at its release
(R324). -/
def execClaimRelease (site cyc t : Nat) (s : State) : Ans :=
  onUnit (site < 136) <|
    let s := s.atTime t
    let free := !s.jobOn site && (s.tile site).job.isNone && s.rd (R.TILE_ARRAY_STATUS_LEVEL site) == 0
    match s.claimOf site with
    | none => if s.inReserve site && s.planHolder site != s.rd (R.SCHED_TILE_HOLDER site) && free then
        (((s.supplyMark).fullScrub site cyc).moveHolder site).decision else s
    | some c =>
      if !c.done || !free then
        (s.putClaim { c with released := true }).showScrub site
      else (s.returnTile site cyc).decision

/-- FULL_SCRUB: a tile that changes holder, or whose slice was reset, scrubs and passes on (R178, R324, R551); one that Flint
has released returns (R322). A tile that a job holds moves when the job has ended (R293, R324). -/
def execFullScrub (site cyc t : Nat) (s : State) : Ans :=
  onUnit (s.tileOn site) <|
    let s := s.atTime t
    let due := s.sched.scrubDue.contains site || s.rd (R.SCHED_TILE_HOLDER site) != s.planHolder site
    if s.jobOn site || (s.tile site).job.isSome || s.rd (R.TILE_ARRAY_STATUS_LEVEL site) ≠ 0 then s
    else if (s.claimOf site).any fun c => c.done && c.released then (s.returnTile site cyc).decision
    else if !due || s.inReserve site || (s.claimOf site).isSome then s
    else
      let s := s.supplyMark
      let s := (s.fullScrub site cyc).moveHolder site
      { s with sched := { s.sched with scrubDue := s.sched.scrubDue.filter (· != site) } }.decision

end Sys2Proof.Machine
end

