-- ==== Sys2Proof/Machine/Measure.lean ====
section
/-! DEFINITION. Measurement registers and their event log (R604, R605), the digests they are extended by, the identity
layers (R593, R603) and the counters (R602). -/

namespace Sys2Proof.Machine

/-- The 64 bytes of a digest. -/
def digestBytes (d : BitVec 512) : List Byte := toBytes 64 d.toNat

/-- `n` 32-bit registers as one number, the first lowest. -/
def State.words (s : State) (f : Nat → Fld) (n : Nat) : Nat := ((List.range n).map fun i => s.rd (f i) * 2 ^ (32 * i)).sum

/-- A number written to `n` 32-bit registers. -/
def State.putWords (s : State) (f : Nat → Fld) (n v : Nat) : State :=
  s.each (List.range n) fun t i => t.wr (f i) (v / 2 ^ (32 * i))

/-- A digest register as a digest. -/
def State.digestAt (s : State) (f : Nat → Fld) : BitVec 512 := BitVec.ofNat 512 (s.words f 16)

/-- Appends an event record; a full log loses it (R605). -/
def State.appendEvent (s : State) (reg src : Nat) (d : BitVec 512) : State :=
  let x := s.sec
  if 512 ≤ x.log.length then s.flag R.SEC_STATUS_EVLOG_OVERFLOW
  else
    let l := x.log ++ [⟨reg, (Config.evType reg src).toNat, s.devTime, d⟩]
    ({ s with sec := { x with log := l } }).bump R.SEC_EVLOG_HEAD_COUNT 1

/-- An extend: M becomes SHA3-512(M ∥ D), and the log gets its record (R604). -/
def State.extendAt (s : State) (f : Nat → Fld) (reg src : Nat) (d : BitVec 512) : State :=
  let m := Config.sha3 (digestBytes (s.digestAt f) ++ digestBytes d)
  (s.putWords f 16 m.toNat).appendEvent reg src d

/-- An extend of MR `n`. -/
def State.extendMr (s : State) (n src : Nat) (d : BitVec 512) : State := s.extendAt (R.SEC_MR_VALUE n) n src d

/-- An extend of a slice's S0 (`k` = 0) or S1. -/
def State.extendSlice (s : State) (x k src : Nat) (d : BitVec 512) : State :=
  s.extendAt (if k = 0 then R.SLICE_MR_S0_VALUE x else R.SLICE_MR_S1_VALUE x) (0x40 + 2 * x + k) src d

/-- An event record as its 80 bytes (R605). -/
def EvRec.bytes (r : EvRec) : List Byte :=
  toBytes 1 r.reg ++ toBytes 1 r.type ++ toBytes 6 0 ++ toBytes 8 r.time ++ digestBytes r.digest

/-- Digest of the disabled-unit map in force: one byte per matrix site and vault (log entry 78). -/
def State.mapDigest (s : State) : BitVec 512 :=
  Config.sha3 ((allSites.map fun k => if s.tileOn k then (1 : Byte) else 0) ++ allVaults.map fun v => if s.vaultOn v then (1 : Byte) else 0)

/-- Owner key slot `k`. -/
def State.ownerSlot (s : State) (k : Nat) : OwnerKey := tblGet OwnerKey.empty s.flash.keys k

/-- Digest of the owner key store: identifier, usage and VALID of each slot (log entry 78). -/
def State.keyStoreDigest (s : State) : BitVec 512 :=
  Config.sha3 ((List.range 4).flatMap fun k =>
    let y := s.ownerSlot k
    toBytes 32 y.id ++ toBytes 1 y.usage ++ toBytes 1 (if y.valid then 1 else 0))

/-- Counter `n` of R602. -/
def State.counter (s : State) (n : Nat) : Nat := tblGet 0 s.flash.counters n

/-- A counter rises to `v`, never falls (R602). -/
def State.raise (s : State) (n v : Nat) : State :=
  let f := s.flash
  let m := max (s.counter n) v
  ({ s with flash := { f with counters := tblSet 0 f.counters n m } }).wr (R.SEC_ROLLBACK_VALUE n) m

/-- Digest of the eight counters (log entry 78). -/
def State.counterDigest (s : State) : BitVec 512 := Config.sha3 ((List.range 8).flatMap fun n => toBytes 4 (s.counter n))

/-- The key store as the SEC registers show it (R606, R614). -/
def State.showKeys (s : State) : State :=
  let t := s.each (List.range 4) fun t k =>
    let y := t.ownerSlot k
    ((t.wr (R.SEC_OWNER_USAGE_USAGE k) y.usage).wr (R.SEC_OWNER_USAGE_VALID k) (if y.valid then 1 else 0)).putWords
      (R.SEC_OWNER_KEYID_KEYID k) 8 y.id
  t.wr R.SEC_STATUS_OWNED (if (List.range 4).any fun k => (s.ownerSlot k).valid then 1 else 0)

/-! Keys (R603) -/

/-- The ASCII bytes of a label. -/
def label (l : String) : List Byte := l.toList.map fun c => BitVec.ofNat 8 c.toNat

/-- The seed of a key: the first 32 bytes of a SHA3-512 value. -/
def seedOf (l : List Byte) : Nat := (Config.sha3 l).toNat % 2 ^ 256

/-- Seed of IDevID. -/
def idevSeed : Nat := seedOf (digestBytes Config.uds ++ label "IDEV")

/-- DEVICE_ID. -/
def deviceId : Nat := (Config.keyId idevSeed).toNat

/-- CDI_A of an MR0 and an AGATE_SVN. -/
def cdiAOf (mr0 : BitVec 512) (svn : Nat) : BitVec 512 :=
  Config.sha3 (digestBytes Config.uds ++ digestBytes mr0 ++ toBytes 4 svn)

/-- CDI_B, from the registers that show its inputs. -/
def State.cdiBNow (s : State) : BitVec 512 :=
  Config.sha3 (digestBytes s.sec.cdiA ++ digestBytes (s.digestAt R.FW_SET_DIGEST_DIGEST) ++
    digestBytes (s.digestAt R.STRATA_DIGEST_DIGEST) ++ digestBytes (s.digestAt (R.SEC_MR_VALUE 5)))

/-- Seed of the Agate alias key. -/
def State.aliasSeed (s : State) : Nat := seedOf (digestBytes s.sec.cdiA ++ label "ALIAS")

/-- Seed of the attestation key. -/
def State.akSeed (s : State) : Nat := seedOf (digestBytes s.sec.cdiB ++ label "AK")

/-- Seed of a slice attestation key. -/
def State.sliceSeed (s : State) (x : Nat) : Nat :=
  seedOf (digestBytes s.sec.cdiB ++ toBytes 1 x ++ toBytes 2 (s.gen x) ++ digestBytes (s.digestAt (R.SLICE_MR_S0_VALUE x)))

end Sys2Proof.Machine
end

