-- ==== Sys2Proof/Machine/Assay.lean ====
section
/-! DEFINITION. The Assay unit's checks (R628, R629), the strike log's hours and its view (R631, R632, R640), and the
retirement of a tile (R633 to R635). -/

namespace Sys2Proof.Machine

/-- The samples replaced; ASSAY_STATUS.PENDING counts them. -/
def State.setSamples (s : State) (l : List Sample) : State :=
  { s with assay := { s.assay with samples := l } }.wr R.ASSAY_STATUS_PENDING l.length

/-- ASSAY_STATUS.NO_CHECKER: no enabled tile has holder none in the plan (R628). -/
def State.showChecker (s : State) : State :=
  s.wr R.ASSAY_STATUS_NO_CHECKER (if s.tilesOn.any fun k => s.planHolder k == 0x7E then 0 else 1)

/-- A tile that could check now: enabled, holder none in plan and fact, idle. -/
def State.mayCheck (s : State) (k : Nat) : Bool :=
  s.tileOn k && s.planHolder k == 0x7E && s.rd (R.SCHED_TILE_HOLDER k) == 0x7E && s.rd (R.SCHED_TILE_STATE k) == 1
    && (s.tile k).job.isNone && !s.sched.claims.any (fun c => c.site == k)

/-- The checker of a sample taken at `site` (R628): a tile of another sector is preferred, then the lowest site; never
the tile itself, nor one of `but`. -/
def State.checkerFor (s : State) (site : Nat) (but : List Nat) : Option Nat :=
  let l := allSites.filter fun k => s.mayCheck k && k != site && !but.contains k
  match l.find? fun k => k / 17 != site / 17 with
  | some k => some k
  | none => l.head?

/-- ASSAY_CHECK: the oldest sample without a checker goes to one. Checks stop at shedding step 3 (R623). -/
def execAssayCheck (t : Nat) (s : State) : Ans :=
  .next <|
    let s := s.atTime t
    match s.assay.samples.find? fun x => x.checker == 0 with
    | none => s
    | some x =>
      if !s.inRun || 3 ≤ s.rd R.POWER_STATUS_SHED_STEP then s
      else match s.checkerFor x.site [] with
        | none => s
        | some k =>
          let l := s.assay.samples.map fun y => if y == x then { x with checker := k + 1 } else y
          (s.setSamples l).wr (R.SCHED_TILE_STATE k) 2

/-- A checker takes the full scrub and is idle again. -/
def State.freeChecker (s : State) (cyc k : Nat) : State := (s.fullScrub k cyc).wr (R.SCHED_TILE_STATE k) 1

/-- A check that differed, decided by the third run (R629). -/
def State.thirdRun (s : State) (x : Sample) (rows third : List Nat) (cyc : Nat) : State :=
  let k := x.checker - 1
  let s := (s.sat R.ASSAY_MISMATCH_COUNT 1).flag R.ASSAY_EVENT_MISMATCH
  let other := s.checkerFor x.site [k]
  let s := match other with
    | some j => s.freeChecker cyc j
    | none => s
  if third = x.rows then s.tileStrike 1 k x.tag
  else if third = rows then s.tileStrike 1 x.site x.tag
  else (s.sat R.ASSAY_UNRESOLVED_COUNT 1).strike 7 0xFFFF (x.site / 17) (s.rd (R.TILE_ARRAY_STATUS_LEVEL x.site)) x.tag

/-- ASSAY_CHECK_DONE: the result rows of the oldest check in progress, and those of the third run where it differs. -/
def execAssayCheckDone (rows third : List Nat) (cyc t : Nat) (s : State) : Ans :=
  .next <|
    let s := s.atTime t
    match s.assay.samples.find? fun x => x.checker != 0 with
    | none => s
    | some x =>
      let s := s.setSamples (s.assay.samples.erase x)
      let s := if rows = x.rows then s.sat R.ASSAY_CHECKED_COUNT 1 else s.thirdRun x rows third cyc
      s.freeChecker cyc (x.checker - 1)

/-- ASSAY_SAMPLE_TIMEOUT: the oldest sample without a checker for 10 ms is dropped. -/
def execAssaySampleTimeout (t : Nat) (s : State) : Ans :=
  .next <|
    let s := s.atTime t
    match s.assay.samples.find? fun x => x.checker == 0 with
    | none => s
    | some x => if s.now < x.at_ns + 10_000_000 then s else (s.setSamples (s.assay.samples.erase x)).sat R.ASSAY_DROPPED_COUNT 1

/-- STRIKE_LOG_HOUR: an hour of RUN has passed: every record's LIFE_H falls, failed sensors gain an hour (R635). -/
def execStrikeLogHour (t : Nat) (s : State) : Ans :=
  .next <|
    let s := s.atTime t
    if !s.inRun then s
    else
      let f := s.flash
      let hours := (List.range 16).foldl (fun m n =>
        let bad := if n < 8 then tblGet 0 s.pow.badTj n else tblGet 0 s.mm.badSensor (n - 8)
        if 3 ≤ bad then tblSet 0 m n (tblGet 0 m n + 1) else m) f.sensorHours
      let l := f.strikes.map fun r => { r with life := r.life - 1 }
      (({ s with flash := { f with strikes := l, sensorHours := hours } }).showStrikes).checkHealth

/-- The 32 bytes of a strike-log record (R631). -/
def StrikeRec.bytes (r : StrikeRec) : List Byte :=
  toBytes 8 r.time ++ toBytes 1 r.kind ++ toBytes 1 r.life ++ toBytes 2 r.unit ++ toBytes 2 (toField 16 (signedOf 12 r.tj)) ++
  toBytes 2 r.vdd ++ toBytes 1 r.level ++ toBytes 1 r.step ++ toBytes 2 0 ++ toBytes 4 r.mw ++ toBytes 4 r.detail ++ toBytes 4 0

/-- ASSAY_LOG_SEL: record `i`, oldest first, latched into the eight data words; zeros where there is none. -/
def execAssayLogSel (i t : Nat) (s : State) : Ans :=
  .next <|
    let s := (s.atTime t).wr R.ASSAY_LOG_SEL_INDEX i
    let b := ((s.flash.strikes[i % 256]?).map StrikeRec.bytes).getD []
    s.each (List.range 8) fun t j => t.wr (R.ASSAY_LOG_DATA_DATA j) (bankNum b (4 * j) 4)

/-! Retirement (R633) -/

/-- DEV_INFO counts of the map in force (R41). -/
def State.showUnits (s : State) : State :=
  s.wrs [(R.DEV_INFO_TILES_ENABLED, s.tilesOn.length),
    (R.DEV_INFO_VAULTS_UNHOMED, (s.inferVaults.filter fun v => (s.homeTile v).isNone).length)]

/-- Drivers that the map does not give: stand-ins, and engines of tiles with the radio (R185). -/
def State.keepDrivers (s : State) : State :=
  s.each allSites fun t k =>
    let t := t.iff (t.rd (R.SCHED_TILE_STATE k) == 6 && !(0x40 ≤ t.planHolder k && t.planHolder k ≤ 0x4F)) (·.unbindTile k)
    t.iff (t.rd (R.TILE_SEAM_BIND_STANDIN_VALID k) == 1) fun t =>
      t.setDriver (t.rd (R.TILE_SEAM_BIND_STANDIN_VAULT k)) (some (k, 2))

/-- A held launch job planned on a retired tile is planned on another tile of its slice, the lowest that may take it. -/
def State.replanJob (s : State) (site : Nat) (j : JobRec) : State :=
  if j.phase != .held || !j.tiles.contains site then s
  else
    let ok := allSites.filter fun k => s.mayUse j.slice j.bound (j.mode / 32 % 2 == 1) k && !j.tiles.contains k
      && s.rd (R.SCHED_TILE_LAUNCH_PLANNED k) == 0
    let t := s.wr (R.SCHED_TILE_LAUNCH_PLANNED site) 0
    match ok.head? with
    | none => t
    | some k => (t.putJob { j with tiles := j.tiles.map fun i => if i = site then k else i }).flag (R.SCHED_TILE_LAUNCH_PLANNED k)

/-- A site that is to be retired can be: no job, level 0. -/
def State.retireReady (s : State) (site : Nat) : Bool :=
  s.assay.toRetire.contains site && (s.tile site).job.isNone && s.rd (R.TILE_ARRAY_STATUS_LEVEL site) == 0
    && !s.assay.samples.any fun x => x.checker == site + 1

/-- One site becomes OFF (R633, items 1 and 4). -/
def State.retireSite (s : State) (site : Nat) : State :=
  let f := s.flash
  let swing := s.rd (R.SCHED_TILE_SWING site)
  let t := { s with
    flash := { f with retired := f.retired ++ [site] },
    assay := { s.assay with toRetire := s.assay.toRetire.filter (· != site) },
    sched := { s.sched with claims := s.sched.claims.filter fun c => c.site != site, scrubDue := s.sched.scrubDue.filter (· != site) } }
  let t := t.wrs [(R.TILE_ARRAY_STATUS_STATE site, 0), (R.SCHED_TILE_STATE site, 0), (R.SCHED_TILE_HOLDER site, 0x7F),
    (R.SCHED_TILE_SWING site, 0)]
  t.drop R.DEV_INFO_SWING_TILES swing

/-- TILE_RETIRE: the sites with three unexpired strikes that are ready retire together, MR6 extended once (R637); `beams`
are the class G carriers whose reserve now falls short. -/
def execTileRetire (beams : List Nat) (t : Nat) (s : State) : Ans :=
  .next <|
    let s := s.atTime t
    let l := s.assay.toRetire.filter s.retireReady
    if l.isEmpty then s
    else
      let s := (s.supplyMark).each l State.retireSite
      let s := (s.showUnits).extendMr 6 3 s.mapDigest
      let s := ((s.adopt.keepDrivers).showClaimed).showChecker
      let s := s.each (beams.filter fun k => k < 256 && s.rd (R.AIR_CARRIER_STATE k) == 2) fun s k => s.wr (R.AIR_CARRIER_STATE k) 4
      let s := s.each l fun s k => s.each s.sched.jobs fun s j => s.replanJob k j
      let s := (s.wr R.ASSAY_RETIRED_COUNT s.flash.retired.length).flag R.ASSAY_EVENT_RETIRED
      let s := s.each allSlices fun s x => if s.rd (R.SLICE_STATE_STATE x) = 0 then s else s.showTiles x
      (s.checkHealth).decision

end Sys2Proof.Machine
end

