-- ==== Sys2Proof/Machine/Snap.lean ====
section
/-! DEFINITION. Commit groups as sets of register fields (R64 to R67): where a group's registers lie, the snapshot of
its shadow copy, and moving a snapshot into the active copy. -/

namespace Sys2Proof.Machine

/-- Every choice of indices of an array, with its offset. -/
def dimAll : List Dim → List (List Nat × Nat)
  | [] => [([], 0)]
  | d :: ds => (List.range d.count).flatMap fun i => (dimAll ds).map fun e => (i :: e.1, i * d.stride + e.2)

/-- The number of a list of indices in an array, the first index counting most. -/
def dimNumber : List Dim → List Nat → Nat
  | _ :: ds, i :: is => i * (ds.foldl (fun n e => n * e.count) 1) + dimNumber ds is
  | _, _ => 0

/-- The group a register belongs to, given the indices of its block instance and its own (R64). -/
def GroupSel.of : GroupSel → List Nat → Option Nat
  | .none, _ => Option.none
  | .fixed g, _ => some g
  | .indexed f d, is => some (f + is[d]?.getD 0)

/-- The bits of a register that belong to its commit group: its RW fields. -/
def RegDef.groupMask (r : RegDef) : RegWord :=
  if r.group = .none then 0
  else r.fields.foldl (fun m f => if f.acc = .rw then m ||| bitMask f.lo f.width else m) 0

/-- The active addresses of group `g` of instance `inst` of block `b`. -/
def groupAddrs (b : BlockDef) (inst g : Nat) : List Nat :=
  match (dimAll b.insts)[inst]? with
  | none => []
  | some (bi, bo) =>
    b.regs.flatMap fun r =>
      if r.group = .none then []
      else ((dimAll r.dims).filter fun e => r.group.of (bi ++ e.1) == some g).map fun e => b.base + bo + r.off + e.2

/-- The snapshot of a group's shadow copy: active addresses with the shadow words (R65). -/
def State.takeSnap (s : State) (b : BlockDef) (inst g : Nat) : List (Nat × RegWord) :=
  (groupAddrs b inst g).map fun a => (a, regWord s.regs (a + b.half))

/-- The bits of the register at an address that belong to its commit group. -/
def maskAt (a : Nat) : RegWord :=
  match regFind a with
  | some x => x.reg.groupMask
  | none => 0

/-- One register of a snapshot moves into the register at address `to`: its group's bits only. -/
def State.putGroup (s : State) (dst a : Nat) (w : RegWord) : State :=
  let m := maskAt a
  s.wrWord dst ((regWord s.regs dst &&& ~~~ m) ||| (w &&& m))

/-- A snapshot moves into the active copy (R65). -/
def State.applySnap (s : State) (l : List (Nat × RegWord)) : State := s.each l fun t e => t.putGroup e.1 e.1 e.2

/-- A snapshot acts: it moves into the active copy, and the shadow copy equals it (R65, R66). -/
def State.actSnap (s : State) (l : List (Nat × RegWord)) : State :=
  s.each l fun t e => (t.putGroup e.1 e.1 e.2).putGroup (e.1 + halfPage e.1) e.1 e.2

/-- The active copy of a group moves into its shadow copy (R66). -/
def State.discardGroup (s : State) (b : BlockDef) (inst g : Nat) : State :=
  s.each (groupAddrs b inst g) fun t a => t.putGroup (a + b.half) a (regWord t.regs a)

/-- The waiting commit of a group, if there is one. -/
def State.waitingFor (s : State) (slice : Option Nat) (btype inst g : Nat) : Option Commit :=
  s.strata.waiting.find? fun c => c.slice == slice && c.btype == btype && c.inst == inst && c.group == g

/-- The state without the waiting commit of a group. -/
def State.dropWaiting (s : State) (slice : Option Nat) (btype inst g : Nat) : State :=
  let x := s.strata
  { s with strata := { x with waiting := x.waiting.filter fun c =>
      !(c.slice == slice && c.btype == btype && c.inst == inst && c.group == g) } }

/-- CG_STATUS.PENDING of a control: 1 while one of its passed commits waits (R84). -/
def State.showPending (s : State) (slice : Option Nat) : State :=
  let b := if s.strata.waiting.any fun c => c.slice == slice then 1 else 0
  match slice with
  | none => s.wr R.CG_STATUS_PENDING b
  | some x => s.wr (R.SLICE_CG_STATUS_PENDING x) b

/-- The waiting commit of a group acts: its snapshot moves into the active copy (R67). -/
def State.actWaiting (s : State) (slice : Option Nat) (btype inst g : Nat) : State :=
  match s.waitingFor slice btype inst g with
  | none => s
  | some c => ((s.actSnap c.snap).dropWaiting slice btype inst g).showPending slice

end Sys2Proof.Machine
end

