-- ==== Sys2Proof/Machine/Ethernet.lean ====
section
/-! DEFINITION. Ethernet ports (R444 to R466): received frames and policers, egress queues, shapers, time gates, links.
Ports are numbered 0 to 39: fronthaul positions 0 to 31, then service positions 0 to 7. -/

namespace Sys2Proof.Machine

/-- Port `p` beyond its registers. -/
def State.port (s : State) (p : Nat) : PortState := tblGet PortState.reset s.ports p

/-- The state with port `p` replaced. -/
def State.setPort (s : State) (p : Nat) (x : PortState) : State := { s with ports := tblSet PortState.reset s.ports p x }

/-- A port exists on the device. -/
def portOk (p : Nat) : Bool := p < 40

/-- A service port. -/
def isService (p : Nat) : Bool := 32 ≤ p

/-- Queues of a port (R449). -/
def queueCount (p : Nat) : Nat := if isService p then 16 else 8

/-- BLOCK_TYPE and instance of a port (R73, R464). -/
def portUnit (p : Nat) : Nat × Nat := if isService p then (0x41, p - 32) else (0x40, p)

/-- The port is bundled by the LANE section (R444). -/
def State.portBundled (s : State) (p : Nat) : Bool :=
  (tblGet [] s.strata.lanes (if isService p then 2 else 1)).any fun e => e.1 == (portUnit p).2

/-- Device time in ps. -/
def State.devPs (s : State) (ps : Nat) : Nat := s.clk.dev.read s.now * 1000 / 65536 + ps

/-- ps per byte at the MAC rate (R445): 80 at 100GbE, 40 at 200GbE, 20 at 400GbE. -/
def State.bytePs (s : State) (p : Nat) : Nat := 80 / 2 ^ s.rd (R.PORT_STATUS_SPEED p)

/-- Transmission time of a frame in ps (R451). -/
def State.sendPs (s : State) (p len : Nat) : Nat := (len + 20) * s.bytePs p

/-! Gate lists (R455 to R458) -/

/-- The gate list that the GATE registers of a port describe. -/
def State.gateSet (s : State) (p : Nat) : GateSet where
  en := s.rd (R.GATE_CTRL_GATE_EN p) == 1
  cycle := s.rd (R.GATE_CYCLE_CYCLE_NS p)
  ext := s.rd (R.GATE_CYCLE_EXT_CYCLE_EXT_NS p)
  list := (List.range (s.rd (R.GATE_LIST_LEN_LEN p))).map fun i =>
    let e := s.rd (R.GATE_LIST_ENTRY p i)
    (e % 65536, e / 2 ^ 32)
  start := 0
  armed := 0

/-- Entries cut or stretched to `left` ns: a list that is short holds its last entry to the cycle's end. -/
def cutList : List (Nat × Nat) → Nat → List (Nat × Nat)
  | [], _ => []
  | [e], left => [(e.1, left)]
  | e :: l, left => if left ≤ e.2 then [(e.1, left)] else e :: cutList l (left - e.2)

/-- One cycle of a list as (GATES, length). -/
def GateSet.segs (g : GateSet) : List (Nat × Nat) := cutList g.list g.cycle

/-- The entries of a cycle that remain `off` ns into it. -/
def dropTime : List (Nat × Nat) → Nat → List (Nat × Nat)
  | [], _ => []
  | e :: l, off => if off < e.2 then (e.1, e.2 - off) :: l else dropTime l (off - e.2)

/-- The time until the first entry that closes queue `q`; none if each keeps it open. -/
def closeIn (q : Nat) : List (Nat × Nat) → Option Nat
  | [] => none
  | e :: l => if e.1 / 2 ^ q % 2 = 0 then some 0 else (closeIn q l).map (· + e.2)

/-- The offset of instant `τ` in its cycle. -/
def GateSet.off (g : GateSet) (τ : Nat) : Nat := if g.cycle = 0 then 0 else (τ - g.start) % g.cycle

/-- The start of the first cycle that the old list does not begin because the change at `c` lies within CYCLE_EXT_NS
after it (R457): `c` itself where there is none. -/
def GateSet.extFrom (g : GateSet) (c armed : Nat) : Nat :=
  if g.cycle = 0 then c
  else
    let from_ := max (c - g.ext) armed
    min c (g.start + max 1 ((from_ - g.start + g.cycle - 1) / g.cycle) * g.cycle)

/-- GATES of a list's last entry. -/
def GateSet.lastGates (g : GateSet) : Nat := ((g.list.getLast?).map (·.1)).getD 0xFFFF

/-- GATES in force at `τ`, with the armed list `nx` in view (R455, R457). -/
def gatesAt (cur nx : Option GateSet) (τ : Nat) : Nat :=
  match cur with
  | none => 0xFFFF
  | some g =>
    if !g.en then 0xFFFF
    else
      let late := match nx with
        | some n => decide (g.extFrom n.start n.armed ≤ τ)
        | none => false
      if late then g.lastGates else (((dropTime g.segs (g.off τ)).head?).map (·.1)).getD 0xFFFF

/-- The instant queue `q` next closes after `τ` on a list that runs on; none if never. -/
def GateSet.closeAt (g : GateSet) (q τ : Nat) : Option Nat :=
  if !g.en then none else (closeIn q (dropTime g.segs (g.off τ) ++ g.segs)).map (τ + ·)

/-- The next gate close of queue `q` after `τ` on the schedule that will be in force, an armed change included (R451,
R457); none if the queue stays open. -/
def nextClose (cur nx : Option GateSet) (q τ : Nat) : Option Nat :=
  let old := cur.bind fun g => g.closeAt q τ
  match nx with
  | none => old
  | some n =>
    let after := if n.en then n.closeAt q n.start else none
    let ext := match cur with
      | some g => if g.en then g.extFrom n.start n.armed else n.start
      | none => n.start
    let lastOpen := match cur with
      | some g => !g.en || g.lastGates / 2 ^ q % 2 == 1
      | none => true
    match old with
    | some x => if decide (x < ext) && decide (τ < ext) then some x
                else if ext < n.start && !lastOpen then some (max τ ext) else after
    | none => if ext < n.start && !lastOpen then some (max τ ext) else after

/-- The longest run of entries that keep queue `q` open. -/
def longestOpen (q run best : Nat) : List (Nat × Nat) → Nat
  | [] => max run best
  | e :: l => if e.1 / 2 ^ q % 2 = 1 then longestOpen q (run + e.2) best l else longestOpen q 0 (max run best) l

/-- W_q of R458 in ns; none where the queue is open throughout. -/
def GateSet.window (g : GateSet) (q : Nat) : Option Nat :=
  if !g.en || g.segs.all fun e => e.1 / 2 ^ q % 2 == 1 then none else some (longestOpen q 0 0 (g.segs ++ g.segs))

/-- Arms a list: its change time is fixed now (R456), and no earlier than 10 µs from now. -/
def State.armGate (s : State) (p : Nat) (g : GateSet) (base : Nat) : State :=
  let now := s.devNs
  let lead := now + 10_000
  let m := 2 ^ 32 * 1_000_000_000
  let at0 := now / m * m + (base / 2 ^ 32 * 1_000_000_000 + base % 2 ^ 30)
  let at0 := if at0 + m / 2 ≤ now then at0 + m else at0
  let c := if lead ≤ at0 || g.cycle = 0 then max lead at0 else at0 + (lead - at0 + g.cycle - 1) / g.cycle * g.cycle
  let x := s.port p
  (s.setPort p { x with next := some { g with start := c, armed := now } }).wrs
    [(R.GATE_CHANGE_TIME_TIME p, timeWord c), (R.PORT_STATUS_GATE_PENDING p, 1)]

/-! Queues (R449 to R454, R458) -/

/-- Frames of queue `q`. -/
def PortState.queue (x : PortState) (q : Nat) : List TxFrame := tblGet [] x.queues q

/-- The port with queue `q` replaced. -/
def PortState.setQueue (x : PortState) (q : Nat) (l : List TxFrame) : PortState := { x with queues := tblSet [] x.queues q l }

/-- Bytes queued. -/
def lenSum (l : List TxFrame) : Nat := l.foldl (fun n f => n + f.len) 0

/-- The queues of a port. -/
def portQueues (p : Nat) : List Nat := List.range (queueCount p)

/-- Bytes of the egress buffer in use: frames queued and in flight. -/
def PortState.used (x : PortState) : Nat :=
  x.queues.foldl (fun n e => n + lenSum e.2) ((x.flight.map fun f => f.1.len).getD 0)

/-- Drops heads that can never be sent (R458). -/
def State.dropLong (s : State) (p q : Nat) : Nat → State
  | 0 => s
  | n + 1 =>
    let x := s.port p
    match x.queue q, x.force_.bind (·.window q) with
    | f :: l, some w =>
      if w != 0 && w * 1000 < s.sendPs p f.len then
        ((s.setPort p (x.setQueue q l)).sat (R.PORT_Q_GATE_DROP_COUNT p q) 1).dropLong p q n
      else s
    | _, _ => s

/-- Heads that can never be sent leave every queue (R458). -/
def State.dropLongAll (s : State) (p : Nat) : State :=
  s.each (portQueues p) fun t q => t.dropLong p q ((t.port p).queue q).length

/-- Queue `q` is eligible (R451). -/
def State.eligible (s : State) (p q ps : Nat) : Bool :=
  let x := s.port p
  match x.queue q with
  | [] => false
  | f :: _ =>
    (s.rd (R.PORT_Q_BURST_SH_EN p q) == 0 || 1_000_000 ≤ tblGet 0 x.credit q) && x.open_ / 2 ^ q % 2 == 1 &&
    match nextClose x.force_ x.next q s.devNs with
    | none => true
    | some c => s.devPs ps + s.sendPs p f.len ≤ c * 1000

/-- A head whose latest start has passed (R452). -/
def State.late (s : State) (f : TxFrame) : Bool :=
  match f.latest with
  | some l => l < s.devNs
  | none => false

/-- Starts the head of the highest eligible queue, dropping late heads (R451, R452). -/
def State.startFrame (s : State) (p ps : Nat) : Nat → State
  | 0 => s
  | n + 1 =>
    let s := s.dropLongAll p
    match (portQueues p).reverse.find? fun q => s.eligible p q ps with
    | none => s
    | some q =>
      let x := s.port p
      match x.queue q with
      | [] => s
      | f :: l =>
        let x := x.setQueue q l
        if s.late f then
          (((s.setPort p x).sat (R.PORT_Q_TX_LATE_COUNT p q) 1).flag (R.PORT_EVENT_TX_LATE p)).startFrame p ps n
        else
          let c := if s.rd (R.PORT_Q_BURST_SH_EN p q) = 1 then tblSet 0 x.credit q (tblGet 0 x.credit q - 1_000_000) else x.credit
          s.setPort p { x with credit := c, flight := some (f, q, s.devPs ps + s.sendPs p f.len) }

/-- A port is wanted up: ADMIN_UP as committed, unless shedding step 5 has taken the service port down (R623, R625). -/
def State.portUp (s : State) (p : Nat) : Bool :=
  s.rd (R.PORT_CTRL_ADMIN_UP p) == 1 &&
    !(5 ≤ s.rd R.POWER_STATUS_SHED_STEP && isService p && p != 32 + s.rd R.POWER_SHED_CFG_KEEP_PORT)

/-- Queued and unfinished frames are lost (R462). -/
def State.flushPort (s : State) (p : Nat) : State :=
  let x := s.port p
  let s := match x.flight with
    | some (_, q, _) => s.sat (R.PORT_Q_LINK_DROP_COUNT p q) 1
    | none => s
  let s := s.each (portQueues p) fun t q => t.sat (R.PORT_Q_LINK_DROP_COUNT p q) (x.queue q).length
  s.setPort p { x with queues := [], flight := none }

/-- The frame in flight has been sent. -/
def State.frameDone (s : State) (p : Nat) : State :=
  let x := s.port p
  match x.flight with
  | none => s
  | some (f, q, _) =>
    let t := ((((s.setPort p { x with flight := none }).bump (R.PORT_TX_FRAMES_COUNT p) 1).bump
      (R.PORT_TX_BYTES_COUNT p) f.len).bump (R.PORT_Q_TX_FRAMES_COUNT p q) 1).emit .frame [p, q, f.id, f.len]
    t.iff (!t.portUp p) fun t => (t.wr (R.PORT_STATUS_LINK p) 0).flushPort p

/-! What commits of the port groups bring about -/

/-- A PORT_CFG commit has acted (R447, R462), or shedding step 5: a port not wanted up completes the frame in flight, then
its link is DOWN; one wanted up that is DOWN trains. -/
def State.adminPort (s : State) (p : Nat) : State :=
  if s.portUp p then
    s.iff (s.rd (R.PORT_STATUS_LINK p) == 0 && s.portBundled p) (·.wr (R.PORT_STATUS_LINK p) 1)
  else if (s.port p).flight.isSome then s
  else (s.wr (R.PORT_STATUS_LINK p) 0).flushPort p

/-- A SHAPE commit has acted on what was `old` (R454): a queue whose shaper it enables or changes has credit 0. -/
def State.shapePort (s old : State) (p : Nat) : State :=
  s.each (List.range 16) fun t q =>
    let f := [R.PORT_Q_BURST_SH_EN p q, R.PORT_Q_BURST_BURST p q, R.PORT_Q_SHAPE_RATE p q]
    let changed := (old.rd (R.PORT_Q_BURST_SH_EN p q) == 0 && t.rd (R.PORT_Q_BURST_SH_EN p q) == 1) ||
      (f.drop 1).any fun g => old.rd g != t.rd g
    let x := t.port p
    if changed then t.setPort p { x with credit := tblErase x.credit q } else t

/-- A POLICE commit has acted on what was `old` (R459): a changed policer's buckets are full. -/
def State.policePort (s old : State) (p : Nat) : State :=
  s.each (List.range 8) fun t c =>
    let f := [R.PORT_POL_CIR_CIR_MBPS p c, R.PORT_POL_CIR_EN p c, R.PORT_POL_CIR_AWARE p c, R.PORT_POL_CIR_YELLOW_DROP p c,
      R.PORT_POL_PIR_PIR_MBPS p c, R.PORT_POL_CBS_CBS p c, R.PORT_POL_PBS_PBS p c]
    let x := t.port p
    if f.any fun g => old.rd g != t.rd g then
      t.setPort p { x with missC := tblErase x.missC c, missP := tblErase x.missP c }
    else t

/-! Received frames (R446, R448, R459, R460) -/

/-- Policer `c` on a frame of `b` bits with DEI `dei`: 0 green, 1 yellow, 2 red (R460). -/
def State.colour (s : State) (p c b : Nat) (dei : Bool) : Nat × State :=
  if s.rd (R.PORT_POL_CIR_EN p c) = 0 then (0, s)
  else
    let x := s.port p
    let cc := 8 * s.rd (R.PORT_POL_CBS_CBS p c) - tblGet 0 x.missC c
    let pp := 8 * s.rd (R.PORT_POL_PBS_PBS p c) - tblGet 0 x.missP c
    let takeP := { x with missP := tblSet 0 x.missP c (tblGet 0 x.missP c + b) }
    if pp < b then (2, s)
    else if (s.rd (R.PORT_POL_CIR_AWARE p c) == 1 && dei) || cc < b then (1, s.setPort p takeP)
    else (0, s.setPort p { takeP with missC := tblSet 0 x.missC c (tblGet 0 x.missC c + b) })

/-- The state after a colour is counted. -/
def State.countColour (s : State) (p c k : Nat) : State :=
  s.sat (if k = 0 then R.PORT_POL_GREEN_COUNT p c else if k = 1 then R.PORT_POL_YELLOW_COUNT p c else R.PORT_POL_RED_COUNT p c) 1

/-- The consumer of a frame by the table of R448: 0 PTP, 1 SyncE, 2 management-plane client, 3 air timeline engine,
4 service cores, 5 none. -/
def State.consumer (s : State) (p : Nat) (f : EthFrame) : Nat :=
  let vid := (f.tag.map (·.2.2)).getD 0x1000
  if f.etype = 0x88F7 then 0
  else if f.etype = 0x8809 && f.esmc then 1
  else if isService p then 4
  else if vid = s.rd (R.PORT_VLAN_MGMT_VID p) then 2
  else if vid = s.rd (R.PORT_VLAN_FH_VID p) && f.etype = 0xAEFE then 3
  else 5

/-- A frame for the service cores (R546, R566). -/
def State.toService (s : State) (p : Nat) (f : EthFrame) (dei : Nat) : State :=
  let vid := f.tag.map (·.2.2)
  match (List.range 256).find? fun e => s.rd (R.EP_MATCH_VALID e) == 1 && s.rd (R.EP_MATCH_PORT e) + 32 == p &&
      vid == some (s.rd (R.EP_MATCH_VID e)) && s.rd (R.EP_MATCH_MAC e) == f.dst with
  | none => s.sat R.SLICECTL_EP_UNMATCHED_COUNT 1
  | some e =>
    let core := 7 + s.rd (R.EP_TARGET_CORE e)
    if s.rd (R.FW_CORE_STATUS_STATE core) != 1 then s.sat R.FW_SVC_DROP_COUNT 1
    else s.emit .deliver [p, 4, f.id, dei, core, s.rd (R.EP_TARGET_SLICE e)]

/-- A frame that passed its checks goes to its consumer (R448). -/
def State.deliver (s : State) (p : Nat) (f : EthFrame) (dei : Nat) : State :=
  let s := (s.bump (R.PORT_RX_FRAMES_COUNT p) 1).bump (R.PORT_RX_BYTES_COUNT p) f.len
  let c := s.consumer p f
  if c = 5 then s.sat (R.PORT_RX_UNCLAIMED_COUNT p) 1
  else if c = 4 then s.toService p f dei
  else s.emit .deliver [p, c, f.id, dei]

/-- ETH_RX_FRAME (R446, R448, R459, R460). -/
def execEthRxFrame (port : Nat) (f : EthFrame) (t : Nat) (s : State) : Ans :=
  onUnit (portOk port) <|
    let s := s.atTime t
    if s.rd (R.PORT_STATUS_LINK port) != 2 then s
    else if f.len < 64 || s.rd (R.PORT_CTRL_MTU port) < f.len then s.sat (R.PORT_RX_LEN_ERR_COUNT port) 1
    else if !f.fcsOk then s.sat (R.PORT_RX_FCS_ERR_COUNT port) 1
    else if f.etype = 0x8808 then s.sat (R.PORT_RX_PAUSE_COUNT port) 1
    else
      let dei := (f.tag.map (·.2.1)).getD false
      let d := if dei then 1 else 0
      if s.consumer port f < 2 then s.deliver port f d
      else
        let c := (f.tag.map (·.1)).getD 0
        let (k, s) := s.colour port c (8 * f.len) dei
        let s := s.countColour port c k
        if k = 2 || k = 1 && s.rd (R.PORT_POL_CIR_YELLOW_DROP port c) == 1 then s
        else s.deliver port f (if k = 1 then 1 else d)

/-! Frames to send -/

/-- Queue of a frame by its PCP (R449): none for an untagged frame. -/
def State.queueOf (s : State) (p : Nat) (pcp : Option Nat) : Nat :=
  match pcp with
  | none => s.rd (R.PORT_CTRL_DEFAULT_Q p)
  | some c => s.rd { R.PORT_QMAP_Q0 p with lo := 4 * (c % 8) }

/-- TX_FRAME_ENQUEUE (R449, R450): `latest` is the latest start in device ns of a frame from the timeline engine. -/
def execTxFrameEnqueue (port id len : Nat) (pcp latest : Option Nat) (t : Nat) (s : State) : Ans :=
  onUnit (portOk port) <|
    let s := s.atTime t
    let q := s.queueOf port pcp
    let x := s.port port
    let room := 128 * 1024 * 2 ^ s.rd (R.PORT_STATUS_SPEED port)
    if s.rd (R.PORT_Q_LIMIT_LIMIT port q) * 4096 < lenSum (x.queue q) + len || room < x.used + len then
      s.sat (R.PORT_Q_DROP_FULL_COUNT port q) 1
    else (s.setPort port (x.setQueue q (x.queue q ++ [⟨id, len, latest⟩]))).dropLongAll port

/-- TX_FRAME_START (R451): at a frame end or in an idle cycle, `ps` picoseconds past `t`. -/
def execTxFrameStart (port t ps : Nat) (s : State) : Ans :=
  onUnit (portOk port) <|
    let s := s.atTime t
    let busy := match (s.port port).flight with
      | some (_, _, e) => decide (s.devPs ps < e)
      | none => false
    if busy then s
    else
      let s := s.frameDone port
      if s.rd (R.PORT_STATUS_LINK port) != 2 then s
      else s.startFrame port ps ((s.port port).queues.foldl (fun n e => n + e.2.length) 1)

/-- SHAPER_TICK (R453): RATE for every whole microsecond of the device clock since the last, up to BURST packets. -/
def execShaperTick (port t : Nat) (s : State) : Ans :=
  onUnit (portOk port) <|
    let s := s.atTime t
    let us := s.devNs / 1000
    let x := s.port port
    let c := (portQueues port).foldl (fun c q => tblSet 0 c q
      (min (tblGet 0 c q + (us - x.fedS) * s.rd (R.PORT_Q_SHAPE_RATE port q)) (s.rd (R.PORT_Q_BURST_BURST port q) * 1_000_000))) x.credit
    s.setPort port { x with credit := c, fedS := us }

/-- POLICER_TICK (R459): CIR_MBPS and PIR_MBPS bits for every whole microsecond since the last. -/
def execPolicerTick (port t : Nat) (s : State) : Ans :=
  onUnit (portOk port) <|
    let s := s.atTime t
    let us := s.devNs / 1000
    let x := s.port port
    let n := us - x.fedP
    let fill := fun (m : Tbl Nat) (f : Nat → Fld) =>
      (List.range 8).foldl (fun m c => tblSet 0 m c (tblGet 0 m c - n * s.rd (f c))) m
    s.setPort port { x with missC := fill x.missC (R.PORT_POL_CIR_CIR_MBPS port), missP := fill x.missP (R.PORT_POL_PIR_PIR_MBPS port),
                            fedP := us }

/-- GATE_EVENT (R455): the gates of the present instant open and close. -/
def execGateEvent (port t : Nat) (s : State) : Ans :=
  onUnit (portOk port) <|
    let s := s.atTime t
    let x := s.port port
    s.setPort port { x with open_ := gatesAt x.force_ x.next s.devNs }

/-- GATE_CHANGE (R456, R458): entry 0 of the armed list takes effect. -/
def execGateChange (port t : Nat) (s : State) : Ans :=
  onUnit (portOk port) <|
    let s := s.atTime t
    let x := s.port port
    match x.next with
    | none => s
    | some g =>
      if s.devNs < g.start then s
      else
        let s := s.setPort port { x with force_ := some g, next := none, open_ := gatesAt (some g) none s.devNs }
        let s := s.actWaiting none (portUnit port).1 (portUnit port).2 3
        let s := s.wrs [(R.PORT_STATUS_GATE_PENDING port, 0), (R.PORT_STATUS_GATE_ACTIVE port, if g.en then 1 else 0),
          (R.PORT_EVENT_GATE_SWITCHED port, 1)]
        s.dropLongAll port

/-- PORT_LINK_UP (R447): alignment has held without a break from `since` to `t`. -/
def execPortLinkUp (port since t : Nat) (s : State) : Ans :=
  onUnit (portOk port) <|
    let s := s.atTime t
    if s.rd (R.PORT_STATUS_LINK port) != 1 || !s.portBundled port
      || s.now < since + s.rd (R.PORT_CTRL_UP_HOLD_MS port) * 1_000_000 then s
    else (s.wr (R.PORT_STATUS_LINK port) 2).flag (R.PORT_EVENT_LINK_UP port)

/-- PORT_LINK_LOSS (R447, R462). -/
def execPortLinkLoss (port t : Nat) (s : State) : Ans :=
  onUnit (portOk port) <|
    let s := s.atTime t
    if s.rd (R.PORT_STATUS_LINK port) = 0 then s
    else
      let u := ((s.wr (R.PORT_STATUS_LINK port) 1).sat (R.PORT_LINK_FLAPS_COUNT port) 1).flag (R.PORT_EVENT_LINK_DOWN port)
      u.iff (s.rd (R.PORT_STATUS_LINK port) == 2) (·.flushPort port)

end Sys2Proof.Machine
end

