-- ==== Sys2Proof/Machine/HostLink.lean ====
section
/-! DEFINITION. The PCIe host: link, sessions, attachments and heartbeats (R576, R577, R583 to R588), translations of
host space (R548). -/

namespace Sys2Proof.Machine

/-- The host block's actions have their handler: Agate before RUN, Jasper from then on (R577). -/
def State.handlerUp (s : State) : Bool :=
  if s.rd R.DEV_STATUS_PHASE < 4 then s.agateUp else s.rd (R.FW_CORE_STATUS_STATE 2) == 1

/-- The core that handles the host block's actions. -/
def State.handler (s : State) : Nat := if s.rd R.DEV_STATUS_PHASE < 4 then 0 else 2

/-- A host access reaches BAR0: the link is up and configuration space is loaded (R45). -/
def State.hostReach (s : State) : Bool := s.host.linkUp && s.host.config

/-- The result of the latest action. -/
def State.hostResult (s : State) (code : Nat) : State :=
  s.wrs [(R.HB_SESSION_RESULT_CODE, code), (R.HB_SESSION_RESULT_DONE, 1)]

/-- A transition of the session (R586): mirrors, trace 0x0005, FW_EVENT.SESSION, vector 0 while the link is up. Causes
are numbered in the order of R586's rows (log entry 71). -/
def State.setSession (s : State) (st cause : Nat) : State :=
  let old := s.rd R.PCIE_SESSION_STATE
  let t := s.wrs [(R.PCIE_SESSION_STATE, st), (R.HB_SESSION_STATUS_STATE, st),
    (R.DEV_STATUS_HOST_SESSION, if st = 0 then 0 else 1), (R.FW_EVENT_SESSION, 1)]
  let t := t.log s.handler 2 0x0005 [old, st, t.rd R.PCIE_SESSION_HGEN, cause]
  if t.host.linkUp then t.sendVector 0 else t

/-- Every attachment ends. -/
def State.detachAll (s : State) : State :=
  let t := s.each s.host.attached fun t a => t.wrs [(R.PCIE_ATTACH_QMASK a.slice, 0), (R.PCIE_ATTACH_VEC_BASE a.slice, 0)]
  { t with host := { t.host with attached := [] } }

/-- The job queues attached now. -/
def State.attachedQueues (s : State) : List (Nat × Nat) :=
  s.host.attached.flatMap fun a => ((List.range 32).filter fun q => a.qmask / 2 ^ q % 2 == 1).map fun q => (a.slice, q)

/-- Waiting and held jobs of the attached queues, and descriptors up to each TAIL, end with HOST_DISCARD (R586, R300). -/
def State.discardHost (s : State) : State :=
  let l := s.attachedQueues
  let waits := (s.sched.jobs.filter fun j => (j.phase == .waiting || j.phase == .held) && l.contains (j.slice, j.queue)).length
  let rest := (l.map fun e => toField 32 ((s.rd (R.JQ_TAIL_TAIL e.1 e.2) : Int) - s.rd (R.JQ_HEAD_HEAD e.1 e.2))).sum
  let t := s.endWaiting (fun j => l.contains (j.slice, j.queue)) 7
  let t := t.each l fun t e => t.drainRing e.1 e.2 7 (toField 32 ((t.rd (R.JQ_TAIL_TAIL e.1 e.2) : Int) - t.rd (R.JQ_HEAD_HEAD e.1 e.2)))
  if waits + rest = 0 then t else t.log s.handler 2 0x0008 [s.rd R.PCIE_SESSION_HGEN, waits + rest, 0, 0]

/-- OPEN is performed (R586): a LEVEL outside the range of the host block is refused. -/
def State.actOpen (s : State) (level : Nat) : State :=
  if level < s.rd R.HB_IDENT_LEVEL_MIN || s.rd R.HB_IDENT_LEVEL_MAX < level then s.hostResult 1
  else
    let t := s.discardHost.detachAll
    let g := if t.rd R.PCIE_SESSION_HGEN = 0xFFFF then 1 else t.rd R.PCIE_SESSION_HGEN + 1
    let t := t.wrs [(R.PCIE_SESSION_HGEN, g), (R.HB_SESSION_STATUS_HGEN, g), (R.PCIE_SESSION_LEVEL, level)]
    let t := { t with host := { t.host with beatAt := t.now } }
    ((t.setSession 1 0).hostResult 0).decision

/-- CLOSE is performed; out of OPEN it changes nothing and answers STATE (log entry 72). -/
def State.actClose (s : State) : State :=
  if s.rd R.PCIE_SESSION_STATE ≠ 1 then s.hostResult 2
  else ((s.discardHost.detachAll.setSession 0 6).hostResult 0).decision

/-- A slice has a VALID entry with HOST in the PASID map (R545). -/
def State.hostPasid (s : State) (x : Nat) : Bool :=
  (List.range 512).any fun i => s.rd (R.PASID_ENTRY_VALID i) == 1 && s.rd (R.PASID_ENTRY_HOST i) == 1
    && s.rd (R.PASID_ENTRY_SLICE i) == x

/-- The highest queue of a mask. -/
def topQueue (qmask : Nat) : Nat := ((List.range 32).filter fun q => qmask / 2 ^ q % 2 == 1).foldl max 0

/-- The code of an attach (R584, R592): the lowest that applies. -/
def State.attachCode (s : State) (x qmask base : Nat) : Nat :=
  if s.rd R.PCIE_SESSION_STATE ≠ 1 then 2
  else if !s.sliceOpen x || !s.hostPasid x then 3
  else if qmask ≠ 0 && s.rd (R.SC_LIMITS_QUEUES x) ≤ topQueue qmask then 4
  else if base = 0 || 63 < base + topQueue qmask then 5
  else 0

/-- An attach is performed: the queues join those of the slice attached already, under the new vector base; their jobs
not yet admitted become host jobs. -/
def State.actAttach (s : State) (x qmask base : Nat) : State :=
  match s.attachCode x qmask base with
  | 0 =>
    let old := ((s.host.attached.find? fun a => a.slice == x).map (·.qmask)).getD 0
    let m := old ||| qmask
    let t := { s with host := { s.host with attached := ⟨x, m, base⟩ :: s.host.attached.filter fun a => a.slice != x } }
    let g := s.rd R.PCIE_SESSION_HGEN
    let t := t.setJobs (t.sched.jobs.map fun j =>
      if j.slice == x && m / 2 ^ j.queue % 2 == 1 && (j.phase == .waiting || j.phase == .held) then { j with hgen := g } else j)
    (t.wrs [(R.PCIE_ATTACH_QMASK x, m), (R.PCIE_ATTACH_VEC_BASE x, base)]).hostResult 0
  | c => s.hostResult c

/-- One waiting action performed. -/
def State.actHost (s : State) : HostAct → State
  | .opens level => s.actOpen level
  | .closes => s.actClose
  | .attaches x qmask base => s.actAttach x qmask base

/-- The waiting actions in order, once their handler runs (R588). -/
def State.actWaitingHost (s : State) : State :=
  if !s.handlerUp then s
  else
    let l := s.host.waiting
    ({ s with host := { s.host with waiting := [] } }).each l State.actHost

/-- An action write (R577): performed, or queued for a handler that restarts; the queue holds 256. -/
def State.hostAction (s : State) (a : HostAct) : State :=
  if 256 ≤ s.host.waiting.length then s.sat R.PCIE_WQ_DROP_COUNT 1
  else
    let t := s.wr R.HB_SESSION_RESULT_DONE 0
    ({ t with host := { t.host with waiting := t.host.waiting ++ [a] } }).actWaitingHost

/-- HB_SESSION_OPEN: a BAR0 write of HB_SESSION_CTRL with GO and OPEN. -/
def execHbSessionOpen (level t : Nat) (s : State) : Ans :=
  .next <|
    let s := s.atTime t
    if !s.hostReach then s
    else (s.wrs [(R.HB_SESSION_CTRL_OP, 1), (R.HB_SESSION_CTRL_LEVEL, level)]).hostAction (.opens (level % 16))

/-- HB_SESSION_CLOSE: a BAR0 write of HB_SESSION_CTRL with GO and CLOSE. -/
def execHbSessionClose (t : Nat) (s : State) : Ans :=
  .next <|
    let s := s.atTime t
    if !s.hostReach then s else (s.wr R.HB_SESSION_CTRL_OP 2).hostAction .closes

/-- HB_ATTACH: a BAR0 write of HB_ATTACH with GO; the queues are those of HB_ATTACH_QMASK. -/
def execHbAttach (x base t : Nat) (s : State) : Ans :=
  onUnit (x < 64) <|
    let s := s.atTime t
    if !s.hostReach then s
    else (s.wrs [(R.HB_ATTACH_SLICE, x), (R.HB_ATTACH_VEC_BASE, base)]).hostAction
      (.attaches x (s.rd R.HB_ATTACH_QMASK_QMASK) (base % 64))

/-- HB_HEARTBEAT (R586): a value equal to HGEN restarts the timer and brings a LOST session back. -/
def execHbHeartbeat (v t : Nat) (s : State) : Ans :=
  .next <|
    let s := s.atTime t
    if !s.hostReach then s
    else if v % 2 ^ 16 ≠ s.rd R.PCIE_SESSION_HGEN then s.sat R.PCIE_HB_BAD_COUNT 1
    else
      let s := { s with host := { s.host with beatAt := s.now } }
      if s.rd R.PCIE_SESSION_STATE = 2 then (s.setSession 1 4).decision else s

/-- An OPEN session becomes LOST. -/
def State.loseSession (s : State) (cause : Nat) : State :=
  if s.rd R.PCIE_SESSION_STATE ≠ 1 then s
  else ({ s with host := { s.host with lostAt := s.now } }).setSession 2 cause

/-- HEARTBEAT_TIMEOUT: 100 ms without a matching heartbeat. -/
def execHeartbeatTimeout (t : Nat) (s : State) : Ans :=
  .next <|
    let s := s.atTime t
    if s.now < s.host.beatAt + 100_000_000 then s else s.loseSession 2

/-- SESSION_LOST_EXPIRY: 10 s in LOST; the completion writer discards without Jasper (R588). -/
def execSessionLostExpiry (t : Nat) (s : State) : Ans :=
  .next <|
    let s := s.atTime t
    if s.rd R.PCIE_SESSION_STATE ≠ 2 || s.now < s.host.lostAt + 10_000_000_000 then s
    else (s.discardHost.detachAll.setSession 0 5).decision

/-- The link is down: an OPEN session is LOST at once. -/
def State.linkLost (s : State) : State :=
  let t := { s with host := { s.host with linkUp := false } }
  (t.wrs [(R.PCIE_LINK_STATE, 0), (R.PCIE_LINK_WIDTH, 0), (R.PCIE_LINK_RATE, 0)]).loseSession 3

/-- PCIE_LINK_DOWN. -/
def execPcieLinkDown (t : Nat) (s : State) : Ans := .next (s.atTime t).linkLost

/-- PCIE_FUNCTION_RESET (R576, R649): `kind` 0 PERST_N, 1 hot reset, 2 Function Level Reset. PERST_N is ignored without
the PCIE_EN strap (R647). The function's vectors and cached translations go; PERST_N and a hot reset take the link down,
and it trains again. -/
def execPcieFunctionReset (kind t : Nat) (s : State) : Ans :=
  .next <|
    let s := s.atTime t
    if kind = 0 && s.rd R.DEV_STRAP_STRAPS / 8 = 0 then s
    else
      let s := { s with host := { s.host with vecAt := [], vecDue := [], ats := [], waiting := [] } }
      if kind = 2 then s.loseSession 3 else (s.linkLost).wr R.PCIE_LINK_STATE 1

/-- Lanes that SHED_CFG.PCIE_WIDTH leaves (R623, step 6). -/
def State.shedWidth (s : State) : Nat := 2 ^ s.rd R.POWER_SHED_CFG_PCIE_WIDTH

/-- PCIE_LINK_UP (R576, R647): trained at `width` lanes and `rate`; with shedding step 6 in force no wider than it
leaves. PCIe never trains without the PCIE_EN strap. -/
def execPcieLinkUp (width rate t : Nat) (s : State) : Ans :=
  .next <|
    let s := s.atTime t
    if s.rd R.DEV_STRAP_STRAPS / 8 = 0 || width = 0 || 16 < width || 5 < rate then s
    else
      let w := if 6 ≤ s.rd R.POWER_STATUS_SHED_STEP then min width s.shedWidth else width
      let s := { s with host := { s.host with linkUp := true } }
      s.wrs [(R.PCIE_LINK_STATE, 2), (R.PCIE_LINK_WIDTH, w), (R.PCIE_LINK_RATE, rate)]

/-- PCIE_CONFIG_REQUEST (R45, R576): Request Retry Status until Agate has loaded the values, then a completion. -/
def execPcieConfigRequest (id t : Nat) (s : State) : Ans :=
  .next <|
    let s := s.atTime t
    if !s.host.linkUp then s else s.emit .pcie [if s.host.config then 2 else 1, id]

/-- ATS_INVALIDATION (R548): the named host-space translations (slice, slab) go from every cache. -/
def execAtsInvalidation (entries : List (Nat × Nat)) (t : Nat) (s : State) : Ans :=
  .next <|
    let s := s.atTime t
    let h := s.host
    { s with host := { h with ats := h.ats.filter fun e => !entries.contains e } }.emit .pcie [3, entries.length]

end Sys2Proof.Machine
end

