-- ==== Sys2Proof/Machine/Memory.lean ====
section
/-! DEFINITION. The memory manager: placement (R272, R273), the pool (R281 to R285), moves (R274 to R280) and the
requests of slices (R287, R288). -/

namespace Sys2Proof.Machine

/-! Counts (R281): each has its register, and a slice's window shows its own -/

/-- USED of a slice. -/
def State.used (s : State) (x : Nat) : Nat := s.rd (R.MEM_ACCT_USED_USED x)

/-- T3_USED of a slice. -/
def State.t3Used (s : State) (x : Nat) : Nat := s.rd (R.MEM_ACCT_USED_T3_USED x)

/-- FREE of the pool. -/
def State.poolFree (s : State) : Nat := s.rd R.MEM_POOL_FREE_SLABS

/-- The quota a slice still may claim: max(FLOOR − USED, 0). -/
def State.guaranteed (s : State) (x : Nat) : Nat := s.rd (R.MEM_QUOTA_FLOOR x) - s.used x

/-- USED and T3_USED of a slice set, in the owner's view and in the slice's (R289, R290). -/
def State.setUsed (s : State) (x u t3 : Nat) : State :=
  s.wrs [(R.MEM_ACCT_USED_USED x, u), (R.MEM_ACCT_USED_T3_USED x, t3), (R.MEM_Q_USED_USED x, u),
    (R.MEM_Q_USED_T3_USED x, t3), (R.MEM_Q_T3_GUARANTEED x, s.rd (R.MEM_QUOTA_FLOOR x) - u)]

/-- The limits of a slice as its window shows them (R289). -/
def State.showQuota (s : State) (x : Nat) : State :=
  s.wrs [(R.MEM_Q_LIMITS_FLOOR x, s.rd (R.MEM_QUOTA_FLOOR x)), (R.MEM_Q_LIMITS_CEIL x, s.rd (R.MEM_QUOTA_CEIL x)),
    (R.MEM_Q_T3_T3_CEIL x, s.rd (R.MEM_QUOTA_T3_T3_CEIL x)), (R.MEM_Q_T3_GUARANTEED x, s.guaranteed x)]

/-- What a slab region of a vault holds. -/
def State.region (s : State) (v i : Nat) : Region := tblGet Region.free s.mm.regions (v * 384 + i)

/-- The state with a region's holder replaced. -/
def State.setRegion (s : State) (v i : Nat) (g : Region) : State :=
  { s with mm := { s.mm with regions := tblSet Region.free s.mm.regions (v * 384 + i) g } }

/-- Free slabs of a vault. -/
def State.vaultFree (s : State) (v : Nat) : Nat := s.rd (R.VAULT_FREE_SLABS_SLABS v)

/-- The lowest free region of a vault; the spec does not say which of them is taken (log entry 20). -/
def State.freeRegion (s : State) (v : Nat) : Option Nat := (List.range 384).find? fun i => s.region v i == .free

/-- A free region of a vault leaves FREE. -/
def State.takeFree (s : State) (v i : Nat) (g : Region) : State :=
  ((s.setRegion v i g).drop R.MEM_POOL_FREE_SLABS 1).drop (R.VAULT_FREE_SLABS_SLABS v) 1

/-- A region that leaves its account is HELD until it is released and zeroed (R278, R281, R283). -/
def State.holdRegion (s : State) (v i : Nat) (moved : Bool) : State :=
  let t := (s.setRegion v i .held).bump R.MEM_POOL_HELD_SLABS 1
  { t with mm := { t.mm with old := t.mm.old ++ [OldRegion.mk v i t.now moved false false []] } }

/-! Lends received from peers (R285) -/

/-- Free slabs of a lend. -/
def LendIn.free (l : LendIn) : Nat := l.slabs - l.used.length

/-- The lend of a peer. -/
def State.lendOf (s : State) (d : Nat) : Option LendIn := s.mm.lendsIn.find? fun l => l.dev == d

/-- Free slabs in the lend of peer `d`. -/
def State.lendRoom (s : State) (d : Nat) : Nat := ((s.lendOf d).map LendIn.free).getD 0

/-- The state with the lends replaced; MEM_T3_AVAIL follows. -/
def State.setLends (s : State) (l : List LendIn) : State :=
  { s with mm := { s.mm with lendsIn := l } }.wr R.MEM_T3_AVAIL_SLABS (l.map LendIn.free).sum

/-- The lowest index of a lend that holds no slab. -/
def LendIn.freeIndex (l : LendIn) : Option Nat := (List.range l.slabs).find? fun i => !l.used.contains i

/-- A lend index taken or given back. -/
def State.useLend (s : State) (d i : Nat) (take : Bool) : State :=
  s.setLends (s.mm.lendsIn.map fun l =>
    if l.dev == d then { l with used := if take then i :: l.used else l.used.filter (· != i) } else l)

/-- The marks of a region go. -/
def State.clearMarks (s : State) (h : HomeEntry) : State :=
  { s with mm := { s.mm with bad := tblClear s.mm.bad h.markKey (h.markKey + 0x1_0000) } }

/-- A slab of a lend is given back zeroed (R279, R283). -/
def State.freeLend (s : State) (d i : Nat) : State :=
  let h : HomeEntry := ⟨.resident, true, d, i, false, 0, 0, 0⟩
  ((s.zeroKeys h.key (h.key + 0x20_0000)).clearMarks h).useLend d i false

/-! Placement (R272, R273) -/

/-- The element of a list with the greatest value of `f`; the first of equals. -/
def bestBy (f : Nat → Nat) : List Nat → Option Nat
  | [] => none
  | a :: l => some (l.foldl (fun b c => if f b < f c then c else b) a)

/-- The element with the least value of `f`; the first of equals. -/
def leastBy (f : Nat → Nat) : List Nat → Option Nat
  | [] => none
  | a :: l => some (l.foldl (fun b c => if f c < f b then c else b) a)

/-- Sectors 0, 1, 4 and 5 form the west half (R272). -/
def westSector (n : Nat) : Bool := n % 4 < 2

/-- The inference vaults of the sectors that `f` selects, ascending. -/
def State.vaultsIn (s : State) (f : Nat → Bool) : List Nat := s.inferVaults.filter fun v => f (v / 19)

/-- The vault a hint selects for slab `k` of an object of slice `x` before free slabs are asked about (R272):
the reference vault of R273. -/
def State.hintVault (s : State) (x hint target k : Nat) : Option Nat :=
  match hint with
  | 0 =>
    match s.tilesOn.find? (fun t => s.planHolder t == x) with
    | some t => bestBy s.vaultFree (s.vaultsIn (· == t / 17))
    | none => bestBy s.vaultFree s.inferVaults
  | 1 => some target
  | 2 => some (s.homeVault target)
  | 3 =>
    let l := s.vaultsIn fun n => target / 2 ^ n % 2 == 1
    l[k % l.length]?
  | 4 => bestBy s.vaultFree (s.vaultsIn fun n => westSector n == (target % 2 == 0))
  | _ => none

/-- The hint and target name what R272 allows; NONE wants a zero target. -/
def State.hintOk (s : State) (hint target : Nat) : Bool :=
  match hint with
  | 0 => target == 0
  | 1 => s.inferVault target
  | 2 => s.tileOn target
  | 3 => !(s.vaultsIn fun n => target / 2 ^ n % 2 == 1).isEmpty
  | 4 => target < 2
  | 5 => true
  | _ => false

/-- The vault a slab goes to (R273): the hint's own if it has a free slab, else the nearest with one in its sector,
its half, or anywhere, the lower number winning ties. -/
def State.place (s : State) (x hint target k : Nat) : Option Nat :=
  match s.hintVault x hint target k with
  | none => none
  | some r =>
    let open_ := fun l => l.filter fun v => s.vaultFree v != 0
    if s.vaultFree r != 0 then some r
    else
      let near := leastBy (fun v => vaultHops r v)
      ((near (open_ (s.vaultsIn (· == r / 19)))).orElse fun _ =>
        (near (open_ (s.vaultsIn fun n => westSector n == westSector (r / 19)))).orElse fun _ =>
          near (open_ s.inferVaults))

/-! Moves (R274 to R280) -/

/-- The HUB_MIG_STATUS counts of a sector follow its engine's moves. -/
def State.showMoves (s : State) (n : Nat) : State :=
  let l := s.mm.moves.filter fun m => m.sector == n
  s.wrs [(R.HUB_MIG_STATUS_MOVES n, (l.filter (·.started)).length),
    (R.HUB_MIG_STATUS_QUEUED n, min (l.filter (!·.started)).length 0xFFFF)]

/-- A move put at the end of its engine's queue. -/
def State.queueMove (s : State) (m : Move) : State :=
  { s with mm := { s.mm with moves := s.mm.moves ++ [m] } }.showMoves m.sector

/-- A move is queued or under way for a slab. -/
def State.moving (s : State) (x slab : Nat) : Bool := s.mm.moves.any fun m => m.slice == x && m.slab == slab

/-- Evictions of a slice that have not switched. -/
def State.evicting (s : State) (x : Nat) : Nat := (s.mm.moves.filter fun m => m.evict && m.slice == x).length

/-- A slab may be evicted (R284). -/
def State.evictable (s : State) (x slab : Nat) (h : HomeEntry) : Bool :=
  h.state == .resident && !h.t3 && !s.moving x slab && !s.mm.pins.contains (x, slab)
    && s.rd (R.MEM_QUOTA_FLOOR x) + s.evicting x < s.used x
    && s.t3Used x + s.evicting x < s.rd (R.MEM_QUOTA_T3_T3_CEIL x)

/-- The order of R284 among candidates: older first, then further above the floor, then lower slice, lower address
(the home table lists slices and addresses in rising order). -/
def State.evictBefore (s : State) (a b : Nat × HomeEntry) : Bool :=
  let above := fun (e : Nat × HomeEntry) =>
    s.used (e.1 / 0x10_0000_0000) - s.rd (R.MEM_QUOTA_FLOOR (e.1 / 0x10_0000_0000))
  s.ageOf b.2 < s.ageOf a.2 || (s.ageOf a.2 == s.ageOf b.2 && above b < above a)

/-- The slab R284 evicts next, among those of the slices `f` selects. -/
def State.nextVictim (s : State) (f : Nat → Bool) : Option (Nat × HomeEntry) :=
  let l := s.mm.homes.filter fun e => f (e.1 / 0x10_0000_0000) &&
    s.evictable (e.1 / 0x10_0000_0000) (e.1 % 0x10_0000_0000) e.2
  match l with
  | [] => none
  | a :: l => some (l.foldl (fun b c => if s.evictBefore c b then c else b) a)

/-- Free lend slabs not spoken for by evictions that have not started. -/
def State.t3Room (s : State) : Nat :=
  s.rd R.MEM_T3_AVAIL_SLABS - (s.mm.moves.filter fun m => m.toT3 && !m.started).length

/-- Free slabs of a lend not spoken for by moves to it that have not started. -/
def State.lendLeft (s : State) (d : Nat) : Nat :=
  s.lendRoom d - (s.mm.moves.filter fun m => m.toT3 && m.dest == d && !m.started).length

/-- The lend with most free slabs, the lower device number winning ties (R284). -/
def State.widestLend (s : State) : Option Nat :=
  bestBy s.lendLeft ((List.range 256).filter fun d => s.lendLeft d != 0)

/-- Queues up to `n` evictions; answers how many found no candidate. -/
def State.evict (s : State) (f : Nat → Bool) : Nat → State × Nat
  | 0 => (s, 0)
  | n + 1 =>
    if s.t3Room = 0 then (s, n + 1)
    else
      match s.nextVictim f, s.widestLend with
      | some (k, h), some d =>
        (s.queueMove ⟨k / 0x10_0000_0000, k % 0x10_0000_0000, true, 0, h.home / 19, true, d, 0, false, [], 0, false,
          [], 5, d, 0⟩).evict f n
      | _, _ => (s, n + 1)

/-- A CEIL below USED: the excess is evicted oldest first while there is T3 room (R282). -/
def State.evictExcess (s : State) (x : Nat) : State :=
  (s.evict (· == x) (s.used x - s.evicting x - s.rd (R.MEM_QUOTA_CEIL x))).1

/-- The excess of every slice, as far as there is T3 room now. -/
def State.evictOver (s : State) : State :=
  s.each (allSlices.filter fun x => s.rd (R.MEM_QUOTA_CEIL x) < s.used x) State.evictExcess

/-! Requests (R287, R288) -/

/-- Ends a request: STATUS, TICKET_ECHO and DONE written, BUSY cleared. -/
def State.endReq (s : State) (x n code done : Nat) : State :=
  s.wrs [(R.MEM_REQ_STATUS_STATUS x n, code), (R.MEM_REQ_STATUS_TICKET_ECHO x n, s.rd (R.MEM_REQ_CTRL_TICKET x n)),
    (R.MEM_REQ_STATUS_DONE x n, min done 0xFFFF), (R.MEM_REQ_CTRL_GO x n, 0)]

/-- The lower of two codes that are not OK. -/
def worseCode (a b : Nat) : Nat := if a = 0 then b else if b = 0 then a else min a b

/-- One slab of a MIGRATE has switched (`ok`) or ended otherwise; the request ends with its last (R280, R287). -/
def State.slabDone (s : State) (x n : Nat) (ok : Bool) (code : Nat) : State :=
  let step := fun (q : MemReq) => if q.slice == x && q.slot == n && q.begun then
    { q with moving := q.moving - 1, done := q.done + (if ok then 1 else 0), code := worseCode q.code code } else q
  let l := s.mm.reqs.map step
  match l.find? (fun q => q.slice == x && q.slot == n && q.begun) with
  | none => s
  | some q =>
    if q.moving = 0 then
      { s with mm := { s.mm with reqs := l.filter fun r => !(r.slice == x && r.slot == n) } }.endReq x n q.code q.done
    else { s with mm := { s.mm with reqs := l } }

/-- Removes a move from its engine and answers its request, if it serves one. -/
def State.endMove (s : State) (m : Move) (ok : Bool) (code : Nat) : State :=
  let t := { s with mm := { s.mm with
      moves := s.mm.moves.filter fun n => !(n.slice == m.slice && n.slab == m.slab && n.slot == m.slot) } }.showMoves m.sector
  if m.slot = 0 then t else t.slabDone m.slice (m.slot - 1) ok code

/-- Bytes of a slab written at offsets from key `k`. -/
def State.writeAt (s : State) (k : Nat) (l : List (Nat × Byte)) : State :=
  s.each l fun t e => t.setByte (k + e.1) e.2

/-- The 2 MiB from key `src` copied to key `dst`. -/
def State.copySlab (s : State) (src dst : Nat) : State :=
  let l := s.mem.filter fun c => src ≤ c.1 && c.1 < src + 0x20_0000
  (s.zeroKeys dst (dst + 0x20_0000)).each l fun t c => t.setByte (dst + (c.1 - src)) c.2

/-- The copy reads every uncorrectable codeword of the old region, which counts it, and writes its line poisoned at the new
home (R265, R271). -/
def State.copyMarks (s : State) (h h' : HomeEntry) : State :=
  let l := s.mm.bad.filter fun e => h.markKey ≤ e.1 && e.1 < h.markKey + 0x1_0000
  (s.clearMarks h').each l fun t e =>
    let u := (t.vaultBad (e.1 / 0x200_0000) (e.1 % 0x200_0000) e.2)
    let line := h'.markKey + (e.1 - h.markKey) / 2 * 2
    (u.setMark line 2).setMark (line + 1) 2

/-- Held writes of a move applied at a home (R276, R279): a codeword they replace whole is good. -/
def State.writeHeld (s : State) (h : HomeEntry) (m : Move) : State :=
  let t := (s.writeAt h.key m.log).writeAt h.key m.late
  let offs := (m.log ++ m.late).map (·.1)
  let marked := (t.mm.bad.filter fun e => h.markKey ≤ e.1 && e.1 < h.markKey + 0x1_0000).map (·.1)
  t.each (marked.filter fun k => wholeWord offs ((k - h.markKey) * 32)) fun t k => t.setMark k 0

/-- The lines of a whole slab, and `extra` more, written at a vault's port (R200). -/
def State.queueSlab (s : State) (h : HomeEntry) (extra : Nat) : State :=
  if h.t3 then s else s.queueLines h.home (h.index * 0x20_0000) (32768 + extra)

/-- The transfers under way that touch a slab of slice `x`: site, queue, index. -/
def State.flightsIn (s : State) (x slab : Nat) : List (Nat × Nat × Nat) :=
  allSites.flatMap fun k =>
    if (s.tile k).job.any fun j => j.holder == x then
      ((s.tile k).xfers.filter fun r => (slabsOf r.vaddr r.len).contains slab).map fun r => (k, r.queue, r.index)
    else []

/-- How a move that cannot finish is aborted (R279). -/
inductive MoveCause where
  | newPeerFenced | oldPeerFenced | free | stop
deriving DecidableEq, Repr

/-- The new region of a started move goes back: to HELD for zeroing, or to its lend. -/
def State.dropNew (s : State) (m : Move) : State :=
  if !m.started then s
  else if m.toT3 then s.freeLend m.dest m.destIndex
  else
    { s with mm := { s.mm with old := s.mm.old ++ [OldRegion.mk m.dest m.destIndex s.now false false false []] } }

/-- Aborts one move (R279). With the new peer fenced or an orderly stop the held writes go to the old home; with the
old peer fenced the slab is LOST and the log goes with it; FREE of the object is completed by its caller. -/
def State.abortMove (s : State) (m : Move) (c : MoveCause) : State :=
  let h := s.home m.slice m.slab
  let t := s.dropNew m
  match c with
  | .oldPeerFenced =>
    ((t.setHome m.slice m.slab { h with state := .lost, newT3 := false, newHome := 0, newIndex := 0 }).flag R.MEM_EVENT_LOST).endMove
      m false 0x7A
  | .free => t.endMove m false 0x79
  | _ =>
    if !m.started then t.endMove m false 0x79
    else
      ((t.writeHeld h m).setHome m.slice m.slab { h with state := .resident, newT3 := false, newHome := 0, newIndex := 0 }).endMove
        m false 0x79

/-- Every move of the list aborted. -/
def State.abortMoves (s : State) (l : List Move) (c : MoveCause) : State := s.each l fun t m => t.abortMove m c

/-- One slab of an object unmapped: its move stopped, its region HELD until zeroed or its lend slot given back,
its translations invalidated (R279, R548). -/
def State.dropSlab (s : State) (x slab : Nat) : State :=
  let t := s.abortMoves (s.mm.moves.filter fun m => m.slice == x && m.slab == slab) .free
  let h := t.home x slab
  let u := t.setHome x slab .unmapped |>.emit .invalidate [x, slab]
  match h.state with
  | .unmapped => t
  | .lost => u.setUsed x (u.used x) (u.t3Used x - 1)
  | _ =>
    if h.t3 then (u.freeLend h.home h.index).setUsed x (u.used x) (u.t3Used x - 1)
    else (u.holdRegion h.home h.index false).setUsed x (u.used x - 1) (u.t3Used x)

/-! Handles (R271) -/

/-- Object slot `i` of slice `x`. -/
def State.object (s : State) (x i : Nat) : ObjRec := tblGet ObjRec.unused s.mm.objects (x * 4096 + i)

/-- The state with an object slot replaced. -/
def State.setObject (s : State) (x i : Nat) (o : ObjRec) : State :=
  { s with mm := { s.mm with objects := tblSet ObjRec.unused s.mm.objects (x * 4096 + i) o } }

/-- The handle of an object: index, slice, serial. -/
def handleOf (x i serial : Nat) : Nat := i + x * 2 ^ 12 + serial * 2 ^ 22

/-- The index a handle names, if it is a live object of slice `x`. -/
def State.handleIndex (s : State) (x hd : Nat) : Option Nat :=
  let i := hd % 4096
  if (s.object x i).live && hd == handleOf x i (s.object x i).serial then some i else none

/-- An object of slice `x` freed: every slab dropped, the slot free for reuse (R279, R287). -/
def State.freeObject (s : State) (x i : Nat) : State :=
  let o := s.object x i
  let t := s.each (List.range o.count) fun t k => t.dropSlab x (o.base + k)
  t.setObject x i { o with live := false }

/-- Σ max(FLOOR − USED, 0) over the other slices (R283). -/
def State.reserveOf (s : State) (x : Nat) : Nat :=
  (allSlices.map fun t => if t = x then 0 else s.guaranteed t).sum

/-- How many slabs FREE lacks for slice `x` to take `n` (R283): zero where the allocation is granted. -/
def State.shortBy (s : State) (x n : Nat) : Nat :=
  if s.used x + n ≤ s.rd (R.MEM_QUOTA_FLOOR x) then n - s.poolFree else n + s.reserveOf x - s.poolFree

/-- Slab `k` of an object placed and mapped on the die; a slab already zeroed enters (R271). -/
def State.mapSlab (s : State) (x slab hint target k : Nat) : State :=
  match s.place x hint target k with
  | none => s
  | some v =>
    match s.freeRegion v with
    | none => s
    | some i =>
      let t := (s.takeFree v i .used).setHome x slab ⟨.resident, false, v, i, false, 0, 0, s.now⟩
      t.setUsed x (t.used x + 1) (t.t3Used x)

/-- A slab mapped in a peer's lend (R272, PEER). -/
def State.mapPeer (s : State) (x slab d : Nat) : State :=
  match (s.lendOf d).bind LendIn.freeIndex with
  | none => s
  | some i =>
    let t := (s.useLend d i true).setHome x slab ⟨.resident, true, d, i, false, 0, 0, s.now⟩
    t.setUsed x (t.used x) (t.t3Used x + 1)

/-- The fields of a request slot. -/
structure ReqFields where
  hint : Nat
  handle : Nat
  vaddr : Nat
  first : Nat
  count : Nat
  target : Nat
deriving DecidableEq, Repr

/-- The fields software wrote to slot `n` of slice `x`. -/
def State.reqFields (s : State) (x n : Nat) : ReqFields :=
  ⟨s.rd (R.MEM_REQ_CTRL_HINT x n), s.rd (R.MEM_REQ_HANDLE_HANDLE x n), s.rd (R.MEM_REQ_VADDR_VADDR x n),
    s.rd (R.MEM_REQ_FIRST_FIRST x n), s.rd (R.MEM_REQ_COUNT_COUNT x n), s.rd (R.MEM_REQ_TARGET_TARGET x n)⟩

/-- The lowest failing code of a list of checks (code, failed). -/
def lowestCode : List (Nat × Bool) → Nat
  | [] => 0
  | (c, b) :: l => let r := lowestCode l; if b then (if r = 0 then c else min c r) else r

/-- The virtual slab range of an ALLOC is aligned, in the object space of the slice, and unmapped (R271, R547). -/
def State.rangeFree (s : State) (x : Nat) (f : ReqFields) : Bool :=
  f.vaddr % 0x20_0000 == 0 && f.vaddr < 2 ^ 56 && f.vaddr / 0x20_0000 + f.count ≤ 2 ^ 35 &&
  !(s.mm.homes.any fun e => homeKey x (f.vaddr / 0x20_0000) ≤ e.1 &&
    e.1 < homeKey x (f.vaddr / 0x20_0000 + f.count) && e.2.state != .unmapped)

/-- The slabs a MIGRATE names. -/
def State.migrateSlabs (s : State) (x : Nat) (f : ReqFields) : List Nat :=
  let o := s.object x (f.handle % 4096)
  (List.range f.count).map fun j => o.base + f.first + j

/-- The code of the checks of a request that need no eviction (R288): the lowest that fails. -/
def State.reqCheck (s : State) (x n op : Nat) : Nat :=
  let f := s.reqFields x n
  let o := s.object x (f.handle % 4096)
  let bad := (s.handleIndex x f.handle).isNone
  let peer := f.hint == 5
  if !s.inRun then 0x7B
  else if op = 1 then lowestCode [(0x70, f.first != 0 || f.count == 0 || 65536 < f.count),
    (0x72, !s.rangeFree x f),
    (0x73, if peer then s.rd (R.MEM_QUOTA_T3_T3_CEIL x) < s.t3Used x + f.count || s.rd (R.MEM_QUOTA_CEIL x) < s.used x
           else s.rd (R.MEM_QUOTA_CEIL x) < s.used x + f.count),
    (0x75, !s.hintOk f.hint f.target), (0x76, peer && s.lendRoom f.target < f.count),
    (0x78, (List.range 4096).all fun i => (s.object x i).live)]
  else if op = 2 then lowestCode [(0x70, f.hint != 0 || f.vaddr != 0 || f.first != 0 || f.count != 0 || f.target != 0),
    (0x71, bad)]
  else if op = 3 then lowestCode [(0x70, f.vaddr != 0 || f.first != 0 || f.count != 0), (0x71, bad),
    (0x75, !s.hintOk f.hint f.target)]
  else if op = 4 then lowestCode [(0x70, f.vaddr != 0 || f.count == 0 || (!bad && o.count < f.first + f.count)),
    (0x71, bad), (0x75, !s.hintOk f.hint f.target),
    (0x77, !bad && (s.migrateSlabs x f).any fun k => (s.home x k).state == .transit || (s.home x k).state == .lost)]
  else 0x70

/-- An ALLOC that is granted: slot, handle, slabs (R271, R287). -/
def State.grant (s : State) (x n : Nat) : State :=
  let f := s.reqFields x n
  match (List.range 4096).find? (fun i => !(s.object x i).live) with
  | none => s.endReq x n 0x78 0
  | some i =>
    let serial := ((s.object x i).serial + 1) % 1024
    let base := f.vaddr / 0x20_0000
    let t := s.setObject x i ⟨serial, true, base, f.count, f.hint, f.target⟩
    let u := t.each (List.range f.count) fun t k =>
      if f.hint = 5 then t.mapPeer x (base + k) f.target else t.mapSlab x (base + k) f.hint f.target k
    (u.wr (R.MEM_REQ_HANDLE_HANDLE x n) (handleOf x i serial)).endReq x n 0 0

/-- One slab of a MIGRATE (R280): done already, queued to move, or left with the code that says why. A move to a peer has no
new home in any sector: the engine of the old home's sector runs it, and for one from peer to peer that of sector
target mod 8 (R274, DESIGN CHOICE, log entry 99). -/
def State.migrateSlab (s : State) (x n : Nat) (f : ReqFields) (slab k : Nat) : State × Nat × Nat :=
  let h := s.home x slab
  if f.hint = 5 then
    if h.t3 && h.home == f.target then (s, 1, 0)
    else if s.lendLeft f.target = 0 then (s, 0, 0x76)
    else (s.queueMove ⟨x, slab, false, n + 1, (if h.t3 then f.target % 8 else h.home / 19), true, f.target, 0, false,
      [], 0, false, [], f.hint, f.target, k⟩, 2, 0)
  else if !h.t3 && s.hintVault x f.hint f.target k == some h.home then (s, 1, 0)
  else
    match s.place x f.hint f.target k with
    | none => (s, 0, 0x74)
    | some v => (s.queueMove ⟨x, slab, false, n + 1, v / 19, false, v, 0, false, [], 0, false, [], f.hint, f.target, k⟩,
      2, 0)

/-- A MIGRATE begins: slabs queued (2), done (1) or left with a code (0). -/
def State.migrate (s : State) (x n : Nat) : State :=
  let f := s.reqFields x n
  let r := (List.range f.count).foldl (fun (acc : State × Nat × Nat × Nat) j =>
    let (t, q, d, c) := acc
    let (u, what, code) := t.migrateSlab x n f ((s.object x (f.handle % 4096)).base + f.first + j) (f.first + j)
    (u, (if what = 2 then q + 1 else q), (if what = 1 then d + 1 else d), worseCode c code)) (s, 0, 0, 0)
  let (t, q, d, c) := r
  if q = 0 then t.endReq x n c d
  else { t with mm := { t.mm with reqs := t.mm.reqs ++ [MemReq.mk x n 4 q d c true] } }

/-- Serves one request; false where an ALLOC waits for evictions (R284). -/
def State.serve (s : State) (q : MemReq) : State × Bool :=
  let x := q.slice
  let n := q.slot
  let code := s.reqCheck x n q.op
  let f := s.reqFields x n
  let short := if q.op = 1 && f.hint != 5 && 0 < code && code < 0x74 then 0
    else if q.op = 1 && f.hint != 5 && s.inRun then s.shortBy x f.count else 0
  if q.op = 1 && short != 0 && (code = 0 || 0x74 < code) then
    let need := short - (s.mm.moves.filter (·.evict)).length - (s.mm.old.length)
    let (t, lack) := s.evict (fun _ => true) need
    let t := if code = 0 then t else s
    if lack != 0 then
      (((t.flag R.MEM_EVENT_EVICT_FAIL).iff (s.used x + f.count ≤ s.rd (R.MEM_QUOTA_FLOOR x))
        (·.flag R.MEM_EVENT_FLOOR_SHORT)).endReq x n 0x74 0, true)
    else if code != 0 then (t.endReq x n code 0, true)
    else (t, false)
  else if code != 0 then (s.endReq x n code 0, true)
  else
    match q.op with
    | 1 => (s.grant x n, true)
    | 2 => ((s.freeObject x (f.handle % 4096)).endReq x n 0 0, true)
    | 3 =>
      let o := s.object x (f.handle % 4096)
      ((s.setObject x (f.handle % 4096) { o with hint := f.hint, target := f.target }).endReq x n 0 0, true)
    | _ => (s.migrate x n, true)

/-- Serves waiting requests in the order of their GO writes until one must wait (R287); none during a Jasper restart
(R566, R567). -/
def State.serveReqs (s : State) : Nat → State
  | 0 => s
  | k + 1 =>
    match (if s.jasperDown then none else s.mm.reqs.find? (fun q => !q.begun)) with
    | none => s
    | some q =>
      let rest := s.mm.reqs.filter fun r => r.begun || !(r.slice == q.slice && r.slot == q.slot)
      let (t, done) := { s with mm := { s.mm with reqs := rest } }.serve q
      if done then t.serveReqs k
      else { t with mm := { t.mm with reqs := q :: t.mm.reqs } }

/-- As many requests as wait, after the evictions that a lowered CEIL is owed (R282). -/
def State.serveAll (s : State) : State := let t := s.evictOver; t.serveReqs (t.mm.reqs.length + 1)

/-- A GO write to a request slot (R287): ignored while BUSY, turned away where the window is not open (R539). -/
def State.memGo (s : State) (x n op ticket hint : Nat) : State :=
  if !s.sliceOpen x then s.windowErr
  else if s.rd (R.MEM_REQ_CTRL_GO x n) = 1 then s
  else
    let t := s.wrs [(R.MEM_REQ_CTRL_OP x n, op), (R.MEM_REQ_CTRL_TICKET x n, ticket), (R.MEM_REQ_CTRL_HINT x n, hint),
      (R.MEM_REQ_CTRL_GO x n, 1)]
    { t with mm := { t.mm with reqs := t.mm.reqs ++ [MemReq.mk x n op 0 0 0 false] } }.serveAll

/-- MEM_ALLOC: GO of an ALLOC in slot `n` of slice `x`. -/
def execMemAlloc (x n ticket hint t : Nat) (s : State) : Ans :=
  onUnit (x < 64 && n < 16) ((s.atTime t).memGo x n 1 ticket hint)

/-- MEM_FREE: GO of a FREE. -/
def execMemFree (x n ticket hint t : Nat) (s : State) : Ans :=
  onUnit (x < 64 && n < 16) ((s.atTime t).memGo x n 2 ticket hint)

/-- MEM_HINT: GO of a HINT. -/
def execMemHint (x n ticket hint t : Nat) (s : State) : Ans :=
  onUnit (x < 64 && n < 16) ((s.atTime t).memGo x n 3 ticket hint)

/-- MEM_MIGRATE: GO of a MIGRATE. -/
def execMemMigrate (x n ticket hint t : Nat) (s : State) : Ans :=
  onUnit (x < 64 && n < 16) ((s.atTime t).memGo x n 4 ticket hint)

/-- A home-table entry as MEM_QUERY_RESULT shows it (R270). -/
def State.entryWord (s : State) (x slab : Nat) : Nat :=
  let h := s.home x slab
  let st := match h.state with | .unmapped => 0 | .resident => 1 | .transit => 2 | .lost => 3
  let poison := if h.state == .unmapped || h.state == .lost then false else
    s.mm.bad.any fun e => h.markKey ≤ e.1 && e.1 < h.markKey + 0x1_0000 && e.2 == 2
  if h.state == .unmapped then 0
  else st + (if s.mm.pins.contains (x, slab) then 4 else 0) + (if poison then 8 else 0) + (if h.t3 then 16 else 0)
    + (if h.state == .transit && h.newT3 then 32 else 0) + h.home % 256 * 2 ^ 8 + (if h.state == .transit then h.newHome % 256 * 2 ^ 16 else 0)
    + h.index % 65536 * 2 ^ 24 + s.ageOf h * 2 ^ 40

/-- MEM_QUERY: a MEM_QUERY_VA write and the entry it shows (R270, R290). -/
def execMemQuery (x slab t : Nat) (s : State) : Ans :=
  let u := s.atTime t
  onUnit (x < 64) ((u.wrs [(R.MEM_QUERY_VA_SLAB_VA, slab), (R.MEM_QUERY_VA_SLICE, x)]).wr R.MEM_QUERY_RESULT_ENTRY
    (u.entryWord x (slab % 2 ^ 36)))

/-- The move an engine starts next: evictions ahead of MIGRATE requests, else in order; moves into a throttled sector
wait, and so does one of a slab in TRANSIT (R274, R280, R286). -/
def State.nextMove (s : State) (n : Nat) : Option Move :=
  let l := s.mm.moves.filter fun m => m.sector == n && !m.started && (s.moveOf m.slice m.slab).isNone &&
    (m.toT3 || s.rd (R.HUB_THERM_STATE_LEVEL n) < 2)
  (l.find? (·.evict)).orElse fun _ => l.head?

/-- A queued move replaced: at its place, or where another sector's engine takes it over, last in that engine's queue. -/
def State.putMove (s : State) (m n : Move) : State :=
  let same := fun (k : Move) => k.slice == m.slice && k.slab == m.slab && k.slot == m.slot
  let l := if m.sector = n.sector then s.mm.moves.map fun k => if same k then n else k
    else (s.mm.moves.filter fun k => !same k) ++ [n]
  ({ s with mm := { s.mm with moves := l } }.showMoves m.sector).showMoves n.sector

/-- Step 1 of a move (R275): the new region reserved and the entry in TRANSIT. A destination that has filled is chosen
anew, and in another sector its engine takes the move over (R274); with none left the slab stays where it is (R280). -/
def State.startMove (s : State) (m : Move) : State :=
  let h := s.home m.slice m.slab
  if h.state != .resident then s.endMove m false (if h.state == .lost then 0x7A else 0x79)
  else if m.toT3 then
    let d := if s.lendRoom m.dest != 0 then some m.dest else if m.evict then s.widestLend else none
    match d.bind fun d => ((s.lendOf d).bind LendIn.freeIndex).map fun i => (d, i) with
    | none => s.endMove m false 0x76
    | some (d, i) =>
      ((s.useLend d i true).setHome m.slice m.slab { h with state := .transit, newT3 := true, newHome := d, newIndex := i }).putMove
        m { m with started := true, dest := d, destIndex := i }
  else
    let v := if s.vaultFree m.dest != 0 then some m.dest else s.place m.slice m.hint m.target m.nth
    match v.bind fun v => (s.freeRegion v).map fun i => (v, i) with
    | none => s.endMove m false 0x74
    | some (v, i) =>
      if v / 19 ≠ m.sector then s.putMove m { m with sector := v / 19, dest := v }
      else
        (((s.takeFree v i .held).bump R.MEM_POOL_HELD_SLABS 1).setHome m.slice m.slab
          { h with state := .transit, newT3 := false, newHome := v, newIndex := i }).putMove
          m { m with started := true, dest := v, destIndex := i }

/-- MOVE_START: the engine of a sector starts the next move while it runs fewer than 4 (R274). An eviction that finds no room
any more leaves its request to be tried again (R284). -/
def execMoveStart (sector t : Nat) (s : State) : Ans :=
  let u := s.atTime t
  onUnit (sector < 8) <|
    if (u.mm.moves.filter fun m => m.sector == sector && m.started).length < 4 then
      match u.nextMove sector with
      | some m => (u.startMove m).serveAll
      | none => u
    else u

/-- The regions on their way back that are region `i` of vault `v`, replaced by `g`. -/
def State.mapOld (s : State) (v i : Nat) (g : OldRegion → OldRegion) : State :=
  let l := s.mm.old.map fun o => if o.vault == v && o.index == i then g o else o
  { s with mm := { s.mm with old := l } }

/-- Steps 2 to 5 of a move (R275 to R278): the copy, the log and then the waiting writes applied, the entry RESIDENT at
the new home, the counts of R281, the old region released for zeroing, translations invalidated. -/
def State.switchMove (s : State) (m : Move) : State :=
  let h := s.home m.slice m.slab
  let h' : HomeEntry := ⟨.resident, m.toT3, m.dest, m.destIndex, false, 0, 0, h.touched⟩
  let t := (((s.copySlab h.key h'.key).copyMarks h h').queueSlab h' m.lines).writeHeld h' m
  let flights := s.flightsIn m.slice m.slab
  let t := (t.setHome m.slice m.slab h').emit .invalidate [m.slice, m.slab]
  let t := if m.toT3 then t else (t.setRegion m.dest m.destIndex .used).drop R.MEM_POOL_HELD_SLABS 1
  let t := if h.t3 then t.freeLend h.home h.index
    else (t.holdRegion h.home h.index true).mapOld h.home h.index fun o => { o with flights := flights }
  let u := t.used m.slice
  let w := t.t3Used m.slice
  let t := t.setUsed m.slice (if h.t3 && !m.toT3 then u + 1 else if !h.t3 && m.toT3 then u - 1 else u)
    (if h.t3 && !m.toT3 then w - 1 else if !h.t3 && m.toT3 then w + 1 else w)
  let t := if m.evict then t.sat (R.MEM_Q_EVICTED_COUNT m.slice) 1 else t
  t.endMove m true 0

/-- MIGRATION_SWITCH: the copy is done. Where `freeze` is set the log is frozen, and what is written from then on waits for the
switch; else the log is applied and the slab's home switches (R275, R276). A pinned slab holds both (R192). -/
def execMigrationSwitch (x slab t : Nat) (s : State) (freeze : Bool := false) : Ans :=
  let u := s.atTime t
  onUnit (x < 64) <|
    match u.moveOf x slab with
    | none => u
    | some m =>
      if u.mm.pins.contains (x, slab) then u
      else if freeze then u.mapMove x slab fun m => { m with frozen := true }
      else (u.switchMove m).serveAll

/-- A transfer that was under way at a switch still is: it counts as in flight until it has arrived (R278). -/
def State.inFlight (s : State) (f : Nat × Nat × Nat) : Bool :=
  (s.tile f.1).xfers.any fun r => r.queue == f.2.1 && r.index == f.2.2

/-- OLD_REGION_RELEASE: every invalidate acknowledged and the in-flight count zero (R278). -/
def execOldRegionRelease (v i t : Nat) (s : State) : Ans :=
  let u := s.atTime t
  onUnit (v < 152 && i < 384)
    (u.mapOld v i fun o => { o with released := o.released || !(o.flights.any u.inFlight) })

/-- REGION_ZEROED: a released region has been zeroed; it returns from HELD to FREE and waiting requests are tried
(R278, R281, R283). -/
def execRegionZeroed (v i t : Nat) (s : State) : Ans :=
  let u := s.atTime t
  onUnit (v < 152 && i < 384) <|
    if u.mm.old.any (fun o => o.vault == v && o.index == i && o.released) then
      let h : HomeEntry := ⟨.resident, false, v, i, false, 0, 0, 0⟩
      let w := (((u.zeroKeys h.key (h.key + 0x20_0000)).clearMarks h).queueSlab h 0).setRegion v i .free
      let w := { w with mm := { w.mm with old := w.mm.old.filter fun o => !(o.vault == v && o.index == i) } }
      (((w.drop R.MEM_POOL_HELD_SLABS 1).bump R.MEM_POOL_FREE_SLABS 1).bump (R.VAULT_FREE_SLABS_SLABS v) 1).serveAll
    else u

/-- RELEASE_STALL: an old region not released 10 ms after its switch (R278). -/
def execReleaseStall (v i t : Nat) (s : State) : Ans :=
  let u := s.atTime t
  onUnit (v < 152 && i < 384) <|
    if u.mm.old.any (fun o => o.vault == v && o.index == i && o.moved && !o.released
        && o.switchedAt + 10_000_000 ≤ u.now) then
      (u.mapOld v i fun o => { o with stalled := true }).flag R.MEM_EVENT_RELEASE_STALL
    else u

/-! Lends given (R285) -/

/-- The first `n` free regions of the pool, lower vaults first; the spec does not say which are lent (log entry 20). -/
def State.lendRegions (s : State) (k : Nat) : Nat → State
  | 0 => s
  | n + 1 =>
    match s.inferVaults.find? (fun v => s.vaultFree v != 0) with
    | none => s
    | some v =>
      match s.freeRegion v with
      | none => s
      | some i => ((s.takeFree v i (.lent k)).bump R.MEM_POOL_LENT_SLABS 1).lendRegions k n

/-- `n` lent regions that the peer has no slab in go back, zeroed on the way to FREE. -/
def State.unlend (s : State) (k : Nat) : Nat → State
  | 0 => s
  | n + 1 =>
    match (s.mm.regions.filter fun e => e.2 == .lent k).getLast? with
    | none => s
    | some e =>
      ((s.holdRegion (e.1 / 384) (e.1 % 384) false).drop R.MEM_POOL_LENT_SLABS 1).unlend k n

/-- A lend changes from `old` to `new` slabs (R285). -/
def State.lendResize (s : State) (k old new : Nat) : State :=
  if old ≤ new then s.lendRegions k (new - old) else s.unlend k (old - new)

/-- The lend received from peer `d` is now `n` slabs (R285). -/
def State.lendHeard (s : State) (d n : Nat) : State :=
  if (s.lendOf d).isSome then
    s.setLends (s.mm.lendsIn.map fun l => if l.dev == d then { l with slabs := n } else l)
  else s.setLends (s.mm.lendsIn ++ [⟨d, n, []⟩])

/-- The borrower `d` reports the slabs it has homed in a lend of this device (R285, log entry 100). -/
def State.homedHeard (s : State) (d : Nat) (r : Nat × Nat) : State :=
  if r.1 < 16 && s.rd (R.MEM_LEND_VALID r.1) == 1 && s.rd (R.MEM_LEND_DEVICE r.1) == d then
    { s with mm := { s.mm with lentHomed := tblSet 0 s.mm.lentHomed r.1 r.2 } }
  else s

/-- LEND_MESSAGE_RX: a management message of peer `d`: it announces a lend of `n` slabs, or reports (lend, slabs) what it has
homed in this device's lends. -/
def execLendMessageRx (d : Nat) (n : Option Nat) (t : Nat) (s : State) (homed : List (Nat × Nat) := []) : Ans :=
  onUnit (d < 256) <|
    let s := (s.atTime t).each homed fun t r => t.homedHeard d r
    match n with
    | none => s
    | some k => (s.lendHeard d k).serveAll

/-- The lender of peer-homed slabs is fenced: the slabs are LOST, moves to or from it abort, its lend is gone
(R279, R285). -/
def State.lenderFenced (s : State) (d : Nat) : State :=
  let out := s.mm.moves.filter fun m => (s.home m.slice m.slab).t3 && (s.home m.slice m.slab).home == d
  let t := s.abortMoves out .oldPeerFenced
  let inb := t.mm.moves.filter fun m => m.toT3 && m.dest == d
  let t := t.abortMoves inb .newPeerFenced
  let t := t.each t.mm.homes fun t e =>
    if e.2.t3 && e.2.home == d && e.2.state != .lost then
      (t.setHome (e.1 / 0x10_0000_0000) (e.1 % 0x10_0000_0000) { e.2 with state := .lost }).flag R.MEM_EVENT_LOST
    else t
  let t := { t with mm := { t.mm with bad := tblClear t.mm.bad (152 * 0x200_0000 + d * 2 ^ 32) (152 * 0x200_0000 + (d + 1) * 2 ^ 32) } }
  (t.zeroKeys (peerKey d 0) (peerKey (d + 1) 0)).setLends (t.mm.lendsIn.filter fun l => l.dev != d)

/-- The borrower `d` is fenced: every lend to it is zeroed and returned to FREE (R285). -/
def State.borrowerFenced (s : State) (d : Nat) : State :=
  s.each (List.range 16) fun t k =>
    if t.rd (R.MEM_LEND_VALID k) = 1 && t.rd (R.MEM_LEND_DEVICE k) = d then
      let u := t.unlend k (t.rd (R.MEM_LEND_SLABS_SLABS k))
      { u with mm := { u.mm with lentHomed := tblSet 0 u.mm.lentHomed k 0 } }
    else t

/-- Every object of a slice freed and its requests dropped (R279, R551). -/
def State.freeSlice (s : State) (x : Nat) : State :=
  let t := s.each (List.range 4096) fun t i => if (t.object x i).live then t.freeObject x i else t
  { t with mm := { t.mm with reqs := t.mm.reqs.filter fun q => q.slice != x } }

/-- Every move ended for an orderly stop (R279). -/
def State.stopMoves (s : State) : State := s.abortMoves s.mm.moves .stop

end Sys2Proof.Machine
end

