-- ==== Sys2Proof/Machine/Stop.lean ====
section
/-! DEFINITION. Stops of the device (R42, R46, R626): the owner stop, the orderly stop of heat and supply, and the passage
to STOPPED. -/

namespace Sys2Proof.Machine

/-- The coarsest slot length of the clusters with carriers, in ns: at its boundaries every cluster is at a slot boundary. -/
def State.slotGrid (s : State) : Nat :=
  (((List.range 16).filter fun c => allCarriers.any fun k => s.rd (R.AIR_CARRIER_STATE k) != 0 && s.carrierCluster k == c).map
    fun c => slotNs (s.clusterMu c)).foldl max 0

/-- The next instant after now, in GPS ns, at a multiple of `len`; none where the radio does not run. -/
def State.radioEnd (s : State) (len : Nat) : Option Nat := if len = 0 then none else some ((s.gpsNs / len + 1) * len)

/-- Of two causes in one cycle DEV_STOP_CAUSE keeps the lower (R42); a stop already in progress keeps its own. -/
def State.lowerCause (s : State) (cause : Nat) : State :=
  if s.dev.stopSince = s.now then let t := s.reachStop cause; t.wr R.DEV_STOP_CAUSE_CAUSE t.dev.stopCause else s

/-- The device enters STOPPING with a cause (R42), its radio to stop at a boundary. -/
def State.enterStop (s : State) (cause : Nat) (st : StopState) (radioEnd : Option Nat) : State :=
  let t := if s.rd R.DEV_STATUS_PHASE = 5 then s.lowerCause cause else (s.reachStop cause).enterStopping
  ({ t with dev := { t.dev with stop := st, radioStopAt := radioEnd } }).showAdmit

/-- A job of an orderly stop ends with BOUND (R626), wherever it stands; a neural primary gives way to the classical path,
which ends by its deadline (R318). -/
def State.boundJob (s : State) (cyc : Nat) (j : JobRec) : State :=
  match j.phase with
  | .running =>
    if j.neural then s.toClassical j cyc else
    let t := (s.abortTiles j cyc).endTiles j cyc
    let (t, k) := t.settle j
    ((t.endJob k 2).showTiles j.slice).closeTileWindows j.slice
  | .fallbackDue => ((((s.abortTiles j cyc).endTiles j cyc).endJob j 2).showTiles j.slice).closeTileWindows j.slice
  | .classical => s
  | .ended => s
  | _ => s.endUnstarted j 2

/-- An orderly stop begins (R626): jobs end with BOUND, migrations end, the radio is to stop at the next slot boundary. -/
def State.orderlyStop (s : State) (cause cyc : Nat) : State :=
  let p := s.rd R.DEV_STATUS_PHASE
  if p = 6 || p = 0xF then s
  else if s.dev.stop == .ordered then s.lowerCause cause
  else
    let len := s.slotGrid
    let t := s.each s.sched.jobs fun t j => t.boundJob cyc j
    (t.stopMoves).enterStop cause .ordered (s.radioEnd len)

/-- An owner stop begins in RUN (R46): admission closes at once; the radio is to stop at the next frame boundary. -/
def State.ownerStopNow (s : State) : State :=
  let len := if s.slotGrid = 0 && s.rd R.DEV_STATUS_RADIO_READY = 0 then 0 else 10_000_000
  let t := s.reachStop 1
  (({ t with dev := { t.dev with stop := .owner, radioStopAt := s.radioEnd len } }).showAdmit).passStop

/-- OWNER_STOP: in ROM, BOOT and BUILD it takes effect at the end of the phase. -/
def execOwnerStop (t : Nat) (s : State) : Ans :=
  .next <|
    let s := s.atTime t
    let p := s.rd R.DEV_STATUS_PHASE
    if p = 4 && s.dev.stop == .none then s.ownerStopNow
    else if p < 4 && s.dev.stop == .none then { s with dev := { s.dev with stop := .asked } }
    else if p = 5 then s.lowerCause 1
    else s

/-- STOP_COMPLETE: the jobs have ended and the radio has stopped; every vault enters self-refresh, and the device passes
from STOPPING to STOPPED. -/
def execStopComplete (t : Nat) (s : State) : Ans :=
  .next <|
    let s := (s.atTime t).settleStop.passStop
    if s.rd R.DEV_STATUS_PHASE ≠ 5 || !s.jobsEnded || s.dev.radioStopAt.isSome then s
    else
      let s := s.each (allVaults.filter s.vaultOn) fun s v => s.wr (R.VAULT_STATUS_STATE v) 3
      (s.enterPhase 6).showAdmit

end Sys2Proof.Machine
end

