-- ==== Sys2Proof/Machine/Power.lean ====
section
/-! DEFINITION. Power modes (R616 to R618), the governor (R619, R620), junction and DRAM temperature (R621, R286), and
shedding on supply sag (R622 to R626). -/

namespace Sys2Proof.Machine

/-! Clock steps (R618) -/

/-- The sectors. -/
def allSectors : List Nat := List.range 8

/-- The fastest step a mode allows. -/
def baseStep (mode : Nat) : Nat := if mode = 1 then 2 else 0

/-- The shedding controller has taken every sector to step 4 (R623, step 1). -/
def State.stepsForced (s : State) : Bool := 1 ≤ s.rd R.POWER_STATUS_SHED_STEP

/-- The step of a sector but for shedding step 1. -/
def State.sectorStep (s : State) (n : Nat) : Nat :=
  if s.stepsForced then s.pow.before1.getD n 0 else s.rd (R.POWER_SECTOR_CLK_STEP n)

/-- The state with that step changed. -/
def State.setStep (s : State) (n v : Nat) : State :=
  if s.stepsForced then { s with pow := { s.pow with before1 := s.pow.before1.set n v } } else s.wr (R.POWER_SECTOR_CLK_STEP n) v

/-- A mode comes into force (R617): mesh and tiles at its clocks, each inference port to change its rate; `held` says
that Stream waits for recovery. -/
def State.runMode (s : State) (m : Nat) (held : Bool) : State :=
  let old := baseStep (s.rd R.POWER_STATUS_MODE)
  let t := s.aclkMark.wrs [(R.POWER_STATUS_MODE, m), (R.POWER_STATUS_STREAM_HELD, if held then 1 else 0)]
  let t := t.each allSectors fun t n =>
    let v := t.sectorStep n
    t.setStep n (if v = old then baseStep m else max v (baseStep m))
  t.each s.inferVaults fun t v => t.setVault v { t.vault v with wantStream := m == 1 }

/-- A POWER_MODE commit has acted (R617). -/
def State.modeCommit (s : State) : State :=
  let m := s.rd R.POWER_MODE_CFG_MODE
  if m = 1 && 2 ≤ s.rd R.POWER_STATUS_SHED_STEP then s.runMode 0 true else s.runMode m false

/-! The governor (R619, R620) -/

/-- The mean of the last ten samples in mW. -/
def PowState.mean (x : PowState) : Nat := x.samples.sum / max 1 x.samples.length

/-- CAP in mW. -/
def State.capMw (s : State) : Nat := s.rd R.POWER_MODE_CFG_CAP_W * 1000

/-- The sector of a list with the highest power, the lower number winning ties. -/
def State.hottest (s : State) : List Nat → Option Nat
  | [] => none
  | a :: l => some (l.foldl (fun b n => if s.rd (R.POWER_SECTOR_MW_MW b) < s.rd (R.POWER_SECTOR_MW_MW n) then n else b) a)

/-- Sectors a thermal rule holds from speeding up. -/
def State.thermal (s : State) (n : Nat) : Bool := s.pow.thermHeld.contains n || s.pow.dramHeld.contains n

/-- Admission closes on the hottest sector still open. -/
def State.closeSector (s : State) : State :=
  match s.hottest (allSectors.filter fun n => !s.pow.closed.contains n) with
  | none => s
  | some n => { s with pow := { s.pow with closed := s.pow.closed ++ [n], lastClose := s.now + 1 } }

/-- The mean is above CAP in Balanced or Stream mode: the hottest sector slows, once per 100 µs; after 1 ms with every
sector at step 4 the hottest sector closes, and after each further 1 ms another (log entry 80). -/
def State.governSlow (s : State) : State :=
  let l := if s.stepsForced then [] else allSectors.filter fun n => s.sectorStep n < 4
  match s.hottest l with
  | some n =>
    let s := { s with pow := { s.pow with overSince := none } }
    if s.pow.lastSlow = 0 || s.pow.lastSlow - 1 + 100_000 ≤ s.now then
      let t := s.setStep n (s.sectorStep n + 1)
      { t with pow := { t.pow with lastSlow := t.now + 1 } }
    else s
  | none =>
    match s.pow.overSince with
    | none => { s with pow := { s.pow with overSince := some s.now } }
    | some i =>
      if s.now < i + 1_000_000 then s
      else
        let t := s.closeSector
        { t with pow := { t.pow with overSince := some t.now } }

/-- The mean has stayed below CAP − 20 W for 10 ms: closed sectors open, the slowest sector without a thermal rule speeds
up, and Peak resumes once every sector is back at step 0. -/
def State.governFast (s : State) : State :=
  let base := baseStep (s.rd R.POWER_STATUS_MODE)
  let l := allSectors.filter fun n => base < s.sectorStep n && !s.thermal n
  let opened := !s.pow.closed.isEmpty
  let s := { s with pow := { s.pow with closed := [], peakFirst := none } }
  let s := match l with
    | [] => s
    | a :: r =>
      let n := r.foldl (fun b k => if s.sectorStep b < s.sectorStep k then k else b) a
      s.setStep n (s.sectorStep n - 1)
  let s := if opened || !l.isEmpty then { s with pow := { s.pow with underSince := some s.now } } else s
  let s := s.iff (s.rd R.POWER_STATUS_PEAK_BROKEN == 1 && allSectors.all fun n => s.sectorStep n == 0) fun s =>
    s.wr R.POWER_STATUS_PEAK_BROKEN 0
  if opened then s.decision else s

/-- The mean is above CAP in Peak mode: one sector closes per 100 µs; 2 ms after the first, R619 applies. -/
def State.governPeak (s : State) : State :=
  let s := if s.pow.lastClose = 0 || s.pow.lastClose - 1 + 100_000 ≤ s.now || s.pow.peakFirst.isNone then s.closeSector else s
  let first := s.pow.peakFirst.getD s.now
  let s := { s with pow := { s.pow with peakFirst := some first } }
  if s.now < first + 2_000_000 then s
  else ((s.wr R.POWER_STATUS_PEAK_BROKEN 1).flag R.POWER_EVENT_PEAK_BROKEN).governSlow

/-- A power sample enters the mean, the energy count and the registers (R616). -/
def State.takeSample (s : State) (mw : Nat) (sectors : List Nat) (vdd : Nat) : State :=
  let x := s.pow
  let e := x.energyFrac + mw * (s.now - x.lastSample)
  let s := { s with pow := { x with
    samples := (mw :: x.samples).take 10, energyFrac := e % 1_000_000_000, lastSample := s.now } }
  let p := s.pow.mean
  let s := s.wrs [(R.POWER_TOTAL_MW_MW, p), (R.POWER_MAX_MW_MW, max p (s.rd R.POWER_MAX_MW_MW)), (R.POWER_VDD_CORE_MEAS_MV, vdd)]
  (s.bump R.POWER_ENERGY_MJ (e / 1_000_000_000)).each allSectors fun s n =>
    s.wr (R.POWER_SECTOR_MW_MW n) (sectors.getD n 0)

/-- The governor after a sample, with mean `p` (R617 to R619). -/
def State.govern (s : State) (p : Nat) : State :=
  let s := if p + 20_000 < s.capMw then
      match s.pow.underSince with
      | none => { s with pow := { s.pow with underSince := some s.now } }
      | some i => if s.now < i + 10_000_000 then s else s.governFast
    else { s with pow := { s.pow with underSince := none } }
  if s.capMw < p then
    if s.rd R.POWER_STATUS_MODE = 2 && s.rd R.POWER_STATUS_PEAK_BROKEN = 0 then s.governPeak else s.governSlow
  else { s with pow := { s.pow with overSince := none } }

/-- POWER_SAMPLE: total and per-sector power in mW and the measured VDD_CORE in mV. -/
def execPowerSample (mw : Nat) (sectors : List Nat) (vdd t : Nat) (s : State) : Ans :=
  .next <|
    let s := (s.atTime t).takeSample mw sectors vdd
    s.govern s.pow.mean

/-! Temperature (R621, R286) -/

/-- One thermal step of a sector that a thermal rule holds, at most one per 100 µs. -/
def State.thermStep (s : State) (n : Nat) : State :=
  let i := tblGet 0 s.pow.heldAt n
  if 4 ≤ s.sectorStep n || (i ≠ 0 && s.now < i - 1 + 100_000) then s
  else
    let t := s.setStep n (s.sectorStep n + 1)
    { t with pow := { t.pow with heldAt := tblSet 0 t.pow.heldAt n (t.now + 1) } }.flag R.POWER_EVENT_THROTTLE

/-- An element put into a list or taken out of it. -/
def member (l : List Nat) (n : Nat) (yes : Bool) : List Nat := if yes then (if l.contains n then l else l ++ [n]) else l.filter (· != n)

/-- The larger of a register's signed value and a sample, kept as the highest since the last read. -/
def State.topTemp (s : State) (f : Fld) (v : Int) : State := if signedOf 12 (s.rd f) < v then s.wr f (toField 12 v) else s

/-- JUNCTION_TEMP_SAMPLE of a sector, in 0.25 °C; none is a sample that is not valid. -/
def execJunctionTempSample (n : Nat) (temp : Option Int) (cyc t : Nat) (s : State) : Ans :=
  onUnit (n < 8) <|
    let s := s.atTime t
    let thr : Int := 4 * s.rd R.POWER_MODE_CFG_TJ_THROTTLE
    let bad := if temp.isSome then 0 else tblGet 0 s.pow.badTj n + 1
    let s := { s with pow := { s.pow with badTj := tblSet 0 s.pow.badTj n bad } }
    let s := match temp with
      | some v => (s.wrs [(R.POWER_SECTOR_TJ n, toField 12 v), (R.POWER_SECTOR_TJ_VALID n, 1)]).topTemp (R.POWER_SECTOR_TJMAX_TJ n) v
      | none => s.wr (R.POWER_SECTOR_TJ_VALID n) 0
    if temp.isNone && bad < 3 then s
    else
      let s := s.iff (temp.isNone && bad == 3) fun s => s.flag R.POWER_EVENT_SENSOR_FAIL
      let r := temp.getD thr
      let held := decide (thr ≤ r) || (s.pow.thermHeld.contains n && thr - 12 < r)
      let s := { s with pow := { s.pow with thermHeld := member s.pow.thermHeld n held } }
      let s := s.iff held fun s => s.thermStep n
      let was := s.rd (R.POWER_SECTOR_HALTED n)
      let s := if temp.isSome && 408 ≤ r then (s.wr (R.POWER_SECTOR_HALTED n) 1).iff (was == 0) (·.flag R.POWER_EVENT_THROTTLE)
        else if r ≤ 392 then s.wr (R.POWER_SECTOR_HALTED n) 0 else s
      if temp.isSome && 420 ≤ r then s.orderlyStop 2 cyc
      else if was = 1 && s.rd (R.POWER_SECTOR_HALTED n) = 0 then s.decision else s

/-- DRAM_TEMP_SAMPLE of a sector, in 0.25 °C (R286); none is a sample that is not valid. The STOP level ends with a reset
only. -/
def execDramTempSample (n : Nat) (temp : Option Int) (cyc t : Nat) (s : State) : Ans :=
  onUnit (n < 8) <|
    let s := s.atTime t
    let bad := if temp.isSome then 0 else tblGet 0 s.mm.badSensor n + 1
    let s := { s with mm := { s.mm with badSensor := tblSet 0 s.mm.badSensor n bad } }
    let s := match temp with
      | some v => (s.wrs [(R.HUB_DRAM_TEMP_TEMP n, toField 12 v), (R.HUB_DRAM_TEMP_VALID n, 1)]).topTemp (R.HUB_TEMP_MAX_TEMP n) v
      | none => s.wr (R.HUB_DRAM_TEMP_VALID n) 0
    if temp.isNone && bad < 3 then s
    else
      let r := temp.getD 380
      let held := decide (380 ≤ r) || (s.pow.dramHeld.contains n && 368 < r)
      let stop := temp.isSome && 420 ≤ r
      let s := { s with pow := { s.pow with dramHeld := member s.pow.dramHeld n held } }
      let s := s.wr (R.HUB_THERM_STATE_LEVEL n) (if stop || s.rd (R.HUB_THERM_STATE_LEVEL n) = 3 then 3 else if held then 2 else if 340 < r then 1 else 0)
      let s := s.each (s.inferVaults.filter fun v => sectorOfVault v == n) fun s v =>
        s.wr (R.VAULT_STATUS_THROTTLED v) (if held then 1 else 0)
      let s := s.iff held fun s => s.thermStep n
      if stop then s.orderlyStop 2 cyc else s

/-! Shedding (R622 to R625) -/

/-- The service ports that step 5 takes down. -/
def State.shedPorts (s : State) : List Nat :=
  (List.range 8).map (· + 32) |>.filter fun p => p != 32 + s.rd R.POWER_SHED_CFG_KEEP_PORT

/-- The priority of a carrier (R624). -/
def State.carrierPrio (s : State) (k : Nat) : Nat := bankByte 0 (s.activeBank 9) k

/-- The carriers of one priority shed, or allowed to run again. -/
def State.shedLevel (s : State) (p : Nat) (on : Bool) : State :=
  s.each (allCarriers.filter fun k => s.carrierPrio k == p && (!on || s.rd (R.AIR_CARRIER_STATE k) != 0)) fun t k => t.shedCarrier k on

/-- SHED_STEP of both status registers, and what follows from it. -/
def State.showStep (s : State) (n : Nat) : State :=
  ((s.wrs [(R.POWER_STATUS_SHED_STEP, n), (R.DEV_STATUS_SHED_STEP, n)]).showAdmit).showDegraded

/-- Sag time of the episode at the present instant (R622). -/
def State.sagTime (s : State) : Nat := s.pow.sagTime + (s.pow.sagFrom.map fun i => s.now - i).getD 0

/-- Entry times of steps 1 to 9 in ns. -/
def entryTime (n : Nat) : Nat :=
  [0, 50_000, 200_000, 1_000_000, 10_000_000, 20_000_000, 50_000_000, 100_000_000, 500_000_000].getD (n - 1) 0

/-- A step is entered (R623). -/
def State.enterShed (s : State) (n cyc : Nat) : State :=
  let pre := match n with
    | 1 => { s with pow := { s.pow with before1 := allSectors.map fun k => s.rd (R.POWER_SECTOR_CLK_STEP k) } }
    | 6 => { s with pow := { s.pow with widthWas := s.rd R.PCIE_LINK_WIDTH } }
    | _ => s
  let t := (pre.showStep n).flag R.POWER_EVENT_STEP
  match n with
  | 1 => t.each allSectors fun t k => t.wr (R.POWER_SECTOR_CLK_STEP k) 4
  | 2 => if t.rd R.POWER_MODE_CFG_MODE = 1 then t.runMode 0 true else t
  | 5 => t.each t.shedPorts State.adminPort
  | 6 => if t.host.linkUp then t.wr R.PCIE_LINK_WIDTH (min (t.rd R.PCIE_LINK_WIDTH) t.shedWidth) else t
  | 8 => { t with pow := { t.pow with level := 15 } }.shedLevel 15 true
  | 9 => t.orderlyStop 3 cyc
  | _ => t

/-- The shedding controller acts: no orderly stop is in progress (R637). -/
def State.shedding (s : State) : Bool := s.dev.stop != .ordered && s.rd R.DEV_STATUS_PHASE != 6 && s.rd R.DEV_STATUS_PHASE != 0xF

/-- SHED_STEP_ENTRY: the sag time has reached the entry time of the next step, or of the next carrier level of step 8. -/
def execShedStepEntry (cyc t : Nat) (s : State) : Ans :=
  .next <|
    let s := s.atTime t
    let n := s.rd R.POWER_STATUS_SHED_STEP
    if !s.shedding || s.pow.sagFrom.isNone || 9 ≤ n then s
    else if n = 8 && 1 < s.pow.level then
      if s.sagTime < 100_000_000 + (16 - s.pow.level) * 20_000_000 then s
      else
        let p := s.pow.level - 1
        { s with pow := { s.pow with level := p } }.shedLevel p true
    else if s.sagTime < entryTime (n + 1) then s
    else s.enterShed (n + 1) cyc

/-- The action of a step undone (R625). -/
def State.undoShed (s : State) (n : Nat) : State :=
  let t := s.showStep (n - 1)
  match n with
  | 1 =>
    let l := s.pow.before1
    let t := t.each allSectors fun t k => t.wr (R.POWER_SECTOR_CLK_STEP k) (l.getD k 0)
    { t with pow := { t.pow with episode := false, sagTime := 0, lastUndo := none } }.flag R.POWER_EVENT_RECOVERED
  | 2 => if t.rd R.POWER_STATUS_STREAM_HELD = 1 then t.runMode (t.rd R.POWER_MODE_CFG_MODE) false else t
  | 3 => t.decision
  | 5 => t.each t.shedPorts State.adminPort
  | 6 => if t.host.linkUp then t.wr R.PCIE_LINK_WIDTH (max (t.rd R.PCIE_LINK_WIDTH) t.pow.widthWas) else t
  | _ => t

/-- The highest shedding step is undone, carrier levels of step 8 one by one (R625). -/
def State.recover (s : State) : State :=
  let n := s.rd R.POWER_STATUS_SHED_STEP
  let due := max (s.pow.clearFrom + 10_000_000) ((s.pow.lastUndo.map (· + 10_000_000)).getD 0)
  if !s.shedding || s.pow.sagFrom.isSome || n = 0 || 9 ≤ n || s.now < due then s
  else
    let s := { s with pow := { s.pow with lastUndo := some s.now } }
    if n = 8 then
      let p := s.pow.level
      let u := { s with pow := { s.pow with level := p + 1 } }.shedLevel p false
      if p < 15 then u else u.undoShed 8
    else s.undoShed n

/-- RECOVERY_STEP: 10 ms without sag, and 10 ms after each undoing, one step is undone. -/
def execRecoveryStep (t : Nat) (s : State) : Ans := .next (s.atTime t).recover

/-- A sag source is present: the first begins a sag, and with it an episode unless one is open. -/
def State.sagSource (s : State) (n : Nat) : State :=
  let x := s.pow
  let t := { s with pow := { x with sources := member x.sources n true } }
  if x.sagFrom.isSome then t
  else
    let t := { t with pow := { t.pow with sagFrom := some t.now, lastUndo := none } }.wr R.POWER_STATUS_SAG 1
    if x.episode then t else { t with pow := { t.pow with episode := true, sagTime := 0 } }.flag R.POWER_EVENT_SAG

/-- PWR_WARN: the pin has read low for `ns`; its glitch filter is 100 ns (R645). -/
def execPwrWarn (ns t : Nat) (s : State) : Ans :=
  .next <|
    let s := s.atTime t
    if ns < 100 || !s.shedding then s else s.sagSource 0

/-- The VDD_CORE setpoint in mV: 0.75 V until Agate has loaded one (R644). -/
def State.setpoint (s : State) : Nat := if s.rd R.POWER_VDD_CORE_SET_MV = 0 then 750 else s.rd R.POWER_VDD_CORE_SET_MV

/-- Nominal values of the rails in mV (R643): 0 VDD_CORE at power-on, 1 VDDIO_1V8, 2 VDD_SRAM, 3 VDDQ_DRAM, 4 VDDA_SD,
5 VDDH_SD. -/
def railNominal (n : Nat) : Nat := [750, 1800, 800, 1050, 750, 1200].getD n 0

/-- RAIL_SAG: rail `n` has been at `uv` microvolts or below for `ns`. VDD_CORE below 0.63 V enters step 9 at once. -/
def execRailSag (n uv ns cyc t : Nat) (s : State) : Ans :=
  onUnit (n < 6) <|
    let s := s.atTime t
    let low := if n = 0 then uv + 25_000 < s.setpoint * 1000 else uv * 100 < railNominal n * 1000 * 95
    if ns < 1000 || !s.shedding || !low then s
    else
      let s := s.sagSource (n + 1)
      if n = 0 && uv < 630_000 then s.enterShed 9 cyc else s

/-- SAG_CLEARED: source `n` (0 PWR_WARN, 1 + rail) is gone; with the last the sag ends and sag time stops. -/
def execSagCleared (n t : Nat) (s : State) : Ans :=
  .next <|
    let s := s.atTime t
    let x := s.pow
    let l := member x.sources n false
    let t := { s with pow := { x with sources := l } }
    if !l.isEmpty || x.sagFrom.isNone then t
    else { t with pow := { t.pow with sagTime := s.sagTime, sagFrom := none, clearFrom := s.now } }.wr R.POWER_STATUS_SAG 0

end Sys2Proof.Machine
end

