-- ==== Sys2Proof/Machine/Board.lean ====
section
/-! DEFINITION. Pins and rails of the board (R643 to R646) and writes of the flash (R652, R653, R655). -/

namespace Sys2Proof.Machine

/-- THERMTRIP: a junction has reached 110 °C; THERMTRIP_N is low until a cold reset. -/
def execThermtrip (t : Nat) (s : State) : Ans :=
  .next <|
    let s := s.atTime t
    if s.dev.thermtrip then s else { s with dev := { s.dev with thermtrip := true } }.emit .pin [0, 0]

/-- AVS_TIMEOUT: the regulator has not acknowledged an AVS write for 1 ms. The first is retried, the second leaves the
setpoint at 0.75 V. -/
def execAvsTimeout (t : Nat) (s : State) : Ans :=
  .next <|
    let s := s.atTime t
    if s.pow.avsTries = 0 then { s with pow := { s.pow with avsTries := 1 } }
    else
      let s := { s with pow := { s.pow with avsTries := 0 } }
      (s.wr R.POWER_VDD_CORE_SET_MV 750).log 0 1 (Config.traceOf 1) []

/-- The two copy regions of the flash: base, length 96 MiB (R652). -/
def inCopyRegion (off len : Nat) : Bool :=
  (0x100_0000 ≤ off && off + len ≤ 0x700_0000) || (0x700_0000 ≤ off && off + len ≤ 0xD00_0000)

/-- DEV_FLASH_RESULT of a write that has ended. -/
def State.flashResult (s : State) (code : Nat) : State := s.wrs [(R.DEV_FLASH_RESULT_CODE, code), (R.DEV_FLASH_RESULT_DONE, 1)]

/-- FLASH_WRITE: a DEV_FLASH_CTRL write with GO, of `len` times 64 KiB; `mapped`: the source lies in mapped owner memory.
While a write is in progress it answers BUSY. -/
def execFlashWrite (len : Nat) (mapped : Bool) (t : Nat) (s : State) : Ans :=
  .next <|
    let s := s.atTime t
    let src := s.rd R.DEV_FLASH_SRC_VADDR
    let off := s.rd R.DEV_FLASH_OFFSET_OFFSET
    let n := len % 2 ^ 24 * 65536
    if s.dev.writing.isSome then s.wr R.DEV_FLASH_RESULT_CODE 3
    else
      let s := s.wr R.DEV_FLASH_CTRL_LEN_64K len
      if !s.inRun || !s.agateUp then s.flashResult 5
      else if off % 65536 ≠ 0 || !inCopyRegion off n then s.flashResult 1
      else if src % 64 ≠ 0 || !mapped then s.flashResult 2
      else { s with dev := { s.dev with writing := some (src, off, n) } }.wrs [(R.DEV_FLASH_RESULT_CODE, 0), (R.DEV_FLASH_RESULT_DONE, 0)]

/-- `n` bytes of the owner's memory from `src` on, copied to flash offset `off`. -/
def State.copyToFlash (s : State) (src off n : Nat) : State :=
  let l := s.mem.filter fun c => ownerKey src ≤ c.1 && c.1 < ownerKey (src + n)
  (s.zeroKeys (flashKey off) (flashKey (off + n))).each l fun t c => t.setByte (flashKey off + (c.1 - ownerKey src)) c.2

/-- FLASH_WRITE_DONE: the write ends; a failed erase, program or read-back (`ok` false) leaves the region undefined. -/
def execFlashWriteDone (ok : Bool) (t : Nat) (s : State) : Ans :=
  .next <|
    let s := s.atTime t
    match s.dev.writing with
    | none => s
    | some (src, off, n) =>
      let s := { s with dev := { s.dev with writing := none } }
      if ok then (s.copyToFlash src off n).flashResult 0 else (s.scramble (flashKey off) n).flashResult 4

/-- POWER_LOSS: the rails fall; everything but the flash and what lies outside the device is lost. -/
def execPowerLoss (t : Nat) (s : State) : Ans :=
  .next <|
    let b := (s.atTime t).bare
    { b with dev := { b.dev with powered := false } }

end Sys2Proof.Machine
end

