-- ==== Sys2Proof/Machine/Time.lean ====
section
/-! DEFINITION. The time engine (R416 to R443): clocks and servos, the choice of the active domain, holdover, SyncE
and the TOD_PPS pin. -/

namespace Sys2Proof.Machine

/-- An integer quotient rounded to nearest, ties to even. -/
def rneDiv (a : Int) (b : Nat) : Int :=
  let q := a / (b : Int)
  let r := 2 * (a % (b : Int))
  if r < b then q else if (b : Int) < r then q + 1 else if q % 2 = 0 then q else q + 1

/-- A number saturated to a signed field of 32 bits. -/
def sat32 (v : Int) : Nat := toField 32 (max (-(2 ^ 31)) (min v (2 ^ 31 - 1)))

/-- Domain `d`: 0 is A, any other B. -/
def State.dom (s : State) (d : Nat) : DomState := if d = 0 then s.clk.domA else s.clk.domB

/-- The state with a domain replaced. -/
def State.setDom (s : State) (d : Nat) (x : DomState) : State :=
  if d = 0 then { s with clk := { s.clk with domA := x } } else { s with clk := { s.clk with domB := x } }

/-- A domain's state: 0 FREE, 1 ACQUIRE, 2 LOCKED, 3 HOLDOVER (R425). -/
def State.domSt (s : State) (d : Nat) : Nat := s.rd (R.TIME_DOM_STATUS_STATE d)

/-- The active domain. -/
def State.activeDom (s : State) : Nat := s.rd R.TIME_STATUS_ACTIVE

/-- The most a clock may be corrected: 50,000 ppb in 2^-28 ppb (R417). -/
def maxRate : Int := 50_000 * 2 ^ 28

/-- A rate within the clamp of R417. -/
def clampRate (r : Int) : Int := max (-maxRate) (min r maxRate)

/-- A clock restarted from its present value at a new rate. -/
def Clock.at_ (c : Clock) (t : Nat) (r : Int) : Clock := ⟨c.read t, t, clampRate r⟩

/-- Device clock minus a domain clock in 2^-16 ns. -/
def State.gapTo (s : State) (d : Nat) : Int := (s.clk.dev.read s.now : Int) - (s.dom d).clk.read s.now

/-- n ns in 2^-16 ns. -/
def ns16 (n : Nat) : Int := (n : Int) * 65536

/-- CRC-16 of R435: polynomial 0x1021, initial value 0xFFFF, each byte from its highest bit. -/
def crc16 : Nat → List Byte → Nat
  | c, [] => c
  | c, b :: l =>
    let step := fun (c : Nat) => if 0x8000 ≤ c then (2 * c % 65536) ^^^ 0x1021 else 2 * c
    crc16 ((List.range 8).foldl (fun c _ => step c) (c ^^^ (b.toNat * 256))) l

/-- The clockClass that master ports announce (R430). -/
def State.clockClass (s : State) : Nat :=
  if s.rd R.TIME_STATUS_TIME_LOCK = 1 then s.rd (R.TIME_DOM_STATUS_GM_CLASS s.activeDom)
  else if s.rd R.TIME_STATUS_HO_EXPIRED = 1 then 165
  else if s.clk.everLocked then 135 else 248

/-- The ToD frame that describes the edge of second `sec` (R435). -/
def State.todFrame (s : State) (sec : Nat) : List Byte :=
  let d := s.activeDom
  let lock := s.rd R.TIME_STATUS_TIME_LOCK
  let leap := s.rd R.TIME_TOD_LEAP_LEAP
  let pps := s.rd (R.TIME_DOM_CFG_SOURCE d) == 1
  let flags := lock + 2 * s.rd R.AIR_STATUS_HOLDOVER + (if leap = 1 then 4 else 0) + (if leap = 2 then 8 else 0) + 16 * d
  let l := [0xC3, 0x01] ++ toBytes 6 sec ++ toBytes 2 (s.rd R.TIME_TOD_CFG_UTC_OFFSET) ++ toBytes 1 s.clockClass ++
    toBytes 1 (if lock = 1 then (s.dom d).accuracy else 0xFE) ++ toBytes 1 flags ++
    toBytes 1 (if pps then 0 else s.rd (R.TIME_DOM_CFG_DOMAIN_NUM d)) ++
    toBytes 2 (min ((s.gapTo d).natAbs / 65536) 0xFFFF)
  l ++ toBytes 2 (crc16 0xFFFF l)

/-- The pulse of second `sec` with the frame of the next, unless it has gone out (R433). -/
def State.pulse (s : State) (sec : Nat) : State :=
  if s.rd R.TIME_TOD_STATUS_ROLE = 1 && s.clk.emitted ≤ sec then
    let t := s.emit .pps [sec] (s.todFrame (sec + 1))
    { t with clk := { t.clk with emitted := sec + 1 } }
  else s

/-- A step of the device clock to the active domain clock (R426): a whole second that it passes has its pulse. -/
def State.stepClock (s : State) (d : Nat) : State :=
  let old := s.devNs / 1_000_000_000
  let c := (s.dom d).clk
  let b := s.clk
  let t := { s with clk := { b with dev := c.at_ s.now c.rate, slew := 0 } }
  let new := t.devNs / 1_000_000_000
  (t.iff (old < new) (·.pulse new)).flag R.TIME_EVENT_STEPPED

/-- The device clock steered toward the active domain clock (R426). -/
def State.steer (s : State) : State :=
  let d := s.activeDom
  let c := (s.dom d).clk
  let g := s.gapTo d
  let b := s.clk
  if !b.settled && decide (ns16 1000 < g.natAbs) then (s.stepClock d).wr R.TIME_STATUS_SLEWING 0
  else if decide (g.natAbs ≤ ns16 1) || decide (b.slew * g > 0) then
    let x := if g.natAbs ≤ ns16 1 then b.dev.at_ s.now c.rate else c.at_ s.now c.rate
    { s with clk := { b with dev := x, slew := 0 } }.wr R.TIME_STATUS_SLEWING 0
  else
    let dir : Int := if 0 < g then -1 else 1
    let x := b.dev.at_ s.now (c.rate + dir * s.rd R.TIME_SEL_CTRL_SLEW_PPB * 2 ^ 28)
    { s with clk := { b with dev := x, slew := dir } }.wr R.TIME_STATUS_SLEWING 1

/-- TIME_LOCK and what follows it (R427, R429, R336). -/
def State.lockRule (s : State) : State :=
  let d := s.activeDom
  let lock := s.domSt d == 2 && decide ((s.gapTo d).natAbs ≤ ns16 (s.rd (R.TIME_DOM_LOOP_LOCK_NS d)))
  let was := s.rd R.TIME_STATUS_TIME_LOCK == 1
  let b := s.clk
  let t := { s with clk := { b with everLocked := b.everLocked || lock, lostAt := if was && !lock then s.now + 1 else b.lostAt } }
  let t := t.wrs [(R.TIME_STATUS_TIME_LOCK, if lock then 1 else 0), (R.DEV_STATUS_TIME_LOCK, if lock then 1 else 0),
    (R.AIR_STATUS_HOLDOVER, if t.clk.everLocked && !lock then 1 else 0)]
  let t := (t.iff (lock && !was) (·.flag R.TIME_EVENT_LOCK_GAINED)).iff (was && !lock) (·.flag R.TIME_EVENT_LOCK_LOST)
  t.iff lock (·.wr R.TIME_STATUS_HO_EXPIRED 0)

/-- TIME_HO_ELAPSED (R429). -/
def State.holdTime (s : State) : State :=
  let d := s.activeDom
  let st := s.domSt d
  let b := s.clk
  let h := if st = 2 then none
    else if st = 3 || (st == 1 && (s.dom d).afterHo) then some (b.hoFrom.getD s.now) else b.hoFrom
  let t := { s with clk := { b with hoFrom := h } }
  match h with
  | none => t.wr R.TIME_HO_ELAPSED_SECONDS 0
  | some f => if st = 3 || st = 1 then t.wr R.TIME_HO_ELAPSED_SECONDS ((s.now - f) / 1_000_000_000) else t

/-- Everything that follows the clocks at the present instant. -/
def State.timeNow (s : State) : State := s.steer.lockRule.holdTime

/-- The active domain becomes `d`. -/
def State.switchDom (s : State) (d : Nat) : State :=
  let b := s.clk
  let t := { s with clk := { b with blocked := false, slew := 0 } }
  (t.wr R.TIME_STATUS_ACTIVE d).flag R.TIME_EVENT_SWITCHED

/-- The choice of the active domain with AUTO = 1 (R428). -/
def State.selectDom (s : State) : State :=
  if s.rd R.TIME_SEL_CTRL_AUTO = 0 then s
  else
    let a := s.activeDom
    let o := 1 - a
    let near := fun d => decide ((s.gapTo d).natAbs ≤ ns16 (s.rd R.TIME_SEL_SWITCH_SWITCH_MAX_NS))
    let p := s.rd R.TIME_SEL_CTRL_PREFERRED
    let revert := s.rd R.TIME_SEL_CTRL_REVERT_S
    let b := s.clk
    if s.domSt a != 2 && s.domSt o == 2 then
      if near o then s.switchDom o
      else
        let t := { s with clk := { b with blocked := true } }
        t.iff (!b.blocked) (·.flag R.TIME_EVENT_SWITCH_BLOCKED)
    else
      let t := { s with clk := { b with blocked := false } }
      if a != p && revert != 0 && s.domSt p == 2 && (s.dom p).lockedAt + revert * 1_000_000_000 ≤ s.now && near p
      then t.switchDom p else t

/-- What every change of a domain is followed by. -/
def State.timeStep (s : State) : State := s.selectDom.timeNow

/-- The mean of the y of a domain's last updates in LOCKED, as a rate; its y where there is none. -/
def State.holdRate (s : State) (d : Nat) : Int :=
  let l := (s.dom d).ys
  if l.isEmpty then signedOf 32 (s.rd (R.TIME_DOM_FREQ_PPB d)) * 2 ^ 20
  else l.foldl (· + ·) 0 * 2 ^ 20 / (l.length : Int)

/-- A domain enters HOLDOVER (R425). -/
def State.holdDom (s : State) (d : Nat) : State :=
  let x := s.dom d
  (s.setDom d { x with clk := x.clk.at_ s.now (s.holdRate d), good := 0, bad := 0, afterHo := true }).wr
    (R.TIME_DOM_STATUS_STATE d) 3

/-- A domain goes to FREE: its source changed (R425). -/
def State.freeDom (s : State) (d : Nat) : State :=
  let x := s.dom d
  (s.setDom d { x with clk := x.clk.at_ s.now 0, good := 0, bad := 0, ys := [], afterHo := false, paths := [], annAt := [] }).wr
    (R.TIME_DOM_STATUS_STATE d) 0

/-- The state of a domain after an update with offset `o` (R425): good and bad counts first. -/
def nextDomState (st good bad : Nat) : Nat :=
  if st = 2 then (if 4 ≤ bad then 3 else 2) else if 16 ≤ good then 2 else 1

/-- One update of a domain servo with offset `o` in 2^-16 ns; `k` is 4 for PTP (T = 1/16 s), 8 for a pulse (T = 1 s):
KI × o ÷ T in 2^-8 ppb is o ÷ 2^(KI_LOG2 + k) (R424). -/
def State.domUpdate (s : State) (d : Nat) (o : Int) (k : Nat) : State :=
  let x := s.dom d
  let kp := s.rd (R.TIME_DOM_LOOP_KP_LOG2 d)
  let ki := s.rd (R.TIME_DOM_LOOP_KI_LOG2 d)
  let y := signedOf 32 (s.rd (R.TIME_DOM_FREQ_PPB d))
  let s := ((s.wr (R.TIME_DOM_OFFSET_NS d) (sat32 (rneDiv o 65536))).bump (R.TIME_DOM_UPDATES_COUNT d) 1)
  if decide (ns16 1_000_000 < o.natAbs) then
    let c : Clock := ⟨((x.clk.read s.now : Int) + o).toNat % clockWrap, s.now, clampRate (y * 2 ^ 20)⟩
    ((s.setDom d { x with clk := c, good := 0, bad := 0, updAt := s.now }).wr (R.TIME_DOM_STATUS_STATE d) 1)
  else
    let y := rneDiv (y * 2 ^ (ki + k) + o) (2 ^ (ki + k))
    let good := if o.natAbs ≤ ns16 (s.rd (R.TIME_DOM_LOOP_LOCK_NS d)) then x.good + 1 else 0
    let bad := if ns16 (s.rd (R.TIME_DOM_LOOP_UNLOCK_NS d)) < o.natAbs then x.bad + 1 else 0
    let st := s.domSt d
    let st' := nextDomState st good bad
    let rate := y * 2 ^ 20 + o * 2 ^ (24 - k) / 2 ^ (4 + kp)
    let x := { x with clk := x.clk.at_ s.now rate, good := good, bad := bad, updAt := s.now,
                      afterHo := st' != 2 && x.afterHo,
                      lockedAt := if st' = 2 && st ≠ 2 then s.now else x.lockedAt,
                      ys := if st' = 2 then (y :: x.ys).take 1024 else x.ys }
    let t := ((s.setDom d x).wr (R.TIME_DOM_FREQ_PPB d) (toField 32 y)).wr (R.TIME_DOM_STATUS_STATE d) st'
    t.iff (st' == 3) (·.holdDom d)

/-- Domain `d` uses `port` as a slave port. -/
def State.slavePort (s : State) (d port : Nat) : Bool :=
  s.rd (R.TIME_DOM_CFG_SOURCE d) == 0 && (s.rd (R.TIME_DOM_CFG_PORT0 d) == port ||
    (s.rd (R.TIME_DOM_CFG_PORT1_EN d) == 1 && s.rd (R.TIME_DOM_CFG_PORT1 d) == port))

/-- The mean path delay of a slave port in 1/16 ns (R423): none before the first result. -/
def State.meanPath (s : State) (d port : Nat) : Option Int :=
  let l := tblGet [] (s.dom d).paths port
  if l.isEmpty then none else some (rneDiv (l.foldl (· + ·) 0) l.length)

/-- PTP_SYNC_RX (R423, R424): `origin` is the master's time of the Sync, corrections included, in 2^-16 ns. -/
def execPtpSyncRx (d port origin t : Nat) (s : State) : Ans :=
  onUnit (d < 2 && port < 40) <|
    let s := (s.atTime t).timeNow
    if !s.slavePort d port || s.rd (R.TIME_DOM_STATUS_PORT d) != port then s
    else
      let x := s.dom d
      let s := s.setDom d { x with syncAt := s.now }
      match s.meanPath d port with
      | none => s
      | some p =>
        let asym := tblGet 0 x.asym port
        (s.domUpdate d ((origin : Int) + (p + asym) * 4096 - x.clk.read s.now) 4).timeStep

/-- PTP_DELAY_RESULT (R422, R423): a path-delay result in 1/16 ns, with the asymmetry sampled. -/
def execPtpDelayResult (d port : Nat) (delay : Int) (t : Nat) (s : State) : Ans :=
  onUnit (d < 2 && port < 40) <|
    let s := s.atTime t
    if !s.slavePort d port then s
    else
      let x := s.dom d
      let a := signedOf 32 (s.rd (R.TIME_PORT_ASYM_ASYM port))
      let s := s.setDom d { x with paths := tblSet [] x.paths port ((delay :: tblGet [] x.paths port).take 16),
                                   asym := tblSet 0 x.asym port a }
      match s.meanPath d port with
      | some p => if s.rd (R.TIME_DOM_STATUS_PORT d) == port then s.wr (R.TIME_DOM_PATH_DELAY d) (toField 32 p) else s
      | none => s

/-- PTP_ANNOUNCE_RX (R421): an Announce of domain number `num`; `chosen` is the decision of the alternate BMCA of the
profile for its port. The parent of the port in use gives class, accuracy and identity. -/
def execPtpAnnounceRx (d port num identity cls accuracy : Nat) (chosen : Bool) (t : Nat) (s : State) : Ans :=
  onUnit (d < 2 && port < 40) <|
    let s := (s.atTime t).timeNow
    if !s.slavePort d port || s.rd (R.TIME_DOM_CFG_DOMAIN_NUM d) != num then s
    else
      let x := s.dom d
      let s := s.setDom d { x with annAt := tblSet 0 x.annAt port (s.now + 1) }
      if !chosen then s
      else
        let x := s.dom d
        let s := s.setDom d { x with accuracy := accuracy }
        let s := s.wrs [(R.TIME_DOM_STATUS_PORT d, port), (R.TIME_DOM_STATUS_GM_CLASS d, cls), (R.TIME_DOM_GM_IDENTITY d, identity)]
        match s.meanPath d port with
        | some p => s.wr (R.TIME_DOM_PATH_DELAY d) (toField 32 p)
        | none => s.wr (R.TIME_DOM_PATH_DELAY d) 0

/-- ANNOUNCE_TIMEOUT (R421, R425): three Announce intervals, 375 ms, without one on the slave port in use. -/
def execAnnounceTimeout (d t : Nat) (s : State) : Ans :=
  onUnit (d < 2) <|
    let s := (s.atTime t).timeNow
    let last := tblGet 0 (s.dom d).annAt (s.rd (R.TIME_DOM_STATUS_PORT d))
    if s.rd (R.TIME_DOM_CFG_SOURCE d) != 0 || s.domSt d != 2 || s.now + 1 < last + 375_000_000 then s
    else (s.holdDom d).timeStep

/-- SYNC_TIMEOUT (R425): 500 ms without a Sync. -/
def execSyncTimeout (d t : Nat) (s : State) : Ans :=
  onUnit (d < 2) <|
    let s := (s.atTime t).timeNow
    if s.rd (R.TIME_DOM_CFG_SOURCE d) != 0 || s.domSt d != 2 || s.now < (s.dom d).syncAt + 500_000_000 then s
    else (s.holdDom d).timeStep

/-- PPS_TIMEOUT (R425): 2 s without an accepted edge. -/
def execPpsTimeout (d t : Nat) (s : State) : Ans :=
  onUnit (d < 2) <|
    let s := (s.atTime t).timeNow
    if s.rd (R.TIME_DOM_CFG_SOURCE d) != 1 || s.domSt d != 2 || s.now < (s.dom d).updAt + 2_000_000_000 then s
    else (s.holdDom d).timeStep

/-- One pulse edge as domain `d` takes it (R436). -/
def State.edgeFor (s : State) (d pin prev : Nat) : State :=
  if s.rd (R.TIME_DOM_CFG_SOURCE d) != 1 || s.rd (R.TIME_DOM_CFG_PPS_PIN d) != pin then s
  else
    let since := s.now + 1 - prev
    let inTime := prev != 0 && 999_900_000 ≤ since && since ≤ 1_000_100_000
    match s.clk.frame with
    | some (sec, true) =>
      if inTime then
        let comp := signedOf 16 (s.rd R.TIME_TOD_CFG_DELAY_COMP)
        let o := (sec : Int) * 1_000_000_000 * 65536 - ((s.dom d).clk.read s.now - comp * 65536)
        s.domUpdate d o 8
      else s.flag R.TIME_EVENT_TOD_IN_ERR
    | _ => s.flag R.TIME_EVENT_TOD_IN_ERR

/-- PPS_EDGE (R434, R436): a pulse on pin 0 (TOD_PPS, if its role is INPUT) or 1 (GNSS_PPS). -/
def execPpsEdge (pin t : Nat) (s : State) : Ans :=
  onUnit (pin < 2) <|
    let s := (s.atTime t).timeNow
    if pin = 0 && s.rd R.TIME_TOD_STATUS_ROLE != 2 then s
    else
      let prev := tblGet 0 s.clk.edges pin
      let u := (s.edgeFor 0 pin prev).edgeFor 1 pin prev
      let b := u.clk
      let u := { u with clk := { b with edges := tblSet 0 b.edges pin (s.now + 1), frame := if pin = 0 then none else b.frame } }
      u.timeStep

/-- TOD_FRAME_RX (R436): 18 bytes that started at `t`; `rate` tells that they came at 1 Mbit/s ± 2%. -/
def execTodFrameRx (frame : List (BitVec 8)) (rate : Bool) (t : Nat) (s : State) : Ans :=
  let s := s.atTime t
  let prev := tblGet 0 s.clk.edges 0
  let since := s.now + 1 - prev
  if s.rd R.TIME_TOD_STATUS_ROLE != 2 then .next s
  else if prev != 0 && 500_000 ≤ since && since ≤ 900_000_000 && rate && frame.length == 18
      && crc16 0xFFFF (frame.take 16) == ofBytes (frame.drop 16) then
    let b := s.clk
    let x := { s with clk := { b with frame := some (bankNum frame 2 6, bankNum frame 12 1 % 2 == 1) } }
    .next (x.sat R.TIME_TOD_RX_OK_COUNT 1)
  else .next (s.sat R.TIME_TOD_RX_ERR_COUNT 1)

/-- TOD_PPS_OUTPUT (R433): the pulse of the whole second that lies DELAY_COMP ahead, and its frame. -/
def execTodPpsOutput (t : Nat) (s : State) : Ans :=
  let s := (s.atTime t).timeNow
  let ns := (s.devNs : Int) + signedOf 16 (s.rd R.TIME_TOD_CFG_DELAY_COMP)
  .next (s.pulse (ns.toNat / 1_000_000_000))

/-- HOLDOVER_BUDGET_EXPIRY (R429): with HO_ACTION = 1 every carrier in RUNNING runs null slots. -/
def execHoldoverBudgetExpiry (t : Nat) (s : State) : Ans :=
  let s := (s.atTime t).timeNow
  let limit := if s.rd R.TIME_STATUS_SYNCE_STATE = 1 then s.rd R.TIME_HO_CFG_HO_LIMIT_SE_S else s.rd R.TIME_HO_CFG_HO_LIMIT_S
  if s.rd R.TIME_STATUS_TIME_LOCK = 1 || s.rd R.TIME_STATUS_HO_EXPIRED = 1 || s.clk.hoFrom.isNone
    || s.rd R.TIME_HO_ELAPSED_SECONDS < limit then .next s
  else
    let s := (s.flag R.TIME_STATUS_HO_EXPIRED).flag R.TIME_EVENT_HO_EXPIRED
    if s.rd R.TIME_HO_ACT_HO_ACTION = 0 then .next s
    else .next (s.each (List.range 256) fun u k =>
      if u.rd (R.AIR_CARRIER_STATE k) = 2 then u.wr (R.AIR_CARRIER_STATE k) 3 else u)

/-- SLEW_GAP_CLOSED (R426, R427): TIME_LOCK and SLEWING follow the gap. -/
def execSlewGapClosed (t : Nat) (s : State) : Ans := .next ((s.atTime t).timeNow)

/-- TIME_CAPTURE (R441): latches the device clock and the gap. -/
def execTimeCapture (t : Nat) (s : State) : Ans :=
  let s := (s.atTime t).timeNow
  let c := s.clk.dev.read s.now
  .next (s.wrs [(R.TIME_CAP_NS_FRAC, c % 65536), (R.TIME_CAP_NS_NS, c / 65536 % 1_000_000_000),
    (R.TIME_CAP_SEC_SEC, c / 65536 / 1_000_000_000), (R.TIME_CAP_GAP_GAP_NS, sat32 (rneDiv (s.gapTo s.activeDom) 65536))])

/-! SyncE (R431) -/

/-- SyncE candidates in priority order: number, port. -/
def State.candidates (s : State) : List (Nat × Nat) :=
  (([(R.TIME_SYNCE_CFG_EN0, R.TIME_SYNCE_CFG_CAND0), (R.TIME_SYNCE_CFG_EN1, R.TIME_SYNCE_CFG_CAND1),
     (R.TIME_SYNCE_CFG_EN2, R.TIME_SYNCE_CFG_CAND2), (R.TIME_SYNCE_CFG_EN3, R.TIME_SYNCE_CFG_CAND3)].zipIdx).filter fun e =>
      s.rd R.TIME_SYNCE_CFG_EN == 1 && s.rd e.1.1 == 1 && !s.clk.dropped.contains e.2).map fun e => (e.2, s.rd e.1.2)

/-- The quality level received on a port: 15, do not use, before the first message (log entry 50). -/
def State.qualityOf (s : State) (p : Nat) : Nat := tblGet 15 s.clk.ql p

/-- The port the EEC selects: by quality level (lower SSM codes are better, 15 is not used), then by order. -/
def State.synceChoice (s : State) : Option Nat :=
  let l := s.candidates.map (·.2)
  if s.rd R.TIME_SYNCE_CFG_QL_EN = 0 then l.head?
  else
    let ok := l.filter fun p => s.qualityOf p != 15
    ok.find? fun p => ok.all fun q => s.qualityOf p ≤ s.qualityOf q

/-- The EEC reselects: another reference is locked to anew, and with none it holds over or runs free. -/
def State.synceSelect (s : State) : State :=
  let was := s.rd R.TIME_STATUS_SYNCE_STATE
  let rest := if s.clk.eecWas then 2 else 0
  match s.synceChoice with
  | none => (s.iff (was == 1) (·.flag R.TIME_EVENT_SYNCE_REF_CHANGE)).wr R.TIME_STATUS_SYNCE_STATE rest
  | some p =>
    let same := s.rd R.TIME_SYNCE_STATUS_PORT == p
    let t := s.wrs [(R.TIME_SYNCE_STATUS_PORT, p), (R.TIME_SYNCE_STATUS_QL, s.qualityOf p)]
    if same then t else (t.flag R.TIME_EVENT_SYNCE_REF_CHANGE).wr R.TIME_STATUS_SYNCE_STATE rest

/-- ESMC_RX (R431): the SSM code received on a port. -/
def execEsmcRx (port ql t : Nat) (s : State) : Ans :=
  onUnit (port < 40) <|
    let s := s.atTime t
    let b := s.clk
    { s with clk := { b with ql := tblSet 15 b.ql port (ql % 16) } }.synceSelect

/-- SYNCE_REF_FAIL (R431): candidate `n` failed at `since`; dropped once HOLDOFF_MS have passed. -/
def execSynceRefFail (n since t : Nat) (s : State) : Ans :=
  onUnit (n < 4) <|
    let s := s.atTime t
    let b := s.clk
    if s.now < since + s.rd R.TIME_SYNCE_TIMING_HOLDOFF_MS * 1_000_000 || b.dropped.contains n then s
    else { s with clk := { b with dropped := b.dropped ++ [n] } }.synceSelect

/-- SYNCE_WTR_EXPIRY (R431): candidate `n` recovered at `since`; eligible again once WTR_S have passed. -/
def execSynceWtrExpiry (n since t : Nat) (s : State) : Ans :=
  onUnit (n < 4) <|
    let s := s.atTime t
    let b := s.clk
    if s.now < since + s.rd R.TIME_SYNCE_TIMING_WTR_S * 1_000_000_000 || !b.dropped.contains n then s
    else { s with clk := { b with dropped := b.dropped.filter (· != n) } }.synceSelect

/-- EEC_LOCKED (R431): the EEC locks to the reference it has selected. -/
def execEecLocked (t : Nat) (s : State) : Ans :=
  let s := s.atTime t
  match s.synceChoice with
  | none => .next s
  | some p =>
    let b := s.clk
    let x := { s with clk := { b with eecWas := true } }
    .next (x.wrs [(R.TIME_SYNCE_STATUS_PORT, p), (R.TIME_SYNCE_STATUS_QL, s.qualityOf p), (R.TIME_STATUS_SYNCE_STATE, 1)])

/-! Transmission -/

/-- The master ports (R421). -/
def State.masterPorts (s : State) : List Nat := (List.range 40).filter fun p => s.rd R.TIME_MASTER_MASK_MASK / 2 ^ p % 2 == 1

/-- The slave ports of domain `d`. -/
def State.slavePorts (s : State) (d : Nat) : List Nat := (List.range 40).filter fun p => s.slavePort d p

/-- PTP_TRANSMIT (R421, R430): one interval of 1/16 s. Message types as in IEEE 1588: 0 Sync, 1 Delay_Req, 8 Follow_Up,
11 Announce; Announce goes out in every second interval. -/
def execPtpTransmit (t : Nat) (s : State) : Ans :=
  let s := (s.atTime t).timeNow
  let n := s.clk.txCount
  let num := s.rd R.TIME_MASTER_CFG_DOMAIN_NUM
  let mc := s.rd R.TIME_MASTER_CFG_MCAST
  let two := s.rd R.TIME_MASTER_CFG_TWO_STEP == 1
  let s := s.each s.masterPorts fun u p =>
    let u := u.emit .ptp [p, 0, num, mc, if two then 0 else u.clk.dev.read u.now]
    let u := u.iff two fun u => u.emit .ptp [p, 8, num, mc, u.clk.dev.read u.now]
    u.iff (n % 2 == 0) fun u => u.emit .ptp [p, 11, num, mc, u.clockClass]
  let s := s.each [0, 1] fun u d => u.each (u.slavePorts d) fun u p =>
    u.emit .ptp [p, 1, u.rd (R.TIME_DOM_CFG_DOMAIN_NUM d), u.rd (R.TIME_DOM_CFG_MCAST d)]
  let b := s.clk
  .next { s with clk := { b with txCount := n + 1 } }

/-- ESMC_TRANSMIT (R431): master ports send the quality level of the selected reference while LOCKED, else QL-SEC
(SSM 11); the selected port sends QL-DNU (15). -/
def execEsmcTransmit (t : Nat) (s : State) : Ans :=
  let s := s.atTime t
  let locked := s.rd R.TIME_STATUS_SYNCE_STATE == 1
  let sel := s.rd R.TIME_SYNCE_STATUS_PORT
  let s := s.each (s.masterPorts.filter fun p => !(locked && p == sel)) fun u p =>
    u.emit .esmc [p, if locked then u.rd R.TIME_SYNCE_STATUS_QL else 11]
  .next (s.iff locked fun u => u.emit .esmc [sel, 15])

end Sys2Proof.Machine
end

