-- ==== Sys2Proof/Machine/Fab.lean ====
section
/-! DEFINITION. Fabric links (R467 to R481, R512 to R516, R533): flits, credits, replay, routes, lanes, HELLOs sent. -/

namespace Sys2Proof.Machine

/-- The state with the fabric replaced. -/
def State.setFab (s : State) (f : FabState) : State := { s with fab := f }

/-- Link `l`. -/
def State.link (s : State) (l : Nat) : LinkState := tblGet LinkState.reset s.fab.links l

/-- The state with link `l` replaced. -/
def State.setLink (s : State) (l : Nat) (x : LinkState) : State :=
  let f := s.fab
  s.setFab { f with links := tblSet LinkState.reset f.links l x }

/-- Peer `d`. -/
def State.peer (s : State) (d : Nat) : PeerState := tblGet PeerState.reset s.fab.peers d

/-- The state with peer `d` replaced. -/
def State.setPeer (s : State) (d : Nat) (x : PeerState) : State :=
  let f := s.fab
  s.setFab { f with peers := tblSet PeerState.reset f.peers d x }

/-- The six links. -/
def allLinks : List Nat := List.range 6

/-- The pod device numbers. -/
def allPeers : List Nat := List.range 256

/-- A link is UP. -/
def State.linkUp (s : State) (l : Nat) : Bool := s.rd (R.FAB_LINK_STATUS_STATE l) == 2

/-- This device's pod. -/
def State.ownPod (s : State) : Nat := s.rd R.FAB_STATUS_POD
/-- This device's number in its pod. -/
def State.ownDev (s : State) : Nat := s.rd R.FAB_STATUS_DEV
/-- This device's epoch. -/
def State.ownEpoch (s : State) : Nat := s.rd R.FAB_STATUS_EPOCH
/-- The device has fenced itself (R522). -/
def State.selfFenced (s : State) : Bool := s.rd R.FAB_FENCE_STATUS_SELF_FENCED == 1
/-- Peer `d` is UP. -/
def State.peerUp (s : State) (d : Nat) : Bool := s.rd (R.FAB_PEER_STATE d) == 1

/-- The register of the credits held for a VC (R510). -/
def creditFld (l vc : Nat) : Fld := { R.FAB_LINK_CREDIT_VC0 l with lo := 8 * vc }

/-- Receive-buffer size of a VC (R472). -/
def vcSize (vc : Nat) : Nat := match vc with | 0 => 192 | 1 => 192 | 2 => 96 | _ => 32

/-! Sending -/

/-- A flit put on the wire with the tail of the moment (R471): acknowledgement, NAK and up to two VCs of credits. The
message lists link, SEQ, IDLE, ACK_SEQ, NAK, VC and credits twice, KIND, VC, NLINES, source pod and device, destination
pod and device, PKEY, EPOCH, TAG, WINDOW, OFFSET and the code of a response. -/
def State.putFlit (s : State) (l seq : Nat) (idle nak : Bool) (f : Flit) : State :=
  let x := s.link l
  let o := (x.owed.take 2).map fun e => (e.1, min e.2 63)
  let a := o.getD 0 (0, 0)
  let b := o.getD 1 (0, 0)
  let owed := o.foldl (fun m e => tblSet 0 m e.1 (tblGet 0 m e.1 - e.2)) x.owed
  (s.setLink l { x with owed := owed, naking := x.naking || nak }).emit .flit
    [l, seq, if idle then 1 else 0, (x.rxNext + 4095) % 4096, if nak then 1 else 0, a.1, a.2, b.1, b.2, f.kind, f.vc, f.lines,
     s.ownPod, s.ownDev, f.pod, f.dev, f.pkey, s.ownEpoch, f.tag, f.window, f.offset, f.status] f.data

/-- The header of an IDLE flit. -/
def idleFlit : Flit := ⟨0, 0, 0, 0, 0, 0, 0, 0, 0, 0, []⟩

/-- An IDLE flit, which consumes no SEQ (R471). -/
def State.putIdle (s : State) (l : Nat) (nak : Bool) : State := s.putFlit l (s.link l).txSeq true nak idleFlit

/-- The first waiting flit whose VC has a credit, and the others. -/
def State.nextWaiting (s : State) (l : Nat) : List Flit → Option (Flit × List Flit)
  | [] => none
  | f :: r =>
    if s.rd (creditFld l f.vc) != 0 then some (f, r) else (s.nextWaiting l r).map fun p => (p.1, f :: p.2)

/-- Sends waiting flits of a link while a credit and room in the replay buffer allow (R472, R474). -/
def State.pump (s : State) (l : Nat) : Nat → State
  | 0 => s
  | n + 1 =>
    let x := s.link l
    if !s.linkUp l || 512 ≤ x.replay.length then s
    else
      match s.nextWaiting l x.wait with
      | none => s
      | some (f, r) =>
        let t := s.setLink l { x with wait := r, txSeq := (x.txSeq + 1) % 4096, replay := x.replay ++ [⟨x.txSeq, s.now, s.now, f⟩],
                                      lastFlit := s.now, progress := if x.replay.isEmpty then s.now else x.progress }
        ((t.drop (creditFld l f.vc) 1).putFlit l x.txSeq false false f).pump l n

/-- A flit given to a link. A self-fenced device sends only IDLE flits and link management (R522). -/
def State.sendOn (s : State) (l : Nat) (f : Flit) : State :=
  let x := s.link l
  if s.selfFenced && f.kind != 0x0A then s
  else (s.setLink l { x with wait := x.wait ++ [f] }).pump l (x.wait.length + 1)

/-! Routes (R481): table 0x0A holds a byte of links for each of 256 devices, then one for each of 16 pods. -/

/-- The route mask of a destination. -/
def State.routeMask (s : State) (pod dev : Nat) : Nat :=
  bankByte 0 (s.activeBank 10) (if pod = s.ownPod then dev else 256 + pod) % 64

/-- The usable links toward a destination, ascending. -/
def State.usable (s : State) (pod dev : Nat) : List Nat :=
  let m := s.routeMask pod dev
  allLinks.filter fun l => m / 2 ^ l % 2 == 1 && s.linkUp l && (pod != s.ownPod || !(s.peer dev).off.contains l)

/-- The link a flit takes. -/
def State.linkFor (s : State) (f : Flit) : Option Nat :=
  let u := s.usable f.pod f.dev
  let h := if f.vc = 2 then Config.fabHash [s.ownPod, s.ownDev, f.pod, f.dev, f.window]
           else Config.fabHash [f.pod, f.dev, f.window, f.offset / 64]
  u[h % u.length]?

/-- A flit sent to its destination; lost where no link is usable. -/
def State.send (s : State) (f : Flit) : State :=
  match s.linkFor f with
  | some l => s.sendOn l f
  | none => s

/-- FAB_PEER LINKS follows the route masks in force (R510). -/
def State.showRoutes (s : State) : State := s.each allPeers fun t d => t.wr (R.FAB_PEER_LINKS d) (t.routeMask t.ownPod d)

/-- A management flit to a pod peer over one link. KINDs as the model numbers them (log entry 22): 0x09 HELLO, 0x0A link
identity, 0x0C FENCE, 0x0D LINK_STATE, 0x0E credit query, 0x0F its answer. -/
def State.manage (s : State) (l kind pod dev tag window offset : Nat) (data : List Byte) : State :=
  s.sendOn l ⟨kind, 3, 0, pod, dev, 0xFFFF, tag, window, offset, 0, data⟩

/-- The UP links. -/
def State.upLinks (s : State) : List Nat := allLinks.filter s.linkUp

/-- The UP pod peers. -/
def State.upPeers (s : State) : List Nat := allPeers.filter s.peerUp

/-! Lanes (R512 to R516) -/

/-- The field of a lane's charges. -/
def chargeFld (l i : Nat) : Fld := { R.FAB_LANE_CHARGE_CHARGE0 l with lo := 2 * i }

/-- Charges of a lane in the last 10 s of the device clock. -/
def State.chargesOf (s : State) (l i : Nat) : Nat :=
  ((s.link l).charges.filter fun c => c.1 == i && s.devNs < c.2 + 10_000_000_000).length

/-- FAB_LANE_CHARGE of a link. -/
def State.showCharges (s : State) (l : Nat) : State :=
  s.each (List.range 8) fun t i => t.wr (chargeFld l i) (min (t.chargesOf l i) 3)

/-- Charges a lane; its third within 10 s parks it, or with another lane parked makes the link HELD (R513, R515). -/
def State.chargeLane (s : State) (l : Nat) (lane : Option Nat) : State :=
  match lane with
  | none => s
  | some i =>
    let x := s.link l
    let t := (s.setLink l { x with charges := x.charges ++ [(i, s.devNs)] }).showCharges l
    if t.chargesOf l i < 3 then t
    else if t.rd (R.FAB_LINK_PARK_PARKED l) = 0 then
      t.wrs [(R.FAB_LINK_PARK_PARKED l, 1), (R.FAB_LINK_PARK_LANE l, i), (R.FAB_FAULT_EVENT_LANE_PARKED, 1)]
    else if t.rd (R.FAB_LINK_PARK_LANE l) = i then t
    else t.wrs [(R.FAB_LINK_PARK_HELD l, 1), (R.FAB_LINK_STATUS_STATE l, 0), (R.FAB_FAULT_EVENT_LANE_PARKED, 1)]

/-- The lane with most corrected symbols, the lowest on a tie; none if every count is zero (R512). -/
def worstLane (sym : List Nat) : Option Nat :=
  let m := sym.foldl max 0
  if m = 0 then none else sym.findIdx? (· == m)

/-- A link leaves UP and retrains (R476, R481, R512): flits in the replay buffer are lost, waiting ones take another
link, and every UP peer is told over the other UP links. -/
def State.linkDrop (s : State) (l : Nat) (lane : Option Nat) : State :=
  let x := s.link l
  let t := s.setLink l { x with replay := [], wait := [], rxBuf := [], owed := [], naking := false }
  let t := t.wrs [(R.FAB_LINK_STATUS_STATE l, 1), (R.FAB_LINK_STATUS_LANES l, 0), (R.FAB_EVENT_LINK_DOWN, 1),
    (creditFld l 0, 0), (creditFld l 1, 0), (creditFld l 2, 0), (creditFld l 3, 0)]
  let t := (t.sat (R.FAB_LINK_RETRAINS_COUNT l) 1).chargeLane l lane
  let t := t.each t.upPeers fun t d => t.each t.upLinks fun t k => t.manage k 0x0D t.ownPod d 0 0 l []
  t.each (x.wait.filter fun f => f.vc != 3) fun t f => t.send f

/-- NAK_RX and the timeouts of R475: every unacknowledged flit again, oldest first. -/
def State.replayAll (s : State) (l : Nat) : State :=
  let x := s.link l
  if x.replay.isEmpty then s
  else
    let t := s.setLink l { x with replay := x.replay.map fun e => { e with last := s.now }, lastFlit := s.now, progress := s.now }
    (t.each x.replay fun t e => t.putFlit l e.seq false false e.flit).sat (R.FAB_LINK_REPLAYS_COUNT l) 1

/-- Flits acknowledged up to `seq` leave the replay buffer. -/
def State.acked (s : State) (l seq : Nat) : State :=
  let x := s.link l
  match x.replay.findIdx? fun e => e.seq == seq with
  | none => s
  | some i =>
    let t := s.setLink l { x with replay := x.replay.drop (i + 1), progress := s.now }
    t.pump l x.wait.length

/-- Frees one buffer of a VC: its credit goes back with the next flit (R472). -/
def State.freeBuf (s : State) (l vc : Nat) : State :=
  let x := s.link l
  let n := tblGet 0 x.rxBuf vc
  if n = 0 then s
  else
    let t := s.setLink l { x with rxBuf := tblSet 0 x.rxBuf vc (n - 1), owed := tblSet 0 x.owed vc (tblGet 0 x.owed vc + 1) }
    t.iff (t.linkUp l) (·.putIdle l false)

/-! The audit of memory-semantic credits (R530, R532) -/

/-- Requests outstanding to a peer that spend its memory-semantic credits (R497): stores, word stores, atomics. -/
def State.memOut (s : State) (d : Nat) : Nat := (s.fab.reqs.filter fun r => r.dev == d && 2 ≤ r.kind && r.kind ≤ 4).length

/-- Identity 0x02 checked for every peer. -/
def State.checkMemCredits (s : State) : State :=
  s.each (allPeers.filter fun d => (s.peer d).credits + s.memOut d != 4) fun t d => t.booksFault 2 d 0 0

/-! Commands of the links -/

/-- FLIT_RX (R471 to R475): `fec` codewords corrected and discarded since the last, `sym` the lanes' corrected symbols in
the last second (R516). -/
def execFlitRx (l : Nat) (f : FlitTail) (fec : Nat × Nat) (sym : List Nat) (t : Nat) (s : State) : Ans :=
  onUnit (l < 6) <|
    let s := s.atTime t
    if !s.linkUp l then s
    else
      let s := (s.bump (R.FAB_LINK_FEC_CORR_COUNT l) fec.1).sat (R.FAB_LINK_FEC_UNCORR_COUNT l) fec.2
      let warn := ((List.range 8).map fun i => if s.rd R.FAB_DETECT_WARN_WARN_SYM < sym.getD i 0 then 2 ^ i else 0).sum
      let rises := (List.range 8).any fun i => warn / 2 ^ i % 2 == 1 && s.rd (R.FAB_LANE_WARN_WARN l) / 2 ^ i % 2 == 0
      let s := (s.wr (R.FAB_LANE_WARN_WARN l) warn).iff rises (·.flag R.FAB_FAULT_EVENT_LANE_WARN)
      let x := s.link l
      if !f.crcOk then
        let u := s.sat (R.FAB_LINK_CRC_ERR_COUNT l) 1
        if x.naking then u else u.putIdle l true
      else if !f.idle && f.seq != x.rxNext then (if x.naking then s else s.putIdle l true)
      else
        let s := match f.ack with
          | some a => s.acked l a
          | none => s
        let s := s.each f.credits fun u c => u.wr (creditFld l c.1) (min (u.rd (creditFld l c.1) + c.2) (vcSize c.1))
        let s := s.pump l (s.link l).wait.length
        if f.idle then s.checkMemCredits
        else
          let x := s.link l
          let s := s.setLink l { x with rxNext := (x.rxNext + 1) % 4096, naking := false, lastFlit := s.now,
                                        rxBuf := tblSet 0 x.rxBuf f.vc (tblGet 0 x.rxBuf f.vc + 1) }
          let s := if f.kind = 0 || 0x0F < f.kind then (s.sat R.FAB_BAD_FLIT_COUNT 1).freeBuf l f.vc else s.putIdle l false
          s.checkMemCredits

/-- NAK_RX (R475). -/
def execNakRx (l ack t : Nat) (s : State) : Ans :=
  onUnit (l < 6) <|
    let s := s.atTime t
    if s.linkUp l then (s.acked l ack).replayAll l else s

/-- REPLAY_TIMEOUT (R475): ACK_SEQ has not advanced for 2 µs with flits unacknowledged. -/
def execReplayTimeout (l t : Nat) (s : State) : Ans :=
  onUnit (l < 6) <|
    let s := s.atTime t
    if s.linkUp l && (s.link l).progress + 2_000 ≤ s.now then s.replayAll l else s

/-- DELIVERY_TIMEOUT (R476): a flit undelivered 6 µs after its first sending; `sym` the lanes' corrected symbols in the
1 ms before. -/
def execDeliveryTimeout (l : Nat) (sym : List Nat) (t : Nat) (s : State) : Ans :=
  onUnit (l < 6) <|
    let s := s.atTime t
    if s.linkUp l && ((s.link l).replay.any fun e => e.first + 6_000 ≤ s.now) then s.linkDrop l (worstLane (sym.take 8)) else s

/-- The lanes a link trains on (R513, R514). -/
def State.lanesOf (s : State) (l : Nat) (parked : Option Nat) : Nat :=
  let own := if s.rd (R.FAB_LINK_PARK_PARKED l) = 1 then [s.rd (R.FAB_LINK_PARK_LANE l)] else []
  8 - (own ++ parked.toList).dedup.length

/-- FAB_LINK_UP (R469, R473, R480, R514): alignment has held since `since` and the partner exchange is complete. A link
that does not agree with the lowest-numbered UP link, or reaches another plane, is held in TRAINING. -/
def execFabLinkUp (l : Nat) (p : Partner) (since t : Nat) (s : State) : Ans :=
  onUnit (l < 6) <|
    let s := s.atTime t
    if s.rd (R.FAB_LINK_STATUS_STATE l) != 1 || s.rd (R.FAB_LINK_PARK_HELD l) == 1 || s.now < since + 1_000_000 then s
    else
      let x := s.link l
      let lower := s.upLinks.any fun k => k < l && ((s.link k).port != p.port || (s.link k).pod != p.pod)
      if p.switch_ && (p.plane != l || lower) then s.flag R.FAB_EVENT_MISCABLED
      else
        let s := s.setLink l { LinkState.reset with charges := x.charges, pod := p.pod, port := p.port, lastFlit := s.now, progress := s.now }
        let s := s.wrs [(R.FAB_LINK_STATUS_STATE l, 2), (R.FAB_LINK_STATUS_SWITCH l, if p.switch_ then 1 else 0),
          (R.FAB_LINK_STATUS_PARTNER_PORT l, p.port), (R.FAB_LINK_STATUS_LANES l, s.lanesOf l p.parked),
          (creditFld l 0, 192), (creditFld l 1, 192), (creditFld l 2, 96), (creditFld l 3, 32)]
        let others := s.upLinks.filter fun k => l < k && p.switch_ && ((s.link k).port != p.port || (s.link k).pod != p.pod)
        let s := (s.each others fun u k => u.linkDrop k none).iff (!others.isEmpty) (·.flag R.FAB_EVENT_MISCABLED)
        let direct := s.rd R.FAB_CFG_DIRECT == 1
        s.wrs [(R.FAB_STATUS_POD, if direct then s.rd R.FAB_CFG_DIRECT_POD else p.pod),
          (R.FAB_STATUS_DEV, if direct then s.rd R.FAB_CFG_DIRECT_DEV else p.port), (R.FAB_STATUS_NUMBERED, 1)] |>.manage
            l 0x0A p.pod p.port 0 0 0 []

/-- FAB_LINK_DOWN (R481, R512): `started` tells that the partner started the retrain, `lost` the lanes that lost block
lock, `sym` the lanes' corrected symbols in the 1 ms before. -/
def execFabLinkDown (l : Nat) (started : Bool) (lost sym : List Nat) (t : Nat) (s : State) : Ans :=
  onUnit (l < 6) <|
    let s := s.atTime t
    if !s.linkUp l then s
    else if started then s.linkDrop l none
    else
      match (List.range 8).find? lost.contains with
      | some i => s.linkDrop l (some i)
      | none => s.linkDrop l (worstLane (sym.take 8))

/-- UNPARK (R515). -/
def execUnpark (l t : Nat) (s : State) : Ans :=
  onUnit (l < 6) <|
    let s := s.atTime t
    if s.rd (R.FAB_LINK_PARK_PARKED l) = 0 && s.rd (R.FAB_LINK_PARK_HELD l) = 0 then s
    else
      let u := s.wrs [(R.FAB_LINK_PARK_PARKED l, 0), (R.FAB_LINK_PARK_LANE l, 0), (R.FAB_LINK_PARK_HELD l, 0)]
      let u := (u.setLink l { u.link l with charges := [] }).showCharges l
      if u.linkUp l then ((u.linkDrop l none).setLink l { (u.linkDrop l none).link l with charges := [] })
      else u.wr (R.FAB_LINK_STATUS_STATE l) 1

/-- LANE_CHARGE_LAPSE (R516): charges of 10 s of age lapse. -/
def execLaneChargeLapse (l t : Nat) (s : State) : Ans :=
  onUnit (l < 6) <|
    let s := s.atTime t
    let x := s.link l
    (s.setLink l { x with charges := x.charges.filter fun c => s.devNs < c.2 + 10_000_000_000 }).showCharges l

/-- CREDIT_LEAK (R530, R533): a link idle for 2 µs whose credit identity fails retrains, charged to no lane. -/
def execCreditLeak (l t : Nat) (s : State) : Ans :=
  onUnit (l < 6) <|
    let s := s.atTime t
    let x := s.link l
    let good := (List.range 4).all fun vc =>
      s.rd (creditFld l vc) == vcSize vc && tblGet 0 x.rxBuf vc == 0 && tblGet 0 x.owed vc == 0
    if s.linkUp l && x.lastFlit + 2_000 ≤ s.now && !good then
      (s.flag R.FAB_FAULT_EVENT_CREDIT_LEAK).linkDrop l none
    else s

/-- The payload of a HELLO (R480, R518): the number of fence-list pairs (device, epoch) of the last 100 ms, newest first,
the pairs, then the open windows with their keys. -/
def State.helloData (s : State) : List Byte :=
  let f := (s.fab.fences.filter fun p => s.now < p.2.2 + 100_000_000).take 16
  let w := (List.range 192).filter fun w => s.rd (R.FAB_WIN_CTRL_KIND w) != 0
  toBytes 1 f.length ++ f.flatMap (fun p => toBytes 1 p.1 ++ toBytes 2 p.2.1) ++
    w.flatMap fun w => toBytes 1 w ++ toBytes 2 (s.rd (R.FAB_WIN_CTRL_PKEY w))

/-- HELLO_SEND (R480, R517): a HELLO to every pod peer through every UP link. -/
def execHelloSend (t : Nat) (s : State) : Ans :=
  let s := s.atTime t
  if s.rd R.FAB_STATUS_NUMBERED = 0 then .next s
  else
    let data := s.helloData
    let peers := allPeers.filter (· != s.ownDev)
    .next (s.each s.upLinks fun u l => u.each peers fun u d => u.manage l 0x09 u.ownPod d 0 0 0 data)

/-- LINK_STATE_RX (R481): peer `dev` no longer uses link `named`. -/
def execLinkStateRx (l dev named t : Nat) (s : State) : Ans :=
  onUnit (l < 6 && dev < 256 && named < 6) <|
    let s := (s.atTime t).freeBuf l 3
    let x := s.peer dev
    s.setPeer dev { x with off := if x.off.contains named then x.off else x.off ++ [named] }

end Sys2Proof.Machine
end

