-- ==== Sys2Proof/Machine/FabOps.lean ====
section
/-! DEFINITION. Operation queues of the fabric (R487 to R497, R500 to R506): descriptors, the requests they send, their
responses, time limits and completion; the remote-line cache; message credits at the sender. -/

namespace Sys2Proof.Machine

/-! Descriptors (R504, R505) -/

/-- The queue acts on the owner's memory under the owner key. -/
def State.opqOwner (s : State) (q : Nat) : Bool := s.rd (R.FAB_OPQ_CFG_OWNER q) == 1

/-- The slice of a queue. -/
def State.opqSlice (s : State) (q : Nat) : Nat := s.rd (R.FAB_OPQ_CFG_SLICE q)

/-- `n` bytes at `a` in the queue's range are mapped. -/
def State.opqMapped (s : State) (q a n : Nat) : Bool :=
  if s.opqOwner q then a + n ≤ 2 ^ 57 else s.mapped (s.opqSlice q) a n

/-- Bytes in the queue's range. -/
def State.opqBytes (s : State) (q a n : Nat) : List Byte :=
  if s.opqOwner q then s.bytes (ownerKey a) n else s.vbytes (s.opqSlice q) a n

/-- Bytes written in the queue's range. -/
def State.opqStore (s : State) (q a : Nat) (l : List Byte) : State :=
  if s.opqOwner q then s.setBytes (ownerKey a) l else s.vsets (s.opqSlice q) a l

/-- Address of the descriptor of ring index `i`. -/
def State.opqAddr (s : State) (q i : Nat) : Nat :=
  s.rd (R.FAB_OPQ_BASE_ADDR q) + 64 * (i % 2 ^ s.rd (R.FAB_OPQ_CFG_SIZE_LOG2 q))

/-- The key of a queue (R483). -/
def State.opqKey (s : State) (q : Nat) : Nat := if s.opqOwner q then 0xFFFF else s.rd (R.FAB_SLICE_PKEY_PKEY (s.opqSlice q))

/-- OP. -/
def dOp (d : List Byte) : Nat := bankNum d 0 1
/-- SIZE8. -/
def dSize8 (d : List Byte) : Bool := bankNum d 1 1 % 2 == 1
/-- SIGNED. -/
def dSigned (d : List Byte) : Bool := bankNum d 1 1 / 2 % 2 == 1
/-- DST_POD. -/
def dPod (d : List Byte) : Nat := bankNum d 1 1 / 16
/-- DST_DEV. -/
def dDev (d : List Byte) : Nat := bankNum d 2 1
/-- WINDOW. -/
def dWindow (d : List Byte) : Nat := bankNum d 3 1
/-- OFFSET. -/
def dOffset (d : List Byte) : Nat := bankNum d 8 8
/-- LOCAL. -/
def dLocal (d : List Byte) : Nat := bankNum d 0x10 8
/-- LEN_M1 + 1. -/
def dLen (d : List Byte) : Nat := bankNum d 0x18 3 + 1
/-- SIG_CNT. -/
def dSigCnt (d : List Byte) : Nat := bankNum d 0x1B 1 % 64
/-- SIG_EN. -/
def dSigEn (d : List Byte) : Bool := bankNum d 0x1B 1 / 64 % 2 == 1
/-- LOCAL_SIG. -/
def dLocalSig (d : List Byte) : Bool := bankNum d 0x1B 1 / 128 == 1
/-- SIG_INC. -/
def dSigInc (d : List Byte) : Nat := bankNum d 0x1C 2
/-- OPERAND_A. -/
def dA (d : List Byte) : Nat := bankNum d 0x20 8
/-- OPERAND_B. -/
def dB (d : List Byte) : Nat := bankNum d 0x28 8

/-- An atomic: FETCH_ADD to MAX. -/
def isAtomic (op : Nat) : Bool := 6 ≤ op && op ≤ 10

/-- A descriptor that breaks R505: a field its OP does not use, or a reserved one, is not zero, a length or an OFFSET is
out of its bounds, a signal has no increment. -/
def descBreaks (d : List Byte) : Bool :=
  let op := dOp d
  let lines := op = 1 || op = 2 || op = 4 || op = 5
  let inv := 11 ≤ op && op ≤ 13
  let word := op = 3 || isAtomic op
  let to_ := lines || word || op = 11 || op = 14
  let sig := dSigEn d || dLocalSig d
  let size := if dSize8 d then 8 else 4
  op = 0 || 0x0F < op || bankNum d 1 1 / 4 % 4 != 0 || bankNum d 4 4 != 0 || bankNum d 0x1E 2 != 0
    || bankNum d 0x30 8 != 0 || bankNum d 0x38 8 != 0 || 2 ^ 36 ≤ dOffset d || 2 ^ 57 ≤ dLocal d
    || (!word && dSize8 d) || (op != 9 && op != 10 && dSigned d)
    || (!to_ && (dPod d != 0 || dDev d != 0)) || (!to_ && !inv && dWindow d != 0)
    || (!lines && !word && !inv && dOffset d != 0)
    || (!lines && op != 14 && dLocal d != 0) || (!lines && !inv && op != 14 && dLen d != 1)
    || (op != 5 && dSigEn d) || (sig && dSigInc d == 0) || (!sig && (dSigInc d != 0 || dSigCnt d != 0))
    || (!word && dA d != 0) || (op != 8 && dB d != 0)
    || ((op = 1 || op = 2) && (192 < dLen d || dLen d % 64 != 0)) || ((op = 4 || op = 5) && dLen d % 64 != 0)
    || (op = 14 && 222 < dLen d) || ((lines || inv) && dOffset d % 64 != 0) || (word && dOffset d % size != 0)

/-! Progress -/

/-- The descriptor in progress with number `id`. -/
def State.fabOp (s : State) (id : Nat) : Option FabOp := s.fab.ops.find? fun o => o.id == id

/-- The state with a descriptor in progress replaced. -/
def State.putOp (s : State) (o : FabOp) : State :=
  let f := s.fab
  s.setFab { f with ops := f.ops.map fun p => if p.id == o.id then o else p }

/-- RESULT and then STATUS with TAG and DONE (R505), or the counter that LOCAL_SIG names; the queue's engine is hub DMA
engine q mod 16 (log entry 23). -/
def State.writeDone (s : State) (q index : Nat) (d : List Byte) (result code tag : Nat) : State :=
  if dLocalSig d then
    let k := q % 16 * 64 + dSigCnt d
    let f := s.fab
    s.setFab { f with engCtr := tblSet 0 f.engCtr k ((tblGet 0 f.engCtr k + dSigInc d) % 2 ^ 32) }
  else
    let a := s.opqAddr q index
    (s.opqStore q (a + 0x30) (toBytes 8 result)).opqStore q (a + 0x38) (toBytes 1 code ++ toBytes 2 tag ++ [0x80])

/-- A descriptor completes (R505, R541): one whose slice has a new generation writes nothing. -/
def State.completeOp (s : State) (o : FabOp) : State :=
  let f := s.fab
  let t := s.setFab { f with ops := f.ops.filter fun p => p.id != o.id }
  if !t.opqOwner o.queue && t.gen (t.opqSlice o.queue) ≠ o.gen then t.staleDrop (t.opqSlice o.queue)
  else t.writeDone o.queue o.index o.desc o.result o.code o.tag

/-- How much of a descriptor there is to send: lines, or one request. -/
def opTotal (d : List Byte) : Nat := if dOp d = 1 || dOp d = 2 || dOp d = 4 || dOp d = 5 then dLen d / 64 else 1

/-- A descriptor all of whose requests have ended completes. -/
def State.checkOp (s : State) (id : Nat) : State :=
  match s.fabOp id with
  | none => s
  | some o =>
    if s.fab.reqs.any (fun r => r.op == id) || o.sent < opTotal o.desc && o.code == 0 then s else s.completeOp o

/-- A request ends with a code and gives its memory-semantic credit back (R497). -/
def State.endFabReq (s : State) (r : FabReq) (code : Nat) : State :=
  let f := s.fab
  let t := s.setFab { f with reqs := f.reqs.filter fun p => p.tag != r.tag }
  let x := t.peer r.dev
  let t := if 2 ≤ r.kind && r.kind ≤ 4 then t.setPeer r.dev { x with credits := x.credits + 1 } else t
  let t := match t.fabOp r.op with
    | some o => if code = 0 || o.code ≠ 0 then t else t.putOp { o with code := code }
    | none => t
  t.checkOp r.op

/-- The first tag from `n` on that no request holds and no atomic carried in the last 128 µs (R501). -/
def State.freeTag (s : State) (n : Nat) : Nat → Nat
  | 0 => n % 65536
  | k + 1 =>
    let t := n % 65536
    if s.fab.reqs.any (fun r => r.tag == t) || s.fab.tagsAt.any (fun e => e.1 == t && s.now < e.2 + 128_000) then
      s.freeTag (n + 1) k
    else t

/-- A fresh tag. -/
def State.takeTag (s : State) : Nat × State :=
  let f := s.fab
  let t := s.freeTag f.nextTag (f.reqs.length + f.tagsAt.length)
  (t, s.setFab { f with nextTag := (t + 1) % 65536, tagsAt := f.tagsAt.filter fun e => s.now < e.2 + 128_000 })

/-- Sends one request of descriptor `o`: its flit without the tag. -/
def State.request (s : State) (o : FabOp) (fl : Flit) (line lines homeEpoch : Nat) : State :=
  let (tag, t) := s.takeTag
  let fl := { fl with tag := tag }
  let f := t.fab
  let r : FabReq := ⟨tag, o.id, fl.kind, fl.dev, line, lines, t.now, t.now, false, homeEpoch, fl⟩
  let t := t.setFab { f with reqs := f.reqs ++ [r], tagsAt := if fl.kind = 4 then f.tagsAt ++ [(tag, t.now)] else f.tagsAt }
  let x := t.peer fl.dev
  let t := if 2 ≤ fl.kind && fl.kind ≤ 4 then t.setPeer fl.dev { x with credits := x.credits - 1 } else t
  let t := match t.fabOp o.id with
    | some p => t.putOp { p with tag := tag }
    | none => t
  t.send fl

/-! The remote-line cache (R491 to R493) -/

/-- The cached line that matches a lookup in all six tags. -/
def State.cached (s : State) (pod dev window offset pkey : Nat) : Option CacheLine :=
  if s.rd R.FAB_RLC_CTRL_EN = 0 then none
  else s.fab.cache.find? fun c => c.pod == pod && c.dev == dev && c.window == window && c.offset == offset
    && c.pkey == pkey && c.epoch == s.rd (R.FAB_PEER_EPOCH dev)

/-- The state without the cached lines that `f` selects. -/
def State.uncache (s : State) (g : CacheLine → Bool) : State :=
  let f := s.fab
  s.setFab { f with cache := f.cache.filter fun c => !g c }

/-- Lines of a window range leave the cache, whatever home they came from (log entry 24). -/
def State.invLines (s : State) (window offset lines : Nat) : State :=
  s.uncache fun c => c.window == window && offset ≤ c.offset && c.offset < offset + 64 * lines

/-- This device's own write to lines of a home removes them. -/
def State.ownWrite (s : State) (d : List Byte) (bytes : Nat) : State :=
  s.uncache fun c => c.pod == dPod d && c.dev == dDev d && c.window == dWindow d
    && dOffset d < c.offset + 64 && c.offset < dOffset d + bytes

/-! Sending lines -/

/-- The lines of one flit from line `k` on. -/
def flitLines (d : List Byte) (k : Nat) : Nat := min 3 (opTotal d - k)

/-- Sends the lines of a descriptor that remain, three to a flit: LOADs first ask the cache (R484, R491). -/
def State.sendLines (s : State) (id : Nat) : Nat → State
  | 0 => s
  | n + 1 =>
    match s.fabOp id with
    | none => s
    | some o =>
      let d := o.desc
      let k := o.sent
      if opTotal d ≤ k || 0x8000 ≤ s.fab.reqs.length || o.code ≠ 0 then s
      else
        let m := flitLines d k
        let key := s.opqKey o.queue
        let off := dOffset d + 64 * k
        let s := s.putOp { o with sent := k + m }
        if dOp d = 1 || dOp d = 4 then
          let hits := (List.range m).filterMap fun i => s.cached (dPod d) (dDev d) (dWindow d) (off + 64 * i) key
          if hits.length = m then
            let t := s.opqStore o.queue (dLocal d + 64 * k) (hits.flatMap (·.data))
            (t.bump R.FAB_RLC_HITS_COUNT 1).sendLines id n
          else
            let fl : Flit := ⟨1, 0, m, dPod d, dDev d, key, 0, dWindow d, off, 0, []⟩
            (((s.bump R.FAB_RLC_MISSES_COUNT 1).request o fl k m 0)).sendLines id n
        else
          let last := dSigEn d && k + m = opTotal d
          let sig := if last then toBytes 1 (dSigCnt d) ++ toBytes 2 (dSigInc d) else []
          let data := s.opqBytes o.queue (dLocal d + 64 * k) (64 * m)
          let masks := (List.range m).flatMap fun _ => toBytes 8 (2 ^ 64 - 1)
          let fl : Flit := ⟨if dOp d = 2 then 2 else 5, 0, m, dPod d, dDev d, key, 0, dWindow d, off, 0, data ++ masks ++ sig⟩
          ((s.request o fl k m 0)).sendLines id n

/-- Every descriptor sends what it can. -/
def State.pumpOps (s : State) : State := s.each (s.fab.ops.map (·.id)) fun t id => t.sendLines id (t.fab.reqs.length + 0x8000)

/-! Message credits at the sender (R495) -/

/-- The credits toward a window. -/
def State.msgCredit (s : State) (pod dev window : Nat) : Option MsgCredit :=
  s.fab.credits.find? fun c => c.pod == pod && c.dev == dev && c.window == window

/-- A message toward the window may be sent: a credit is held, and an entry is there or free. -/
def State.msgOk (s : State) (pod dev window : Nat) : Bool :=
  match s.msgCredit pod dev window with
  | some c => c.spent.length < 2
  | none => s.fab.credits.length < 4096

/-- The state with the spent credits toward a window replaced; an entry that holds both is freed. -/
def State.setSpent (s : State) (pod dev window : Nat) (g : List Nat → List Nat) : State :=
  let f := s.fab
  let old := (s.msgCredit pod dev window).getD ⟨pod, dev, window, [], 0⟩
  let new := { old with spent := g old.spent }
  let rest := f.credits.filter fun c => !(c.pod == pod && c.dev == dev && c.window == window)
  s.setFab { f with credits := if new.spent.isEmpty then rest else rest ++ [new] }

/-! Issue -/

/-- The peers an INV_POD goes to: every UP peer. -/
def State.invTargets (s : State) (d : List Byte) : List (Nat × Nat) :=
  if dOp d = 12 then s.upPeers.map fun p => (s.ownPod, p) else [(dPod d, dDev d)]

/-- The code a descriptor is refused with before anything is sent; 0 where none (R505, R506). -/
def State.issueCode (s : State) (q : Nat) (d : List Byte) : Nat :=
  let op := dOp d
  let lines := op = 1 || op = 2 || op = 4 || op = 5
  if descBreaks d || ((lines || op = 14) && !s.opqMapped q (dLocal d) (dLen d)) then 0x01
  else if s.selfFenced && op != 13 && op != 15 then 0x0D
  else if op = 12 || op = 13 || op = 15 then 0
  else if op != 14 && dPod d != s.ownPod then 0x03
  else if (dPod d == s.ownPod && !s.peerUp (dDev d)) || (s.usable (dPod d) (dDev d)).isEmpty then 0x02
  else 0

/-- The descriptor must wait in its queue: no memory-semantic credit (R497), no message credit (R495), or for a FENCE an
earlier descriptor in progress (R504). -/
def State.issueWaits (s : State) (q : Nat) (d : List Byte) : Bool :=
  let op := dOp d
  if op = 2 || op = 3 || isAtomic op then (s.peer (dDev d)).credits == 0
  else if op = 14 then !s.msgOk (dPod d) (dDev d) (dWindow d)
  else op == 15 && s.fab.ops.any fun o => o.queue == q

/-- The flit of a descriptor that takes one request. -/
def State.oneFlit (s : State) (q : Nat) (d : List Byte) : Flit :=
  let key := s.opqKey q
  let op := dOp d
  let n := if dSize8 d then 8 else 4
  if op = 3 then ⟨3, 0, 0, dPod d, dDev d, key, 0, dWindow d, dOffset d, 0, toBytes n (dA d)⟩
  else if isAtomic op then
    ⟨4, 0, 0, dPod d, dDev d, key, 0, dWindow d, dOffset d, 0, toBytes 1 op ++ toBytes 1 n ++
      toBytes 1 (if dSigned d then 1 else 0) ++ toBytes 8 (dA d) ++ toBytes 8 (dB d) ++
      toBytes 2 (s.rd (R.FAB_PEER_EPOCH (dDev d))) ++ [0]⟩
  else if op = 14 then
    ⟨7, 2, 0, dPod d, dDev d, key, 0, dWindow d, 0, 0, s.opqBytes q (dLocal d) (dLen d) ++ toBytes 2 (dLen d)⟩
  else ⟨6, 0, 0, dPod d, dDev d, key, 0, dWindow d, dOffset d, 0, toBytes 4 (dLen d)⟩

/-- What an accepted descriptor does. -/
def State.startOp (s : State) (o : FabOp) : State :=
  let d := o.desc
  let op := dOp d
  let f := s.fab
  let s := s.setFab { f with ops := f.ops ++ [o] }
  if op = 13 then ((s.invLines (dWindow d) (dOffset d) (dLen d)).putOp { o with sent := 1 }).checkOp o.id
  else if op = 15 then (s.putOp { o with sent := 1 }).checkOp o.id
  else if op = 1 || op = 4 then (s.sendLines o.id 0x8000).checkOp o.id
  else if op = 2 || op = 5 then ((s.ownWrite d (dLen d)).sendLines o.id 0x8000).checkOp o.id
  else
    let s := s.putOp { o with sent := 1 }
    let s := if op = 3 || isAtomic op then s.ownWrite d 8 else s
    let s := if op = 14 then s.setSpent (dPod d) (dDev d) (dWindow d) (· ++ [s.now]) else s
    let fl := s.oneFlit o.queue d
    let s := s.each (s.invTargets d) fun t p =>
      t.request { o with sent := 1 } { fl with pod := p.1, dev := p.2 } 0 1 (t.rd (R.FAB_PEER_EPOCH p.2))
    s.checkOp o.id

/-- The descriptor at HEAD of queue `q`, if the queue is bound, not empty and readable. -/
def State.opqHead (s : State) (q : Nat) : Option (Nat × List Byte) :=
  let h := s.rd (R.FAB_OPQ_HEAD_HEAD q)
  if h = s.rd (R.FAB_OPQ_TAIL_TAIL q) || !s.opqMapped q (s.opqAddr q h) 64 then none
  else some (h, s.opqBytes q (s.opqAddr q h) 64)

/-- Queue `q` issues the descriptor at HEAD if its OP is `op` (or is no OP at all) and it need not wait. -/
def State.issueOp (s : State) (op q : Nat) : State :=
  match s.opqHead q with
  | none => s
  | some (h, d) =>
    let named := 1 ≤ dOp d && dOp d ≤ 15
    if (named && dOp d != op) || (s.rd R.DEV_STATUS_PHASE != 4 && s.rd R.DEV_STATUS_PHASE != 5) then s
    else
      let code := s.issueCode q d
      if code = 0 && s.issueWaits q d then s
      else
        let t := s.bump (R.FAB_OPQ_HEAD_HEAD q) 1
        if code ≠ 0 then t.writeDone q h d 0 code 0
        else
          let f := t.fab
          let o : FabOp := ⟨f.nextOp, q, h, if t.opqOwner q then 0 else t.gen (t.opqSlice q), d, 0, 0, 0, 0⟩
          (t.setFab { f with nextOp := f.nextOp + 1 }).startOp o

/-- FAB_LOAD: up to 3 lines from a peer window, or from the remote-line cache. -/
def execFabLoad (q t : Nat) (s : State) : Ans := onUnit (q < 32) ((s.atTime t).issueOp 1 q)
/-- FAB_STORE: masked lines to a peer window. -/
def execFabStore (q t : Nat) (s : State) : Ans := onUnit (q < 32) ((s.atTime t).issueOp 2 q)
/-- FAB_STORE_WORD: 4 or 8 bytes to a peer window. -/
def execFabStoreWord (q t : Nat) (s : State) : Ans := onUnit (q < 32) ((s.atTime t).issueOp 3 q)
/-- FAB_GET: up to 16 MiB from a peer window as LOADs. -/
def execFabGet (q t : Nat) (s : State) : Ans := onUnit (q < 32) ((s.atTime t).issueOp 4 q)
/-- FAB_PUT: up to 16 MiB to a peer window. -/
def execFabPut (q t : Nat) (s : State) : Ans := onUnit (q < 32) ((s.atTime t).issueOp 5 q)
/-- FAB_FETCH_ADD. -/
def execFabFetchAdd (q t : Nat) (s : State) : Ans := onUnit (q < 32) ((s.atTime t).issueOp 6 q)
/-- FAB_SWAP. -/
def execFabSwap (q t : Nat) (s : State) : Ans := onUnit (q < 32) ((s.atTime t).issueOp 7 q)
/-- FAB_CSWAP. -/
def execFabCswap (q t : Nat) (s : State) : Ans := onUnit (q < 32) ((s.atTime t).issueOp 8 q)
/-- FAB_MIN. -/
def execFabMin (q t : Nat) (s : State) : Ans := onUnit (q < 32) ((s.atTime t).issueOp 9 q)
/-- FAB_MAX. -/
def execFabMax (q t : Nat) (s : State) : Ans := onUnit (q < 32) ((s.atTime t).issueOp 10 q)
/-- FAB_INV: invalidates cached lines at one peer. -/
def execFabInv (q t : Nat) (s : State) : Ans := onUnit (q < 32) ((s.atTime t).issueOp 11 q)
/-- FAB_INV_POD: invalidates cached lines at every UP peer. -/
def execFabInvPod (q t : Nat) (s : State) : Ans := onUnit (q < 32) ((s.atTime t).issueOp 12 q)
/-- FAB_INV_LOCAL: invalidates lines of this device's cache. -/
def execFabInvLocal (q t : Nat) (s : State) : Ans := onUnit (q < 32) ((s.atTime t).issueOp 13 q)
/-- FAB_MSG: a message to a RECV window when a credit is held. -/
def execFabMsg (q t : Nat) (s : State) : Ans := onUnit (q < 32) ((s.atTime t).issueOp 14 q)
/-- FAB_FENCE_OP: completes once every earlier descriptor of its queue has completed. -/
def execFabFenceOp (q t : Nat) (s : State) : Ans := onUnit (q < 32) ((s.atTime t).issueOp 15 q)

/-! Responses and time limits -/

/-- The request that holds a tag. -/
def State.reqOf (s : State) (tag : Nat) : Option FabReq := s.fab.reqs.find? fun r => r.tag == tag

/-- The lines of a LOAD response enter the cache where the home allows it (R491, R492). -/
def State.fillCache (s : State) (r : FabReq) (epoch : Nat) (data : List Byte) : State :=
  let f := s.fab
  let new := (List.range r.lines).map fun i =>
    CacheLine.mk r.flit.pod r.flit.dev r.flit.window (r.flit.offset + 64 * i) r.flit.pkey epoch ((data.drop (64 * i)).take 64)
  let same := fun (c : CacheLine) => new.any fun n => n.pod == c.pod && n.dev == c.dev && n.window == c.window && n.offset == c.offset
    && n.pkey == c.pkey && n.epoch == c.epoch
  s.setFab { f with cache := (f.cache.filter fun c => !same c) ++ new }

/-- FAB_RESPONSE_RX (R484, R491, R496): the response to `h.tag` with its code; `data` holds the lines of a LOAD or the old
value of an atomic, `cacheOk` is CACHE_OK, `evict` the places of the cached lines that replacement removes (R493). A
response to no outstanding request is dropped. -/
def execFabResponseRx (h : FabHdr) (code : Nat) (data : List (BitVec 8)) (cacheOk : Bool) (evict : List Nat) (t : Nat) (s : State) : Ans :=
  onUnit (h.link < 6) <|
    let s := (s.atTime t).freeBuf h.link 1
    match s.reqOf h.tag with
    | none => s
    | some r =>
      if r.dev != h.dev || r.flit.pod != h.pod then s
      else
        match s.fabOp r.op with
        | none => s.endFabReq r code
        | some o =>
          let fresh := s.opqOwner o.queue || s.gen (s.opqSlice o.queue) == o.gen
          let s := if r.kind = 1 && code = 0 && fresh then
              let u := s.opqStore o.queue (dLocal o.desc + 64 * r.line) (data.take (64 * r.lines))
              if cacheOk && u.rd R.FAB_RLC_CTRL_EN == 1 && u.rd R.FAB_RLC_CTRL_INV_BUSY == 0 then
                let f := u.fab
                let kept := (f.cache.zipIdx.filter fun e => !evict.contains e.2).map (·.1)
                (u.setFab { f with cache := kept }).fillCache r h.epoch data
              else u
            else if r.kind = 4 && code = 0 then s.putOp { o with result := bankNum data 0 (if dSize8 o.desc then 8 else 4) }
            else s
          let s := if r.kind = 7 && (code = 4 || code = 5 || code = 0x0C) then s.setSpent r.flit.pod r.dev r.flit.window (·.dropLast) else s
          (s.endFabReq r code).pumpOps

/-- LOAD_RETRY_TIMEOUT (R487): 24 µs after it was sent a LOAD line is sent once more with a new tag. -/
def execLoadRetryTimeout (tag t : Nat) (s : State) : Ans :=
  let s := s.atTime t
  match s.reqOf tag with
  | none => .next s
  | some r =>
    if r.kind != 1 || r.retried || s.now < r.first + 24_000 then .next s
    else
      let (n, s) := s.takeTag
      let f := s.fab
      let q := { r with tag := n, last := s.now, retried := true, flit := { r.flit with tag := n } }
      let s := s.setFab { f with reqs := f.reqs.map fun p => if p.tag == tag then q else p }
      let s := match s.fabOp r.op with
        | some o => s.putOp { o with tag := n }
        | none => s
      .next (s.send q.flit)

/-- REQUEST_TIMEOUT (R487): a LOAD line 40 µs after its second sending, a STORE, STORE_WORD, PUT, INV or MSG 64 µs after
its sending, completes with TIMEOUT. -/
def execRequestTimeout (tag t : Nat) (s : State) : Ans :=
  let s := s.atTime t
  match s.reqOf tag with
  | none => .next s
  | some r =>
    let due := if r.kind = 1 then r.retried && decide (r.last + 40_000 ≤ s.now)
               else r.kind != 4 && decide (r.last + 64_000 ≤ s.now)
    if due then .next ((s.endFabReq r 0x0E).pumpOps) else .next s

/-- ATOMIC_RETRY (R501): 24 µs after its first sending an atomic is sent once more with RETRY = 1. -/
def execAtomicRetry (tag t : Nat) (s : State) : Ans :=
  let s := s.atTime t
  match s.reqOf tag with
  | none => .next s
  | some r =>
    if r.kind != 4 || r.retried || s.now < r.first + 24_000 then .next s
    else
      let q := { r with last := s.now, retried := true, flit := { r.flit with data := r.flit.data.dropLast ++ [1] } }
      let f := s.fab
      .next ((s.setFab { f with reqs := f.reqs.map fun p => if p.tag == tag then q else p, tagsAt := f.tagsAt ++ [(tag, s.now)] }).send q.flit)

/-- ATOMIC_UNKNOWN (R501): 64 µs after its first sending an atomic completes with OUTCOME_UNKNOWN. -/
def execAtomicUnknown (tag t : Nat) (s : State) : Ans :=
  let s := s.atTime t
  match s.reqOf tag with
  | none => .next s
  | some r =>
    if r.kind != 4 || s.now < r.first + 64_000 then .next s
    else .next ((s.flag R.FAB_EVENT_UNKNOWN_OUTCOME).endFabReq r 0x07)

/-- Every request to a peer ends: atomics with OUTCOME_UNKNOWN, others with `code` (R503, R520). -/
def State.endReqsTo (s : State) (d code : Nat) (all : Bool) : State :=
  s.each (s.fab.reqs.filter fun r => r.dev == d && (all || r.kind == 4)) fun t r =>
    let u := if r.kind = 4 && all then t.flag R.FAB_EVENT_UNKNOWN_OUTCOME else t
    u.endFabReq r (if r.kind = 4 then 0x07 else code)

/-- Every descriptor in progress of the queues that `g` selects completes with a code (R507, R522). -/
def State.endOps (s : State) (g : Nat → Bool) (code : Nat) : State :=
  let l := s.fab.ops.filter fun o => g o.queue
  let f := s.fab
  let gone := f.reqs.filter fun r => l.any fun o => o.id == r.op
  let t := s.setFab { f with reqs := f.reqs.filter fun r => !(l.any fun o => o.id == r.op) }
  let t := t.each (gone.filter fun r => 2 ≤ r.kind && r.kind ≤ 4) fun t r =>
    let x := t.peer r.dev
    t.setPeer r.dev { x with credits := x.credits + 1 }
  t.each l fun t o => t.completeOp { o with code := code }

/-! Credits that come back -/

/-- HOME_CREDIT_RX (R495): a CREDIT flit restores `n` credits toward a window of its sender. -/
def execHomeCreditRx (h : FabHdr) (n t : Nat) (s : State) : Ans :=
  onUnit (h.link < 6) (((s.atTime t).freeBuf h.link 3).setSpent h.pod h.dev h.window (·.drop n))

/-- MSG_CREDIT_RESYNC (R531): a credit spent for 10 ms is asked about; `count` is the home's answer, this device's
unconsumed slots in the window. -/
def execMsgCreditResync (pod dev window count t : Nat) (s : State) : Ans :=
  onUnit (pod < 16 && dev < 256 && window < 192) <|
    let s := s.atTime t
    match s.msgCredit pod dev window with
    | none => s
    | some c =>
      if !(c.spent.any fun x => x + 10_000_000 ≤ s.now) then s
      else
        let u := match (s.usable pod dev).head? with
          | some l => s.manage l 0x0E pod dev 0 window 0 []
          | none => s
        let u := u.setSpent pod dev window (fun l => l.drop (l.length - count))
        let f := u.fab
        u.setFab { f with credits := f.credits.map fun e =>
          if e.pod == pod && e.dev == dev && e.window == window then { e with unconsumed := count } else e }

/-! INV_ALL (R492) -/

/-- RLC_INV_ALL: the walk starts; lines that arrive while it runs are not kept. -/
def execRlcInvAll (t : Nat) (s : State) : Ans := .next (((s.atTime t).uncache fun _ => true).wr R.FAB_RLC_CTRL_INV_BUSY 1)

/-- RLC_INV_ALL_DONE: the walk completes. -/
def execRlcInvAllDone (t : Nat) (s : State) : Ans := .next ((s.atTime t).wr R.FAB_RLC_CTRL_INV_BUSY 0)

end Sys2Proof.Machine
end

