-- ==== Sys2Proof/Machine/FabHome.lean ====
section
/-! DEFINITION. The home side of the fabric (R482 to R486, R489, R492, R494 to R502, R526, R527, R531): checks, loads, the
cairn queue, atomics with their replay tables, barrier watches, messages and their credits. -/

namespace Sys2Proof.Machine

/-! Windows and checks (R482) -/

/-- The lent regions of lend `k`, in lend order: rising region number (log entry 20). -/
def State.lendSlabs (s : State) (k : Nat) : List Nat := (s.mm.regions.filter fun e => e.2 == .lent k).map (·.1)

/-- Bytes of a window (R482). -/
def State.winSize (s : State) (w : Nat) : Nat :=
  match s.rd (R.FAB_WIN_CTRL_KIND w) with
  | 1 => (s.lendSlabs (s.rd (R.FAB_WIN_TARGET_LEND w))).length * 0x20_0000
  | 2 => sramSize
  | _ => 0

/-- Vault and vault address of an offset of a MEMORY window. -/
def State.winPlace (s : State) (w offset : Nat) : Option (Nat × Nat) :=
  ((s.lendSlabs (s.rd (R.FAB_WIN_TARGET_LEND w)))[offset / 0x20_0000]?).map fun g => (g / 384, g % 384 * 0x20_0000 + offset % 0x20_0000)

/-- The window kinds a request KIND may use: MSG a RECV ring, PUT memory or a tile, the others memory. -/
def kindOk (kind win : Nat) : Bool := if kind = 7 then win == 3 else if kind = 5 then win == 1 || win == 2 else win == 1

/-- The checks of a request in the order of R482: 0, or the code it is refused with. A closed window is NO_QUEUE to a
message (R496). -/
def State.homeCode (s : State) (h : FabHdr) (kind len : Nat) : Nat :=
  let w := h.window
  let own := h.pod == s.ownPod
  let kindNow := s.rd (R.FAB_WIN_CTRL_KIND w)
  let fabric := kindNow == 3 && s.rd (R.FAB_WIN_CTRL_SCOPE_FABRIC w) == 1
  if own && (s.peer h.dev).retired.contains h.epoch then 0x0D
  else if 192 ≤ w || kindNow = 0 then (if kind = 7 then 0x0C else 0x05)
  else if h.pkey != s.rd (R.FAB_WIN_CTRL_PKEY w) then 0x04
  else if !(fabric || own && (s.rd (R.FAB_WIN_CTRL_SRC_ANY w) == 1 || s.rd (R.FAB_WIN_CTRL_SRC_DEV w) == h.dev)) then 0x04
  else if !kindOk kind kindNow || (kind != 7 && s.winSize w < h.offset + len) then 0x05
  else 0

/-- A response goes back: KIND of its request, code, lines or value (R470, R481, R484). -/
def State.respond (s : State) (h : FabHdr) (kind lines code : Nat) (data : List Byte) : State :=
  s.send ⟨kind, 1, lines, h.pod, h.dev, h.pkey, h.tag, h.window, h.offset, code, data⟩

/-- A request is turned away (R482). -/
def State.turnAway (s : State) (h : FabHdr) (kind code : Nat) : State :=
  let s := if code = 4 then (s.sat R.FAB_PKEY_REJECT_COUNT 1).flag R.FAB_EVENT_PKEY_REJECT else s
  s.respond h kind 0 code []

/-- Takes a request out of its receive buffer: dropped as a bad flit where its form is out of its row (R484), turned
away where a check fails, else `g`. -/
def State.atHome (s : State) (h : FabHdr) (kind len : Nat) (formOk : Bool) (g : State → State) : State :=
  let s := s.freeBuf h.link (if kind = 7 then 2 else 0)
  if !formOk then s.sat R.FAB_BAD_FLIT_COUNT 1
  else
    let c := s.homeCode h kind len
    if c ≠ 0 then s.turnAway h kind c else g s

/-! The cairn queue (R498, R499) -/

/-- FAB_CAIRN_LEVEL and FAB_CAIRN_MAX follow the queue; `extra` entries pass straight through. -/
def State.showCairn (s : State) (extra : Nat) : State :=
  let n := s.fab.cairn.length
  s.wrs [(R.FAB_CAIRN_LEVEL_ENTRIES, n), (R.FAB_CAIRN_MAX_ENTRIES, max (s.rd R.FAB_CAIRN_MAX_ENTRIES) (n + extra))]

/-- A codeword of a line that `mask` writes only in part meets an uncorrectable codeword (R486). -/
def State.mergeBad (s : State) (v a mask : Nat) : List Nat :=
  [0, 1].filter fun i =>
    let m := mask / 2 ^ (32 * i) % 2 ^ 32
    m != 0 && m != 2 ^ 32 - 1 && s.badAt v (a / 32 + i) != 0

/-- Bytes of a line written under a mask; a codeword written whole becomes good. A merge that meets an uncorrectable codeword
is counted at the vault and writes the line back poisoned (R265, R486). -/
def State.writeLine (s : State) (v a : Nat) (data : List Byte) (mask : Nat) : State :=
  let bad := s.mergeBad v a mask
  let t := s.each (data.zipIdx.filter fun e => mask / 2 ^ e.2 % 2 == 1) fun t e => t.setByte (vaultKey v (a + e.2)) e.1
  let t := t.each [0, 1] fun t i => if mask / 2 ^ (32 * i) % 2 ^ 32 = 2 ^ 32 - 1 then t.markBad v (a / 32 + i) 0 else t
  let t := t.each bad fun t i => t.vaultBad v (a / 32 + i) (s.badAt v (a / 32 + i))
  (t.iff (!bad.isEmpty) fun t => (t.markBad v (a / 32) 2).markBad v (a / 32 + 1) 2).queueLine v a

/-- The acknowledgement of a store flit goes back once none of its lines is queued (R484, R486). -/
def State.ackStore (s : State) (e : CairnEntry) : State :=
  if s.fab.cairn.any fun c => c.serial == e.serial then s
  else
    let f := s.fab
    let code := if f.poisoned.contains e.serial then 0x09 else 0
    (s.setFab { f with poisoned := f.poisoned.filter (· != e.serial) }).respond e.hdr e.kind 0 code []

/-- A copy line has landed: the signal of its copy fires once every line has (R489). -/
def State.landLine (s : State) (h : FabHdr) (copy n cyc : Nat) (sig : Option (Nat × Nat × Nat)) : State :=
  let f := s.fab
  let mine := fun (x : Landing) => x.dev == h.dev && x.epoch == h.epoch && x.copy == copy && x.window == h.window
  let old := (f.landings.find? mine).getD ⟨h.dev, h.epoch, copy, h.window, 0, none⟩
  let new := { old with landed := old.landed + n, sig := sig.orElse fun _ => old.sig }
  let rest := f.landings.filter fun x => !mine x
  match new.sig with
  | some (c, inc, total) =>
    if new.landed < total then s.setFab { f with landings := rest ++ [new] }
    else
      let t := s.setFab { f with landings := rest }
      let job := t.sched.jobs.find? fun j => j.slice == t.rd (R.FAB_WIN_TARGET_SLICE h.window) && j.phase == .running
      match job.bind fun j => j.tiles[t.rd (R.FAB_WIN_TARGET_TILE h.window)]? with
      | some site => t.land site c inc cyc
      | none => t
  | none => s.setFab { f with landings := rest ++ [new] }

/-- The entry at place `i` of the queue is applied at the vault, if no older entry of its line is queued. -/
def State.applyEntry (s : State) (i : Nat) : State :=
  let f := s.fab
  match f.cairn[i]? with
  | none => s
  | some e =>
    if (f.cairn.take i).any fun c => c.vault == e.vault && c.addr == e.addr then s
    else
      let bad := !(s.mergeBad e.vault e.addr e.mask).isEmpty
      let t := s.setFab { f with cairn := f.cairn.eraseIdx i, poisoned := if bad then f.poisoned ++ [e.serial] else f.poisoned }
      ((t.writeLine e.vault e.addr e.data e.mask).ackStore e).showCairn 0

/-- Applies, oldest first, every queued entry of a line (R499). -/
def State.settleLine (s : State) (v a : Nat) : Nat → State
  | 0 => s
  | n + 1 =>
    match s.fab.cairn.findIdx? fun c => c.vault == v && c.addr == a with
    | none => s
    | some i => (s.applyEntry i).settleLine v a n

/-- The lines that `n` bytes at an offset of a MEMORY window touch, as vault and address. -/
def State.winLines (s : State) (w offset n : Nat) : List (Nat × Nat) :=
  (List.range ((offset % 64 + n + 63) / 64)).filterMap fun i => s.winPlace w (offset / 64 * 64 + 64 * i)

/-- Every queued entry of the lines is applied: what follows reads or changes their result. -/
def State.settleLines (s : State) (l : List (Nat × Nat)) : State :=
  s.each l fun t p => t.settleLine p.1 p.2 t.fab.cairn.length

/-- One line enters the queue (R498, R499): a full-line store replaces a full-line store that is the newest queued entry
of its line, and the older is acknowledged. -/
def State.enterCairn (s : State) (e : CairnEntry) : State :=
  let f := s.fab
  let full := 2 ^ 64 - 1
  let old := (f.cairn.zipIdx.filter fun c => c.1.vault == e.vault && c.1.addr == e.addr).getLast?
  let joins := match old with
    | some (c, _) => e.kind == 2 && e.mask == full && c.kind == 2 && c.mask == full
    | none => false
  match old, joins with
  | some (c, i), true =>
    let t := s.setFab { f with cairn := f.cairn.eraseIdx i ++ [e] }
    ((t.bump R.FAB_CAIRN_COALESCED_COUNT 1).ackStore c).showCairn 0
  | _, _ => (s.setFab { f with cairn := f.cairn ++ [e] }).showCairn 0

/-- The lines of a flit enter the queue. -/
def State.enterLines (s : State) (h : FabHdr) (kind : Nat) (data : List Byte) (masks : List Nat) : State :=
  let f := s.fab
  let n := f.nextSerial
  let s := s.setFab { f with nextSerial := n + 1 }
  s.each (List.range masks.length) fun t i =>
    match t.winPlace h.window (h.offset / 64 * 64 + 64 * i) with
    | none => t
    | some (v, a) => t.enterCairn ⟨n, h, kind, v, a, (data.drop (64 * i)).take 64, masks.getD i 0⟩

/-- Symbols that the reads of an access had corrected are counted at the vault (R264, R291). -/
def State.corrAt (s : State) (p : Option (Nat × Nat)) (corr : Nat) : State :=
  match p with
  | some (v, _) => s.sat (R.VAULT_ECC_CORR_COUNT v) corr
  | none => s

/-- HOME_LOAD (R484 to R486, R491): CACHE_OK travels in payload byte 223 as the message's last byte; `corr` codewords are
corrected on the way. -/
def execHomeLoad (h : FabHdr) (lines t : Nat) (s : State) (corr : Nat := 0) : Ans :=
  onUnit (h.link < 6) <|
    (s.atTime t).atHome h 1 (64 * lines) (1 ≤ lines && lines ≤ 3 && h.offset % 64 == 0) fun s =>
      let l := s.winLines h.window h.offset (64 * lines)
      let s := (s.settleLines l).corrAt l.head? corr
      let bad := l.findSome? fun p => ([0, 1].find? fun i => s.badAt p.1 (p.2 / 32 + i) != 0).map fun i => (p.1, p.2 / 32 + i)
      match bad with
      | some (v, cw) => (s.vaultBad v cw (s.badAt v cw)).respond h 1 0 0x09 []
      | none =>
        let data := l.flatMap fun p => s.bytes (vaultKey p.1 p.2) 64
        let ok := if s.rd (R.FAB_WIN_CTRL_CACHEABLE h.window) = 1 then 1 else 0
        s.respond h 1 lines 0 (data ++ [ok])

/-- HOME_STORE (R484, R498): lines with a byte mask each. -/
def execHomeStore (h : FabHdr) (data : List (BitVec 8)) (masks : List Nat) (t : Nat) (s : State) : Ans :=
  onUnit (h.link < 6) <|
    let n := masks.length
    (s.atTime t).atHome h 2 (64 * n) (1 ≤ n && n ≤ 3 && h.offset % 64 == 0 && data.length == 64 * n) fun s =>
      s.enterLines h 2 data masks

/-- HOME_STORE_WORD (R484, R498): 4 or 8 bytes, naturally aligned. -/
def execHomeStoreWord (h : FabHdr) (size8 : Bool) (v t : Nat) (s : State) : Ans :=
  onUnit (h.link < 6) <|
    let n := if size8 then 8 else 4
    (s.atTime t).atHome h 3 n (h.offset % n == 0) fun s =>
      let at_ := h.offset % 64
      s.enterLines h 3 (List.replicate at_ 0 ++ toBytes n v ++ List.replicate (64 - at_ - n) 0) [(2 ^ n - 1) * 2 ^ at_]

/-- CAIRN_APPLY (R498): the entry at place `i` leaves the queue; `corr` codewords are corrected where it merges. -/
def execCairnApply (i t : Nat) (s : State) (corr : Nat := 0) : Ans :=
  let u := s.atTime t
  let p := (u.fab.cairn[i]?).bind fun e => if e.mask = 2 ^ 64 - 1 then none else some (e.vault, e.addr)
  .next ((u.corrAt p corr).applyEntry i)

/-! Barrier watches (R526, R527) -/

/-- Watch `n`. -/
def State.watch (s : State) (n : Nat) : BarState := tblGet BarState.reset s.fab.watches n

/-- The state with a watch replaced. -/
def State.setWatch (s : State) (n : Nat) (x : BarState) : State :=
  let f := s.fab
  s.setFab { f with watches := tblSet BarState.reset f.watches n x }

/-- One bits of a 64-bit history. -/
def ones64 (h : Nat) : Nat := ((List.range 64).filter fun i => h / 2 ^ i % 2 == 1).length

/-- One bit shifted into a peer's history; FAB_PEER_LAST and the suspect mark follow. -/
def State.shiftHistory (s : State) (d bit : Nat) : State :=
  let x := s.peer d
  let h := (2 * x.history + bit) % 2 ^ 64
  let n := ones64 h
  let t := (s.setPeer d { x with history := h }).wr (R.FAB_PEER_LAST_COUNT d) n
  let was := t.rd (R.FAB_PEER_LAST_SUSPECT d) == 1
  if t.rd R.FAB_DETECT_CFG_SUSPECT_SET ≤ n then (t.wr (R.FAB_PEER_LAST_SUSPECT d) 1).iff (!was) (·.flag R.FAB_FAULT_EVENT_SUSPECT)
  else if n ≤ t.rd R.FAB_DETECT_CFG_SUSPECT_CLEAR then t.wr (R.FAB_PEER_LAST_SUSPECT d) 0
  else t

/-- A FETCH_ADD of 1 applied to a watched word is a barrier arrival of device `d`. -/
def State.arrive (s : State) (n d old : Nat) : State :=
  let x := s.watch n
  let tt := s.rd (R.FAB_BAR_CFG_TARGET_M1 n) + 1
  let arrived := if old % tt = 0 then [d] else if x.arrived.contains d then x.arrived else x.arrived ++ [d]
  let isOpen := old % tt = 0 || x.open_
  if old % tt = tt - 1 && isOpen then
    let lag := s.now - x.last
    let t := s.setWatch n ⟨false, [], s.now⟩
    let t := t.wrs [(R.FAB_BAR_LAST_DEV n, d), (R.FAB_BAR_LAST_LAG_NS n, min lag (2 ^ 24 - 1))]
    let late := t.rd R.FAB_DETECT_LAG_SUSPECT_LAG_NS ≤ lag
    t.each arrived fun t p => t.shiftHistory p (if p = d && late then 1 else 0)
  else s.setWatch n ⟨isOpen, arrived, s.now⟩

/-- The watches on a word see an applied atomic (R526). -/
def State.watchAtomic (s : State) (h : FabHdr) (o : AtomicOp) (old : Nat) : State :=
  if o.op != 6 || o.a != 1 || !o.size8 then s
  else
    s.each ((List.range 16).filter fun n => s.rd (R.FAB_BAR_CFG_EN n) == 1 && s.rd (R.FAB_BAR_CFG_WINDOW n) == h.window
      && s.rd (R.FAB_BAR_OFFSET_OFFSET n) * 8 == h.offset) fun t n => t.arrive n h.dev old

/-! Atomics (R500 to R502) -/

/-- What an atomic writes over an old value of `bits` bits; none where CSWAP does not match. -/
def atomicNew (o : AtomicOp) (bits old : Nat) : Option Nat :=
  let m := 2 ^ bits
  let a := o.a % m
  let less := if o.signed then decide (signedOf bits a < signedOf bits old) else decide (a < old)
  let more := if o.signed then decide (signedOf bits old < signedOf bits a) else decide (old < a)
  match o.op with
  | 6 => some ((old + a) % m)
  | 7 => some a
  | 8 => if old = a then some (o.b % m) else none
  | 9 => some (if less then a else old)
  | _ => some (if more then a else old)

/-- FAB_RPL_LEVEL of a port. -/
def State.showReplays (s : State) (l : Nat) : State :=
  s.wr (R.FAB_RPL_LEVEL_ENTRIES l) (s.fab.replays.filter fun e => e.port == l).length

/-- An atomic is applied: the word changes, the identity and the old value are stored, the old value returned. -/
def State.applyAtomic (s : State) (h : FabHdr) (o : AtomicOp) : State :=
  let n := if o.size8 then 8 else 4
  match s.winPlace h.window h.offset with
  | none => s
  | some (v, a) =>
    let s := (s.settleLine v (a / 64 * 64) s.fab.cairn.length).showCairn 1
    if s.badAt v (a / 32) ≠ 0 then (s.vaultBad v (a / 32) (s.badAt v (a / 32))).respond h 4 0 0x09 []
    else
      let old := s.num (vaultKey v a) n
      let s := match atomicNew o (8 * n) old with
        | some w => (s.setNum (vaultKey v a) n w).queueLine v (a / 64 * 64)
        | none => s
      let f := s.fab
      let s := s.setFab { f with replays := f.replays ++ [⟨h.link, h.pod, h.dev, h.epoch, h.tag, old, s.now⟩] }
      ((s.showReplays h.link).watchAtomic h o old).respond h 4 0 0 (toBytes n old)

/-- HOME_ATOMIC (R502): applied, replayed or refused; `corr` codewords are corrected as it reads. -/
def execHomeAtomic (h : FabHdr) (o : AtomicOp) (t : Nat) (s : State) (corr : Nat := 0) : Ans :=
  onUnit (h.link < 6) <|
    let n := if o.size8 then 8 else 4
    (s.atTime t).atHome h 4 n (h.offset % n == 0 && 6 ≤ o.op && o.op ≤ 10) fun s =>
      let seen := s.fab.replays.find? fun e => e.pod == h.pod && e.dev == h.dev && e.epoch == h.epoch && e.tag == h.tag
      if o.homeEpoch != s.ownEpoch then
        if o.retry then (s.sat R.FAB_RPL_UNKNOWN_COUNT 1).respond h 4 0 0x07 [] else s.respond h 4 0 0x06 []
      else
        match o.retry, seen with
        | true, some e => (s.sat R.FAB_RPL_HITS_COUNT 1).respond h 4 0 0 (toBytes n e.old)
        | _, _ =>
          if 4096 ≤ (s.fab.replays.filter fun e => e.port == h.link).length then
            (s.sat R.FAB_RPL_FULL_COUNT 1).respond h 4 0 0x08 []
          else (s.corrAt (s.winPlace h.window h.offset) corr).applyAtomic h o

/-- REPLAY_ENTRY_EXPIRY (R502): entries of a port that have reached 64 µs are freed. -/
def execReplayEntryExpiry (l t : Nat) (s : State) : Ans :=
  onUnit (l < 6) <|
    let s := s.atTime t
    let f := s.fab
    (s.setFab { f with replays := f.replays.filter fun e => e.port != l || decide (s.now < e.since + 64_000) }).showReplays l

/-! Copies (R489) and INV (R492) -/

/-- The tile a TILE window names: of the running job of its slice. -/
def State.winTile (s : State) (w : Nat) : Option Nat :=
  (s.sched.jobs.find? fun j => j.slice == s.rd (R.FAB_WIN_TARGET_SLICE w) && j.phase == .running).bind fun j =>
    j.tiles[s.rd (R.FAB_WIN_TARGET_TILE w)]?

/-- HOME_PUT (R484, R489, R498): lines of copy number `copy`; `sig` is the signal the copy's last flit carries: counter,
increment, lines of the copy. A memory copy that finds the shared part of the cairn queue full keeps its buffer. -/
def execHomePut (h : FabHdr) (data : List (BitVec 8)) (masks : List Nat) (copy : Nat) (sig : Option (Nat × Nat × Nat)) (cyc t : Nat)
    (s : State) : Ans :=
  onUnit (h.link < 6) <|
    let s := s.atTime t
    let n := masks.length
    let copies := (s.fab.cairn.filter fun e => e.kind == 5).length
    if s.rd (R.FAB_WIN_CTRL_KIND h.window) = 1 && 3076 < copies + n then s
    else
      s.atHome h 5 (64 * n) (1 ≤ n && n ≤ 3 && h.offset % 64 == 0 && data.length == 64 * n) fun s =>
        if s.rd (R.FAB_WIN_CTRL_KIND h.window) = 1 then s.enterLines h 5 data masks
        else
          match s.winTile h.window with
          | none => s.respond h 5 0 0x0B []
          | some site =>
            if banksOf [⟨h.offset, 64 * n⟩] (fun b => s.rd (bankFld site b) != 0) then s.respond h 5 0 0x0B []
            else
              let u := s.each (data.zipIdx.filter fun e => masks.getD (e.2 / 64) 0 / 2 ^ (e.2 % 64) % 2 == 1) fun u e =>
                u.setByte (tileKey site (h.offset + e.2)) e.1
              (u.landLine h copy n cyc sig).respond h 5 0 0 []

/-- HOME_INV (R492): the named lines leave this device's cache, and it is acknowledged. -/
def execHomeInv (h : FabHdr) (lines t : Nat) (s : State) : Ans :=
  onUnit (h.link < 6) <|
    let s := (s.atTime t).freeBuf h.link 0
    if lines = 0 || 2 ^ 24 < lines then s.sat R.FAB_BAD_FLIT_COUNT 1
    else if h.pod == s.ownPod && (s.peer h.dev).retired.contains h.epoch then s.turnAway h 6 0x0D
    else (s.invLines h.window h.offset lines).respond h 6 0 0 []

/-! Messages (R494 to R496, R524, R531) -/

/-- The senders of a ring's unconsumed slots, oldest first. -/
def State.ring (s : State) (w : Nat) : List Nat := tblGet [] s.fab.rings w

/-- The state with a ring's unconsumed slots replaced. -/
def State.setRing (s : State) (w : Nat) (l : List Nat) : State :=
  let f := s.fab
  s.setFab { f with rings := tblSet [] f.rings w l }

/-- A record with its message is written at TAIL of a ring (R494): 16 bytes of record, the message, zeros. A ring whose
window has the owner key lies in the owner's memory (log entry 25). -/
def State.writeSlot (s : State) (w pod dev epoch pkey : Nat) (msg : List Byte) : State :=
  let n := 2 ^ s.rd (R.FAB_WIN_TARGET_SLOTS_LOG2 w)
  let tail := s.rd (R.FAB_WIN_TAIL_TAIL w)
  let a := s.rd (R.FAB_WIN_BASE_VADDR w) + 256 * (tail % n)
  let head := (List.range 16).map fun i => Config.ringRecord [pod, dev, epoch, pkey, msg.length, tail / n % 2] i
  let slot := head ++ msg ++ List.replicate (240 - msg.length) 0
  let t := if s.rd (R.FAB_WIN_CTRL_PKEY w) = 0xFFFF then s.setBytes (ownerKey a) slot
           else s.vsets (s.rd (R.FAB_WIN_TARGET_SLICE w)) a slot
  (t.setRing w (t.ring w ++ [pod * 256 + dev])).bump (R.FAB_WIN_TAIL_TAIL w) 1

/-- HOME_MSG: a message of 1 to 222 bytes is written into the ring and acknowledged. -/
def execHomeMsg (h : FabHdr) (msg : List (BitVec 8)) (t : Nat) (s : State) : Ans :=
  onUnit (h.link < 6) <|
    (s.atTime t).atHome h 7 msg.length (1 ≤ msg.length && msg.length ≤ 222) fun s =>
      (s.writeSlot h.window h.pod h.dev h.epoch h.pkey msg).respond h 7 0 0 []

/-- Credit returns to a sender grow by one (R495). -/
def State.oweCredit (s : State) (sender w : Nat) : State :=
  let f := s.fab
  match f.due.find? fun e => e.1 == sender && e.2.1 == w with
  | some _ => s.setFab { f with due := f.due.map fun e => if e.1 == sender && e.2.1 == w then (e.1, e.2.1, e.2.2 + 1) else e }
  | none => s.setFab { f with due := f.due ++ [(sender, w, 1)] }

/-- RECV_SLOT_CONSUME (R494, R495, R524): a write of FAB_WIN_HEAD frees slots and owes their senders credits; those of a
fenced peer are never returned. -/
def execRecvSlotConsume (w head t : Nat) (s : State) : Ans :=
  onUnit (w < 192) <|
    let s := s.atTime t
    let n := (head + 2 ^ 32 - s.rd (R.FAB_WIN_HEAD_HEAD w)) % 2 ^ 32
    let l := s.ring w
    let u := (s.wr (R.FAB_WIN_HEAD_HEAD w) head).setRing w (l.drop n)
    u.each ((l.take n).filter fun p => !(p / 256 == u.ownPod && u.rd (R.FAB_PEER_STATE (p % 256)) == 2)) fun u p => u.oweCredit p w

/-- CREDIT flits for what is owed to a sender toward a window. -/
def State.returnCredit (s : State) (sender w : Nat) : State :=
  let f := s.fab
  match f.due.find? fun e => e.1 == sender && e.2.1 == w with
  | none => s
  | some e =>
    let t := s.setFab { f with due := f.due.filter fun p => !(p.1 == sender && p.2.1 == w) }
    t.send ⟨8, 3, 0, sender / 256, sender % 256, t.rd (R.FAB_WIN_CTRL_PKEY w), 0, w, 0, 0, toBytes 2 e.2.2⟩

/-- CREDIT_RETURN_SEND (R495): what is owed to a sender goes out. -/
def execCreditReturnSend (pod dev t : Nat) (s : State) : Ans :=
  onUnit (pod < 16 && dev < 256) <|
    let s := s.atTime t
    let p := pod * 256 + dev
    s.each ((s.fab.due.filter fun e => e.1 == p).map (·.2.1)) fun u w => u.returnCredit p w

/-- RESYNC_QUERY_RX (R531): credits still owed go back first, then the count of the sender's unconsumed slots. -/
def execResyncQueryRx (h : FabHdr) (t : Nat) (s : State) : Ans :=
  onUnit (h.link < 6 && h.window < 192) <|
    let s := (s.atTime t).freeBuf h.link 3
    let p := h.pod * 256 + h.dev
    let u := s.returnCredit p h.window
    u.manage h.link 0x0F h.pod h.dev h.tag h.window 0 (toBytes 1 ((u.ring h.window).filter (· == p)).length)

/-- FENCE_NOTICE (R524): a length-0 record naming the fenced device lands in a RECV window, in a slot its credits
reserved; with both of its slots unconsumed it waits. -/
def execFenceNotice (w dev t : Nat) (s : State) : Ans :=
  onUnit (w < 192 && dev < 256) <|
    let s := s.atTime t
    let f := s.fab
    match f.notices.find? fun n => n.1 == w && n.2.1 == dev with
    | none => s
    | some n =>
      if 2 ≤ ((s.ring w).filter (· == s.ownPod * 256 + dev)).length || s.rd (R.FAB_WIN_CTRL_KIND w) != 3 then s
      else
        (s.setFab { f with notices := f.notices.filter (· != n) }).writeSlot w s.ownPod dev n.2.2 (s.rd (R.FAB_WIN_CTRL_PKEY w)) []

end Sys2Proof.Machine
end

