-- ==== Sys2Proof/Machine/Fence.lean ====
section
/-! DEFINITION. Peers and fences (R480, R518 to R525, R529, R534) and the snapshots of the books (R530). -/

namespace Sys2Proof.Machine

/-! Fencing (R520 to R524) -/

/-- Every MEM lend and move that involves a fenced peer ends (R279, R285, R520). -/
def State.fenceMemory (s : State) (d : Nat) : State := ((s.lenderFenced d).borrowerFenced d).serveAll

/-- Fence notices that the RECV windows of slices the peer advertised now owe (R524). -/
def State.oweNotices (s : State) (d epoch : Nat) : State :=
  let keys := (s.peer d).windows.map (·.2)
  let w := (List.range 192).filter fun w => s.rd (R.FAB_WIN_CTRL_KIND w) == 3 &&
    keys.contains (s.rd (R.FAB_SLICE_PKEY_PKEY (s.rd (R.FAB_WIN_TARGET_SLICE w))))
  let f := s.fab
  s.setFab { f with notices := f.notices ++ w.map fun w => (w, d, epoch) }

/-- Fences peer `d`, in the order of R520. -/
def State.fencePeer (s : State) (d : Nat) : State :=
  if !s.peerUp d then s
  else
    let epoch := s.rd (R.FAB_PEER_EPOCH d)
    let x := s.peer d
    let s := (s.setPeer d { x with retired := x.retired ++ [epoch] }).wrs
      [(R.FAB_PEER_STATE d, 2), (R.FAB_FAULT_EVENT_PEER_FENCED, 1)]
    let f := s.fab
    let s := (s.setFab { f with fences := (d, epoch, s.now) :: f.fences }).sat R.FAB_FENCE_COUNT_COUNT 1
    let s := s.endReqsTo d 0x02 true
    let s := s.uncache fun c => c.pod == s.ownPod && c.dev == d
    let s := (s.fenceMemory d).oweNotices d epoch
    s.each s.upPeers fun t p => t.each t.upLinks fun t l => t.manage l 0x0C t.ownPod p 0 d epoch []

/-- A job of a slice with a fabric key ends with FENCED (R300, R522): one that runs is aborted, one whose fall-back is due
ends, and one that has not started never does (R258). -/
def State.fenceJob (s : State) (j : JobRec) (cyc : Nat) : State :=
  if 64 ≤ j.slice || s.rd (R.FAB_SLICE_PKEY_PKEY j.slice) = 0 then s
  else
    match j.phase with
    | .running => if j.status.isNone then (s.abortTiles j cyc).putJob { j with status := some 3 } else s
    | .fallbackDue => ((s.endTiles j cyc).endJob j 6).showTiles j.slice
    | .held => s.endUnstarted j 3
    | .placed => s.endUnstarted j 3
    | _ => s

/-- This device fences itself (R522). -/
def State.selfFence (s : State) (cyc : Nat) : State :=
  if s.selfFenced then s
  else
    let t := s.wrs [(R.FAB_FENCE_STATUS_SELF_FENCED, 1), (R.FAB_FAULT_EVENT_SELF_FENCE, 1)]
    let t := t.endOps (fun _ => true) 0x0D
    t.each t.sched.jobs fun t j => t.fenceJob j cyc

/-- A FENCE message or a fence-list pair from device `src` names `epoch` of device `dev` (R519, R522, R529). -/
def State.fenceNamed (s : State) (src dev epoch cyc : Nat) : State :=
  if dev = s.ownDev then
    if epoch != s.ownEpoch then s
    else if s.rd (R.FAB_PEER_STATE src) = 2 then s.flag R.FAB_FENCE_STATUS_HEAL_CONFLICT
    else s.selfFence cyc
  else if s.rd (R.FAB_PEER_EPOCH dev) = epoch then s.fencePeer dev
  else s

/-- The epoch of a peer becomes `epoch` and the peer UP (R480, R492, R503, R521). -/
def State.peerJoins (s : State) (d epoch : Nat) : State :=
  let old := s.rd (R.FAB_PEER_EPOCH d)
  let was := s.peerUp d
  let s := if old != 0 && old != epoch then
      (s.endReqsTo d 0x0E false).uncache fun c => c.pod == s.ownPod && c.dev == d
    else s
  (s.wrs [(R.FAB_PEER_STATE d, 1), (R.FAB_PEER_EPOCH d, epoch)]).iff (!was) (·.flag R.FAB_EVENT_PEER_UP)

/-- HELLO_RX (R480, R481, R518, R521): a HELLO of peer `dev` on link `l`, with its windows (number, key) and its fence
list (device, epoch). -/
def execHelloRx (l dev epoch : Nat) (windows pairs : List (Nat × Nat)) (cyc t : Nat) (s : State) : Ans :=
  onUnit (l < 6 && dev < 256) <|
    let s := (s.atTime t).freeBuf l 3
    let f := s.fab
    let s := s.setFab { f with heard := s.now }
    if (s.peer dev).retired.contains epoch then s.manage l 0x0C s.ownPod dev 0 dev epoch []
    else
      let s := s.peerJoins dev epoch
      let x := s.peer dev
      let s := s.setPeer dev { x with heard := s.now, off := x.off.filter (· != l), windows := windows }
      s.each (pairs.take 16) fun u p => u.fenceNamed dev p.1 p.2 cyc

/-- The DEAD_HELLOS silence in ns. -/
def State.deadTime (s : State) : Nat := s.rd R.FAB_DETECT_CFG_DEAD_HELLOS * 100_000

/-- DETECTOR_TICK (R519). -/
def execDetectorTick (t : Nat) (s : State) : Ans :=
  let s := s.atTime t
  .next (s.each (s.upPeers.filter fun d => (s.peer d).heard + s.deadTime ≤ s.now) fun u d => u.fencePeer d)

/-- FENCE_CTRL_FENCE: an owner FENCE write (R519). -/
def execFenceCtrlFence (dev t : Nat) (s : State) : Ans := onUnit (dev < 256) ((s.atTime t).fencePeer dev)

/-- FENCE_MSG_RX (R519, R522, R529). -/
def execFenceMsgRx (l src dev epoch cyc t : Nat) (s : State) : Ans :=
  onUnit (l < 6 && src < 256 && dev < 256) (((s.atTime t).freeBuf l 3).fenceNamed src dev epoch cyc)

/-- HELLO_SILENCE_SELF_FENCE (R522): no HELLO on any link for the DEAD_HELLOS time with a peer UP. -/
def execHelloSilenceSelfFence (cyc t : Nat) (s : State) : Ans :=
  let s := s.atTime t
  if !s.upPeers.isEmpty && s.fab.heard + s.deadTime ≤ s.now then .next (s.selfFence cyc) else .next s

/-- The next epoch (R479): 0x0000 is never used. -/
def State.nextEpoch (s : State) : State :=
  let e := s.flash.epoch + 1
  let e := if 0xFFFF < e then 1 else e
  { s with flash := { s.flash with epoch := e } }.wr R.FAB_STATUS_EPOCH e

/-- REJOIN (R523). -/
def execRejoin (t : Nat) (s : State) : Ans :=
  let s := s.atTime t
  if !s.selfFenced then .next s
  else
    let f := s.fab
    let u := s.setFab { f with cache := [], replays := [], credits := [], peers := f.peers.map fun p => (p.1, { p.2 with credits := 4 }) }
    let u := u.each allLinks (·.showReplays ·)
    .next (u.nextEpoch.wrs [(R.FAB_FENCE_STATUS_SELF_FENCED, 0), (R.FAB_FENCE_STATUS_HEAL_CONFLICT, 0)])

/-! Snapshots (R530) -/

/-- Increments owed to a tile counter by issued transfers and signals under way. -/
def State.owedTo (s : State) (site n : Nat) : Nat :=
  let x := s.tile site
  let own := (x.xfers.filter fun r => r.sig.enable && !r.sig.remote && r.sig.counter == n).map (·.sig.inc)
  let far := (x.inbound.filter fun r => r.counter == n).map (·.inc)
  own.sum + far.sum

/-- The target of the oldest head command of a tile that waits on a counter. -/
def State.waitTarget (s : State) (site n : Nat) : Option Nat :=
  allQueues.findSome? fun q =>
    (s.queue site q).inst.bind fun i =>
      if i.e.fld 0 14 1 == 1 && i.e.fld 0 8 6 == n then some (i.target 4)
      else if i.e.fld 0 22 1 == 1 && i.e.fld 0 16 6 == n then some (i.target 8)
      else none

/-- A, B and C of a quantity; none where QTY or INDEX is not listed. Mesh buffers are no part of the model: their
three counts are free values (log entry 27). -/
def State.books (s : State) (qty i : Nat) : Option (Nat × Nat × Nat) :=
  match qty with
  | 1 =>
    let x := s.link (i / 4)
    if i < 24 then some (s.rd (creditFld (i / 4) (i % 4)), tblGet 0 x.rxBuf (i % 4), tblGet 0 x.owed (i % 4)) else none
  | 2 => if i < 256 then some ((s.peer i).credits, s.memOut i, 0) else none
  | 3 =>
    if 4096 ≤ i then none
    else
      match s.fab.credits[i]? with
      | some c => some (2 - c.spent.length, c.spent.length, c.unconsumed)
      | none => some (2, 0, 0)
  | 4 => if i < 3072 && i % 1024 < 640 then
      some ((Config.freeWord s.freeCtr).toNat, (Config.freeWord (s.freeCtr + 1)).toNat, (Config.freeWord (s.freeCtr + 2)).toNat)
    else none
  | 5 =>
    if i < 136 * 64 then
      let a := s.rd (R.TILE_ARRIVAL_VALUE (i / 64) (i % 64))
      some (a, s.owedTo (i / 64) (i % 64), (s.waitTarget (i / 64) (i % 64)).getD a)
    else if 0x4000 ≤ i && i < 0x4800 then let a := tblGet 0 s.fab.engCtr (i - 0x4000); some (a, 0, a)
    else none
  | 6 =>
    if 256 ≤ i then none
    else
      let res := ((s.sched.jobs.filter fun j => j.group == i && j.phase != .ended).map (·.reserved)).sum
      some (tblGet 0 s.sched.credited i,
        toField 64 (s.rd (R.SCHED_SG_CYC_CYCLES i) + signedOf 64 (s.rd (R.SCHED_SG_BAL_BALANCE i))), res + tblGet 0 s.sched.clipped i)
  | 7 => if i < 2048 then
      some (s.rd (R.JQ_CNT_SUBMITTED_COUNT (i / 32) (i % 32)),
        s.rd (R.JQ_CNT_COMPLETED_COUNT (i / 32) (i % 32)) + s.rd (R.JQ_CNT_FAILED_COUNT (i / 32) (i % 32)), s.openJobs (i / 32) (i % 32))
    else none
  | 8 => if i = 0 then some (s.rd R.MEM_POOL_TOTAL_SLABS,
      s.rd R.MEM_POOL_FREE_SLABS + s.rd R.MEM_POOL_HELD_SLABS + s.rd R.MEM_POOL_LENT_SLABS, s.usedSum) else none
  | 9 => if 1 ≤ i && i ≤ 10 then
      let x := s.table i
      some (x.oldFly, if x.active1 then x.fly1 else x.fly0, x.fly0 + x.fly1)
    else none
  | _ => none

/-- FAB_BOOKS_SNAP: a snapshot of one quantity (R530, R538). -/
def execFabBooksSnap (qty index t : Nat) (s : State) : Ans :=
  let s := s.atTime t
  match s.books qty index with
  | none => .next (s.wr R.FAB_BOOKS_STATUS_VALID 0)
  | some (a, b, c) =>
    let s := if qty = 4 then { s with freeCtr := s.freeCtr + 3 } else s
    .next (s.wrs [(R.FAB_BOOKS_STATUS_VALID, 1), (R.FAB_BOOKS_STATUS_QTY, qty), (R.FAB_BOOKS_STATUS_INDEX, index),
      (R.FAB_BOOKS_A_A, a), (R.FAB_BOOKS_B_B, b), (R.FAB_BOOKS_C_C, c), (R.FAB_BOOKS_TIME_TIME, s.devTime)])

end Sys2Proof.Machine
end

