-- ==== Sys2Proof/Machine/Firmware.lean ====
section
/-! DEFINITION. Firmware cores: watchdogs, crashes, restarts and escalation (R564 to R571), the log ring (R572 to R574),
notifications (R575). -/

namespace Sys2Proof.Machine

/-- The class a core's crashes are counted in (R570): Jasper 1, Flint 5, else the core itself. -/
def coreClass (c : Nat) : Nat := if c = 0 then 0 else if c ≤ 4 then 1 else if c ≤ 6 then 5 else c

/-- The cores that stop and restart with a core (R567). -/
def coresWith (c : Nat) : List Nat := if coreClass c = 1 then [1, 2, 3, 4] else [c]

/-- The watchdog period of a core in ns (R564). -/
def watchdogNs (c : Nat) : Nat :=
  if c = 0 then 100_000_000 else if c ≤ 4 then 2_000_000 else if c ≤ 6 then 50_000 else 10_000_000

/-- A core runs: RUN or STANDBY, or Agate in the mask ROM. -/
def State.coreRuns (s : State) (c : Nat) : Bool :=
  let st := s.rd (R.FW_CORE_STATUS_STATE c)
  st == 1 || st == 4 || (c == 0 && s.rd R.DEV_STATUS_PHASE == 1)

/-- The state of the cores that go with `c`. -/
def State.setCores (s : State) (c st : Nat) : State := s.each (coresWith c) fun t k => t.wr (R.FW_CORE_STATUS_STATE k) st

/-- STANDBY_OK: the Flint core that is not active is in STANDBY (R590). -/
def State.showStandby (s : State) : State :=
  s.wr R.FW_STATUS_STANDBY_OK (if s.rd (R.FW_CORE_STATUS_STATE (6 - s.rd R.FW_STATUS_FLINT_ACTIVE)) = 4 then 1 else 0)

/-- Flint core `c` (5 or 6) becomes active; another one than before is a takeover (R566, trace 0x0004), `took` ns after
the crash, with the SLOT_ID of the first slot it seals. -/
def State.activate (s : State) (c took slot : Nat) : State :=
  let t := s.wr (R.FW_CORE_STATUS_STATE c) 1
  if s.rd R.FW_STATUS_FLINT_ACTIVE = c - 5 then t
  else ((t.wr R.FW_STATUS_FLINT_ACTIVE (c - 5)).flag R.FW_EVENT_TAKEOVER).log c 2 0x0004 [c, took, slot, 0]

/-- What follows when a core has stopped (R566, R568, R569, R570). -/
def State.coreStopped (s : State) (c took slot : Nat) : State :=
  let s := if c = 0 && s.rd R.STRATA_STATUS_RELOAD = 1 then
      let x := s.strata
      { s with strata := { x with staged := [], file := none } }.wrs
        [(R.STRATA_STATUS_RELOAD, 0), (R.STRATA_RELOAD_RESULT_REASON, 4), (R.STRATA_RELOAD_RESULT_SECTION, 0xFF),
         (R.STRATA_RELOAD_RESULT_DETAIL, 0)]
    else s
  let s := s.iff (coreClass c == 1) fun s =>
    s.wr R.SCHED_STATUS_RESTARTING (if s.rd (R.FW_CORE_STATUS_STATE 1) = 2 then 1 else 0)
  let other := 11 - c
  let s := s.iff (coreClass c == 5 && s.rd R.FW_STATUS_FLINT_ACTIVE == c - 5
    && s.rd (R.FW_CORE_STATUS_STATE other) == 4) fun s => s.activate other took slot
  (((s.showStandby).showAdmit).showDegraded).refreshCarriers

/-- A core is held (R565, R570): `reason` 0 image mismatch, 1 escalation. Jasper is held as a whole. -/
def State.holdCore (s : State) (c reason : Nat) : State :=
  let t := (s.setCores c 3).flag R.FW_EVENT_HELD
  (t.iff (reason == 1) (·.flag R.FW_EVENT_ESCALATED)).log c 1 0x0003 [reason, 0, 0, 0]

/-- A core starts to restart from its image, or is held where the image is not the one measured (R565). -/
def State.restartCore (s : State) (c : Nat) (imageOk : Bool) : State :=
  let f := s.fw
  let s := { s with fw := { f with crashAt := tblInsert (coreClass c) s.now (tblErase f.crashAt (coreClass c)) } }
  if imageOk then s.setCores c 2 else s.holdCore c 0

/-- Instants within 10 s before the present one (R570). -/
def recent (now : Nat) (l : List Nat) : List Nat := l.filter fun i => now ≤ i + 10_000_000_000

/-- The crash of a core is counted in its class (R570); two of one class in one instant count once (R588). -/
def State.countCrash (s : State) (c : Nat) : State :=
  let k := coreClass c
  let l := recent s.devNs (tblGet [] s.fw.crashes k)
  let l := if l.contains s.devNs then l else s.devNs :: l
  let f := s.fw
  let t := { s with fw := { f with crashes := tblSet [] f.crashes k l } }
  t.each (if k = 5 then [5, 6] else coresWith c) fun t c => t.wr (R.FW_CORE_STATUS_RESTARTS c) (min l.length 15)

/-- A core crashes (R565, R570, R571): `cause` 0 trap, 1 watchdog, 2 SRAM. Before RUN every crash is a warm reset. -/
def State.crash (s : State) (c cause mcause mepc mtval : Nat) (imageOk : Bool) (took slot : Nat) : State :=
  let s := (s.sat (R.FW_CORE_CRASHES_COUNT c) 1).log c 0 0x0001 [cause, mcause, mepc, mtval]
  if s.rd R.DEV_STATUS_PHASE < 4 then (s.sat R.FW_BOOT_RETRIES_COUNT 1).warmReset 0x13 false
  else
    let s := ((s.wr (R.FW_CORE_STATUS_LAST_CAUSE c) cause).flag R.FW_EVENT_CRASH).countCrash c
    let n := (tblGet [] s.fw.crashes (coreClass c)).length
    let s := if 3 ≤ n then s.holdCore c 1 else s.restartCore c imageOk
    s.coreStopped c took slot

/-- WATCHDOG_EXPIRY: the period has ended without a kick. `mcause`, `mepc` and `mtval` are what the core's registers
hold, `imageOk` whether its image in flash is the one measured. -/
def execWatchdogExpiry (c mcause mepc mtval : Nat) (imageOk : Bool) (took slot t : Nat) (s : State) : Ans :=
  onUnit (c < 23) <|
    let s := s.atTime t
    if !s.coreRuns c || s.now < tblGet s.dev.resetEnd s.fw.kicks c + watchdogNs c then s
    else s.crash c 1 mcause mepc mtval imageOk took slot

/-- FW_CORE_KICK: a running core restarts its watchdog. -/
def execFwCoreKick (c t : Nat) (s : State) : Ans :=
  onUnit (c < 23) <|
    let s := s.atTime t
    if !s.coreRuns c then s
    else
      let f := s.fw
      { s with fw := { f with kicks := tblInsert c s.now (tblErase f.kicks c) } }

/-- CORE_CRASH: a fatal trap (cause 0) or an uncorrectable word of private SRAM (cause 2). -/
def execCoreCrash (c cause mcause mepc mtval : Nat) (imageOk : Bool) (took slot t : Nat) (s : State) : Ans :=
  onUnit (c < 23) <|
    let s := s.atTime t
    if !s.coreRuns c || (cause ≠ 0 && cause ≠ 2) then s else s.crash c cause mcause mepc mtval imageOk took slot

/-- The watchdogs of the cores that go with `c` start anew. -/
def State.kickAll (s : State) (c : Nat) : State :=
  s.each (coresWith c) fun t k =>
    let f := t.fw
    { t with fw := { f with kicks := tblInsert k t.now (tblErase f.kicks k) } }

/-- CORE_RESTART_DONE (R566, R567, R569): the core has its role again; Flint's is standby unless no core is active.
Jasper serves what has waited. `slot` is the SLOT_ID of the first slot a takeover seals. -/
def execCoreRestartDone (c slot t : Nat) (s : State) : Ans :=
  onUnit (c < 23) <|
    let s := s.atTime t
    if s.rd (R.FW_CORE_STATUS_STATE c) ≠ 2 then s
    else
      let took := s.now - tblGet s.now s.fw.crashAt (coreClass c)
      let n := (recent s.devNs (tblGet [] s.fw.crashes (coreClass c))).length
      let s := (s.log c 2 0x0002 [took / 1000, n, 0, 0]).kickAll c
      let s :=
        if coreClass c = 5 then
          if s.flintUp then s.wr (R.FW_CORE_STATUS_STATE c) 4 else s.activate c took slot
        else s.setCores c 1
      let s := s.iff (coreClass c == 1) fun s => s.wr R.SCHED_STATUS_RESTARTING 0
      let s := ((s.showStandby.showAdmit).showDegraded).refreshCarriers
      if coreClass c = 1 then ((s.serveAll).actWaitingHost).decision else s

/-- FW_CORE_RESTART (R570): an owner RESTART write restarts a core that runs or is held, ends its escalation and is not
counted; one already restarting goes on (R588). -/
def execFwCoreRestart (c : Nat) (imageOk : Bool) (took slot t : Nat) (s : State) : Ans :=
  .next <|
    let s := s.atTime t
    let st := s.rd (R.FW_CORE_STATUS_STATE c)
    if 23 ≤ c || s.rd R.DEV_STATUS_PHASE < 4 || (st ≠ 1 && st ≠ 3 && st ≠ 4) then s
    else
      let f := s.fw
      let s := if st = 3 then { s with fw := { f with crashes := tblErase f.crashes (coreClass c) } } else s
      (s.restartCore c imageOk).coreStopped c took slot

/-- LOG_APPEND (R572, R573): a core's record, with four arguments. A stopped core writes none. -/
def execLogAppend (c level trace : Nat) (args : List Nat) (t : Nat) (s : State) : Ans :=
  onUnit (c < 23) <|
    let s := s.atTime t
    if !s.coreRuns c || 4 < level || trace = 0 || 0xFFFF < trace then s else s.log c level trace args

/-- FW_LOG_SEL (R574): record `n` latched into the eight data words; zero where its slot holds another record. -/
def execFwLogSel (n t : Nat) (s : State) : Ans :=
  .next <|
    let s := (s.atTime t).wr R.FW_LOG_SEL_SEQ n
    let n := n % 2 ^ 32
    let b := match tblFind s.fw.log (n % 32768) with
      | some r => if r.seq = n then r.bytes else []
      | none => []
    s.each (List.range 8) fun t j => t.wr (R.FW_LOG_DATA_DATA j) (bankNum b (4 * j) 4)

/-! Notifications (R575) -/

/-- Any bit of an event register is 1. -/
def State.anyBit (s : State) (f : Fld) : Bool := s.rd ⟨f.addr, 0, 32⟩ != 0

/-- FW_NOTIFY_PEND at the present instant. -/
def State.pendBits (s : State) : Nat :=
  let b := fun (n : Nat) (x : Bool) => if x then 2 ^ n else 0
  b 0 (s.anyBit R.STRATA_EVENT_STAGED) + b 1 (s.anyBit R.FW_EVENT_CRASH) + b 2 (s.anyBit R.MEM_EVENT_LOST)
    + b 3 (s.anyBit R.TIME_EVENT_STEPPED) + b 4 (s.anyBit R.AIR_EVENT_OVERRUN)
    + b 6 ((List.range 40).any fun p => s.anyBit (R.PORT_EVENT_LINK_DOWN p)) + b 7 (s.anyBit R.FAB_EVENT_LINK_DOWN)
    + b 8 (s.anyBit R.FAB_FAULT_EVENT_SUSPECT) + b 9 (s.anyBit R.SLICECTL_EVENT_DONE) + b 10 (s.anyBit R.POWER_EVENT_SAG)
    + b 11 (s.anyBit R.ASSAY_EVENT_STRIKE)

/-- NOTIFY_SEND: sent when an enabled source has risen since the last notification, or 1 ms after it. -/
def execNotifySend (t : Nat) (s : State) : Ans :=
  .next <|
    let s := s.atTime t
    let pend := s.pendBits
    let s := s.wr R.FW_NOTIFY_PEND_PEND pend
    let on := pend &&& s.rd R.FW_NOTIFY_MASK_MASK
    let route := s.rd R.FW_NOTIFY_ROUTE_ROUTE
    let f := s.fw
    let old := f.notified &&& on
    if on = 0 || route = 0 || (on = old && s.now < f.notifyAt + 1_000_000) then
      { s with fw := { f with notified := old } }
    else { s with fw := { f with notified := on, notifyAt := s.now } }.emit .notify [route, pend]

end Sys2Proof.Machine
end

