-- ==== Sys2Proof/Machine/Image.lean ====
section
/-! DEFINITION. Strata files as bytes (R47 to R49): the header, the directory and the signature block read from where a
file lies, and what the fixed part of a file must hold (R47, R48, R656 check 3). What a section's body holds beyond the
tables of the spec is laid out as log entry 86 says. -/

namespace Sys2Proof.Machine

/-- The digest of the body is the directory's. -/
def Section.digestOk (x : Section) : Bool := x.digest == x.found

/-- `n` bytes of a file from offset `off`; `b` gives the file's bytes. -/
def fileBytes (b : Nat → Byte) (off n : Nat) : List Byte := (List.range n).map fun i => b (off + i)

/-- A little-endian field of a file (R47). -/
def fileNum (b : Nat → Byte) (off n : Nat) : Nat := ofBytes (fileBytes b off n)

/-- How many register values a body announces, never more than it has room for (log entry 86). -/
def bodyRegs (raw : List Byte) : Nat := min (bankNum raw 0 4) (raw.length / 12)

/-- Numbers in pairs of `m` and `n` bytes. -/
def pairsOf (l : List Byte) (count m n : Nat) : List (Nat × Nat) :=
  (List.range count).map fun i => (bankNum l ((m + n) * i) m, bankNum l ((m + n) * i + m) n)

/-- Directory entry at offset `at_` with its body (R48; body: log entry 86). -/
def parseEntry (b : Nat → Byte) (at_ : Nat) : Section :=
  let kind := fileNum b at_ 1
  let off := fileNum b (at_ + 4) 4
  let len := fileNum b (at_ + 8) 4
  let raw := fileBytes b off len
  let rest := raw.drop (4 + 12 * bodyRegs raw)
  { kind, tableId := fileNum b (at_ + 1) 1, flags := fileNum b (at_ + 2) 2, offset := off, length := len,
    reserved := fileNum b (at_ + 0xC) 4, digest := fileBytes b (at_ + 0x10) 64, found := digestBytes (Config.sha3 raw),
    regs := pairsOf (raw.drop 4) (bodyRegs raw) 4 8, base := if kind = 3 then rest.take 64 else [],
    ports := if kind = 4 then pairsOf rest (rest.length / 2) 1 1 else [], body := if kind = 3 then rest.drop 64 else rest }

/-- The bytes of the signature block (R49). -/
def sigBlock : Nat := 4672

/-- A Strata file read from its bytes (R47 to R49); of a SECTION_COUNT above 64 only the first 64 entries are looked at. -/
def parseStrata (b : Nat → Byte) : StrataFile :=
  let count := fileNum b 6 2
  let total := fileNum b 0x10 8
  { magic := fileNum b 0 4, format := fileNum b 4 2, count, version := fileNum b 8 4, rollback := fileNum b 0xC 4,
    totalLen := total, gradeMask := fileNum b 0x18 1, kind := fileNum b 0x19 1, zeroA := fileNum b 0x1A 38,
    baseDigest := BitVec.ofNat 512 (fileNum b 0x40 64), zeroB := fileNum b 0x80 128,
    sections := (List.range (min count 64)).map fun i => parseEntry b (0x100 + 80 * i),
    keyId := fileNum b (total - sigBlock) 32, pad := fileNum b (total - 13) 13, digest := Config.sha3 (fileBytes b 0 total) }

/-- A slot is VALID and its key may sign for a usage bit. -/
def State.keyMay (s : State) (k bit : Nat) : Bool := (s.ownerSlot k).valid && (s.ownerSlot k).usage / 2 ^ bit % 2 == 1

/-- The owner key slot whose key signed a file (R594): VALID, with the signer key identifier of the signature block, and
with USAGE for Strata images. -/
def State.signerOf (s : State) (f : StrataFile) : Option Nat :=
  (List.range 4).find? fun k => s.keyMay k 0 && (s.ownerSlot k).id == f.keyId

/-- What the device reads where a file lies in owner memory (R55). -/
def State.ownerFile (s : State) (addr : Nat) : StrataFile := parseStrata fun i => s.byte (ownerKey (addr + i))

/-- Where a copy of the full Strata image lies in flash: behind the directory, AGATE, JASPER, FLINT, SVC_BASE and the
manifest of its copy region (R652). -/
def strataAt (second : Bool) : Nat := (if second then 0x700_0000 else 0x100_0000) + 0x1_0000 + 53 * 0x10_0000

/-- What the device reads as a copy of the full Strata image in flash. -/
def State.flashStrata (s : State) (second : Bool) : StrataFile := parseStrata fun i => s.byte (flashKey (strataAt second + i))

/-- Header fields hold listed values, reserved runs are zero, every body lies inside the file and the signature block has
its place behind header and directory with 13 zero bytes at its end (R47, R49, R656 check 3). -/
def headerOk (f : StrataFile) : Bool :=
  f.magic == 0x5354_5241 && f.format == 2 && 1 ≤ f.count && f.count ≤ 64 && f.gradeMask < 8 && f.kind ≤ 1 && f.zeroA == 0
    && f.zeroB == 0 && 0x100 + 80 * f.count + sigBlock ≤ f.totalLen && f.pad == 0
    && f.sections.all fun x => x.offset + x.length ≤ f.totalLen

/-- The bundling of an Ethernet group follows R444: whole ports of one width in each quad, `lanes` lanes in all. -/
def bundlingOk (group : Nat) (ports : List (Nat × Nat)) : Bool :=
  let lanes := if group = 1 then 32 else 8
  if group = 1 || group = 2 then
    ports.all fun p => (p.2 == 1 || p.2 == 4 || (p.2 == 2 && group == 1)) && p.1 % p.2 == 0 && p.1 + p.2 ≤ lanes
      && ports.all fun r => p.1 / 4 != r.1 / 4 || (p.2 == r.2 && (p == r || p.1 != r.1))
  else true

/-- The directory entry of a section and the registers its body names hold listed values (R48, R50). -/
def entryListed (x : Section) : Bool :=
  1 ≤ x.kind && x.kind ≤ 7 && (if x.kind = 7 then 1 ≤ x.tableId && x.tableId ≤ 10 else x.tableId == 0) && x.flags < 0x100
    && x.reserved == 0 && (x.kind != 3 || (x.planeValid && x.plane < 3))
    && (x.kind != 4 || (x.portGroup < 4 && bundlingOk x.portGroup x.ports))
    && x.regs.all fun e => match regFind e.1 with
      | some r => !r.shadow && r.reg.groupMask != 0
      | none => false

end Sys2Proof.Machine
end

