-- ==== Sys2Proof/Machine/Security.lean ====
section
/-! DEFINITION. Enrolment of owner keys (R606 to R608), measurement commands (R604, R614), attestation requests and their
service (R609 to R612), customer images (R581). -/

namespace Sys2Proof.Machine

/-! Enrolment -/

/-- SLOT and USAGE as R607 allows them for an OP (1 CLAIM, 2 ADD, 3 REVOKE, 4 RELEASE). -/
def enrolBodyOk (r : EnrolRec) (op : Nat) : Bool :=
  match op with
  | 1 => r.slot < 4 && r.usage < 8
  | 2 => r.slot < 4 && r.usage < 8
  | 3 => r.slot < 4 && r.usage == 0
  | _ => r.slot == 0 && r.usage == 0

/-- Some VALID slot other than `k` has a usage bit. -/
def State.otherKey (s : State) (k bit : Nat) : Bool :=
  (List.range 4).any fun j => j != k && (s.ownerSlot j).valid && (s.ownerSlot j).usage / 2 ^ bit % 2 == 1

/-- The signer of a record has the right to issue it (R608). -/
def State.enrolAuth (s : State) (op : Nat) (r : EnrolRec) : Bool :=
  if op = 1 then !((List.range 4).any fun k => (s.ownerSlot k).valid) && r.vendor && r.usage / 4 == 1
  else r.signer < 4 && s.keyMay r.signer 2

/-- The code of a record (R608): the first check that fails. -/
def State.enrolCode (s : State) (op : Nat) (r : EnrolRec) : Nat :=
  if !r.fieldsOk || !enrolBodyOk r op then 1
  else if !r.deviceOk then 5
  else if r.seq ≠ s.counter 7 + 1 then 4
  else if !s.enrolAuth op r then 6
  else if !r.sigOk then 3
  else if op ≤ 2 && (s.ownerSlot r.slot).valid then 7
  else if op = 3 && !(s.otherKey r.slot 2 && s.otherKey r.slot 0) then 8
  else if op = 3 && r.slot == s.sec.imageSlot then 9
  else 0

/-- An accepted record: its slot, ENROL_SEQ, MR5, in that order. -/
def State.enrol (s : State) (op : Nat) (r : EnrolRec) : State :=
  let f := s.flash
  let keys := match op with
    | 3 => tblSet OwnerKey.empty f.keys r.slot OwnerKey.empty
    | 4 => []
    | _ => tblSet OwnerKey.empty f.keys r.slot ⟨r.key, r.usage, true⟩
  let t := ({ s with flash := { f with keys := keys } }).raise 7 r.seq
  (t.extendMr 5 1 t.keyStoreDigest).showKeys

/-- SEC_ENROL_RESULT of a check. -/
def State.enrolResult (s : State) (code : Nat) : State :=
  s.wrs [(R.SEC_ENROL_RESULT_CODE, code), (R.SEC_ENROL_RESULT_DONE, 1)]

/-- A GO of SEC_ENROL_CTRL with a record of OP `op`, whose check takes `took` ns, at most 5 ms. -/
def State.enrolGo (s : State) (op : Nat) (r : EnrolRec) (took : Nat) : State :=
  if !s.agateUp then s
  else if !s.inRun then s.enrolResult 0xC
  else if s.now < s.sec.checkUntil then s.enrolResult 0xB
  else
    let t := { s with sec := { s.sec with checkUntil := s.now + min took 5_000_000 } }
    if !r.mapped then t.enrolResult 2
    else
      let c := t.enrolCode op r
      if c = 0 then (t.enrol op r).enrolResult 0 else t.enrolResult c

/-- ENROL_CLAIM: the first owner key of an unowned device. -/
def execEnrolClaim (r : EnrolRec) (took t : Nat) (s : State) : Ans := .next ((s.atTime t).enrolGo 1 r took)

/-- ENROL_ADD: a further owner key. -/
def execEnrolAdd (r : EnrolRec) (took t : Nat) (s : State) : Ans := .next ((s.atTime t).enrolGo 2 r took)

/-- ENROL_REVOKE: an owner key goes. -/
def execEnrolRevoke (r : EnrolRec) (took t : Nat) (s : State) : Ans := .next ((s.atTime t).enrolGo 3 r took)

/-- ENROL_RELEASE: every slot is cleared. -/
def execEnrolRelease (r : EnrolRec) (took t : Nat) (s : State) : Ans := .next ((s.atTime t).enrolGo 4 r took)

/-! Measurement -/

/-- SEC_EXTEND: a GO of SEC_EXTEND_CTRL for MR 8 to 15 with D in SEC_EXTEND_DATA; any other MR is ignored. -/
def execSecExtend (mr t : Nat) (s : State) : Ans :=
  .next <|
    let s := s.atTime t
    if 8 ≤ mr && mr < 16 then s.extendMr mr 4 (s.digestAt R.SEC_EXTEND_DATA_DIGEST) else s

/-- SLICE_EXTEND: a GO of SLICE_EXTEND_CTRL of an OPEN slice extends its S1. -/
def execSliceExtend (x t : Nat) (s : State) : Ans :=
  onUnit (x < 64) <|
    let s := s.atTime t
    if !s.sliceOpen x then s.windowErr else s.extendSlice x 1 5 (s.digestAt (R.SLICE_EXTEND_DATA_DIGEST x))

/-- SEC_EVLOG_SEL: record `i` latched into the twenty data words; zeros where there is none. -/
def execSecEvlogSel (i t : Nat) (s : State) : Ans :=
  .next <|
    let s := (s.atTime t).wr R.SEC_EVLOG_SEL_INDEX i
    let b := ((s.sec.log[i % 2 ^ 32]?).map EvRec.bytes).getD []
    s.each (List.range 20) fun t j => t.wr (R.SEC_EVLOG_DATA_DATA j) (bankNum b (4 * j) 4)

/-- CUSTOMER_IMAGE_LOAD: SVC_BASE loads an image for slice `x` (R563, R581). `sigOk`: signature under an owner key with
CUSTOMER_IMAGE, header and digest are good; the image needs IFACE 0x0005 at `reqMin` to `reqMax`. An image that is
refused is logged at level 1 and never started. -/
def execCustomerImageLoad (core x : Nat) (sigOk : Bool) (reqMin reqMax : Nat) (digest : BitVec 512) (t : Nat) (s : State) : Ans :=
  onUnit (x < 64 && 7 ≤ core && core < 23) <|
    let s := s.atTime t
    if s.rd (R.FW_CORE_STATUS_STATE core) ≠ 1 || !s.sliceOpen x then s
    else if sigOk && max reqMin s.sec.runtime.1 ≤ min reqMax s.sec.runtime.2 then s.extendSlice x 0 1 digest
    else s.log core 1 (Config.traceOf 0) [x, 0, 0, 0]

/-! Attestation requests (R611, R615) -/

/-- A register field of a request slot: the owner's (`who` = 0), or slice `who` − 1's. -/
def reqFld (own : Nat → Fld) (sl : Nat → Nat → Fld) (who k : Nat) : Fld := if who = 0 then own k else sl (who - 1) k

/-- REQ_STATUS of a request: its code, its ticket, bytes written ÷ 4. -/
def State.reqStatus (s : State) (who k code n : Nat) : State :=
  s.wrs [(reqFld R.REQ_STATUS_CODE R.SREQ_STATUS_CODE who k, code),
    (reqFld R.REQ_STATUS_TICKET_ECHO R.SREQ_STATUS_TICKET_ECHO who k, s.rd (reqFld R.REQ_CTRL_TICKET R.SREQ_CTRL_TICKET who k)),
    (reqFld R.REQ_STATUS_WRITTEN R.SREQ_STATUS_WRITTEN who k, n / 4)]

/-- A request ends: its slot is free again. -/
def State.reqEnd (s : State) (who k code n : Nat) : State :=
  (s.reqStatus who k code n).wr (reqFld R.REQ_CTRL_GO R.SREQ_CTRL_GO who k) 0

/-- A GO of a request slot (R615): BUSY where the slot is taken, STATE out of RUN. -/
def State.reqGo (s : State) (who k op ticket : Nat) : State :=
  if 0 < who && !s.sliceOpen (who - 1) then s.windowErr
  else if s.rd (reqFld R.REQ_CTRL_GO R.SREQ_CTRL_GO who k) = 1 then s.wr (reqFld R.REQ_STATUS_CODE R.SREQ_STATUS_CODE who k) 0xB
  else
    let t := s.wrs [(reqFld R.REQ_CTRL_OP R.SREQ_CTRL_OP who k, op), (reqFld R.REQ_CTRL_TICKET R.SREQ_CTRL_TICKET who k, ticket)]
    if !s.inRun then t.reqEnd who k 0xC 0
    else
      let x := t.sec
      let g := if who = 0 then 0 else s.gen (who - 1)
      ({ t with sec := { x with reqs := x.reqs ++ [SecReq.mk who k g] } }).wr (reqFld R.REQ_CTRL_GO R.SREQ_CTRL_GO who k) 1

/-- The request slot exists. -/
def reqUnit (who k : Nat) : Bool := who < 65 && k < (if who = 0 then 4 else 2)

/-- REQ_QUOTE: requester `who` (0 the owner, 1 + slice) submits a QUOTE in slot `k`. -/
def execReqQuote (who k ticket t : Nat) (s : State) : Ans := onUnit (reqUnit who k) ((s.atTime t).reqGo who k 1 ticket)

/-- REQ_CHAIN: requester `who` submits a CHAIN in slot `k`. -/
def execReqChain (who k ticket t : Nat) (s : State) : Ans := onUnit (reqUnit who k) ((s.atTime t).reqGo who k 2 ticket)

/-- The registers an MR_MASK selects, in ascending bit order. -/
def State.maskedMrs (s : State) (who mask : Nat) : List Byte :=
  ((List.range 18).filter fun b => mask / 2 ^ b % 2 == 1).flatMap fun b =>
    digestBytes (s.digestAt (if b < 16 then R.SEC_MR_VALUE b else if b = 16 then R.SLICE_MR_S0_VALUE (who - 1) else R.SLICE_MR_S1_VALUE (who - 1)))

/-- The quote of R609 without its signature block. -/
def State.quoteBody (s : State) (who mask : Nat) (nonce : List Byte) : List Byte :=
  let flags := s.rd R.DEV_STATUS_UNTESTED_PAIRING + 2 * s.rd R.SEC_STATUS_EVLOG_OVERFLOW + 4 * s.rd R.TIME_STATUS_TIME_LOCK
  toBytes 4 0x51554F54 ++ toBytes 1 (if who = 0 then 1 else 2) ++ toBytes 1 flags ++ toBytes 1 (if who = 0 then 0xFF else who - 1) ++
  toBytes 1 0 ++ toBytes 2 (if who = 0 then 0 else s.gen (who - 1)) ++ toBytes 2 0 ++ toBytes 4 mask ++ toBytes 8 s.devTime ++
  toBytes 4 (s.rd R.SEC_EVLOG_HEAD_COUNT) ++ toBytes 1 (s.rd R.DEV_INFO_TILES_ENABLED) ++ toBytes 1 (s.rd R.DEV_INFO_GRADE) ++
  toBytes 2 0 ++ toBytes 32 deviceId ++ nonce ++ digestBytes (s.digestAt R.FW_SET_DIGEST_DIGEST) ++
  digestBytes (s.digestAt R.STRATA_DIGEST_DIGEST) ++ s.maskedMrs who mask

/-- The signature block of R49 over a message: the signer's identifier, signature, zeros. -/
def signBlock (seed : Nat) (msg : List Byte) (draw : Nat) : List Byte :=
  toBytes 32 (Config.keyId seed).toNat ++ (List.range 4627).map (Config.mldsa seed msg draw) ++ toBytes 13 0

/-- A certificate with its length in front (R610). -/
def certificate (layer subject issuer : Nat) (meas : List Byte) (draw : Nat) : List Byte :=
  let n := Config.certLen layer subject issuer
  toBytes 4 n ++ (List.range n).map (Config.certByte layer subject issuer meas draw)

/-- What a request asks for (R609, R610). -/
def State.evidence (s : State) (who op mask : Nat) (nonce : List Byte) : List Byte :=
  let key := if who = 0 then s.akSeed else s.sliceSeed (who - 1)
  if op = 1 then
    let b := s.quoteBody who mask nonce
    b ++ signBlock key b s.freeCtr
  else
    let mrs := fun l => l.flatMap fun n => digestBytes (s.digestAt (R.SEC_MR_VALUE n))
    certificate 0 idevSeed idevSeed [] 0 ++ certificate 1 s.aliasSeed idevSeed (mrs [0]) s.freeCtr ++
    certificate 2 s.akSeed s.aliasSeed (mrs [1, 2, 3, 5]) s.freeCtr ++
    (if who = 0 then [] else certificate 3 key s.akSeed (digestBytes (s.digestAt (R.SLICE_MR_S0_VALUE (who - 1)))) s.freeCtr)

/-- A field of a request breaks its rule (R609, R615): an OP that is not used, a length out of range; a slice asks for MR8 to MR15, the owner for S0 or S1. -/
def reqFieldBad (who op mask len : Nat) : Bool :=
  op = 0 || op = 3 || len = 0 || 65536 < len || (op = 1 && (if who = 0 then mask / 2 ^ 16 ≠ 0 else mask / 2 ^ 8 % 2 ^ 8 ≠ 0))

/-- The request whose turn it is (R611): the oldest of the first requester at or after `turn`, round robin. -/
def SecState.nextReq (x : SecState) : Option SecReq :=
  ((List.range 65).map fun i => (x.turn + i) % 65).findSome? fun w => x.reqs.find? fun r => r.who == w

/-- The request is done and the turn passes on. -/
def State.reqServed (s : State) (r : SecReq) : State :=
  let x := s.sec
  { s with sec := { x with reqs := x.reqs.filter fun q => !(q.who == r.who && q.slot == r.slot), turn := (r.who + 1) % 65 } }

/-- Service of one request. `mapped`: the owner's nonce and result lie in mapped owner memory. -/
def State.serveReq (s : State) (r : SecReq) (mapped : Bool) : State :=
  let k := r.slot
  let g := fun (own : Nat → Fld) (sl : Nat → Nat → Fld) => s.rd (reqFld own sl r.who k)
  let op := g R.REQ_CTRL_OP R.SREQ_CTRL_OP
  let mask := g R.REQ_MASK_MASK R.SREQ_MASK_MASK
  let na := g R.REQ_NONCE_ADDR_VADDR R.SREQ_NONCE_ADDR_VADDR
  let oa := g R.REQ_OUT_ADDR_VADDR R.SREQ_OUT_ADDR_VADDR
  let len := g R.REQ_OUT_LEN_LEN R.SREQ_OUT_LEN_LEN
  let x := r.who - 1
  let t := s.reqServed r
  if 0 < r.who && r.gen ≠ s.gen x then (t.staleDrop x).reqEnd r.who k 0xA 0
  else if reqFieldBad r.who op mask len then t.reqEnd r.who k 1 0
  else
    let reach := fun a n => if r.who = 0 then mapped else s.mapped x a n
    if oa % 64 ≠ 0 || (op = 1 && (na % 64 ≠ 0 || !reach na 64)) then t.reqEnd r.who k 2 0
    else
      let nonce := if r.who = 0 then s.bytes (ownerKey na) 64 else s.vbytes x na 64
      let l := s.evidence r.who op mask nonce
      if len < l.length || !reach oa l.length then t.reqEnd r.who k 2 0
      else
        let t := if r.who = 0 then t.setBytes (ownerKey oa) l else t.vstore x oa l
        ({ t with freeCtr := t.freeCtr + 1 }).reqEnd r.who k 0 l.length

/-- QUOTE_SERVICE: Agate serves the next request. -/
def execQuoteService (mapped : Bool) (t : Nat) (s : State) : Ans :=
  .next <|
    let s := s.atTime t
    if !s.agateUp then s
    else match s.sec.nextReq with
      | none => s
      | some r => s.serveReq r mapped

end Sys2Proof.Machine
end

