-- ==== Sys2Proof/Machine/Slices.lean ====
section
/-! DEFINITION. Slices: creation from a template (R542 to R544), reset and removal (R551, R552), the bindings and views
that go with them (R545, R558, R559). -/

namespace Sys2Proof.Machine

/-- SLICECTL_STATUS counts. -/
def State.showSlices (s : State) : State :=
  let n := fun (f : Nat → Bool) => (allSlices.filter fun x => f (s.rd (R.SLICE_STATE_STATE x))).length
  s.wrs [(R.SLICECTL_STATUS_OPEN, n (· == 2)), (R.SLICECTL_STATUS_ACTIVE, n (3 ≤ ·))]

/-- The state of a slice. -/
def State.setSliceState (s : State) (x st : Nat) : State := (s.wr (R.SLICE_STATE_STATE x) st).showSlices

/-- SLICE_LIMITS shows the active limits (R558). -/
def State.showLimits (s : State) (x : Nat) : State :=
  s.wrs [(R.SLICE_LIMITS_QUEUES x, s.rd (R.SC_LIMITS_QUEUES x)), (R.SLICE_LIMITS_JOB_TILES_MAX x, s.rd (R.SC_LIMITS_JOB_TILES_MAX x)),
    (R.SLICE_LIMITS_SEQ_SHARE x, s.rd (R.SC_SEQ_SEQ_SHARE x))]

/-- JQ_STATUS.GROUP follows the share-group map (R301, R327). -/
def State.showGroups (s : State) (x : Nat) : State :=
  s.each (List.range 32) fun t q => t.wr (R.JQ_STATUS_GROUP x q) (t.groupOf x q)

/-- A field written in the active and the shadow copy. -/
def State.wrBoth (s : State) (f : Fld) (v : Nat) : State := (s.wr f v).wr f.shadow v

/-- The generation after `g` (R540). -/
def nextGen (g : Nat) : Nat := if g = 0xFFFF then 1 else g + 1

/-- GEN of a slice rises; S0 and S1 read zero (R604). -/
def State.bumpGen (s : State) (x : Nat) : State :=
  let b := 0x10000000 + 0x100000 * x
  (s.wr (R.SLICE_GEN_GEN x) (nextGen (s.gen x))).resetRegs (b + 0x60800) (b + 0x60880)

/-- Quota values that R282 allows slice `x`; the lowest failing DETAIL, 0 where none fails. -/
def State.quotaRule (s : State) (x floor ceil : Nat) : Nat :=
  let floors := ((allSlices.filter (· != x)).map fun y => s.rd (R.MEM_QUOTA_FLOOR y)).sum + floor
  if ceil < floor then 1
  else if s.rd R.MEM_POOL_TOTAL_SLABS - s.rd R.MEM_POOL_LENT_SLABS < floors then 2
  else if s.rd R.MEM_POOL_TOTAL_SLABS < ceil then 3
  else 0

/-- The sequence shares of the slices that are not FREE, but for slice `x`: base and length. -/
def State.shares (s : State) (x : Nat) : List (Nat × Nat) :=
  ((allSlices.filter fun y => y != x && s.rd (R.SLICE_STATE_STATE y) != 0).map fun y =>
    (s.rd (R.SC_SEQ_SEQ_BASE y), s.rd (R.SC_SEQ_SEQ_SHARE y))).filter fun e => e.2 != 0

/-- `n` entries from `b` on lie in the table and overlap no share of the list. -/
def shareFits (l : List (Nat × Nat)) (b n : Nat) : Bool :=
  b + n ≤ 16384 && l.all fun e => b + n ≤ e.1 || e.1 + e.2 ≤ b

/-- The lowest SEQ_BASE at which `n` entries are free (R544): 0, or the end of a share. -/
def State.seqPlace (s : State) (x n : Nat) : Option Nat :=
  if n = 0 then some 0
  else leastBy id ((0 :: (s.shares x).map fun e => e.1 + e.2).filter fun b => shareFits (s.shares x) b n)

/-- The template table in force, byte offset of template `k`. -/
def State.template (s : State) (k off n : Nat) : Nat := bankNum (s.activeBank 6) (32 * k + off) n

/-- The code of a CREATE beyond its state checks (R560): TEMPLATE, FLOOR, SEQ_SPACE. -/
def State.createCode (s : State) (x k : Nat) : Nat :=
  if s.template k 0xA 2 % 2 = 0 then 2
  else if s.quotaRule x (s.template k 0 2) (s.template k 2 2) != 0 then 4
  else if (s.seqPlace x (s.template k 6 2)).isNone then 5
  else 0

/-- A creation (R544): the template's values, a sequence share, GEN, and the slice OPENING. -/
def State.createSlice (s : State) (x k : Nat) : State :=
  let t := s.bumpGen x
  let t := [(R.MEM_QUOTA_FLOOR x, s.template k 0 2), (R.MEM_QUOTA_CEIL x, s.template k 2 2),
    (R.MEM_QUOTA_T3_T3_CEIL x, s.template k 4 2), (R.SC_LIMITS_QUEUES x, s.template k 8 1),
    (R.SC_LIMITS_JOB_TILES_MAX x, s.template k 9 1), (R.SC_SEQ_SEQ_BASE x, (s.seqPlace x (s.template k 6 2)).getD 0),
    (R.SC_SEQ_SEQ_SHARE x, s.template k 6 2)].foldl (fun t (e : Fld × Nat) => t.wrBoth e.1 e.2) t
  (((t.wr (R.SLICE_IDENT_TEMPLATE x) k).showLimits x).showQuota x).setSliceState x 1

/-- SLICECTL_RESULT of the latest GO. -/
def State.sliceResult (s : State) (x code : Nat) : State :=
  s.wrs [(R.SLICECTL_RESULT_CODE, code), (R.SLICECTL_RESULT_SLICE, x)]

/-- The checks every OP shares, in the order of R560: DEV_STATE, SLICE_STATE (`want` is the state it needs), BUSY. -/
def State.sliceCheck (s : State) (x want : Nat) (reset : Bool) : Nat :=
  if !s.inRun then 6
  else if s.rd (R.SLICE_STATE_STATE x) != want then 1
  else if reset && 4 ≤ s.rd R.SLICECTL_STATUS_ACTIVE then 3
  else 0

/-- SLICE_CREATE: a GO of SLICECTL_CMD with OP CREATE. -/
def execSliceCreate (x k t : Nat) (s : State) : Ans :=
  onUnit (x < 64 && k < 16) <|
    let s := s.atTime t
    let code := s.sliceCheck x 0 false
    let code := if code = 0 then s.createCode x k else code
    if code = 0 then (s.createSlice x k).sliceResult x 0 else s.sliceResult x code

/-- SLICE_OPENED: Jasper has opened the slice's queues; with the first, inference admission is open (R44). -/
def execSliceOpened (x t : Nat) (s : State) : Ans :=
  onUnit (x < 64) <|
    let s := s.atTime t
    if s.rd (R.SLICE_STATE_STATE x) ≠ 1 || s.jasperDown then s
    else
      let s := { s with dev := { s.dev with served := s.dev.served || s.inRun } }
      (((s.setSliceState x 2).showGroups x).showTiles x).showAdmit.decision

/-! Reset and removal -/

/-- A job of a slice that is reset goes without record or count (R551, step 1). -/
def State.killJob (s : State) (cyc : Nat) (j : JobRec) : State :=
  let t := s.leaveTables j
  if j.live then
    let t := if j.phase == .running then ((t.abortTiles j cyc).settle j).1 else t.addBalance j.group j.reserved
    let t := t.endTiles j cyc
    (t.dropJob j.id).each j.tiles fun t k => t.wr (R.SCHED_TILE_LAUNCH_PLANNED k) 0
  else
    let t := t.addBalance j.group j.reserved
    (t.dropJob j.id).each j.tiles fun t k => t.wr (R.SCHED_TILE_LAUNCH_PLANNED k) 0

/-- Step 1 and 2 of R551: every job of the slice ends, and the tiles that held its data owe a full scrub: those of its jobs,
and every tile that it holds (R178). An ended job whose record waits for the completion writer keeps its old GEN. -/
def State.killJobs (s : State) (x cyc : Nat) : State :=
  let l := s.sched.jobs.filter fun j => j.slice == x && j.phase != .ended
  let used := (l.filter fun j => j.live).flatMap (·.tiles)
  let sites := s.tilesOn.filter fun k => used.contains k ||
    (s.rd (R.SCHED_TILE_HOLDER k) == x && s.rd (R.SCHED_TILE_STATE k) != 6)
  let t := s.each l fun t j => t.killJob cyc j
  let t := { t with sched := { t.sched with
    scrubDue := t.sched.scrubDue ++ sites.filter fun k => !t.sched.scrubDue.contains k
    lastPrefill := t.sched.lastPrefill.filter fun m => m / 16 != x } }
  (t.setSlice x { t.slice x with sites := sites }).each sites State.showScrub

/-- Step 3 of R551: fabric descriptors end with ABORTED, TILE and RECV windows close, cached lines go. -/
def State.killFabric (s : State) (x : Nat) : State :=
  let t := s.endOps (fun q => !s.opqOwner q && s.opqSlice q == x) 0x0F
  let t := t.each ((List.range 192).filter fun w =>
    2 ≤ s.rd (R.FAB_WIN_CTRL_KIND w) && s.rd (R.FAB_WIN_TARGET_SLICE w) == x) fun t w => t.wrBoth (R.FAB_WIN_CTRL_KIND w) 0
  let key := s.rd (R.FAB_SLICE_PKEY_PKEY x)
  t.uncache fun c => c.pkey == key

/-- Step 4 of R551: migrations stop, objects go; the regions that must be zeroed are kept in mind. Translations of the
slice's host space go too (R548). -/
def State.killMemory (s : State) (x : Nat) : State :=
  let before := s.mm.old.map fun o => (o.vault, o.index)
  let t := s.freeSlice x
  let due := (t.mm.old.map fun o => (o.vault, o.index)).filter fun e => !before.contains e
  let t := { t with host := { t.host with ats := t.host.ats.filter fun e => e.1 != x } }
  t.setSlice x { t.slice x with regions := due }

/-- Step 5 of R551: sequence entries, queue, model and memory request registers and the counts at their Reset column;
the commit control of the slice forgets what waits; a commit under check meets a slice that is not OPEN. -/
def State.clearWindow (s : State) (x : Nat) : State :=
  let b := 0x10000000 + 0x100000 * x
  let t := s.each [(0x1000, 0x50000), (0x50100, 0x50300), (0x60000, 0x60200), (0x81000, 0xD0000)] fun t r =>
    t.resetRegs (b + r.1) (b + r.2)
  let y := t.strata
  let t := { t with
    strata := { y with waiting := y.waiting.filter fun c => c.slice != some x },
    sched := { t.sched with ringBase := tblClear t.sched.ringBase (x * 32) (x * 32 + 32) } }
  (t.showPending (some x)).showGroups x

/-- A reset or removal is accepted (R551): state `st` 3 RESETTING or 4 REMOVING. -/
def State.endSlice (s : State) (x st cyc : Nat) : State :=
  let t := (s.bumpGen x).setSliceState x st
  let t := t.setSlice x { t.slice x with since := t.now }
  ((((t.killJobs x cyc).killFabric x).killMemory x).clearWindow x).showTiles x

/-- What a removal clears besides, in both copies (R552). -/
def State.unbind (s : State) (x : Nat) : State :=
  let t := [R.MEM_QUOTA_FLOOR x, R.MEM_QUOTA_CEIL x, R.MEM_QUOTA_T3_T3_CEIL x, R.SC_SEQ_SEQ_SHARE x, R.FAB_SLICE_PKEY_PKEY x].foldl
    (fun t f => t.wrBoth f 0) s
  let t := t.each (List.range 512) fun t i =>
    let u := if t.rd (R.PASID_ENTRY_SLICE i) = x then t.wr (R.PASID_ENTRY_VALID i) 0 else t
    if u.rd (R.PASID_ENTRY_SLICE i).shadow = x then u.wr (R.PASID_ENTRY_VALID i).shadow 0 else u
  let t := t.each (List.range 256) fun t e =>
    let u := if t.rd (R.EP_TARGET_SLICE e) = x then t.wr (R.EP_MATCH_VALID e) 0 else t
    if u.rd (R.EP_TARGET_SLICE e).shadow = x then u.wr (R.EP_MATCH_VALID e).shadow 0 else u
  (t.showLimits x).showQuota x

/-- SLICE_RESET: a GO of SLICECTL_CMD with OP RESET. -/
def execSliceReset (x cyc t : Nat) (s : State) : Ans :=
  onUnit (x < 64) <|
    let s := s.atTime t
    let code := s.sliceCheck x 2 true
    if code = 0 then (s.endSlice x 3 cyc).sliceResult x 0 |>.decision else s.sliceResult x code

/-- SLICE_REMOVE: a GO of SLICECTL_CMD with OP REMOVE. -/
def execSliceRemove (x cyc t : Nat) (s : State) : Ans :=
  onUnit (x < 64) <|
    let s := s.atTime t
    let code := s.sliceCheck x 2 true
    if code = 0 then ((s.endSlice x 4 cyc).unbind x).sliceResult x 0 |>.decision else s.sliceResult x code

/-- Everything a reset or removal clears has been cleared: its tiles scrubbed or with the radio (R556), its regions
zeroed. -/
def State.sliceClear (s : State) (x : Nat) : Bool :=
  let y := s.slice x
  (y.sites.all fun k => !s.sched.scrubDue.contains k || s.sched.claims.any fun c => c.site == k) &&
    y.regions.all fun e => !(s.mm.old.any fun o => o.vault == e.1 && o.index == e.2)

/-- SLICE_RESET_DONE: the slice is OPEN again, or FREE; a MEM_QUOTA commit that came meanwhile acts (R556). -/
def execSliceResetDone (x t : Nat) (s : State) : Ans :=
  onUnit (x < 64) <|
    let s := s.atTime t
    let st := s.rd (R.SLICE_STATE_STATE x)
    if st < 3 || !s.sliceClear x then s
    else
      let d := min (s.now - (s.slice x).since) 0xFFFF_FFFF
      let s := (s.setSliceState x (if st = 3 then 2 else 0)).wrs [(R.SC_LAST_RESET_NS_NS x, d), (R.SLICECTL_EVENT_DONE, 1)]
      let s := s.setSlice x .reset
      if st = 3 then ((((s.actWaiting none 0x31 0 x).showQuota x).evictExcess x).serveAll).decision else s

end Sys2Proof.Machine
end

