-- ==== Sys2Proof/Machine/Agree.lean ====
section
/-! DEFINITION. Agreement and capacity rules of the commit groups (R65): each rule is asked of a state in which the group's
new values are in force, and where it speaks of a change, of the state before. -/

namespace Sys2Proof.Machine

/-- No element of a list occurs twice. -/
def distinct {α : Type} [BEq α] (l : List α) : Bool := (l.eraseDups).length == l.length

/-- The lowest DETAIL whose rule fails, 0 where none does (R65). A rule is given with whether it holds. -/
def firstBroken (l : List (Nat × Bool)) : Nat := lowestCode (l.map fun e => (e.1, !e.2))

/-! TIME (R440) -/

/-- A PTP domain number of the telecom profile. -/
def ptpNumber (n : Nat) : Bool := 24 ≤ n && n ≤ 43

/-- Rule 0x81 of a domain. -/
def State.domPorts (u : State) (d : Nat) : Bool :=
  u.rd (R.TIME_DOM_CFG_SOURCE d) == 1 ||
    (ptpNumber (u.rd (R.TIME_DOM_CFG_DOMAIN_NUM d)) && (u.slavePorts d).all u.portBundled)

/-- Rule 0x82: no slave port is a master port. -/
def State.mastersApart (u : State) : Bool :=
  (u.slavePorts 0 ++ u.slavePorts 1).all fun p => u.rd R.TIME_MASTER_MASK_MASK / 2 ^ p % 2 == 0

/-- The enabled SyncE candidates. -/
def State.synceCands (u : State) : List Nat :=
  ([(R.TIME_SYNCE_CFG_EN0, R.TIME_SYNCE_CFG_CAND0), (R.TIME_SYNCE_CFG_EN1, R.TIME_SYNCE_CFG_CAND1),
    (R.TIME_SYNCE_CFG_EN2, R.TIME_SYNCE_CFG_CAND2), (R.TIME_SYNCE_CFG_EN3, R.TIME_SYNCE_CFG_CAND3)].filter
      fun e => u.rd e.1 == 1).map fun e => u.rd e.2

/-- Rule 0x86. -/
def State.synceOk (u : State) : Bool := distinct u.synceCands && u.synceCands.all u.portBundled

/-- Rule 0x87. A device with no master port has no master domain. -/
def State.masterOk (u : State) : Bool :=
  u.rd R.TIME_MASTER_MASK_MASK == 0 || (ptpNumber (u.rd R.TIME_MASTER_CFG_DOMAIN_NUM) &&
    (List.range 40).all fun p => u.rd R.TIME_MASTER_MASK_MASK / 2 ^ p % 2 == 0 || u.portBundled p)

/-- The TIME rules that a group's fields enter. -/
def State.agreeTime (u : State) (g : Nat) : Nat :=
  let dom := fun d => firstBroken
    [(0x80, u.rd (R.TIME_DOM_LOOP_LOCK_NS d) < u.rd (R.TIME_DOM_LOOP_UNLOCK_NS d)), (0x81, u.domPorts d),
     (0x82, u.mastersApart),
     (0x83, u.rd (R.TIME_DOM_CFG_DOMAIN_NUM 0) != u.rd (R.TIME_DOM_CFG_DOMAIN_NUM 1) ||
        !((u.slavePorts 0).any fun p => (u.slavePorts 1).contains p)),
     (0x84, u.rd (R.TIME_DOM_CFG_SOURCE d) == 0 || u.rd (R.TIME_DOM_CFG_PPS_PIN d) == 1 || u.rd R.TIME_TOD_STATUS_ROLE == 2)]
  match g with
  | 1 => dom 0
  | 2 => dom 1
  | 3 => firstBroken [(0x85, u.rd R.TIME_HO_CFG_HO_LIMIT_S ≤ u.rd R.TIME_HO_CFG_HO_LIMIT_SE_S)]
  | 4 => firstBroken [(0x86, u.synceOk)]
  | 6 => firstBroken [(0x82, u.mastersApart), (0x87, u.masterOk)]
  | _ => 0

/-! Air and radio (R358, R412) -/

/-- A numerology's window fields (R358); `i` 0 µ = 0, 1 µ = 1, 2 µ = 3. -/
def State.agreeWindow (u : State) (i : Nat) : Nat :=
  firstBroken
    [(0x50, u.rd (R.AIR_FH_T1A_MIN_UP_NS i) < u.rd (R.AIR_FH_T1A_MAX_UP_NS i)),
     (0x51, u.rd (R.AIR_FH_T1A_MAX_UP_NS i) + u.rd (R.AIR_FH_TCP_ADV_DL_NS i) + 40_000 ≤ 2 * slotNs i),
     (0x52, u.rd (R.AIR_FH_TA4_MIN_NS i) < u.rd (R.AIR_FH_TA4_MAX_NS i)),
     (0x53, u.rd (R.AIR_FH_TA4_MAX_NS i) ≤ slotNs i)]

/-- AIR groups. -/
def State.agreeAir (u : State) (g : Nat) : Nat :=
  if g = 0 then firstBroken [(0x4F, allCarriers.all fun k => u.rd (R.AIR_CARRIER_STATE k) == 0)] else u.agreeWindow (g - 1)

/-- Classical-path cores reserved by the cluster's NEURAL-capable carriers: those with NEURAL set in a slot table that the
cluster holds (log entry 82). -/
def State.coresReserved (u : State) (c : Nat) : Nat :=
  (((List.range 16).filter fun l => (u.cluster c).tables.any fun k => hasBit k.neural l).map fun l =>
    u.rd (R.RX_FB_CTRL_CORES c l)).sum

/-- RX_CFG of local carrier `l` of cluster `c` (R412). -/
def State.agreeRx (u : State) (c l : Nat) : Nat :=
  let clamp := match u.clusterMu c with | 0 => 7_000 | 1 => 14_000 | 2 => 56_000 | _ => 7_000
  firstBroken
    [(0x60, 0x100 ≤ u.rd (R.RX_PRACH_THR_THR c l)), (0x61, u.rd (R.RX_PRACH_THR_THR_HALF c l) ≤ u.rd (R.RX_PRACH_THR_THR c l)),
     (0x62, 0x10 ≤ u.rd (R.RX_PRACH_QUAL_PSR_MIN c l)),
     (0x63, 12 ≤ u.rd (R.RX_NF_CTRL_NF_MIN_RE c l) && 1 ≤ u.rd (R.RX_NF_TIME_NF_STALE c l) && 1 ≤ u.rd (R.RX_TRK_CTRL_TRK_IDLE c l)),
     (0x64, 1 ≤ u.rd (R.RX_FB_CTRL_CORES c l) && u.rd (R.RX_FB_CTRL_CORES c l) ≤ 8 && u.coresReserved c ≤ 8),
     (0x65, 10 * u.rd (R.RX_TRK_CTRL_F_CLAMP c l) ≤ clamp)]

/-! Ports (R464, R458) -/

/-- The queue a PCP maps to on a port. -/
def qmapOf (p : Nat) : List Fld :=
  [R.PORT_QMAP_Q0 p, R.PORT_QMAP_Q1 p, R.PORT_QMAP_Q2 p, R.PORT_QMAP_Q3 p, R.PORT_QMAP_Q4 p, R.PORT_QMAP_Q5 p, R.PORT_QMAP_Q6 p, R.PORT_QMAP_Q7 p]

/-- The queue that carries a port's PTP PCP. -/
def State.ptpQueue (u : State) (p : Nat) : Nat := ((qmapOf p)[u.rd (R.PORT_SRC_PCP_PTP_PCP p)]?.map u.rd).getD 0

/-- The groups of port `p`. -/
def State.agreePort (u : State) (p g : Nat) : Nat :=
  let e := u.gateSet p
  let mtu := u.rd (R.PORT_CTRL_MTU p)
  match g with
  | 0 => firstBroken
      [(0x90, (qmapOf p).all (fun f => u.rd f < queueCount p) && u.rd (R.PORT_CTRL_DEFAULT_Q p) < queueCount p),
       (0x95, isService p || u.rd (R.PORT_VLAN_FH_VID p) != u.rd (R.PORT_VLAN_MGMT_VID p))]
  | 1 => firstBroken
      [(0x94, (portQueues p).all fun q => u.rd (R.PORT_Q_BURST_SH_EN p q) == 0 || 1 ≤ u.rd (R.PORT_Q_BURST_BURST p q))]
  | 2 => firstBroken
      [(0x93, (List.range 8).all fun c => u.rd (R.PORT_POL_CIR_CIR_MBPS p c) ≤ u.rd (R.PORT_POL_PIR_PIR_MBPS p c)
          && mtu ≤ u.rd (R.PORT_POL_CBS_CBS p c) && mtu ≤ u.rd (R.PORT_POL_PBS_PBS p c))]
  | _ => firstBroken
      [(0x91, !e.en || (1 ≤ e.list.length && e.list.length ≤ 1024 && e.list.all fun i => 32 ≤ i.2)),
       (0x92, e.ext < e.cycle), (0x96, e.window (u.ptpQueue p) != some 0),
       (0x97, isService p || e.list.all fun i => i.1 < 0x100)]

/-! Fabric (R509, R536) -/

/-- A partition key (R483). -/
def keyOk (k : Nat) : Bool := k != 0 && k != 0xFFFF

/-- Window `w` carries its slice's key where it is a TILE window. -/
def State.tileKeyOk (u : State) (w : Nat) : Bool :=
  u.rd (R.FAB_WIN_CTRL_KIND w) != 2 || u.rd (R.FAB_WIN_CTRL_PKEY w) == u.rd (R.FAB_SLICE_PKEY_PKEY (u.rd (R.FAB_WIN_TARGET_SLICE w)))

/-- What a window of kind RECV names: ring length and place (R494, R495). The owner's ring lies in owner memory (log
entry 25). -/
def State.ringOk (u : State) (w : Nat) : Bool :=
  let n := 2 ^ u.rd (R.FAB_WIN_TARGET_SLOTS_LOG2 w)
  let least := if u.rd (R.FAB_WIN_CTRL_SCOPE_FABRIC w) = 1 then 2 * 4095 else 2 * 255
  let a := u.rd (R.FAB_WIN_BASE_VADDR w)
  least ≤ n && (if u.rd (R.FAB_WIN_CTRL_PKEY w) = 0xFFFF then a + 256 * n ≤ 2 ^ 57
    else u.mapped (u.rd (R.FAB_WIN_TARGET_SLICE w)) a (256 * n))

/-- The fields that are a window's kind and target. -/
def winTarget (w : Nat) : List Fld :=
  [R.FAB_WIN_CTRL_KIND w, R.FAB_WIN_TARGET_LEND w, R.FAB_WIN_TARGET_SLICE w, R.FAB_WIN_TARGET_TILE w, R.FAB_WIN_TARGET_SLOTS_LOG2 w,
   R.FAB_WIN_BASE_VADDR w]

/-- Window `w` (R509). Closing a window is always allowed; a RECV window may carry the owner key (log entry 25). -/
def State.agreeWin (s u : State) (w : Nat) : Nat :=
  let k := u.rd (R.FAB_WIN_CTRL_KIND w)
  let lend := u.rd (R.FAB_WIN_TARGET_LEND w)
  let key := u.rd (R.FAB_WIN_CTRL_PKEY w)
  if k = 0 then 0
  else firstBroken
    [(0xA0, keyOk key || (k == 3 && key == 0xFFFF)),
     (0xA1, k != 1 || (u.rd (R.MEM_LEND_VALID lend) == 1 && u.rd (R.FAB_WIN_CTRL_SRC_ANY w) == 0
        && u.rd (R.FAB_WIN_CTRL_SRC_DEV w) == u.rd (R.MEM_LEND_DEVICE lend))),
     (0xA2, u.tileKeyOk w), (0xA3, k != 3 || u.ringOk w),
     (0xA4, s.rd (R.FAB_WIN_CTRL_KIND w) == 0 || (winTarget w).all fun f => s.rd f == u.rd f)]

/-- The barrier watches that are enabled. -/
def State.watchesOn (u : State) : List Nat := (List.range 16).filter fun n => u.rd (R.FAB_BAR_CFG_EN n) == 1

/-- FABRIC groups. A key of zero is no key: it passes on a slice (R552). -/
def State.agreeFabric (s u : State) (g : Nat) : Nat :=
  let word := fun n => u.rd (R.FAB_BAR_CFG_WINDOW n)
  let off := fun n => 8 * u.rd (R.FAB_BAR_OFFSET_OFFSET n)
  if 64 ≤ g then s.agreeWin u (g - 64)
  else match g with
  | 0 => firstBroken [(0xA6, u.rd R.FAB_CFG_DIRECT == 0 || allLinks.all fun l => !u.linkUp l || u.rd (R.FAB_LINK_STATUS_SWITCH l) == 0)]
  | 1 => firstBroken [(0xA0, allSlices.all fun x => u.rd (R.FAB_SLICE_PKEY_PKEY x) != 0xFFFF), (0xA2, (List.range 192).all u.tileKeyOk)]
  | 2 => firstBroken [(0xA5, (List.range 32).all fun q => u.rd (R.FAB_OPQ_HEAD_HEAD q) == u.rd (R.FAB_OPQ_TAIL_TAIL q) ||
      (s.rd (R.FAB_OPQ_BASE_ADDR q) == u.rd (R.FAB_OPQ_BASE_ADDR q) && s.rd (R.FAB_OPQ_CFG_SIZE_LOG2 q) == u.rd (R.FAB_OPQ_CFG_SIZE_LOG2 q)))]
  | _ => firstBroken
      [(0xA8, u.rd R.FAB_DETECT_CFG_SUSPECT_CLEAR < u.rd R.FAB_DETECT_CFG_SUSPECT_SET),
       (0xA9, u.watchesOn.all fun n => u.rd (R.FAB_WIN_CTRL_KIND (word n)) == 1 && off n + 8 ≤ u.winSize (word n)),
       (0xAA, distinct (u.watchesOn.map fun n => (word n, off n)))]

/-! Memory, scheduler, slices (R282, R285, R327, R550) -/

/-- MEM_QUOTA and MEM_LEND. -/
def State.agreeMem (s u : State) (g : Nat) : Nat :=
  if g < 64 then u.quotaRule g (u.rd (R.MEM_QUOTA_FLOOR g)) (u.rd (R.MEM_QUOTA_CEIL g))
  else firstBroken [(0x04, tblGet 0 s.mm.lentHomed (g - 128) ≤
    if u.rd (R.MEM_LEND_VALID (g - 128)) = 1 then u.rd (R.MEM_LEND_SLABS_SLABS (g - 128)) else 0)]

/-- The slabs a lend takes. -/
def State.lendCount (u : State) (k : Nat) : Nat := if u.rd (R.MEM_LEND_VALID k) = 1 then u.rd (R.MEM_LEND_SLABS_SLABS k) else 0

/-- Jobs of a slice that wait, are held or run, on the queues `f` selects. -/
def State.holdsJob (s : State) (x : Nat) (f : Nat → Bool) : Bool :=
  s.sched.jobs.any fun j => j.slice == x && f j.queue && j.phase != .ended

/-- A queue numbered from QUEUES to 30, by the limits in force in `u`. -/
def State.pastQueues (u : State) (x q : Nat) : Bool := u.rd (R.SC_LIMITS_QUEUES x) ≤ q && q ≤ 30

/-- SLICE_CFG of slice `x`, but for rule 0xB7. -/
def State.agreeSlice (s u : State) (x : Nat) : Nat :=
  let n := u.rd (R.SC_LIMITS_QUEUES x)
  let b := u.rd (R.SC_SEQ_SEQ_BASE x)
  let w := u.rd (R.SC_SEQ_SEQ_SHARE x)
  let old := s.rd (R.SC_SEQ_SEQ_SHARE x)
  let used := (List.range old).filter fun i => s.rd (R.SEQ_STATE_STATE x i) != 0
  let m := u.rd (R.SC_LIMITS_JOB_TILES_MAX x)
  firstBroken
    [(0xB0, 1 ≤ n && n ≤ 31 && !((List.range 31).any fun q => u.pastQueues x q && s.rd (R.JQ_CTRL_ENABLE x q) == 1)
        && !s.holdsJob x (u.pastQueues x)),
     (0xB1, if w = 0 then b ≤ 16384 else shareFits (s.shares x) b w),
     (0xB2, used.all (· < w) && (b == s.rd (R.SC_SEQ_SEQ_BASE x) || used.isEmpty)),
     (0xB3, 1 ≤ m && m ≤ 128)]

/-- The VALID PASID entries. -/
def State.pasids (u : State) : List Nat := (List.range 512).filter fun i => u.rd (R.PASID_ENTRY_VALID i) == 1

/-- Rule 0xB5; `live` tells whether a slice counts as OPEN. -/
def State.pasidsOk (u : State) (live : Nat → Bool) : Bool :=
  distinct (u.pasids.map fun i => u.rd (R.PASID_ENTRY_PASID i)) &&
  distinct ((u.pasids.filter fun i => u.rd (R.PASID_ENTRY_HOST i) == 1).map fun i => u.rd (R.PASID_ENTRY_SLICE i)) &&
  u.pasids.all fun i => live (u.rd (R.PASID_ENTRY_SLICE i))

/-- The VALID endpoint entries. -/
def State.endpoints (u : State) : List Nat := (List.range 256).filter fun e => u.rd (R.EP_MATCH_VALID e) == 1

/-- Rule 0xB6; `live` tells whether a slice counts as OPEN. -/
def State.endpointsOk (u : State) (live : Nat → Bool) : Bool :=
  distinct (u.endpoints.map fun e => (u.rd (R.EP_MATCH_PORT e), u.rd (R.EP_MATCH_VID e), u.rd (R.EP_MATCH_MAC e))) &&
  u.endpoints.all fun e => u.portBundled (32 + u.rd (R.EP_MATCH_PORT e)) && live (u.rd (R.EP_TARGET_SLICE e))
    && u.joinsInference (7 + u.rd (R.EP_TARGET_CORE e))

/-- SLICECTL groups. -/
def State.agreeSlicectl (s u : State) (g : Nat) (live : Nat → Bool) : Nat :=
  if g < 64 then s.agreeSlice u g
  else if g = 64 then firstBroken [(0xB5, u.pasidsOk live)]
  else firstBroken [(0xB6, u.endpointsOk live)]

/-- One bits of a number of up to 64 bits. -/
def popCount (n : Nat) : Nat := ((List.range 64).filter fun i => n / 2 ^ i % 2 == 1).length

/-- JQ_RING of queue `q` of slice `x` (R301, R550), but for rule 0xB7. -/
def State.agreeRing (s u : State) (x q : Nat) : Nat :=
  let fixed := [R.JQ_BASE_ADDR x q, R.JQ_SIZE_SIZE_LOG2 x q, R.CQ_BASE_ADDR x q, R.CQ_SIZE_SIZE_LOG2 x q]
  firstBroken
    [(0x10, !s.holdsJob x (· == q) || fixed.all fun f => s.rd f == u.rd f),
     (0xB4, u.rd (R.JQ_CTRL_ENABLE x q) == 0 || !s.pastQueues x q)]

/-- The DETAIL of the lowest agreement rule that group `g` of instance `inst` of a block breaks in `u`, `s` being the state
before; 0 where none. -/
def State.agree (s u : State) (btype inst g : Nat) (live : Nat → Bool) : Nat :=
  match btype with
  | 0x03 => u.agreeTime g
  | 0x04 => if g = 1 then firstBroken [(0xC0, u.portBundled (32 + u.rd R.POWER_SHED_CFG_KEEP_PORT))] else 0
  | 0x20 => u.agreeRx inst g
  | 0x21 => u.agreeAir g
  | 0x30 => if g = 1 then firstBroken [(0x30, popCount (u.rd R.SCHED_PRIV_MASK_MASK) ≤ 4)] else 0
  | 0x31 => s.agreeMem u g
  | 0x32 => s.agreeSlicectl u g live
  | 0x40 => u.agreePort inst g
  | 0x41 => u.agreePort (32 + inst) g
  | 0x42 => s.agreeFabric u g
  | _ => 0

end Sys2Proof.Machine
end

