-- ==== Sys2Proof/Machine/Commit.lean ====
section
/-! DEFINITION. The commit engine (R65 to R70, R84): CG_COMMIT with its check, the act points of the groups, CG_DISCARD. A
commit control is numbered 0 for the owner's and 1 + x for the one in slice x's window (R69). -/

namespace Sys2Proof.Machine

/-- A field of a commit control. -/
def cgFld (own : Fld) (sl : Nat → Fld) (who : Nat) : Fld := if who = 0 then own else sl (who - 1)

/-- The control's slice: none for the owner's. -/
def cgSlice (who : Nat) : Option Nat := if who = 0 then none else some (who - 1)

/-- The block and the instance of it that BLOCK_TYPE and INSTANCE name (R73). Both kinds of Ethernet port are one block
here. -/
def blockAt (btype inst : Nat) : Option (BlockDef × Nat) :=
  if btype = 0 then none
  else
    let bt := if btype = 0x41 then 0x40 else btype
    let i := if btype = 0x41 then 32 + inst else inst
    if (btype = 0x40 && 32 ≤ inst) || (btype = 0x41 && 8 ≤ inst) then none
    else match regBlocks.find? fun b => b.btype == bt with
      | some b => if i < (dimAll b.insts).length then some (b, i) else none
      | none => none

/-- The block of slice windows. -/
def sliceBlock : Option BlockDef := regBlocks.find? fun b => b.block == .slice

/-- The group a control's GROUP, BLOCK_TYPE and INSTANCE name: block, instance; none where they name none (R65, R69). -/
def groupAt (who btype inst g : Nat) : Option (BlockDef × Nat) :=
  let u := if who = 0 then blockAt btype inst
    else if btype = 0 && inst = 0 then sliceBlock.map fun b => (b, who - 1)
    else none
  u.bind fun e => if (groupAddrs e.1 e.2 g).isEmpty then none else some e

/-- The named instance is an enabled unit (R72, R73). -/
def State.instOn (s : State) (btype inst : Nat) : Bool :=
  match btype with
  | 0x10 => s.tileOn inst
  | 0x11 => s.vaultOn inst
  | 0x40 => s.portBundled inst
  | 0x41 => s.portBundled (32 + inst)
  | _ => true

/-- A queue register of a fronthaul port beyond its eight queues is RSVD (R464). -/
def rsvdQueue (a : Nat) : Bool :=
  0x3000000 ≤ a && a < 0x3200000 && ((0x180 ≤ a % 0x10000 && a % 0x10000 < 0x200) || (0x8180 ≤ a % 0x10000 && a % 0x10000 < 0x8200))

/-- A value lies in a field's listed range (R21). -/
def inRange (f : FieldDef) (v : Nat) : Bool :=
  match f.range with
  | none => true
  | some (lo, hi) =>
    let x : Int := if lo < 0 then signedOf f.width v else v
    lo ≤ x && x ≤ hi

/-- Every RW field of a register's word holds a listed value. -/
def wordListed (a : Nat) (w : RegWord) : Bool :=
  rsvdQueue a || match regFind a with
    | some x => x.reg.fields.all fun f => f.acc != .rw || inRange f (bitsOf w f.lo f.width)
    | none => true

/-- A gate list's start is a time (R419), and its entries have zero in bits [31:16] (R455). -/
def State.gateListed (u : State) (p : Nat) : Bool :=
  !timeBad (u.rd (R.GATE_BASE_TIME_TIME p)) &&
    (List.range 1024).all fun i => u.rd (R.GATE_LIST_ENTRY p i) / 2 ^ 16 % 2 ^ 16 == 0

/-- What a field's listing depends on another field for: the ring of a RECV window (R494, R510), ring addresses, fields that
only one kind of port has (R465), gate lists. -/
def State.alsoListed (u : State) (btype inst g : Nat) : Bool :=
  match btype with
  | 0x40 => g != 3 || u.gateListed inst
  | 0x41 =>
    let p := 32 + inst
    let zero := [R.PORT_SRC_PCP_CPLANE_PCP p, R.PORT_SRC_PCP_UPLANE_PCP p, R.PORT_SRC_PCP_MPLANE_PCP p, R.PORT_VLAN_FH_VID p,
      R.PORT_VLAN_MGMT_VID p]
    (g != 0 || zero.all fun f => u.rd f == 0) && (g != 3 || u.gateListed p)
  | 0x42 =>
    if g = 2 then (List.range 32).all fun q => u.rd (R.FAB_OPQ_BASE_ADDR q) % 64 == 0 && u.rd (R.FAB_OPQ_CFG_CORE q) < 23
    else g < 64 || u.rd (R.FAB_WIN_CTRL_KIND (g - 64)) != 3 ||
      (9 ≤ u.rd (R.FAB_WIN_TARGET_SLOTS_LOG2 (g - 64)) && u.rd (R.FAB_WIN_TARGET_SLOTS_LOG2 (g - 64)) ≤ 14
        && u.rd (R.FAB_WIN_BASE_VADDR (g - 64)) % 256 == 0)
  | _ => true

/-- The ownership rule of R30 on a group: the fabric carries nothing of the radio domain, so no operation queue is bound to
one of its cores (log entry 93). No other group names a unit and a domain. -/
def State.ownershipOk (u : State) (btype g : Nat) : Bool :=
  btype != 0x42 || g != 2 || (List.range 32).all fun q => !u.joinsRadio (u.rd (R.FAB_OPQ_CFG_CORE q))

/-- Rule 0xB7: the slice of a SLICE_CFG commit, or of the control, is OPEN (R550). -/
def State.ownSliceOpen (s : State) (c : Commit) : Bool :=
  match c.slice with
  | some x => s.sliceOpen x
  | none => c.btype != 0x32 || 64 ≤ c.group || s.sliceOpen c.group

/-- The check of a commit in the order of R65, with rule 0xB7 first after STATE (R301, R550): REASON and DETAIL. -/
def State.commitCode (s : State) (c : Commit) : Nat × Nat :=
  let who := match c.slice with | none => 0 | some x => 1 + x
  let u := s.applySnap c.snap
  if !s.inRun then (0xE, 0)
  else if (groupAt who c.btype c.inst c.group).isSome && !s.ownSliceOpen c then (2, 0xB7)
  else if (groupAt who c.btype c.inst c.group).isNone then (1, 0)
  else if !s.instOn c.btype c.inst then (0xD, 0)
  else if !(c.snap.all fun e => wordListed e.1 e.2) || !u.alsoListed c.btype c.inst c.group then (1, 0)
  else if c.slice.isNone && !u.ownershipOk c.btype c.group then (3, 0)
  else
    let d := match c.slice with
      | some x => s.agreeRing u x c.group
      | none => s.agree u c.btype c.inst c.group s.sliceOpen
    if d ≠ 0 then (2, d)
    else if c.slice.isNone && c.btype == 0x31 && 128 ≤ c.group && s.poolFree < u.lendCount (c.group - 128) - s.lendCount (c.group - 128)
    then (0xC, 0)
    else (0, 0)

/-! Acting -/

/-- A slice has a running job. -/
def State.runsJob (s : State) (x : Nat) : Bool := s.sched.jobs.any fun j => j.slice == x && j.live && j.phase != .placed

/-- A group whose act point is not the cycle after the check (R67): MEM_QUOTA and SLICE_CFG at a job boundary where a job
runs, MEM_QUOTA of a resetting slice when it is OPEN again (R556), SCHED_SHARE at the next period, TIME_TOD at the next
whole second, the window fields at the next frame, GATE at its change time. -/
def State.actsLater (s : State) (c : Commit) : Bool :=
  match c.slice with
  | some _ => false
  | none =>
    match c.btype with
    | 0x31 => c.group < 64 && (s.runsJob c.group || s.rd (R.SLICE_STATE_STATE c.group) == 3)
    | 0x32 => c.group < 64 && s.runsJob c.group
    | 0x30 => c.group == 0
    | 0x03 => c.group == 5
    | 0x21 => c.group != 0
    | 0x40 => c.group == 3
    | 0x41 => c.group == 3
    | _ => false

/-- A JQ_RING commit has acted on what was `old` (R301, R302): the ring set anew starts a first pass; ENABLE 0 disables the
queue but for one in FAULT; ENABLE 1 on a queue in FAULT that was disabled ends the entry at HEAD with DESC_ADDR. -/
def State.ringActed (s old : State) (x q : Nat) : State :=
  let fs := [R.CQ_BASE_ADDR x q, R.CQ_SIZE_SIZE_LOG2 x q]
  let c := s.sched
  let s := if fs.any fun f => old.rd f != s.rd f then
      { s with sched := { c with ringBase := tblSet 0 c.ringBase (x * 32 + q) (s.rd (R.CQ_TAIL_TAIL x q)) } }
    else s
  let st := R.JQ_STATUS_STATE x q
  let s :=
    if s.rd (R.JQ_CTRL_ENABLE x q) = 0 then (if s.rd st = 3 then s else s.wr st 0)
    else if s.rd st = 3 then (if old.rd (R.JQ_CTRL_ENABLE x q) = 0 then (s.drainRing x q 0x81 1).wr st 1 else s)
    else if s.rd st = 0 then s.wr st 1
    else s
  (s.showCq x q).decision

/-- A domain group has acted on what was `old` (R425): a change of the source, pin, multicast, number or a port frees the
domain. -/
def State.domActed (s old : State) (d : Nat) : State :=
  let fs := [R.TIME_DOM_CFG_SOURCE d, R.TIME_DOM_CFG_PPS_PIN d, R.TIME_DOM_CFG_MCAST d, R.TIME_DOM_CFG_DOMAIN_NUM d,
    R.TIME_DOM_CFG_PORT0 d, R.TIME_DOM_CFG_PORT1 d, R.TIME_DOM_CFG_PORT1_EN d]
  let s := if fs.any fun f => old.rd f != s.rd f then s.freeDom d else s
  s.timeNow

/-- A TIME group has acted (R428, R431, R440). -/
def State.timeActed (s old : State) (g : Nat) : State :=
  match g with
  | 0 =>
    let m := s.rd R.TIME_SEL_CTRL_MANUAL_ACTIVE
    let s := if s.rd R.TIME_SEL_CTRL_AUTO = 0 && s.activeDom != m then s.switchDom m else s
    s.timeNow
  | 1 => s.domActed old 0
  | 2 => s.domActed old 1
  | 3 => s.timeNow
  | 4 => s.synceSelect
  | _ => s

/-- RX_CFG of local carrier `l` of cluster `c` has acted: a change of GROUP_PRB clears the noise values (R394). -/
def State.rxActed (s old : State) (c l : Nat) : State :=
  if old.rd (R.RX_NF_CTRL_GROUP32 c l) = s.rd (R.RX_NF_CTRL_GROUP32 c l) then s
  else match s.carrierAt c l with
    | none => s
    | some k =>
      let a := s.air
      { s with air := { a with noise := tblClear a.noise (k * 512) (k * 512 + 512) } }

/-- A port group has acted. -/
def State.portActed (s old : State) (p g : Nat) : State :=
  match g with
  | 0 => s.adminPort p
  | 1 => s.shapePort old p
  | 2 => s.policePort old p
  | _ => s

/-- The borrower of lend `k` learns of its slabs by a management message (R285, R484; KIND 0x0B, log entry 22). -/
def State.tellLend (s : State) (k : Nat) : State :=
  s.send ⟨0x0B, 3, 0, s.ownPod, s.rd (R.MEM_LEND_DEVICE k), 0xFFFF, 0, k, 0, 0, toBytes 2 (s.lendCount k)⟩

/-- A memory group has acted (R282, R285). -/
def State.memActed (s old : State) (g : Nat) : State :=
  if g < 64 then (((s.showQuota g).evictExcess g).serveAll).decision
  else (s.lendResize (g - 128) (old.lendCount (g - 128)) (s.lendCount (g - 128))).tellLend (g - 128)

/-- What follows when group `g` of an instance has moved into the active copy, `old` being the state before. -/
def State.groupActed (s old : State) (btype inst g : Nat) : State :=
  match btype with
  | 0x03 => s.timeActed old g
  | 0x04 => if g = 0 then s.modeCommit else s
  | 0x20 => s.rxActed old inst g
  | 0x30 => if g = 0 then (s.each allSlices State.showGroups).decision else s
  | 0x31 => s.memActed old g
  | 0x32 => if g < 64 then (s.showLimits g).decision else s
  | 0x40 => s.portActed old inst g
  | 0x41 => s.portActed old (32 + inst) g
  | _ => s

/-- A passed commit acts (R65, R67). -/
def State.actCommit (s : State) (c : Commit) : State :=
  let t := s.actSnap c.snap
  match c.slice with
  | some x => t.ringActed s x c.group
  | none => t.groupActed s c.btype c.inst c.group

/-- CG_STATUS of a control reports a result. -/
def State.cgReport (s : State) (who reason detail ticket : Nat) : State :=
  s.wrs [(cgFld R.CG_STATUS_REASON R.SLICE_CG_STATUS_REASON who, reason),
    (cgFld R.CG_STATUS_DETAIL R.SLICE_CG_STATUS_DETAIL who, detail),
    (cgFld R.CG_STATUS_TICKET R.SLICE_CG_STATUS_TICKET who, ticket)]

/-- The waiting commit of the same group is replaced: CG_SUPERSEDED reports it (R67, R84). -/
def State.supersede (s : State) (who : Nat) (c : Commit) : State :=
  match s.waitingFor c.slice c.btype c.inst c.group with
  | none => s
  | some w =>
    let valid := cgFld R.CG_SUPERSEDED_VALID R.SLICE_CG_SUPERSEDED_VALID who
    let t := s.iff (s.rd valid == 1) (·.flag (cgFld R.CG_SUPERSEDED_OVERFLOW R.SLICE_CG_SUPERSEDED_OVERFLOW who))
    ((t.flag valid).wr (cgFld R.CG_SUPERSEDED_TICKET R.SLICE_CG_SUPERSEDED_TICKET who) w.ticket).dropWaiting
      c.slice c.btype c.inst c.group

/-- A passed commit waits for its act point; a gate list is armed with its change time fixed now (R456). -/
def State.waitCommit (s : State) (c : Commit) : State :=
  let x := s.strata
  let t := { s with strata := { x with waiting := x.waiting ++ [{ c with since := s.now }] } }
  if c.btype = 0x40 || c.btype = 0x41 then
    let p := if c.btype = 0x41 then 32 + c.inst else c.inst
    let u := s.applySnap c.snap
    t.armGate p (u.gateSet p) (u.rd (R.GATE_BASE_TIME_TIME p))
  else t

/-- The commit under check of a control. -/
def State.checkOf (s : State) (who : Nat) : Option Commit := s.strata.checking.find? fun c => c.slice == cgSlice who

/-- A slice's control is reached while the slice is OPEN (R539). -/
def State.cgReached (s : State) (who : Nat) : Bool := who == 0 || s.sliceOpen (who - 1)

/-- CG_COMMIT: the snapshot is taken and the check starts; while a check is in progress, BUSY (R65, R68). -/
def execCgCommit (who group btype inst ticket t : Nat) (s : State) : Ans :=
  onUnit (who < 65) <|
    let s := s.atTime t
    if !s.cgReached who then s.windowErr
    else if (s.checkOf who).isSome then s.cgReport who 4 0 ticket
    else
      let snap := match groupAt who btype inst group with
        | some (b, i) => s.takeSnap b i group
        | none => []
      let c : Commit := ⟨cgSlice who, group, btype, inst, ticket, snap, s.now⟩
      let x := s.strata
      ({ s with strata := { x with checking := x.checking ++ [c] } }).flag
        (cgFld R.CG_STATUS_CHECKING R.SLICE_CG_STATUS_CHECKING who)

/-- CG_CHECK_DONE: the check ends and its result is reported; a passed commit acts in the next cycle, or waits. -/
def execCgCheckDone (who t : Nat) (s : State) : Ans :=
  onUnit (who < 65) <|
    let s := s.atTime t
    match s.checkOf who with
    | none => s
    | some c =>
      let (reason, detail) := s.commitCode c
      let x := s.strata
      let s := ({ s with strata := { x with checking := x.checking.filter fun d => d.slice != c.slice } }).wr
        (cgFld R.CG_STATUS_CHECKING R.SLICE_CG_STATUS_CHECKING who) 0
      let s := s.cgReport who reason detail c.ticket
      if reason ≠ 0 then s
      else
        let s := s.supersede who c
        let s := if s.actsLater c then s.waitCommit c else s.actCommit c
        s.showPending c.slice

/-- A job boundary of slice `x` since an instant: a job of its has ended, or none runs (R282, R559). -/
def State.jobBoundary (s : State) (x since : Nat) : Bool := since < (s.slice x).ended || !s.runsJob x

/-- The act point of a waiting commit has come (R67): TIME_TOD at a whole second of the device clock, SCHED_SHARE at the
boundary of a period (R327), the window fields at a frame boundary of the air timeline, MEM_QUOTA and SLICE_CFG at a job
boundary of the slice, MEM_QUOTA not while the slice is being reset. -/
def State.actPoint (s : State) (c : Commit) : Bool :=
  match c.btype with
  | 0x03 => s.clk.dev.read c.since / (1_000_000_000 * 65536) < s.devNs / 1_000_000_000
  | 0x21 => (s.gpsNs - (s.now - c.since)) / 10_000_000 < s.gpsNs / 10_000_000
  | 0x30 => s.clk.dev.read c.since / (1_000_000 * 65536) != s.periodNow
  | 0x31 => s.rd (R.SLICE_STATE_STATE c.group) != 3 && s.jobBoundary c.group c.since
  | 0x32 => s.jobBoundary c.group c.since
  | _ => true

/-- CG_ACT: a passed commit of the owner's with a deferred act point moves into the active copy. A GATE group acts at its
change time (GATE_CHANGE). -/
def execCgAct (btype inst group t : Nat) (s : State) : Ans :=
  .next <|
    let s := s.atTime t
    match s.waitingFor none btype inst group with
    | none => s
    | some c =>
      if btype = 0x40 || btype = 0x41 || !s.actPoint c then s
      else ((s.dropWaiting none btype inst group).actCommit c).showPending none

/-- CG_DISCARD: the active values go back into the shadow; a group whose commit is pending keeps its shadow (R84). -/
def execCgDiscard (who group btype inst t : Nat) (s : State) : Ans :=
  onUnit (who < 65) <|
    let s := s.atTime t
    if !s.cgReached who then s.windowErr
    else
      let same := fun (c : Commit) => c.group == group && c.btype == btype && c.inst == inst
      if ((s.checkOf who).map same).getD false then s.cgReport who 4 0 0
      else match groupAt who btype inst group with
        | none => s.cgReport who 1 0 0
        | some (b, i) =>
          if !s.instOn btype inst then s.cgReport who 0xD 0 0
          else if (s.waitingFor (cgSlice who) btype inst group).isSome then s.cgReport who 0 0 0
          else (s.discardGroup b i group).cgReport who 0 0 0

end Sys2Proof.Machine
end

