-- ==== Sys2Proof/Machine/Strata.lean ====
section
/-! DEFINITION. The Strata image in parts: what a section targets (R50, R59), how logical tiles bind to sites (R51, R52), the
rules a section must keep (R53, R332, R347, R542, R656), reload and switch (R55 to R63, R80 to R83). -/

namespace Sys2Proof.Machine

/-! Sections -/

/-- Two sections target the same table or the same port group (R56). -/
def sameTarget (x y : Section) : Bool :=
  match sectionTable x, sectionTable y with
  | some a, some b => a == b
  | none, none => x.kind == 4 && y.kind == 4 && x.portGroup == y.portGroup
  | _, _ => false

/-! Binding of logical tiles (R51, R52) -/

/-- Byte of logical index `k` of a sector in a body of 17 bytes a sector; `d` past its end (log entry 83). -/
def logicalByte (d : Nat) (b : List Byte) (sec k : Nat) : Nat := bankByte d b (sec * 17 + k)

/-- How a logical index is used: 0 not at all, 1 as a fixed tile, 2 as a swing tile. -/
def useOf (plan swing : List Byte) (sec k : Nat) : Nat :=
  if logicalByte 0 swing sec k % 2 = 1 then 2
  else if logicalByte 0x7E plan sec k = 0x7E then 0
  else 1

/-- The logical indices of a sector with fewer enabled sites that are dropped: unused ones, then fixed tiles, then swing
tiles, the highest index first. -/
def State.droppedIdx (s : State) (plan swing : List Byte) (sec : Nat) : List Nat :=
  let n := ((List.range 17).filter fun k => s.tileOn (sec * 17 + k)).length
  let down := (List.range 17).reverse
  let u := useOf plan swing sec
  ((down.filter (u · == 0)) ++ (down.filter (u · == 1)) ++ (down.filter (u · == 2))).take (17 - n)

/-- The logical indices of a sector that are kept, bound in order to the enabled sites in ascending order. -/
def State.boundSites (s : State) (plan swing : List Byte) (sec : Nat) : List (Nat × Nat) :=
  let cut := s.droppedIdx plan swing sec
  ((List.range 17).filter fun k => !cut.contains k).zip (((List.range 17).map (sec * 17 + ·)).filter s.tileOn)

/-- Some assignment in use is dropped (STRATA_STATUS.SHORT). -/
def State.shortOf (s : State) (plan swing : List Byte) : Bool :=
  allSectors.any fun sec => (s.droppedIdx plan swing sec).any fun k => useOf plan swing sec k != 0

/-- A body by logical index as a bank by site: `b` is the body, `d` what an index it does not list reads as, `off` the byte
of a site that is not enabled. -/
def State.bindBody (s : State) (plan swing b : List Byte) (d off : Nat) : List Byte :=
  let l := allSectors.flatMap fun sec => (s.boundSites plan swing sec).map fun e => (e.2, logicalByte d b sec e.1)
  allSites.map fun t => BitVec.ofNat 8 (((l.find? fun e => e.1 == t).map (·.2)).getD off)

/-- The body by logical index of table 0x04 or 0x05: the image's, else the one in force. -/
def State.rawBody (s : State) (l : List Section) (id : Nat) : List Byte :=
  match l.find? fun x => sectionTable x == some id with
  | some x => x.body
  | none => tblGet [] s.strata.raw id

/-- The bank that a section of image `l` loads. -/
def State.sectionBank (s : State) (l : List Section) (x : Section) : List Byte :=
  let plan := s.rawBody l 5
  let swing := s.rawBody l 4
  match sectionTable x with
  | some 4 => s.bindBody plan swing x.body 0 0
  | some 5 => s.bindBody plan swing x.body 0x7E 0x7F
  | _ => x.body

/-! What a section would put in force -/

/-- The group registers of a section act: both copies hold them (R56, R66). -/
def State.actSection (s : State) (x : Section) : State :=
  s.actSnap (x.regs.map fun e => (e.1, BitVec.ofNat 64 e.2))

/-- The group registers of a section in their active copy. -/
def State.putSection (s : State) (x : Section) : State :=
  s.each x.regs fun t e => t.putGroup e.1 e.1 (BitVec.ofNat 64 e.2)

/-- The ports of LANE sections. -/
def State.putLanes (s : State) (l : List Section) : State :=
  s.each (l.filter fun x => x.kind == 4) fun t x =>
    let y := t.strata
    { t with strata := { y with lanes := tblSet [] y.lanes x.portGroup x.ports } }

/-- The state with every section of an image in force: tables in their active bank, groups in their active copy, ports. The
rules of sections are asked of it. -/
def State.withSections (s : State) (l : List Section) : State :=
  let t := (s.putLanes l).each l fun t x =>
    let t := t.putSection x
    match sectionTable x with
    | none => t
    | some id =>
      let y := t.table id
      let b := s.sectionBank l x
      t.setTable id (if y.active1 then { y with bank1 := b } else { y with bank0 := b })
  t

/-! Rules of sections -/

/-- HOLDER bytes that are used (R323, R327). -/
def holderListed (h : Nat) : Bool := h < 0x50 || h == 0x7E || h == 0x7F

/-- A template of table 0x06 holds listed values (R542); one that is not VALID is not checked. -/
def templateListed (b : List Byte) (k : Nat) : Bool :=
  let n := fun off w => bankNum b (32 * k + off) w
  n 0xA 2 % 2 == 0 ||
    (n 6 2 ≤ 16384 && 1 ≤ n 8 1 && n 8 1 ≤ 31 && 1 ≤ n 9 1 && n 9 1 ≤ 128 && n 0xA 2 == 1 && n 0xC 20 == 0)

/-- The template of slice `x` in the initial-slice list; 0xFF for none. -/
def initialOf (b : List Byte) (x : Nat) : Nat := bankByte 0xFF b (0x200 + x)

/-- A section's body and registers hold listed values. -/
def bodyListed (x : Section) : Bool :=
  (x.regs.all fun e => wordListed e.1 (BitVec.ofNat 64 e.2)) &&
  match sectionTable x with
  | some 4 => x.body.all fun b => b.toNat < 2
  | some 5 => x.body.all fun b => holderListed b.toNat
  | some 6 => (List.range 16).all (templateListed x.body) &&
      allSlices.all fun k => initialOf x.body k < 16 || initialOf x.body k == 0xFF
  | some 7 => allCarriers.all fun k =>
      let w := bankNum x.body (4 * k) 4
      w % 2 == 0 || (w / 2 ^ 9 % 16 ≤ 9 && w / 2 ^ 13 % 4 != 3 && w < 2 ^ 19)
  | some 8 => (List.range (min 4096 (x.body.length / 8))).all fun e => bankNum x.body (8 * e) 8 < 2 ^ 49
  | some 9 => x.body.all fun b => b.toNat < 16
  | some 10 => x.body.all fun b => b.toNat < 64
  | _ => true

/-- Swing tiles of the set in force. -/
def State.swingSet (u : State) : List Nat := allSites.filter fun t => bankByte 0 (u.activeBank 4) t % 2 == 1

/-- Tiles that the plan in force gives to the reserve of cluster `c`. -/
def State.reserveTiles (u : State) (c : Nat) : List Nat := u.tilesOn.filter fun t => u.planHolder t == 0x40 + c

/-- Every reserve tile is a swing tile (R323). -/
def State.reserveSwings (u : State) : Bool :=
  u.tilesOn.all fun t => u.planHolder t < 0x40 || 0x50 ≤ u.planHolder t || u.swingSet.contains t

/-- Rule 0x43 of R332. -/
def State.reserveEnough (u : State) : Bool :=
  (List.range 16).all fun c => ((u.carriersOf c).filter fun k => u.carrierClass k == 6).length ≤ (u.reserveTiles c).length

/-- A carrier in state RUNNING, NULL, DEGRADED_BEAM or SHED. -/
def State.carrierHeld (s : State) (k : Nat) : Bool := 2 ≤ s.rd (R.AIR_CARRIER_STATE k) && s.rd (R.AIR_CARRIER_STATE k) ≤ 5

/-- The rules of table 0x07 (R332). -/
def State.agreeCarriers (s u : State) : Nat :=
  let cl := List.range 16
  let v := allCarriers.filter u.carrierValid
  firstBroken
    [(0x40, cl.all fun c => ((u.carriersOf c).map fun k => classLu (u.carrierClass k)).sum ≤ 48),
     (0x41, cl.all fun c => ((u.carriersOf c).map u.carrierMu).eraseDups.length ≤ 1),
     (0x42, distinct (v.map fun k => (u.carrierCluster k, u.carrierLocal k))),
     (0x43, u.reserveEnough), (0x44, v.all fun k => classMu (u.carrierClass k) (u.carrierMu k)),
     (0x45, v.all fun k => u.joinsRadio (7 + u.carrierEntry k / 2 ^ 15 % 16)),
     (0x47, allCarriers.all fun k => !s.carrierHeld k || s.carrierEntry k == u.carrierEntry k)]

/-- The VALID entries of table 0x08. -/
def State.eaxcs (u : State) : List Nat := (u.eaxcRange.map u.eaxc).filter eaxcValid

/-- The rules of table 0x08 (R347). -/
def State.agreeEaxc (s u : State) : Nat :=
  let v := u.eaxcs
  firstBroken
    [(0x48, distinct (v.map fun w => w % 2 ^ 22)), (0x49, v.all fun w => u.carrierValid (eaxcCarrier w)),
     (0x4A, v.all fun w => w / 2 ^ 32 % 32 <
        (if w / 2 ^ 21 % 2 = 0 then classDl (u.carrierClass (eaxcCarrier w)) else classUl (u.carrierClass (eaxcCarrier w)))),
     (0x4B, v.all fun w => u.portBundled (eaxcPort w)),
     (0x4C, allCarriers.all fun k => !s.carrierHeld k ||
        (s.eaxcs.filter fun w => eaxcCarrier w == k) == (v.filter fun w => eaxcCarrier w == k))]

/-- What a LANE section must leave bundled (R656): the ports of table 0x08, of TIME, of the endpoint map and KEEP_PORT. -/
def State.agreeLanes (u : State) (live : Nat → Bool) (past : Bool) : Nat :=
  firstBroken
    [(0x4B, u.eaxcs.all fun w => u.portBundled (eaxcPort w)),
     (0x81, past || (u.slavePorts 0 ++ u.slavePorts 1).all fun p => u.portBundled p), (0x86, past || u.synceOk),
     (0x87, past || u.masterOk), (0xB6, past || u.endpointsOk live),
     (0xC0, past || u.portBundled (32 + u.rd R.POWER_SHED_CFG_KEEP_PORT))]

/-- BLOCK_TYPE and instance of a block's instance `i`. -/
def unitOf (b : BlockDef) (i : Nat) : Nat × Nat := if b.block = .port && 32 ≤ i then (0x41, i - 32) else (b.btype, i)

/-- The group that the register at an active address belongs to: BLOCK_TYPE, instance, group. -/
def groupOfReg (a : Nat) : Option (Nat × Nat × Nat) :=
  match regFind a with
  | none => none
  | some x => (x.reg.group.of (x.inst ++ x.idx)).map fun g =>
      let u := unitOf x.block (dimNumber x.block.insts x.inst)
      (u.1, u.2, g)

/-- The commit groups a section feeds. -/
def groupsFed (x : Section) : List (Nat × Nat × Nat) := (x.regs.filterMap fun e => groupOfReg e.1).eraseDups

/-- REASON and DETAIL of the rules of the table and the groups that a section feeds, `u` having every section in force;
`boot` where the image is loaded in BUILD, before any slice is OPEN and any older bundling. -/
def State.sectionCode (s u : State) (x : Section) (boot : Bool) : Nat × Nat :=
  let live := fun n => boot || s.sliceOpen n
  let table := match sectionTable x with
    | some 4 => firstBroken [(0x20, u.reserveSwings), (0x21, u.swingSet.length ≤ 48)]
    | some 5 => firstBroken [(0x20, u.reserveSwings), (0x43, u.reserveEnough)]
    | some 6 => firstBroken [(0xB8, allSlices.all fun k => initialOf x.body k == 0xFF ||
        bankNum x.body (32 * initialOf x.body k + 0xA) 2 % 2 == 1)]
    | some 7 => s.agreeCarriers u
    | some 8 => s.agreeEaxc u
    | _ => if x.kind = 4 then u.agreeLanes live boot else 0
  let groups := (groupsFed x).map fun g => s.agree u g.1 g.2.1 g.2.2 live
  let d := lowestCode ((table :: groups).map fun d => (d, d != 0))
  if !bodyListed x || !((groupsFed x).all fun g => u.alsoListed g.1 g.2.1 g.2.2) then (1, 0)
  else if !((groupsFed x).all fun g => u.ownershipOk g.1 g.2.2) then (3, 0)
  else if d ≠ 0 then (2, d)
  else (0, 0)

/-! Reload (R55 to R57, R656) -/

/-- The result of a GO or a switch request. R80 gives SECTION only for a failure; with REASON OK it and DETAIL are 0
(DESIGN CHOICE, log entry 92). -/
def State.reloadResult (s : State) (reason sec detail : Nat) : State :=
  s.wrs [(R.STRATA_RELOAD_RESULT_REASON, reason), (R.STRATA_RELOAD_RESULT_SECTION, sec), (R.STRATA_RELOAD_RESULT_DETAIL, detail)]

/-- A GO or a switch request is rejected. R82 only names REJECTED: it is set here, and not by a rejected commit, which
CG_STATUS reports (DESIGN CHOICE, log entry 92). -/
def State.rejectStrata (s : State) (reason sec detail : Nat) : State :=
  (s.reloadResult reason sec detail).flag R.STRATA_EVENT_REJECTED

/-- Every port of a group is administratively down. A fabric link counts as down where it is DOWN, PCIe where its link is
(log entry 84). -/
def State.groupDown (s : State) (g : Nat) : Bool :=
  match g with
  | 0 => allLinks.all fun l => s.rd (R.FAB_LINK_STATUS_STATE l) == 0
  | 1 => (List.range 32).all fun p => s.rd (R.PORT_CTRL_ADMIN_UP p) == 0
  | 2 => (List.range 8).all fun p => s.rd (R.PORT_CTRL_ADMIN_UP (32 + p)) == 0
  | _ => !s.host.linkUp

/-- The first section that `f` gives a reason and detail: its directory index with them. -/
def badSection (l : List Section) (f : Section → Nat × Nat) : Option (Nat × Nat × Nat) :=
  l.zipIdx.findSome? fun e => let c := f e.1; if c.1 = 0 then none else some (c.1, e.2, c.2)

/-- The later of two sections with one target, if there is one. -/
def doubledAt (l : List Section) : Option Nat :=
  l.zipIdx.findSome? fun e => if (l.take e.2).any (sameTarget e.1) then some e.2 else none

/-- The checks of a GO from the third on (R656): reason, SECTION, detail; reason 0 where all pass. `sigOk`: the signature
verifies under the key that the signer key identifier names. Owner memory ends at 2^57 (log entry 25). -/
def State.reloadCode (s : State) (f : StrataFile) (sigOk : Bool) : Nat × Nat × Nat :=
  let addr := s.rd R.STRATA_RELOAD_ADDR_ADDR
  let l := f.sections
  let u := s.withSections l
  let yes := fun (r : Nat) (p : Section → Bool) => badSection l fun x => if p x then (r, 0) else (0, 0)
  if addr % 64 ≠ 0 || 2 ^ 57 < addr + f.totalLen || !headerOk f || f.kind ≠ 1 then (1, 0xFF, 0)
  else if let some c := yes 1 (!entryListed ·) then c
  else if !sigOk || (s.signerOf f).isNone then (6, 0xFF, 0)
  else if let some c := yes 6 (!·.digestOk) then c
  else if f.rollback < s.counter 6 then (8, 0xFF, 0)
  else if f.baseDigest ≠ s.digestAt R.STRATA_DIGEST_DIGEST then (7, 0xFF, 0)
  else if let some c := yes 7 (fun x => x.kind == 3 && x.base != digestBytes (Config.sha3 (s.activeBank (1 + x.plane)))) then c
  else if let some c := yes 9 (fun x => x.kind == 1 || x.kind == 5) then c
  else if let some c := yes 0xB (fun x => x.kind == 4 && !s.groupDown x.portGroup) then c
  else if 1 < ((l.map sectionBoundary).eraseDups).length then (2, 0xFF, 1)
  else if let some i := doubledAt l then (2, i, 2)
  else if let some c := badSection l fun x => s.sectionCode u x false then c
  else if let some c := yes 0xA (fun x => match sectionTable x with
      | some id => (s.table id).oldFly != 0
      | none => false) then c
  else (0, 0, 0)

/-- The shadow copies that a staged image wrote take the active values again, and nothing stays staged. -/
def State.unstage (s : State) : State :=
  let t := s.each s.strata.staged fun t x => t.each x.regs fun t e => t.putGroup (e.1 + halfPage e.1) e.1 (regWord t.regs e.1)
  let y := t.strata
  ({ t with strata := { y with staged := [], file := none } }).wr R.STRATA_STATUS_RELOAD 0

/-- An owner abort (R57): no effect in IDLE, nor from the accepted switch instant on. -/
def State.abortReload (s : State) : State :=
  let r := s.rd R.STRATA_STATUS_RELOAD
  if r = 0 || (r = 3 && s.switchDue) then s else s.unstage

/-- STRATA_RELOAD_GO: the image at STRATA_RELOAD_ADDR is checked; with ABORT in the same write the abort comes first (R80).
`sigOk`: its signature verifies. With Agate down the verification cannot run (R568). -/
def execStrataReloadGo (sigOk abort : Bool) (t : Nat) (s : State) : Ans :=
  .next <|
    let s := s.atTime t
    let s := s.iff abort State.abortReload
    if !s.inRun then s.rejectStrata 0xE 0xFF 0
    else if s.rd R.STRATA_STATUS_RELOAD ≠ 0 || !s.agateUp then s.rejectStrata 4 0xFF 0
    else
      let f := s.ownerFile (s.rd R.STRATA_RELOAD_ADDR_ADDR)
      let (r, i, d) := s.reloadCode f sigOk
      if r ≠ 0 then s.rejectStrata r i d
      else
        let y := s.strata
        (({ s with strata := { y with file := some f, goAt := s.now } }).wr R.STRATA_STATUS_RELOAD 1).reloadResult 0 0 0

/-- STRATA_RELOAD_ABORT. -/
def execStrataReloadAbort (t : Nat) (s : State) : Ans := .next (s.atTime t).abortReload

/-- A section written to the shadow bank of its table and the shadow copies of its groups. -/
def State.stageSection (s : State) (l : List Section) (x : Section) : State :=
  let t := s.each x.regs fun t e => t.putGroup (e.1 + halfPage e.1) e.1 (BitVec.ofNat 64 e.2)
  match sectionTable x with
  | none => t
  | some id =>
    let y := t.table id
    let b := s.sectionBank l x
    t.setTable id (if y.active1 then { y with bank0 := b } else { y with bank1 := b })

/-- STRATA_STAGED: the contents stand in shadow banks and shadow copies (R57). -/
def execStrataStaged (t : Nat) (s : State) : Ans :=
  .next <|
    let s := s.atTime t
    match s.strata.file with
    | none => s
    | some f =>
      if s.rd R.STRATA_STATUS_RELOAD ≠ 1 then s
      else
        let t := s.each f.sections fun t x => t.stageSection f.sections x
        let y := t.strata
        (({ t with strata := { y with staged := f.sections } }).wr R.STRATA_STATUS_RELOAD 2).flag R.STRATA_EVENT_STAGED

/-! The switch (R56 to R63) -/

/-- A table's shadow bank becomes active (R59); an old bank that nothing holds is released at once. -/
def State.flipTable (s : State) (id : Nat) : State :=
  let y := s.table id
  let z := { y with active1 := !y.active1, epoch := if y.epoch = 0xFFFF then 1 else y.epoch + 1, switchedAt := s.now, stalled := false }
  let free := z.oldFly == 0
  (s.setTable id { z with held := !free }).iff free (·.flag R.STRATA_EVENT_RELEASED)

/-- SCHED_TILE shows the swing set in force, DEV_INFO its size (R41, R327). -/
def State.showSwing (s : State) : State :=
  let l := s.swingSet
  let t := s.each allSites fun t k => t.wr (R.SCHED_TILE_SWING k) (if l.contains k then 1 else 0)
  t.wr R.DEV_INFO_SWING_TILES (l.filter s.tileOn).length

/-- What the plan in force shows: the reserve, the slices' tiles, whether a checker exists, idle tiles that must change holder
(R324, R327, R558, R628). -/
def State.showPlan (s : State) : State :=
  let t := s.wr R.SCHED_STATUS_RESERVE (s.tilesOn.filter fun k => 0x40 ≤ s.planHolder k && s.planHolder k < 0x50).length
  ((t.each allSlices State.showTiles).showChecker).each (s.tilesOn.filter fun k => !s.jobOn k) State.showScrub

/-- MESH_STOP_CTRL.BANK of a plane (R76). -/
def State.showMesh (s : State) (plane : Nat) : State :=
  s.each (List.range 160) fun t k => t.wr (R.MESH_STOP_CTRL_BANK plane k) (if (s.table (1 + plane)).active1 then 1 else 0)

/-- PORT_STATUS.SPEED of the bundled ports of an Ethernet group (R445), every port of the group DOWN until brought up. -/
def State.showLanes (s : State) (g : Nat) : State :=
  if g = 1 || g = 2 then
    s.each (tblGet [] s.strata.lanes g) fun t p =>
      t.wr (R.PORT_STATUS_SPEED (if g = 2 then 32 + p.1 else p.1)) (if p.2 = 4 then 2 else if p.2 = 2 then 1 else 0)
  else s

/-- What follows a switch of a table. -/
def State.tableActed (s : State) (id : Nat) : State :=
  match id with
  | 1 => s.showMesh 0
  | 2 => s.showMesh 1
  | 3 => s.showMesh 2
  | 4 => s.showSwing
  | 5 => s.showPlan.decision
  | 7 => s.showCarriers
  | 8 => s.showCarriers
  | 10 => s.showRoutes
  | _ => s

/-- The switch instant: every table of the staged image changes bank, its group values act, its ports are bundled, MR4 and
the rollback counter advance (R56, R58, R604). -/
def State.switchNow (s : State) : State :=
  let l := s.strata.staged
  let ids := l.filterMap sectionTable
  let t := s.supplyMark.each ids State.flipTable
  let y := t.strata
  let t := { t with strata := { y with raw := [4, 5].foldl (fun r id => tblSet [] r id (s.rawBody l id)) y.raw } }
  let t := (t.putLanes l).each l fun t x =>
    let u := t.actSection x
    u.each (groupsFed x) fun u g => u.groupActed t g.1 g.2.1 g.2.2
  let t := (t.each ids State.tableActed).each (l.filter fun x => x.kind == 4) fun t x => t.showLanes x.portGroup
  let t := match s.strata.file with
    | some f => (t.extendMr 4 2 f.digest).raise 6 f.rollback
    | none => t
  let y := t.strata
  ((({ t with strata := { y with staged := [], file := none } }).wr R.STRATA_STATUS_RELOAD 0).flag R.STRATA_EVENT_SWITCHED).showDraining

/-- What stands against the switch of the staged image now (R62, R332, R656): LANE sections and the tables whose rules turn
on the present state are checked again, and no shadow bank may be held. -/
def State.switchCode (s : State) : Nat × Nat × Nat :=
  let l := s.strata.staged
  let u := s.withSections l
  let again := fun x => x.kind == 4 || [some 5, some 7, some 8].contains (sectionTable x)
  if let some c := badSection l fun x => if x.kind == 4 && !s.groupDown x.portGroup then (0xB, 0) else (0, 0) then c
  else if let some c := badSection l fun x => if again x then s.sectionCode u x false else (0, 0) then c
  else if let some c := badSection l fun x => match sectionTable x with
      | some id => if (s.table id).oldFly = 0 then (0, 0) else (0xA, 0)
      | none => (0, 0) then c
  else (0, 0, 0)

/-- The start of the named µ = 3 slot nearest to now, in ns of GPS time rounded up (R61). -/
def State.slot3Start (s : State) (sfn slot : Nat) : Nat :=
  (symbolStart 2 (14 * s.slotOf 2 (sfn + slot * 1024)) + 30_719) / 30_720

/-- An accepted request waits for its instant. -/
def State.pendSwitch (s : State) (instant : Nat) : State :=
  let y := s.strata
  (({ s with strata := { y with switchAt := instant } }).wr R.STRATA_STATUS_RELOAD 3).reloadResult 0 0 0

/-- KIND, SFN and SLOT as a write leaves them: an unlisted value leaves the old one (R21, R81). -/
def State.switchFields (s : State) (kind sfn slot : Nat) : State :=
  s.wrs [(R.STRATA_SWITCH_CTRL_KIND, if kind % 4 = 3 then s.rd R.STRATA_SWITCH_CTRL_KIND else kind), (R.STRATA_SWITCH_CTRL_SFN, sfn),
    (R.STRATA_SWITCH_CTRL_SLOT, if 80 ≤ slot % 128 then s.rd R.STRATA_SWITCH_CTRL_SLOT else slot)]

/-- STRATA_SWITCH_REQUEST: REQUEST written with KIND, SFN and SLOT in the same access (R61, R81). A JOB switch, and a SLOT
switch while RADIO_READY is 0, happens at acceptance. -/
def execStrataSwitchRequest (kind sfn slot t : Nat) (s : State) : Ans :=
  .next <|
    let s := (s.atTime t).switchFields kind sfn slot
    let kind := kind % 4
    let l := s.strata.staged
    let ns := s.rd R.STRATA_SWITCH_TIME_NS
    let word := s.rd R.STRATA_SWITCH_TIME_SEC * 2 ^ 32 + ns
    if !s.inRun then s.rejectStrata 0xE 0xFF 0
    else if s.rd R.STRATA_STATUS_RELOAD ≠ 2 then s.rejectStrata 4 0xFF 0
    else if kind = 3 || (kind = 1 && 80 ≤ slot % 128) || (kind = 2 && 1_000_000_000 ≤ ns) then s.rejectStrata 1 0xFF 0
    else if l.any fun x => sectionBoundary x != kind then s.rejectStrata 2 0xFF 0
    else
      let (r, i, d) := s.switchCode
      let start := s.slot3Start (sfn % 1024) (slot % 128)
      let radio := s.rd R.DEV_STATUS_RADIO_READY == 1
      if r ≠ 0 then s.rejectStrata r i d
      else if kind = 0 || (kind = 1 && !radio) then (s.reloadResult 0 0 0).switchNow
      else if kind = 1 then
        if start < s.gpsNs + 125_000 then s.rejectStrata 5 0xFF 0 else s.pendSwitch start
      else if s.untilWord word < 10_000 then s.rejectStrata 5 0xFF 0
      else s.pendSwitch word

/-- STRATA_SWITCH: the instant of an accepted request. -/
def execStrataSwitch (t : Nat) (s : State) : Ans :=
  .next <|
    let s := s.atTime t
    if s.rd R.STRATA_STATUS_RELOAD = 3 && s.switchDue then s.switchNow else s

/-- TABLE_BANK_RELEASED: the old bank's count has reached zero and it becomes the shadow (R62). -/
def execTableBankReleased (id t : Nat) (s : State) : Ans :=
  onUnit (1 ≤ id && id ≤ 10) <|
    let s := s.atTime t
    let y := s.table id
    if !y.held || y.oldFly ≠ 0 then s
    else ((s.setTable id { y with held := false, stalled := false }).flag R.STRATA_EVENT_RELEASED).showDraining

/-- DRAIN_STALL: an old bank is still held 10 ms after the switch (R62). -/
def execDrainStall (id t : Nat) (s : State) : Ans :=
  onUnit (1 ≤ id && id ≤ 10) <|
    let s := s.atTime t
    let y := s.table id
    if y.stalled || y.oldFly = 0 || s.now < y.switchedAt + 10_000_000 then s
    else (s.setTable id { y with stalled := true }).flag R.STRATA_EVENT_DRAIN_STALL

end Sys2Proof.Machine
end

