-- ==== Sys2Proof/Machine/Boot.lean ====
section
/-! DEFINITION. From reset to RUN: the resets (R649 to R651), ROM, BOOT and BUILD (R43, R53, R54, R578 to R580, R597, R598,
R602), entry to RUN (R44, R544), and the radio's readiness. -/

namespace Sys2Proof.Machine

/-! Resets -/

/-- The device runs: it has power and THERMTRIP_N does not hold it in reset (R651). -/
def State.runs (s : State) : Bool := s.dev.powered && !s.dev.stuck

/-- COLD_RESET: `cause` 1 power-on, 2 PORST_N low for `lowNs`, 3 the owner, 4 brown-out; `straps` the levels of GP[3:0],
`trip` whether THERMTRIP_N falls during the reset. -/
def execColdReset (cause lowNs straps : Nat) (trip : Bool) (t : Nat) (s : State) : Ans :=
  .next <|
    let s := s.atTime t
    if cause = 1 then s.coldReset 1 straps trip
    else if !s.runs || 4 < cause || cause = 0 || (cause = 2 && lowNs < 10_000) then s
    else s.coldReset cause straps trip

/-- WARM_RESET: `cause` 0x11 WRST_N low for `lowNs`, 0x12 the owner, 0x13 a crash before RUN. -/
def execWarmReset (cause lowNs : Nat) (trip : Bool) (t : Nat) (s : State) : Ans :=
  .next <|
    let s := s.atTime t
    if !s.runs || cause < 0x11 || 0x13 < cause || (cause = 0x11 && lowNs < 10_000) then s else s.warmReset cause trip

/-- BROWN_OUT: VDD_CORE at `mV` for `ns`. -/
def execBrownOut (mV ns straps : Nat) (trip : Bool) (t : Nat) (s : State) : Ans :=
  .next <|
    let s := s.atTime t
    if !s.runs || 600 ≤ mV || ns < 1000 then s else s.coldReset 4 straps trip

/-- The word confirms a reset of a KIND (R655). -/
def resetWord (word kind : Nat) : Bool := word % 4 == kind && word / 256 % 256 == 0xA5

/-- DEV_RESET_WARM: the owner writes `word` to DEV_RESET_CTRL. -/
def execDevResetWarm (word : Nat) (trip : Bool) (t : Nat) (s : State) : Ans :=
  .next <|
    let s := s.atTime t
    if s.runs && resetWord word 1 then s.warmReset 0x12 trip else s

/-- DEV_RESET_COLD: the owner writes `word` to DEV_RESET_CTRL. -/
def execDevResetCold (word straps : Nat) (trip : Bool) (t : Nat) (s : State) : Ans :=
  .next <|
    let s := s.atTime t
    if s.runs && resetWord word 2 then s.coldReset 3 straps trip else s

/-! ROM -/

/-- Of two copies with what the checks say, the first good one in the order of COPY_SEL (R597, R647), and whether it is
the secondary. -/
def State.pickCopy {α : Type} (s : State) (ok : α → Bool) (a b : α) : Option (α × Bool) :=
  let l := if s.rd R.DEV_STRAP_STRAPS / 2 % 2 = 1 then [(b, true), (a, false)] else [(a, false), (b, true)]
  l.find? fun e => ok e.1

/-- A copy's signature holds: its key's certificate is not below the VENDOR_KEY counter (R595). -/
def State.signed (s : State) (c : ImageCopy) : Bool := c.sigOk && s.counter 5 ≤ c.keySvn

/-- A copy passes: signature, digest, KIND, header, and its SVN against counter `n` (R597, R602). -/
def State.copyGood (s : State) (n : Nat) (c : ImageCopy) : Bool := s.signed c && c.formOk && s.counter n ≤ c.svn

/-- The phase is over (R43): the next one begins, or a stop the owner has asked for takes effect (R46). -/
def State.nextPhase (s : State) (p : Nat) : State :=
  if s.dev.stop == .asked then s.enterStop 1 .owner none else s.enterPhase p

/-- Image kind `k` runs from copy `c`. -/
def State.showImage (s : State) (k : Nat) (c : ImageCopy × Bool) : State :=
  s.wrs [(R.FW_IMAGE_VER_VERSION k, c.1.version), ({ R.SEC_STATUS_FW_COPY with lo := 1 + k, width := 1 }, if c.2 then 1 else 0)]

/-- What ROM waits after crashes before RUN (R571), in ns. -/
def State.bootWait (s : State) : Nat :=
  let n := s.rd R.FW_BOOT_RETRIES_COUNT
  if n = 0 then 0 else min (2 ^ (min n 7 - 1)) 64 * 1_000_000_000

/-- ROM_DONE (R598): `udsOk` the PUF and its helper data give the UDS the partition confirms (R600), `keysOk` the root key
and the certificates hold; the two AGATE copies. -/
def execRomDone (udsOk keysOk : Bool) (first second : ImageCopy) (t : Nat) (s : State) : Ans :=
  .next <|
    let s := s.atTime t
    if !s.runs || s.rd R.DEV_STATUS_PHASE ≠ 1 || s.now < s.dev.resetEnd + s.bootWait then s
    else if !udsOk || !keysOk then s.failBoot 4 0
    else match s.pickCopy (s.copyGood 0) first second with
      | none => s.failBoot 4 1
      | some c =>
        let s := (s.each (List.range 8) fun t n => t.wr (R.SEC_ROLLBACK_VALUE n) (t.counter n)).showKeys
        let s := (s.extendMr 0 0 c.1.digest).showImage 1 c
        let x := s.sec
        let s := { s with sec := { x with
          cdiA := cdiAOf (s.digestAt (R.SEC_MR_VALUE 0)) (s.counter 0), agate := some c.1, svns := [(0, c.1.svn), (5, c.1.keySvn)] } }
        ((s.wr (R.FW_CORE_STATUS_STATE 0) 1).kickAll 0).nextPhase 2

/-! BOOT -/

/-- An interface of an image: PROV_MIN, PROV_MAX, REQ_MIN, REQ_MAX; zeros where its table has no entry (R579). -/
def ifaceOf (c : ImageCopy) (i : Nat) : Nat × Nat × Nat × Nat :=
  ((c.ifaces.find? fun e => e.1 == i).map (·.2)).getD (0, 0, 0, 0)

/-- One pair of R580: the interface's level, none where there is no common one; an image that does not require it leaves
the level as it is. -/
def ifaceLevel (old : Nat) (prov req : Nat × Nat × Nat × Nat) : Option Nat :=
  let (_, _, rmin, rmax) := req
  if rmin = 0 && rmax = 0 then some old
  else if max rmin prov.1 > min rmax prov.2.1 then Option.none
  else some (min rmax prov.2.1)

/-- The levels of IFACE 1 to 5 between the images of a set (R579, R580), in the order of the requirers; none where the set
is incompatible. -/
def setLevels (agate jasper flint svc : ImageCopy) : Option (List Nat) :=
  let pairs := [(2, jasper, svc), (3, flint, svc), (4, agate, jasper), (4, agate, flint), (4, agate, svc)]
  pairs.foldl (fun l (p : Nat × ImageCopy × ImageCopy) => match l with
    | none => Option.none
    | some l => (ifaceLevel (l.getD (p.1 - 1) 0) (ifaceOf p.2.1 p.1) (ifaceOf p.2.2 p.1)).map fun v => l.set (p.1 - 1) v)
    (some [0, 0, 0, 0, 0])

/-- Pending enrolment records of the flash are applied, each that its checks accept; MR5 holds the key store (R598, R604). -/
def State.applyEnrolments (s : State) (recs : List (Nat × EnrolRec)) : State :=
  let (t, any) := recs.foldl (fun (p : State × Bool) (r : Nat × EnrolRec) =>
    if 1 ≤ r.1 && r.1 ≤ 4 && p.1.enrolCode r.1 r.2 = 0 then (p.1.enrol r.1 r.2, true) else p) (s, false)
  if any then t else (t.extendMr 5 1 t.keyStoreDigest).showKeys

/-- The disabled-unit map is one that a grade has (R5, R6, R27, R28): 1, 2 or 3 disabled matrix sites in each sector, and one
disabled vault, not of a radio site: the vault of a disabled site, or in grade A the vault of an enabled tile whose home is
then remapped to the disabled site's vault. There is no other remap. -/
def mapLegal (m : PartMap) : Bool :=
  m.grade < 3 && m.sites.all (· < 136) && distinct m.sites && m.remaps.all (·.1 < 136) && m.vaults.length == 8
    && allSectors.all fun n =>
      let sites := m.sites.filter (· / 17 == n)
      let remaps := m.remaps.filter (·.1 / 17 == n)
      let under := fun t => t / 17 * 19 + t % 17
      sites.length == m.grade + 1 && match m.vaults.filter (· / 19 == n) with
        | [v] => !radioVault v && (if sites.any (under · == v) then remaps.isEmpty
            else m.grade == 0 && remaps == [(n * 17 + v % 19, under (sites.headD 0))])
        | _ => false

/-- What the manufacturing record fixes becomes known (R27 to R29, R41, R592, R644). -/
def State.readMap (s : State) (map : PartMap) : State :=
  let t := ({ s with dev := { s.dev with map := map } }).showUnits
  let remaps := ((map.remaps.map fun r => r.1 / 17).eraseDups.map fun n => 2 ^ n).sum
  let t := t.wrs [(R.DEV_INFO_GRADE, map.grade), (R.DEV_INFO_REMAP_SECTORS, remaps), (R.HB_IDENT_GRADE, map.grade),
    (R.POWER_VDD_CORE_SET_MV, map.setpoint)]
  (t.putWords R.SEC_DEVICE_ID_ID 8 deviceId).each t.tilesOn fun t k => t.wr (R.TILE_ARRAY_STATUS_STATE k) 1

/-- Jasper, Flint and the service cores start, with the host block (R43, R45, R566). -/
def State.startCores (s : State) : State :=
  let t := s.each (List.range 22) fun t c => t.wr (R.FW_CORE_STATUS_STATE (c + 1)) (if c + 1 = 6 then 4 else 1)
  let t := (t.each (1 :: (List.range 18).map (· + 5)) State.kickAll).wr R.FW_STATUS_FLINT_ACTIVE 0
  ({ t with host := { t.host with config := true } }).showStandby

/-- The set of images that BOOT has checked. -/
structure BootSet where
  jasper : ImageCopy × Bool
  flint : ImageCopy × Bool
  svc : ImageCopy × Bool
  manifest : Option ImageCopy
deriving DecidableEq, Repr

/-- The four digests of a set, in kind order, as one digest (R578). -/
def setDigest (agate jasper flint svc : ImageCopy) : BitVec 512 :=
  Config.sha3 ([agate, jasper, flint, svc].flatMap fun c => digestBytes c.digest)

/-- BOOT goes on with a set: it is shown and measured, its pairing resolved (`listed`: the manifest lists it), and where it
is compatible the cores start and the vaults begin training (R43, R291). `tried` is the digest of the manifest copy tried first. -/
def State.bootWith (s : State) (b : BootSet) (listed : Bool) (tried : BitVec 512) (recs : List (Nat × EnrolRec)) : State :=
  let agate := s.sec.agate.getD ⟨true, true, 0, 0, 0, 0, []⟩
  let (j, f, v) := (b.jasper.1, b.flint.1, b.svc.1)
  let s := ((s.showImage 2 b.jasper).showImage 3 b.flint).showImage 4 b.svc
  let s := ((s.extendMr 1 0 j.digest).extendMr 1 0 f.digest).extendMr 1 0 v.digest
  let s := s.putWords R.FW_SET_DIGEST_DIGEST 16 (setDigest agate j f v).toNat
  let levels := setLevels agate j f v
  let tested := listed && b.manifest.isSome
  let result := if levels.isNone then 2 else if tested then 0 else 1
  let s := (s.extendMr 2 0 ((b.manifest.map (·.digest)).getD tried)).extendMr 2 3 (Config.sha3 (toBytes 1 result))
  let s := ((s.extendMr 6 3 s.mapDigest).extendMr 7 3 s.counterDigest).log 0 2 0x0006 [result, 0, 0, 0]
  match levels with
  | none => s.failBoot 6 0
  | some l =>
    let s := (s.wrs [(R.FW_STATUS_PAIRING, result), (R.DEV_STATUS_UNTESTED_PAIRING, result)]).each l.zipIdx fun t e =>
      t.wr (R.FW_IFACE_LEVEL_LEVEL e.2) e.1
    let (pmin, pmax, _, _) := ifaceOf j 1
    let s := s.wrs [(R.HB_IDENT_LEVEL_MIN, pmin), (R.HB_IDENT_LEVEL_MAX, pmax)]
    let keys := [j, f, v].map (·.keySvn)
    let x := s.sec
    let low := keys.foldl min (((x.svns.find? fun e => e.1 == 5).map (·.2)).getD 0)
    let svns := [(0, agate.svn), (1, j.svn), (2, f.svn), (3, v.svn), (5, low)] ++
      (b.manifest.map fun m => (4, m.svn)).toList
    let (rmin, rmax, _, _) := ifaceOf v 5
    let s := { s with sec := { x with svns := svns, runtime := (rmin, rmax) } }
    let t := (s.applyEnrolments recs).startCores
    (t.each (allVaults.filter t.vaultOn) fun t v => t.wr (R.VAULT_STATUS_STATE v) 1).nextPhase 3

/-- BOOT_DONE: the manufacturing record (`mapOk`: its signature passes; a map that no grade has is none), the copies of JASPER, FLINT, SVC_BASE and the manifest, the
records of the enrolment area with their OP. A manifest of which no copy passes its signature counts as empty (R580). -/
def execBootDone (map : PartMap) (mapOk : Bool) (jasper1 jasper2 flint1 flint2 svc1 svc2 manifest1 manifest2 : ImageCopy)
    (listed : Bool) (recs : List (Nat × EnrolRec)) (t : Nat) (s : State) : Ans :=
  .next <|
    let s := s.atTime t
    if !s.runs || s.rd R.DEV_STATUS_PHASE ≠ 2 || !s.agateUp then s
    else if !mapOk || !mapLegal map then s.failBoot 4 0
    else
      let s := s.readMap map
      match s.pickCopy (s.copyGood 1) jasper1 jasper2 with
      | none => s.failBoot 4 2
      | some j => match s.pickCopy (s.copyGood 2) flint1 flint2 with
        | none => s.failBoot 4 3
        | some f => match s.pickCopy (s.copyGood 3) svc1 svc2 with
          | none => s.failBoot 4 4
          | some v =>
            let m := s.pickCopy (s.copyGood 4) manifest1 manifest2
            let tried := if s.rd R.DEV_STRAP_STRAPS / 2 % 2 = 1 then manifest2 else manifest1
            if m.isNone && (s.signed manifest1 || s.signed manifest2) then s.failBoot 4 5
            else s.bootWith ⟨j, f, v, m.map (·.1)⟩ listed tried.digest recs

/-! BUILD -/

/-- The body of the first section of a kind. -/
def bodyOf (l : List Section) (k : Nat) : List Byte := ((l.find? fun x => x.kind == k).map (·.body)).getD []

/-- The DOMAIN body (log entry 86), one byte a unit, 1 for the radio domain: 136 tiles by sector and logical index, 152
vaults, 16 clusters, 16 hub engines and 16 cluster engines, 16 service cores (1: the FAPI role). -/
def domainByte (l : List Section) (i : Nat) : Nat := bankByte 0 (bodyOf l 1) i

/-- The ownership rule of R30: radio clusters, their vaults and their engines belong to the radio, matrix vaults and hub
engines to inference, and only swing tiles may be lent. -/
def domainOk (l : List Section) : Bool :=
  let d := domainByte l
  let swing := bodyOf l 2
  (bodyOf l 1).length == 352 && (bodyOf l 1).all (fun b => b.toNat < 2)
    && (allSites.all fun k => d k == 0 || bankByte 0 swing k % 2 == 1)
    && (allVaults.all fun v => d (136 + v) == if radioVault v then 1 else 0)
    && ((List.range 16).all fun c => d (288 + c) == 1 && d (304 + c) == 0 && d (320 + c) == 1)

/-- The PIN body (log entry 86): TOD_PPS role, mask of OWNER_OUT pins, then the plane mask of each of 160 stops (bit 0
radio, 1 inference, 2 management). The ownership rule of R30 on planes: a radio site's stop has no inference plane; the
radio plane reaches radio sites and the stops of swing tiles only. -/
def pinOk (l : List Section) (swings : List Nat) : Bool :=
  let b := bodyOf l 5
  let swingAt := fun k => k % 20 < 17 && swings.contains (k / 20 * 17 + k % 20)
  b.length == 162 && bankByte 0 b 0 < 3 && (List.range 160).all fun k =>
    let m := bankByte 0 b (2 + k)
    m < 8 && (if k % 20 = 17 || k % 20 = 18 then m / 2 % 2 == 0 else m % 2 == 0 || swingAt k)

/-- Every mandatory section stands exactly once, and no two sections have one target (R50, R53). -/
def sectionsWhole (l : List Section) : Bool :=
  let one := fun (p : Section → Bool) => (l.filter p).length == 1
  one (·.kind == 1) && one (·.kind == 2) && one (·.kind == 5)
    && ((List.range 3).all fun i => one fun x => x.kind == 3 && x.plane == i)
    && ((List.range 4).all fun g => one fun x => x.kind == 4 && x.portGroup == g) && (doubledAt l).isNone

/-- The directory entry is listed; FAB_RLC_CTRL.EN, a live field, may also take its value from the image. -/
def bootListed (x : Section) : Bool :=
  entryListed { x with regs := x.regs.filter fun e => e.1 != R.FAB_RLC_CTRL_EN.addr }

/-- The service cores' roles (R37). -/
def State.putRoles (s : State) (l : List Section) : State :=
  s.each (List.range 16) fun t i => t.wr (R.FW_CORE_STATUS_FAPI (7 + i)) (domainByte l (336 + i))

/-- A full image that R53 rejects. -/
def State.imageBroken (s : State) (f : StrataFile) : Bool :=
  let l := f.sections
  let t := s.putRoles l
  let u := t.withSections l
  !sectionsWhole l || f.gradeMask / 2 ^ s.dev.map.grade % 2 = 0 || !l.all bootListed || !domainOk l || !pinOk l u.swingSet
    || l.any fun x => (t.sectionCode u x true).1 != 0

/-- A copy of the full image in flash with what its signature check says. -/
abbrev StrataCopy := StrataFile × Bool

/-- The copy has a good signature by an owner key that may sign Strata images, and no rollback (R594, R602). -/
def State.strataSigned (s : State) (c : StrataCopy) : Bool := c.2 && (s.signerOf c.1).isSome && s.counter 6 ≤ c.1.rollback

/-- The copy passes the checks of R597 too: header, KIND, digests. -/
def State.strataGood (s : State) (c : StrataCopy) : Bool :=
  s.strataSigned c && headerOk c.1 && c.1.kind == 0 && c.1.baseDigest == 0 && c.1.sections.all (·.digestOk)

/-- Both banks of every table hold the image's value, with epoch 1 (R54). -/
def State.loadTables (s : State) (l : List Section) : State :=
  s.each ((List.range 10).map (· + 1)) fun t id =>
    let b := match l.find? fun x => sectionTable x == some id with
      | some x => s.sectionBank l x
      | none => []
    t.setTable id { TableState.reset with bank0 := b, bank1 := b, epoch := 1 }

/-- Both copies of every group register hold the image's value (R54). -/
def State.loadRegs (s : State) (x : Section) : State :=
  s.each x.regs fun t e =>
    let w := BitVec.ofNat 64 e.2
    if e.1 = R.FAB_RLC_CTRL_EN.addr then t.wr R.FAB_RLC_CTRL_EN e.2
    else (t.putGroup e.1 e.1 w).putGroup (e.1 + halfPage e.1) e.1 w

/-- Planes, pin roles and the ToD pin of the PIN section (R34, R76, R432, R648). -/
def State.loadPins (s : State) (l : List Section) : State :=
  let b := bodyOf l 5
  let t := ({ s with dev := { s.dev with pinRoles := bankByte 0 b 1 } }).wr R.TIME_TOD_STATUS_ROLE (bankByte 0 b 0)
  t.each (List.range 480) fun t i =>
    t.wr (R.MESH_STOP_CTRL_ENABLED (i / 160) (i % 160)) (bankByte 0 b (2 + i % 160) / 2 ^ (i / 160) % 2)

/-- What the scheduler shows of the plan in force (R327). -/
def State.showPlanTiles (s : State) : State :=
  s.each allSites fun t k =>
    if !s.tileOn k then t.wrs [(R.SCHED_TILE_HOLDER k, 0x7F), (R.SCHED_TILE_STATE k, 0)]
    else
      let h := s.planHolder k
      t.wrs [(R.SCHED_TILE_HOLDER k, h), (R.SCHED_TILE_STATE k, if 0x40 ≤ h && h < 0x50 then 6 else 1)]

/-- The vaults are trained and initialised, the slabs of the radio domain assigned (R264, R268, R281): they lie in vaults of
radio sites alone (R30, R31). -/
def State.initVaults (s : State) (slabs : List (Nat × Nat)) : State :=
  let slabs := slabs.filter fun e => e.2 == 0 || (radioVault ((e.2 - 1) / 384) && s.vaultOn ((e.2 - 1) / 384))
  let y := s.strata
  let t := { s with strata := { y with radioSlabs := slabs.foldl (fun (m : Tbl Nat) (e : Nat × Nat) => tblSet 0 m e.1 e.2) [] } }
  let t := t.zeroKeys (vaultKey 0 0) (vaultKey 152 0)
  let t := t.each (allVaults.filter s.vaultOn) fun t v =>
    let used := if radioVault v then (slabs.filter fun (e : Nat × Nat) => e.2 != 0 && (e.2 - 1) / 384 == v).length else 0
    t.wrs [(R.VAULT_STATUS_STATE v, 2), (R.VAULT_STATUS_DOMAIN v, if radioVault v then 1 else 0), (R.VAULT_FREE_SLABS_SLABS v, 384 - used)]
  let n := (s.inferVaults).length * 384
  t.wrs [(R.MEM_POOL_TOTAL_SLABS, n), (R.MEM_POOL_FREE_SLABS, n), (R.MEM_POOL_HELD_SLABS, 0), (R.MEM_POOL_LENT_SLABS, 0)]

/-- What the values in force set going: limits and quotas shown, lends given, ports and links brought up, gate lists armed,
the power mode, time. -/
def State.bringUp (s : State) : State :=
  let t := s.each allSlices fun t x => ((t.showLimits x).showQuota x).showGroups x
  let t := t.each (List.range 16) fun t k => t.lendResize k 0 (t.lendCount k)
  let t := t.each (List.range 40) fun t p =>
    let u := t.adminPort p
    u.iff (t.rd (R.GATE_CTRL_GATE_EN p) == 1) fun u => u.armGate p (u.gateSet p) (u.rd (R.GATE_BASE_TIME_TIME p))
  let t := t.each (allLinks.filter fun k => t.rd (R.FAB_LINK_PARK_HELD k) == 0) fun t k => t.wr (R.FAB_LINK_STATUS_STATE k) 1
  let t := t.wr R.TIME_STATUS_ACTIVE (t.rd R.TIME_SEL_CTRL_MANUAL_ACTIVE)
  ((t.modeCommit).synceSelect).timeNow

/-- The image is committed (R54): tables, groups, ports, pins, domains; it is measured and its layer derived (R598, R603). -/
def State.loadImage (s : State) (f : StrataFile) (second : Bool) : State :=
  let l := f.sections
  let s := (s.extendMr 3 2 f.digest).putWords R.STRATA_DIGEST_DIGEST 16 f.digest.toNat
  let x := s.sec
  let s := { s with sec := { x with cdiB := s.cdiBNow, imageSlot := (s.signerOf f).getD 4, svns := x.svns ++ [(6, f.rollback)] } }
  let short := s.shortOf (s.rawBody l 5) (s.rawBody l 4)
  let t := ((s.putRoles l).putLanes l).loadTables l
  let y := t.strata
  let t := { t with strata := { y with raw := [4, 5].foldl (fun r id => tblSet [] r id (s.rawBody l id)) y.raw } }
  let t := (t.each l State.loadRegs).loadPins l
  let t := t.wrs [(R.STRATA_IMAGE_VER_VER, f.version), (R.STRATA_STATUS_SHORT, if short then 1 else 0),
    (R.SEC_STATUS_STRATA_COPY, if second then 1 else 0)]
  let t := (t.each (List.range 3) State.showMesh).each (List.range 4) State.showLanes
  ((((t.showSwing).showPlanTiles).showPlan).showCarriers).showRoutes.adopt

/-- Entry to RUN (R43, R544, R571, R602). -/
def State.enterRun (s : State) : State :=
  let s := (s.each s.sec.svns fun t e => t.raise e.1 e.2).wr R.FW_BOOT_RETRIES_COUNT 0
  let s := s.enterPhase 4
  let c := s.sched
  let s := { s with sched := { c with supply := 0, supplyCyc := s.aclk } }
  let b := s.activeBank 6
  let s := s.each (allSlices.filter fun x => initialOf b x < 16) fun t x =>
    if t.createCode x (initialOf b x) = 0 then t.createSlice x (initialOf b x) else t
  s.showAdmit

/-- BUILD_DONE: the full image is read from the copies in flash; `sig1`, `sig2`: their signatures verify; the radio's slabs
as (virtual slab, region + 1); whether the self-test of tiles and that of vaults agree with the map, and whether every vault
trains and initialises (R42, R43). -/
def execBuildDone (sig1 sig2 : Bool) (slabs : List (Nat × Nat)) (tilesAgree vaultsAgree trained initialised : Bool) (t : Nat)
    (s : State) : Ans :=
  .next <|
    let asked := s.dev.stop == .asked
    let s := s.atTime t
    if !s.runs || s.rd R.DEV_STATUS_PHASE ≠ 3 || !s.agateUp then s
    else
      let s := s.nextEpoch
      if s.rd R.SEC_STATUS_OWNED = 0 then s.failBoot 4 6
      else
        let first : StrataCopy := (s.flashStrata false, sig1)
        let second : StrataCopy := (s.flashStrata true, sig2)
        match s.pickCopy s.strataGood first second with
        | none => if s.strataSigned first || s.strataSigned second then s.failBoot 7 0 else s.failBoot 4 6
        | some (c, two) =>
          if s.imageBroken c.1 then s.failBoot 7 0
          else
            let s := s.loadImage c.1 two
            if !(tilesAgree && vaultsAgree) then s.failBoot 5 0
            else if !(trained && initialised) then s.failBoot 8 0
            else
              let s := (s.initVaults slabs).bringUp
              if asked then s.nextPhase 4 else s.enterRun

/-! The radio -/

/-- RADIO_READY_SET: at a slot boundary with TIME_LOCK, a radio unit discovered and 8 slots preloaded, RADIO_READY becomes
1 (R44). -/
def execRadioReadySet (t : Nat) (s : State) : Ans :=
  .next <|
    (s.airTime t).makeReady

end Sys2Proof.Machine
end

