-- ==== Sys2Proof/Machine/Mica.lean ====
section
/-! DEFINITION. Mica cores (R366 to R375): address generators, block repeats and every command. A command runs when its
core is at it: the row's name is the command's opcode, and a command with an unlisted opcode fails its stream whichever
row takes it. -/

namespace Sys2Proof.Machine

/-- Bytes of cluster SRAM (R361). -/
def clusterBytes : Nat := 0x60_0000

/-- Mica core `u` of a cluster. -/
def State.mica (s : State) (c u : Nat) : MicaState := tblGet .zero (s.cluster c).mica u

/-- The state with a core replaced. -/
def State.setMica (s : State) (c u : Nat) (x : MicaState) : State :=
  let k := s.cluster c
  s.setCluster c { k with mica := tblSet .zero k.mica u x }

/-! Address generators -/

/-- The carry of R372 running toward bit 0 from the mask `m`, for at most `n` bits. -/
def bitrevCarry (o m : Nat) : Nat → Nat
  | 0 => o
  | n + 1 => if m = 0 then o else if o / m % 2 = 1 then bitrevCarry (o - m) (m / 2) n else o + m

/-- One bit-reversed step of the offset (R372). -/
def bitrevStep (o inc bits : Nat) : Nat :=
  (List.range bits).foldl (fun o i => if inc / 2 ^ i % 2 = 1 then bitrevCarry o (2 ^ (bits - 1 - i)) (bits - i) else o) o

/-- The offset after one address. -/
def AddrGen.step (g : AddrGen) : AddrGen :=
  { g with off := match g.mode with
      | 0 => g.off + g.inc
      | 1 => (g.off + g.inc) % (g.len : Int)
      | _ => (bitrevStep g.off.toNat g.inc.toNat g.bits : Nat) }

/-- ADJ added to the offset at the end of an iteration (R374). -/
def AddrGen.adjust (g : AddrGen) (adj : Int) : AddrGen :=
  { g with off := match g.mode with
      | 0 => g.off + adj
      | 1 => (g.off + adj) % (g.len : Int)
      | _ => (g.off + adj) % (2 ^ g.bits : Nat) }

/-- The address an AG stands at, if it lies in SRAM (R371). -/
def AddrGen.word (g : AddrGen) : Option Nat :=
  let a := (g.base : Int) + g.off
  if 0 ≤ a ∧ a ≤ 0x17_FFFF then some a.toNat else none

/-- The next `n` addresses of an AG, and the AG after them; none where one lies outside SRAM. -/
def AddrGen.walk (g : AddrGen) : Nat → Option (List Nat × AddrGen)
  | 0 => some ([], g)
  | n + 1 =>
    match g.word with
    | none => none
    | some a =>
      match g.step.walk n with
      | none => none
      | some (l, h) => some (a :: l, h)

/-- Address generator `i` of a core. -/
def MicaState.gen (m : MicaState) (i : Nat) : AddrGen := tblGet .zero m.ag i

/-- The core with an address generator replaced. -/
def MicaState.setGen (m : MicaState) (i : Nat) (g : AddrGen) : MicaState := { m with ag := tblSet .zero m.ag i g }

/-! Samples (R367, R369) -/

/-- The I part of a sample. -/
def reOf (w : BitVec 32) : Int := signedOf 16 (w.toNat % 65536)
/-- The Q part of a sample. -/
def imOf (w : BitVec 32) : Int := signedOf 16 (w.toNat / 65536)

/-- A part shifted right with RNE and saturated, and whether it saturated. -/
def outPart (shift : Nat) (v : Int) : Int × Bool :=
  let r := NoiseCell.measure.rneQuot v (2 ^ shift)
  if r < -32_768 then (-32_768, true) else if 32_767 < r then (32_767, true) else (r, false)

/-- A sample from its parts. -/
def sampleOf (re im : Int) : BitVec 32 := BitVec.ofNat 32 (toField 16 re + 65536 * toField 16 im)

/-- An output sample and how many of its parts saturated. -/
def outSample (shift : Nat) (re im : Int) : BitVec 32 × Nat :=
  let a := outPart shift re
  let b := outPart shift im
  (sampleOf a.1 b.1, (if a.2 then 1 else 0) + (if b.2 then 1 else 0))

/-- An accumulator sum saturated to ±(2^39 − 1). -/
def accClamp (v : Int) : Int := max (-(2 ^ 39 - 1)) (min v (2 ^ 39 - 1))

/-- Lane `i` of V[r]. -/
def MicaState.lane (m : MicaState) (r i : Nat) : BitVec 32 := tblGet 0 m.v (r * 32 + i)

/-- The core with V[r] written, lane by lane. -/
def MicaState.setV (m : MicaState) (r : Nat) (f : Nat → BitVec 32) : MicaState :=
  { m with v := (List.range 32).foldl (fun v i => tblSet 0 v (r * 32 + i) (f i)) m.v }

/-- A part of a lane of an accumulator: part 0 I, 1 Q. -/
def MicaState.accPart (m : MicaState) (a i p : Nat) : Int := tblGet 0 m.acc (a * 64 + i * 2 + p)

/-- The core with an accumulator written, lane by lane. -/
def MicaState.setAcc (m : MicaState) (a : Nat) (f : Nat → Int × Int) : MicaState :=
  { m with acc := (List.range 32).foldl (fun v i =>
      tblSet 0 (tblSet 0 v (a * 64 + i * 2) (f i).1) (a * 64 + i * 2 + 1) (f i).2) m.acc }

/-! Commands (R368) -/

/-- `n` bits of a command from bit `lo`. -/
def cmdBits (e : BitVec 128) (lo n : Nat) : Nat := e.toNat / 2 ^ lo % 2 ^ n
/-- OPCODE. -/
def cmdOp (e : BitVec 128) : Nat := cmdBits e 0 8
/-- D. -/
def cmdD (e : BitVec 128) : Nat := cmdBits e 8 4
/-- A. -/
def cmdA (e : BitVec 128) : Nat := cmdBits e 12 4
/-- B. -/
def cmdB (e : BitVec 128) : Nat := cmdBits e 16 4
/-- AG. -/
def cmdAg (e : BitVec 128) : Nat := cmdBits e 20 3
/-- SHIFT. -/
def cmdShift (e : BitVec 128) : Nat := cmdBits e 24 5
/-- IMM. -/
def cmdImm (e : BitVec 128) : Nat := cmdBits e 32 32
/-- EXT. -/
def cmdExt (e : BitVec 128) : Nat := cmdBits e 64 32

/-- Every bit outside the listed fields (first bit, width) and the opcode is zero. -/
def onlyBits (e : BitVec 128) (l : List (Nat × Nat)) : Bool :=
  (e &&& ~~~ l.foldl (fun m f => m ||| BitVec.ofNat 128 ((2 ^ f.2 - 1) * 2 ^ f.1)) 0xFF) == 0

/-- B′ of a lane: V[B], conjugated when CONJ_B = 1. -/
def bPart (m : MicaState) (e : BitVec 128) (i : Nat) : Int × Int :=
  let w := m.lane (cmdB e) i
  (reOf w, if cmdBits e 23 1 = 1 then -(imOf w) else imOf w)

/-- What a command does: it waits, its stream fails with a code, or it is done and its stream goes on or ends. -/
inductive MicaRes where
  | waits
  | fails (code : Nat)
  | done (s : State) (outs : List Span)
  | ends (s : State)

/-- The command a core stands at: from the loop buffer inside a repeat, else from SRAM. -/
def State.micaFetch (s : State) (c u : Nat) (r : StreamRun) : Option (BitVec 128) :=
  let m := s.mica c u
  match if m.loops.isEmpty then none else tblFind m.buf r.pc with
  | some e => some e
  | none =>
    let a := r.trig.stream + 16 * r.pc
    if clusterBytes < a + 16 then none else some (BitVec.ofNat 128 (s.num (clusterKey c a) 16))

/-- The position after a command (R374), for `n` enclosing levels: the end of a body adjusts its AG and either repeats
or leaves the level. -/
def MicaState.advance (m : MicaState) (pc : Nat) : Nat → MicaState × Nat
  | 0 => (m, pc)
  | n + 1 =>
    match m.loops with
    | [] => (m, pc)
    | l :: ls =>
      if pc != l.last + 1 then (m, pc)
      else
        let m := if l.adjEn then m.setGen l.ag ((m.gen l.ag).adjust l.adj) else m
        if 1 < l.left then ({ m with loops := { l with left := l.left - 1 } :: ls }, l.first)
        else ({ m with loops := ls }, pc).1.advance pc n

/-- The core ready for the command `e` that it stands at: a stream's first command finds no level and an empty loop buffer,
corrected words are counted, and inside a repeat the command enters the loop buffer. -/
def State.micaBegin (s : State) (c u : Nat) (r : StreamRun) (e : BitVec 128) (corr : Nat) : State :=
  let m := s.mica c u
  let s := (if r.pc == 0 && !r.waits then s.setMica c u { m with loops := [], buf := [] } else s).sat
    (R.RADIO_SRAM_ECC_CORR_COUNT c) corr
  let m := s.mica c u
  if m.loops.isEmpty then s else s.setMica c u { m with buf := tblInsert r.pc e (tblErase m.buf r.pc) }

/-- The core moves past a command that wrote `outs`. -/
def State.micaNext (s : State) (c u : Nat) (r : StreamRun) (outs : List Span) : State :=
  let (m, pc) := (s.mica c u).advance (r.pc + 1) 4
  (s.setMica c u m).setUnit c u { s.unit c u with run := some { r with pc := pc, waits := false, outs := r.outs ++ outs } }

/-- A unit's stream ends as it should. -/
def State.streamDone (s : State) (c u : Nat) : State := (s.endRun c u).bump (R.RADIO_UNIT_DONE_COUNT c u) 1

/-- A unit's stream waits at its command or descriptor. -/
def State.streamWaits (s : State) (c u : Nat) (r : StreamRun) : State :=
  s.setUnit c u { s.unit c u with run := some { r with waits := true } }

/-- A core's next command, if it is the row's (or has no listed opcode): `bad` is the address plus 1 of an uncorrectable
SRAM word that it reads, `corr` the words corrected. -/
def State.micaStep (s : State) (c u op corr bad t : Nat) (f : State → BitVec 128 → StreamRun → MicaRes) : Ans :=
  onUnit (c < 16 && u < 8) <|
    let s := s.airTime t
    match (s.unit c u).run with
    | none => s
    | some r =>
      let start := r.pc == 0 && !r.waits
      if start && r.trig.stream % 16 != 0 then s.failStream c u 4 0
      else if start && r.trig.bad then s.failStream c u 2 0
      else
        match s.micaFetch c u r with
        | none => s.failStream c u 3 0
        | some e =>
          let known := 1 ≤ cmdOp e && cmdOp e ≤ 0xF
          if known && cmdOp e != op then s
          else
            if 0 < bad then
              let m := s.mica c u
              let s := (if start then s.setMica c u { m with loops := [], buf := [] } else s).sat (R.RADIO_SRAM_ECC_CORR_COUNT c) corr
              let s := ((s.sat (R.RADIO_SRAM_ECC_UNCORR_COUNT c) 1).wr (R.RADIO_SRAM_ECC_ADDR_ADDR c) ((bad - 1) / 64 * 64)).flag
                (R.RADIO_ERR_SRAM_UNCORR c)
              (s.strike 4 c (c / 2) 0 (bad - 1)).failStream c u 7 0
            else
              let s := s.micaBegin c u r e corr
              if !known then s.failStream c u 1 0
              else
                match f s e r with
                | .fails code => s.failStream c u code 0
                | .waits => s.streamWaits c u r
                | .ends s => s.streamDone c u
                | .done s outs => s.micaNext c u r outs

/-- A command that only changes its core. -/
def State.micaDone (s : State) (c u : Nat) (m : MicaState) (sat : Nat := 0) : MicaRes :=
  .done ((s.setMica c u m).sat (R.RADIO_MICA_SAT_COUNT c) sat) []

/-- A vector command whose lanes are `f`, shifted and saturated (R369). -/
def State.vectorOut (s : State) (c u : Nat) (e : BitVec 128) (f : MicaState → Nat → Int × Int) : MicaRes :=
  let m := s.mica c u
  let l := (List.range 32).map fun i => outSample (cmdShift e) (f m i).1 (f m i).2
  s.micaDone c u (m.setV (cmdD e) fun i => (l.getD i (0, 0)).1) (l.map (·.2)).sum

/-- Fields of a command with D, A, B, CONJ_B and SHIFT. -/
def dabFields : List (Nat × Nat) := [(8, 4), (12, 4), (16, 4), (23, 1), (24, 5)]

/-- VLD. -/
def execVld (c u corr bad t : Nat) (s : State) : Ans :=
  s.micaStep c u 1 corr bad t fun s e _ =>
    let m := s.mica c u
    if !onlyBits e [(8, 4), (20, 3)] then .fails 2
    else
      match (m.gen (cmdAg e)).walk 32 with
      | none => .fails 3
      | some (l, g) =>
        s.micaDone c u ((m.setV (cmdD e) fun i => BitVec.ofNat 32 (s.num (clusterKey c (4 * l.getD i 0)) 4)).setGen (cmdAg e) g)

/-- VST. -/
def execVst (c u corr bad t : Nat) (s : State) : Ans :=
  s.micaStep c u 2 corr bad t fun s e _ =>
    let m := s.mica c u
    if !onlyBits e [(12, 4), (20, 3)] then .fails 2
    else
      match (m.gen (cmdAg e)).walk 32 with
      | none => .fails 3
      | some (l, g) =>
        let t := (s.setMica c u (m.setGen (cmdAg e) g)).each l.zipIdx fun t p =>
          t.setNum (clusterKey c (4 * p.1)) 4 (m.lane (cmdA e) p.2).toNat
        .done t (l.map fun a => Span.mk (4 * a) 4)

/-- VADD. -/
def execVadd (c u corr bad t : Nat) (s : State) : Ans :=
  s.micaStep c u 3 corr bad t fun s e _ =>
    if !onlyBits e dabFields then .fails 2
    else s.vectorOut c u e fun m i =>
      let a := m.lane (cmdA e) i
      let b := bPart m e i
      (reOf a + b.1, imOf a + b.2)

/-- VSUB. -/
def execVsub (c u corr bad t : Nat) (s : State) : Ans :=
  s.micaStep c u 4 corr bad t fun s e _ =>
    if !onlyBits e dabFields then .fails 2
    else s.vectorOut c u e fun m i =>
      let a := m.lane (cmdA e) i
      let b := bPart m e i
      (reOf a - b.1, imOf a - b.2)

/-- The complex product of lane `i` of V[A] and B′. -/
def laneProduct (m : MicaState) (e : BitVec 128) (i : Nat) : Int × Int :=
  let a := m.lane (cmdA e) i
  let b := bPart m e i
  (reOf a * b.1 - imOf a * b.2, reOf a * b.2 + imOf a * b.1)

/-- CMUL. -/
def execCmul (c u corr bad t : Nat) (s : State) : Ans :=
  s.micaStep c u 5 corr bad t fun s e _ =>
    if !onlyBits e dabFields then .fails 2 else s.vectorOut c u e fun m i => laneProduct m e i

/-- CMAC. -/
def execCmac (c u corr bad t : Nat) (s : State) : Ans :=
  s.micaStep c u 6 corr bad t fun s e _ =>
    let m := s.mica c u
    let d := cmdBits e 8 2
    if !onlyBits e [(8, 2), (12, 4), (16, 4), (23, 1)] then .fails 2
    else s.micaDone c u (m.setAcc d fun i =>
      let p := laneProduct m e i
      (accClamp (m.accPart d i 0 + p.1), accClamp (m.accPart d i 1 + p.2)))

/-- ACCOUT. -/
def execAccout (c u corr bad t : Nat) (s : State) : Ans :=
  s.micaStep c u 7 corr bad t fun s e _ =>
    let a := cmdBits e 12 2
    if !onlyBits e [(8, 4), (12, 2), (24, 5), (32, 1)] then .fails 2
    else
      match s.vectorOut c u e fun m i => (m.accPart a i 0, m.accPart a i 1) with
      | .done t o => .done (if cmdImm e = 1 then t.setMica c u ((t.mica c u).setAcc a fun _ => (0, 0)) else t) o
      | r => r

/-- ACCCLR. -/
def execAccclr (c u corr bad t : Nat) (s : State) : Ans :=
  s.micaStep c u 8 corr bad t fun s e _ =>
    if !onlyBits e [(8, 2)] then .fails 2
    else s.micaDone c u ((s.mica c u).setAcc (cmdBits e 8 2) fun _ => (0, 0))

/-- MAG2. -/
def execMag2 (c u corr bad t : Nat) (s : State) : Ans :=
  s.micaStep c u 9 corr bad t fun s e _ =>
    let m := s.mica c u
    if !onlyBits e [(8, 2), (12, 4)] then .fails 2
    else s.micaDone c u (m.setAcc (cmdBits e 8 2) fun i =>
      let a := m.lane (cmdA e) i
      (reOf a * reOf a + imOf a * imOf a, 0))

/-- The key of a sample that MINMAX compares (R375): the I part, the Q part, or I² + Q². -/
def minmaxKey (kind : Nat) (w : BitVec 32) : Int :=
  match kind with
  | 0 => reOf w
  | 1 => imOf w
  | _ => reOf w * reOf w + imOf w * imOf w

/-- The scan of `n` vectors: the extreme key with its lowest index, and the AG after. -/
def State.minmaxScan (s : State) (c : Nat) (kind : Nat) (least : Bool) (g : AddrGen) (i : Nat) (best : Option (Int × Nat)) :
    Nat → Option (Int × Nat × AddrGen)
  | 0 => best.map fun b => (b.1, b.2, g)
  | n + 1 =>
    match g.walk 32 with
    | none => none
    | some (l, h) =>
      let best := l.zipIdx.foldl (fun b p =>
        let k := minmaxKey kind (BitVec.ofNat 32 (s.num (clusterKey c (4 * p.1)) 4))
        match b with
        | none => some (k, i + p.2)
        | some (v, j) => if (if least then k < v else v < k) then some (k, i + p.2) else some (v, j)) best
      s.minmaxScan c kind least h (i + 32) best n

/-- MINMAX (R375). -/
def execMinmax (c u corr bad t : Nat) (s : State) : Ans :=
  s.micaStep c u 0xA corr bad t fun s e _ =>
    let m := s.mica c u
    let imm := cmdImm e
    let place := imm / 8 % 2 ^ 21 * 8
    if !onlyBits e [(20, 3), (32, 24), (64, 16)] || imm / 2 % 4 = 3 then .fails 2
    else if clusterBytes < place + 8 then .fails 3
    else
      match s.minmaxScan c (imm / 2 % 4) (imm % 2 == 1) (m.gen (cmdAg e)) 0 none (cmdExt e + 1) with
      | none => .fails 3
      | some (k, i, g) =>
        .done (((s.setMica c u (m.setGen (cmdAg e) g)).setNum (clusterKey c place) 4 (toField 32 k)).setNum
          (clusterKey c (place + 4)) 4 i) [Span.mk place 8]

/-- AGSET (R372): BASE with the relocation of the stream's trigger, o = 0, and the mode. -/
def execAgset (c u corr bad t : Nat) (s : State) : Ans :=
  s.micaStep c u 0xB corr bad t fun s e r =>
    let m := s.mica c u
    let x := cmdExt e
    let mode := x % 4
    let inc := signedOf 16 (x / 4 % 65536)
    let bits := x / 2 ^ 18 % 16 + 1
    let len := cmdD e * 256 + cmdA e * 16 + cmdB e + 1
    if !onlyBits e [(8, 4), (12, 4), (16, 4), (20, 3), (32, 21), (64, 22)] || mode = 3
      || (mode = 1 && decide (len ≤ inc.natAbs)) || (mode = 2 && decide (inc < 1 ∨ (2 ^ bits - 1 : Nat) < inc)) then .fails 2
    else s.micaDone c u (m.setGen (cmdAg e) ⟨cmdImm e + r.trig.reloc, 0, mode, inc, bits, len⟩)

/-- REPEAT (R374). -/
def execRepeatBody (c u corr bad t : Nat) (s : State) : Ans :=
  s.micaStep c u 0xC corr bad t fun s e r =>
    let m := s.mica c u
    let x := cmdExt e
    let body := x / 2 ^ 16 % 64
    let imm := cmdImm e
    let past := match m.loops with | l :: _ => l.last < r.pc + body | [] => false
    if !onlyBits e [(32, 4), (48, 16), (64, 22)] || body = 0 then .fails 2
    else if m.loops.length = 4 || past then .fails 5
    else
      let l : MicaLoop := ⟨r.pc + 1, r.pc + body, x % 65536 + 1, imm % 8, imm / 8 % 2 == 1, signedOf 16 (imm / 65536)⟩
      s.micaDone c u { m with loops := l :: m.loops, buf := if m.loops.isEmpty then [] else m.buf }

/-- WAIT (R366, R370). -/
def execWaitCounter (c u corr bad t : Nat) (s : State) : Ans :=
  s.micaStep c u 0xD corr bad t fun s e _ =>
    if !onlyBits e [(32, 6), (64, 32)] then .fails 2
    else if countReached (s.rd (R.RADIO_CNT_VALUE c (cmdImm e))) (cmdExt e) then .done s [] else .waits

/-- SIGNAL: an increment of 1 to 65,535. -/
def execSignalCounter (c u corr bad t : Nat) (s : State) : Ans :=
  s.micaStep c u 0xE corr bad t fun s e _ =>
    if !onlyBits e [(32, 6), (64, 16)] || cmdExt e = 0 then .fails 2
    else .done (s.radioCount c (cmdImm e) (cmdExt e)) []

/-- END (R366). -/
def execEndStream (c u corr bad t : Nat) (s : State) : Ans :=
  s.micaStep c u 0xF corr bad t fun s e _ => if !onlyBits e [] then .fails 2 else .ends s

end Sys2Proof.Machine
end

