-- ==== Sys2Proof/Machine/Engines.lean ====
section
/-! DEFINITION. The engines of a radio cluster (R376 to R387, R397 to R403): LDPC, polar, FFT, PRACH and the cluster DMA.
A descriptor runs when its engine is at it: the row's name is its KIND, and an unlisted KIND fails the stream whichever
row takes it. -/

namespace Sys2Proof.Machine

/-- A descriptor: 64 bytes. -/
abbrev Desc := BitVec 512

/-- `n` bits from bit `lo` of the word at byte offset `off`. -/
def Desc.fld (d : Desc) (off lo n : Nat) : Nat := d.toNat / 2 ^ (8 * off + lo) % 2 ^ n

/-- A code, or what the descriptor writes: the state and the bytes it wrote. -/
abbrev EngineRes := Except Nat (State × List Span)

/-- A body address with the relocation of the stream's trigger (R364). -/
def StreamRun.place (r : StreamRun) (d : Desc) (off : Nat) : Nat := d.fld off 0 23 + 4 * r.trig.reloc

/-- The descriptor is done, having written `outs`: its signal, then the end of the stream at LAST, else the next one. -/
def State.engineNext (s : State) (c u : Nat) (d : Desc) (r : StreamRun) (outs : List Span) : State :=
  let s := if d.fld 0 22 1 = 1 then s.radioCount c (d.fld 0 16 6) (d.fld 8 0 16) else s
  if d.fld 0 15 1 = 1 then s.streamDone c u
  else s.setUnit c u { s.unit c u with run := some { r with pc := r.pc + 1, waits := false, outs := r.outs ++ outs } }

/-- The uncorrectable codeword of a vault that fails a DMA descriptor's read is counted there (R265); no other descriptor
fails so while it runs. -/
def State.dmaFault (s : State) (c code : Nat) (d : Desc) : State :=
  if code ≠ 7 then s
  else match s.hFirstBad (64 + c) (d.fld 0x20 0 57) (d.fld 0x28 0 23) with
    | some (v, cw, m) => s.vaultBad v cw m
    | none => s

/-- The mesh stop of a radio cluster's site (R25, R26). -/
def clusterStop (c : Nat) : Nat := c / 2 * 20 + 17 + c % 2

/-- The next descriptor of engine `u`, if its KIND is the row's (or is not below `kinds`): header rules, the wait, the
signal and LAST (R376). `bad` is the address plus 1 of an uncorrectable SRAM word that it reads. A code of 0 says that the
cluster's stop has dropped the descriptor's packets and counted them (R34): nothing moves, and it does not end. -/
def State.engineStep (s : State) (c u kind kinds corr bad t : Nat) (f : State → Desc → StreamRun → EngineRes) : Ans :=
  onUnit (c < 16) <|
    let s := s.airTime t
    match (s.unit c u).run with
    | none => s
    | some r =>
      let a := r.trig.stream + 64 * r.pc
      if r.trig.stream % 64 != 0 then s.failStream c u 4 0
      else if r.trig.bad then s.failStream c u 2 0
      else if clusterBytes < a + 64 then s.failStream c u 3 0
      else
        let d : Desc := BitVec.ofNat 512 (s.num (clusterKey c a) 64)
        let tag := d.fld 0xC 0 8
        let known := 1 ≤ d.fld 0 0 8 && d.fld 0 0 8 ≤ kinds
        if known && d.fld 0 0 8 != kind then s
        else if d.fld 0 14 1 = 1 && !countReached (s.rd (R.RADIO_CNT_VALUE c (d.fld 0 8 6))) (d.fld 4 0 32) then
          s.streamWaits c u r
        else
          let s := s.sat (R.RADIO_SRAM_ECC_CORR_COUNT c) corr
          if 0 < bad then
            let s := ((s.sat (R.RADIO_SRAM_ECC_UNCORR_COUNT c) 1).wr (R.RADIO_SRAM_ECC_ADDR_ADDR c) ((bad - 1) / 64 * 64)).flag
              (R.RADIO_ERR_SRAM_UNCORR c)
            (s.strike 4 c (c / 2) 0 (bad - 1)).failStream c u 7 tag
          else if !known then s.failStream c u 1 tag
          else if d.fld 0 23 9 != 0 || d.fld 8 16 16 != 0 || d.fld 0xC 8 24 != 0 || (d.fld 0 22 1 = 1 && d.fld 8 0 16 = 0) then
            s.failStream c u 2 tag
          else
            match f s d r with
            | .error 0 => s.sat (R.MESH_PLANE_VIOL_COUNT 0 (clusterStop c)) 1
            | .error code => (s.dmaFault c code d).failStream c u code tag
            | .ok (s, outs) => s.engineNext c u d r outs

/-- The first code that applies: FIELD, SRAM_RANGE, ALIGN, DOMAIN. -/
def engineCheck (field range align domain : Bool) : Option Nat :=
  if field then some 2 else if range then some 3 else if align then some 4 else if domain then some 6 else none

/-- The ranges (address, bytes) leave cluster SRAM. -/
def leavesSram (l : List (Nat × Nat)) : Bool := l.any fun p => clusterBytes < p.1 + p.2

/-- Bytes of `n` bits. -/
def bitBytes (n : Nat) : Nat := (n + 7) / 8

/-! LDPC (R377 to R380) -/

/-- A lifting size of TS 38.212: a × 2^j. -/
def liftSize (z : Nat) : Bool :=
  z ≤ 384 && [2, 3, 5, 7, 9, 11, 13, 15].any fun a => (List.range 8).any fun j => z == a * 2 ^ j

/-- The fields of an LDPC body. -/
structure LdpcBody where
  inAddr : Nat
  outAddr : Nat
  statAddr : Nat
  bg : Nat
  z : Nat
  rows : Nat
  iters : Nat
  early : Bool
  crc : Nat
  filler : Nat
  blocks : Nat
  inStride : Nat
  outStride : Nat

/-- The LDPC body of a descriptor. -/
def ldpcBody (d : Desc) (r : StreamRun) : LdpcBody where
  inAddr := r.place d 0x10
  outAddr := r.place d 0x14
  statAddr := r.place d 0x18
  bg := d.fld 0x20 0 1
  z := d.fld 0x20 1 9
  rows := d.fld 0x20 10 6
  iters := if d.fld 0x20 16 4 = 0 then 8 else d.fld 0x20 16 4
  early := d.fld 0x20 20 1 == 1
  crc := d.fld 0x20 21 2
  filler := d.fld 0x24 0 15
  blocks := d.fld 0x24 16 16 + 1
  inStride := 64 * d.fld 0x28 0 16
  outStride := 64 * d.fld 0x28 16 16

/-- Columns of a block. -/
def LdpcBody.cols (b : LdpcBody) : Nat := (if b.bg = 0 then 22 else 10) + b.rows

/-- Information bits K_i of a block. -/
def LdpcBody.info (b : LdpcBody) : Nat := (if b.bg = 0 then 22 else 10) * b.z - b.filler

/-- A field of the body breaks R377. -/
def LdpcBody.bad (b : LdpcBody) : Bool :=
  !liftSize b.z || b.rows < 4 || (if b.bg = 0 then 46 else 42) < b.rows || b.info = 0

/-- The iteration cap I (R378). -/
def LdpcBody.cap (b : LdpcBody) : Nat :=
  let nnz := if b.bg = 0 && b.rows = 46 then 316 else Config.ldpcNnz b.bg b.rows
  let l := max 1 ((nnz * b.z + 6143) / 6144)
  min b.iters (max l ((b.info + 29) / 30) / l)

/-- The fields a block's result depends on. -/
def LdpcBody.key (b : LdpcBody) : List Nat := [b.bg, b.z, b.rows, b.cap, if b.early then 1 else 0, b.crc, b.filler]

/-- One block decoded: state, failed blocks, iterations. -/
def State.ldpcBlock (s : State) (c : Nat) (b : LdpcBody) (i : Nat) : State :=
  let llrs := (s.bytes (clusterKey c (b.inAddr + b.inStride * i)) (b.cols * b.z)).map fun x => if x = 0x80 then 0x81 else x
  let (bits, it, failed, crc) := Config.ldpcDecode b.key llrs
  let it := if b.early then max 1 (min it b.cap) else b.cap
  let word := (if crc then 1 else 0) + (if failed = 0 then 2 else 0) + it * 4 + b.cap * 64
  let t := s.setNum (clusterKey c (b.outAddr + b.outStride * i)) (bitBytes b.info) (bits % 2 ^ b.info)
  let t := (t.setNum (clusterKey c (b.statAddr + 8 * i)) 4 word).setNum (clusterKey c (b.statAddr + 8 * i + 4)) 4 failed
  let t := (t.bump (R.RADIO_LDPC_CB_COUNT c) 1).bump (R.RADIO_LDPC_ITER_COUNT c) it
  (t.iff (b.cap < b.iters) (·.sat (R.RADIO_LDPC_CAPPED_COUNT c) 1)).iff (!crc) (·.sat (R.RADIO_LDPC_CRCFAIL_COUNT c) 1)

/-- LDPC_DECODE. -/
def execLdpcDecode (c corr bad t : Nat) (s : State) : Ans :=
  s.engineStep c 8 1 2 corr bad t fun s d r =>
    let b := ldpcBody d r
    let last := b.blocks - 1
    match engineCheck b.bad
      (leavesSram [(b.inAddr + b.inStride * last, b.cols * b.z), (b.outAddr + b.outStride * last, bitBytes b.info),
        (b.statAddr, 8 * b.blocks)])
      (b.inAddr % 64 != 0 || b.outAddr % 64 != 0 || b.statAddr % 8 != 0) false with
    | some code => .error code
    | none => .ok (s.each (List.range b.blocks) fun t i => t.ldpcBlock c b i,
        Span.mk b.statAddr (8 * b.blocks) ::
          (List.range b.blocks).map fun i => Span.mk (b.outAddr + b.outStride * i) (bitBytes b.info))

/-- LDPC_ENCODE: C × Z coded bits per block. -/
def execLdpcEncode (c corr bad t : Nat) (s : State) : Ans :=
  s.engineStep c 8 2 2 corr bad t fun s d r =>
    let b := ldpcBody d r
    let last := b.blocks - 1
    let out := bitBytes (b.cols * b.z)
    match engineCheck b.bad
      (leavesSram [(b.inAddr + b.inStride * last, bitBytes b.info), (b.outAddr + b.outStride * last, out)])
      (b.inAddr % 64 != 0 || b.outAddr % 64 != 0) false with
    | some code => .error code
    | none => .ok (s.each (List.range b.blocks) fun t i =>
        t.setNum (clusterKey c (b.outAddr + b.outStride * i)) out
          (Config.ldpcEncode b.key (t.bytes (clusterKey c (b.inAddr + b.inStride * i)) (bitBytes b.info))),
        (List.range b.blocks).map fun i => Span.mk (b.outAddr + b.outStride * i) out)

/-! Polar (R381) -/

/-- The fields of a polar body: N_LOG2, K, E, CRC, LIST_LOG2, ILV, CH_ILV, NPC. -/
def polarKey (d : Desc) : List Nat :=
  [d.fld 0x20 0 4, d.fld 0x20 4 11 + 1, d.fld 0x20 16 14 + 1, d.fld 0x20 30 2, d.fld 0x24 0 2, d.fld 0x24 2 1,
   d.fld 0x24 3 1, d.fld 0x24 4 2]

/-- A field breaks R381, or TS 38.212 does not define the combination. -/
def polarBad (d : Desc) : Bool :=
  let n := d.fld 0x20 0 4
  let k := d.fld 0x20 4 11 + 1
  let npc := d.fld 0x24 4 2
  n < 5 || 10 < n || k < 12 || 1023 < k || d.fld 0x20 15 1 != 0 || d.fld 0x20 30 2 = 3 || !(npc == 0 || npc == 3)
    || d.fld 0x24 6 26 != 0 || !Config.polarDefined (polarKey d)

/-- POLAR_DECODE: K bits, then a byte whose bit 0 says that the CRC passes. -/
def execPolarDecode (c corr bad t : Nat) (s : State) : Ans :=
  s.engineStep c 9 1 2 corr bad t fun s d r =>
    let k := d.fld 0x20 4 11 + 1
    let e := d.fld 0x20 16 14 + 1
    let i := r.place d 0x10
    let o := r.place d 0x14
    match engineCheck (polarBad d) (leavesSram [(i, e), (o, bitBytes k + 1)]) false false with
    | some code => .error code
    | none =>
      let (bits, ok) := Config.polarDecode (polarKey d) (s.bytes (clusterKey c i) e)
      let flag := o + bitBytes k
      let old := (s.byte (clusterKey c flag)).toNat / 2 * 2
      .ok ((s.setNum (clusterKey c o) (bitBytes k) (bits % 2 ^ k)).setNum (clusterKey c flag) 1 (old + if ok then 1 else 0),
        [Span.mk o (bitBytes k + 1)])

/-- POLAR_ENCODE: E bits. -/
def execPolarEncode (c corr bad t : Nat) (s : State) : Ans :=
  s.engineStep c 9 2 2 corr bad t fun s d r =>
    let k := d.fld 0x20 4 11 + 1
    let e := d.fld 0x20 16 14 + 1
    let i := r.place d 0x10
    let o := r.place d 0x14
    match engineCheck (polarBad d) (leavesSram [(i, bitBytes k), (o, bitBytes e)]) false false with
    | some code => .error code
    | none => .ok (s.setNum (clusterKey c o) (bitBytes e)
        (Config.polarEncode (polarKey d) (s.bytes (clusterKey c i) (bitBytes k)) % 2 ^ e), [Span.mk o (bitBytes e)])

/-! FFT (R382, R383) -/

/-- A size the engine supports: 2^4 to 2^12, or 12 × 2^x × 3^y × 5^z up to 3,240. -/
def fftSize (n : Nat) : Bool :=
  (List.range 13).any (fun a => 4 ≤ a && n == 2 ^ a) ||
  (n ≤ 3240 && (List.range 9).any fun x => (List.range 6).any fun y => (List.range 4).any fun z => n == 12 * 2 ^ x * 3 ^ y * 5 ^ z)

/-- Transforms of either direction. -/
def State.fftDesc (s : State) (c : Nat) (inverse : Bool) (d : Desc) (r : StreamRun) : EngineRes :=
  let n := d.fld 0x20 0 12 + 1
  let count := d.fld 0x20 12 16 + 1
  let i := r.place d 0x10
  let o := r.place d 0x14
  let e := r.place d 0x18
  let si := 64 * d.fld 0x24 0 16
  let so := 64 * d.fld 0x24 16 16
  let li := si * (count - 1) + 4 * n
  let lo := so * (count - 1) + 4 * n
  let overlap := i != o && i < o + lo && o < i + li
  match engineCheck (!fftSize n || d.fld 0x20 28 4 != 0 || overlap) (leavesSram [(i, li), (o, lo), (e, count)])
    (i % 64 != 0 || o % 64 != 0) false with
  | some code => .error code
  | none => .ok (s.each (List.range count) fun t k =>
      let (out, ex) := Config.fft inverse n (t.bytes (clusterKey c (i + si * k)) (4 * n))
      (t.setNum (clusterKey c (o + so * k)) (4 * n) out).setNum (clusterKey c (e + k)) 1 ex,
      Span.mk e count :: (List.range count).map fun k => Span.mk (o + so * k) (4 * n))

/-- FFT_FORWARD. -/
def execFftForward (c corr bad t : Nat) (s : State) : Ans :=
  s.engineStep c 10 1 2 corr bad t fun s d r => s.fftDesc c false d r

/-- FFT_INVERSE. -/
def execFftInverse (c corr bad t : Nat) (s : State) : Ans :=
  s.engineStep c 10 2 2 corr bad t fun s d r => s.fftDesc c true d r

/-! PRACH (R384, R385, R397 to R403) -/

/-- L_RA and P by LONG. -/
def prachSize (long : Nat) : Nat × Nat := if long = 1 then (839, 1024) else (139, 256)

/-- PRACH_CORRELATE: P powers per root. -/
def execPrachCorrelate (c corr bad t : Nat) (s : State) : Ans :=
  s.engineStep c 11 1 2 corr bad t fun s d r =>
    let (lra, p) := prachSize (d.fld 0x20 10 1)
    let root := d.fld 0x20 0 10
    let ants := d.fld 0x20 11 5 + 1
    let reps := d.fld 0x20 16 4 + 1
    let roots := d.fld 0x20 20 6 + 1
    let i := r.place d 0x10
    let o := r.place d 0x14
    let sa := 64 * d.fld 0x24 0 16
    let sr := 64 * d.fld 0x24 16 16
    let len := sa * (ants - 1) + sr * (reps - 1) + 4 * lra
    match engineCheck (d.fld 0x20 26 6 != 0 || 12 < reps || lra - 2 < root) (leavesSram [(i, len), (o, 4 * p * roots)])
      (i % 4 != 0 || o % 4 != 0) false with
    | some code => .error code
    | none =>
      let x := (List.range ants).flatMap fun a => (List.range reps).flatMap fun q => s.bytes (clusterKey c (i + sa * a + sr * q)) (4 * lra)
      .ok (s.each (List.range (roots * p)) fun t k =>
        t.setNum (clusterKey c (o + 4 * k)) 4 (min (Config.prachBin [root, lra, ants, reps] x (k / p) (k % p)) 0xFFFF_FFFF),
        [Span.mk o (4 * p * roots)])

/-- The lowest index of the largest value from `lo` to `hi`. -/
def argMax (f : Nat → Nat) (lo hi : Nat) : Nat :=
  (List.range (hi + 1 - lo)).foldl (fun k i => if f k < f (lo + i) then lo + i else k) lo

/-- The largest value from `lo` to `hi`. -/
def maxIn (f : Nat → Nat) (lo hi : Nat) : Nat := f (argMax f lo hi)

/-- The largest value of the zone outside `a` to `b`, if a bin lies there. -/
def maxOutside (f : Nat → Nat) (lo hi a b : Nat) : Option Nat :=
  ((List.range (hi + 1 - lo)).map (· + lo)).foldl (fun m i =>
    if a ≤ i && i ≤ b then m else some (max (m.getD 0) (f i))) none

/-- What the detector makes of one zone (R401): nothing, a rejection by PSR or by repetition, or a detection with its
bin, peak and side value. -/
inductive ZoneRes where
  | none | psr | rep
  | hit (k pk side : Nat)

/-- The settings and floors a detection uses. -/
structure DetectCfg where
  win : Nat
  thr : Nat
  thrHalf : Nat
  psrMin : Nat
  rep : Bool
  floor : Nat
  floorHalf : Nat

/-- One zone from bin `lo` of width `w`. -/
def detectZone (g : DetectCfg) (p h0 h1 : Nat → Nat) (lo w : Nat) : ZoneRes :=
  let hi := lo + w - 1
  let k := argMax p lo (lo + min g.win w - 1)
  let pk := p k
  if pk * 65536 < g.thr * g.floor then .none
  else
    let side := (maxOutside p lo hi (k - 2) (k + 2)).getD (g.floor / 256)
    if pk * 16 < g.psrMin * side then .psr
    else if g.rep &&
      (maxIn h0 (max (k - 1) lo) (min (k + 1) hi) * 65536 < g.thrHalf * g.floorHalf ||
       maxIn h1 (max (k - 1) lo) (min (k + 1) hi) * 65536 < g.thrHalf * g.floorHalf) then .rep
    else .hit k pk side

/-- 16 δ of R402, limited to ±8; none where the three bins are equal. -/
def parabola (a b c : Nat) : Option Int :=
  let den : Int := 2 * (2 * (b : Int) - a - c)
  let num : Int := 16 * ((c : Int) - a)
  if den = 0 then (if num = 0 then none else if num < 0 then some (-8) else some 8)
  else
    let q := NoiseCell.measure.rneQuot (if den < 0 then -num else num) den.natAbs
    some (max (-8) (min q 8))

/-- A detection record (R399): preamble index, root, timing, peak, floor and peak-to-side ratio. -/
def preambleRec (index root toff pk floor side : Nat) : List Byte :=
  let psr := if side = 0 then 0xFFFF else min (pk * 256 / side) 0xFFFF
  toBytes 1 index ++ toBytes 1 root ++ toBytes 2 toff ++ toBytes 4 pk ++ toBytes 4 floor ++ toBytes 2 psr ++ toBytes 2 0

/-- The sixteenth-bin offset of a peak from its neighbours (R398); a free one where the parabola is 0 over 0. -/
def State.peakDelta (s : State) (a pk b : Nat) : State × Int :=
  match parabola a pk b with
  | some x => (s, x)
  | none => let (x, u) := s.drawWord; (u, (x.toNat % 17 : Nat) - 8)

/-- A detected preamble is told to the carrier's L2 (R351). -/
def State.tellPreamble (s : State) (c l : Nat) (args : List Nat) : State :=
  match s.carrierAt c l with
  | some k => s.fapi k 0x89 args
  | none => s

/-- What the zones of one PRACH_DETECT share: the local carrier, the sizes, the places of the profile, the half profiles and
the output, the first preamble and the detector's settings. -/
structure PrachRun where
  l : Nat
  lra : Nat
  p : Nat
  ncs : Nat
  prof : Nat
  halves : Nat
  size : Nat
  out : Nat
  pre : Nat
  cfg : DetectCfg

/-- Zones of a root. -/
def PrachRun.perRoot (g : PrachRun) : Nat := if g.ncs = 0 then 1 else g.lra / g.ncs

/-- First bin of a zone. -/
def PrachRun.start (g : PrachRun) (v : Nat) : Nat := if g.ncs = 0 then (if v = 0 then 0 else g.p) else v * g.ncs * g.p / g.lra

/-- The zones in the order they are searched, those of preambles 0 to 63. -/
def PrachRun.zones (g : PrachRun) (roots : Nat) : List (Nat × Nat) :=
  (List.range roots).flatMap fun root =>
    ((List.range g.perRoot).filter fun v => g.pre + root * g.perRoot + v < 64).map fun v => (root, v)

/-- One zone searched (R401, R402): a preamble found is record `n`. -/
def State.prachZone (s : State) (c : Nat) (g : PrachRun) (n : Nat) (z : Nat × Nat) : State × Nat :=
  let bin := fun base root k => s.num (clusterKey c (base + 4 * (root * g.p + k))) 4
  let lo := g.start z.2
  let w := g.start (z.2 + 1) - lo
  if w = 0 then (s, n)
  else
    match detectZone g.cfg (bin g.prof z.1) (bin g.halves z.1) (bin (g.halves + g.size) z.1) lo w with
    | .none => (s, n)
    | .psr => (s.sat (R.RX_PRACH_PSR_REJ_COUNT c g.l) 1, n)
    | .rep => (s.sat (R.RX_PRACH_REP_REJ_COUNT c g.l) 1, n)
    | .hit k pk side =>
      let f := bin g.prof z.1
      let (t, delta) := s.peakDelta (f (max (k - 1) lo)) pk (f (min (k + 1) (lo + w - 1)))
      let toff := (16 * ((k - lo : Nat) : Int) + delta).toNat
      let index := g.pre + z.1 * g.perRoot + z.2
      let t := (t.setBytes (clusterKey c (g.out + 16 + 16 * n)) (preambleRec index z.1 toff pk g.cfg.floor side)).sat
        (R.RX_PRACH_DET_COUNT c g.l) 1
      (t.tellPreamble c g.l [index, toff, pk, g.cfg.floor], n + 1)

/-- Detection setting `i` of local carrier `l`, from the stream's slot table where there is one. -/
def State.prachSet (s : State) (c l : Nat) (r : StreamRun) (i : Nat) : Nat :=
  match s.slotTable c r.trig.slot with
  | some tab => tab.setting l i
  | none => (s.rxSettings c l).getD i 0

/-- PRACH_DETECT (R399, R401, R402). -/
def execPrachDetect (c corr bad t : Nat) (s : State) : Ans :=
  s.engineStep c 11 2 2 corr bad t fun s d r =>
    let (lra, p) := prachSize (d.fld 0x20 10 1)
    let ncs := d.fld 0x20 0 10
    let roots := d.fld 0x20 11 6 + 1
    let pre := d.fld 0x20 17 6
    let l := d.fld 0x20 23 4
    let set := s.prachSet c l r
    let rep := set 3 == 1
    let half := d.fld 0x14 0 23 != 0
    let prof := r.place d 0x10
    let halves := r.place d 0x14
    let out := r.place d 0x18
    let prev : Desc := BitVec.ofNat 512 (s.num (clusterKey c (r.trig.stream + 64 * (r.pc - 1))) 64)
    let single := r.pc != 0 && prev.fld 0 0 8 == 1 && prev.fld 0x20 16 4 == 0
    let size := 4 * p * roots
    match engineCheck (838 < ncs || 64 < roots || d.fld 0x20 27 5 != 0 || d.fld 0x24 10 22 != 0 || half != rep || (rep && single))
      (leavesSram ([(prof, size), (out, 16 + 16 * 64)] ++ if rep then [(halves, 2 * size)] else []))
      (prof % 64 != 0 || out % 64 != 0) false with
    | some code => .error code
    | none =>
      let g : PrachRun := ⟨l, lra, p, ncs, prof, halves, size, out, pre, ⟨d.fld 0x24 0 10 + 1, set 0, set 1, set 2, rep,
        d.fld 0x28 0 32, d.fld 0x2C 0 32⟩⟩
      let (t, n) := (g.zones roots).foldl (fun acc z => acc.1.prachZone c g acc.2 z) (s, 0)
      .ok (t.setBytes (clusterKey c out) (toBytes 2 n ++ List.replicate 14 0), [Span.mk out (16 + 16 * n)])

/-! Cluster DMA (R386) -/

/-- LEN of a DMA descriptor: a multiple of 64 from 64 to 4 MiB. -/
def dmaLen (d : Desc) : Nat := d.fld 0x28 0 23

/-- LEN breaks its rule. -/
def dmaBad (d : Desc) : Bool := dmaLen d = 0 || dmaLen d % 64 != 0 || 0x40_0000 < dmaLen d

/-- A transfer between a radio vault and cluster SRAM, over the radio plane (R33, R34). An uncorrectable codeword of the vault fails the stream as its reader
(R265), with the one code of an uncorrectable word, SRAM_UNCORR (log entry 101); the vault counts it. -/
def State.dmaVault (s : State) (c : Nat) (toSram : Bool) (d : Desc) (r : StreamRun) : EngineRes :=
  let a := r.place d 0x10
  let va := d.fld 0x20 0 57
  let n := dmaLen d
  match engineCheck (dmaBad d) (leavesSram [(a, n)]) (a % 64 != 0 || va % 64 != 0) (!s.hMapped (64 + c) va n) with
  | some code => .error code
  | none =>
    if s.rd (R.MESH_STOP_CTRL_ENABLED 0 (clusterStop c)) = 0 then .error 0
    else if toSram then (if (s.hFirstBad (64 + c) va n).isSome then .error 7 else
      .ok (s.setBytes (clusterKey c a) (s.hBytes (64 + c) va n), [Span.mk a n]))
    else .ok (s.hStore (64 + c) va (s.bytes (clusterKey c a) n), [])

/-- A transfer between a tile of the cluster and cluster SRAM, over the radio plane (R33, R34). -/
def State.dmaTile (s : State) (c : Nat) (toSram : Bool) (d : Desc) (r : StreamRun) : EngineRes :=
  let a := r.place d 0x10
  let ta := d.fld 0x20 0 22
  let n := dmaLen d
  let site := (s.clusterTiles c)[d.fld 0x20 22 2]?
  match engineCheck (dmaBad d) (leavesSram [(a, n)] || sramSize < ta + n) (a % 64 != 0 || ta % 64 != 0) site.isNone, site with
  | some code, _ => .error code
  | none, some k =>
    if s.rd (R.MESH_STOP_CTRL_ENABLED 0 (clusterStop c)) = 0 then .error 0
    else if toSram then .ok (s.setBytes (clusterKey c a) (s.bytes (tileKey k ta) n), [Span.mk a n])
    else .ok (s.setBytes (tileKey k ta) (s.bytes (clusterKey c a) n), [])
  | none, none => .error 6

/-- The codewords of a vault that a DMA descriptor's read had corrected are counted there (R264). -/
def State.dmaCounts (s : State) (c vcorr : Nat) (d : Desc) : State :=
  match s.radioMark (64 + c) (d.fld 0x20 0 57) with
  | some k => s.sat (R.VAULT_ECC_CORR_COUNT (k / 0x200_0000)) vcorr
  | none => s

/-- DMA_VAULT_TO_SRAM: `vcorr` codewords of the vault are corrected as they are read. -/
def execDmaVaultToSram (c corr bad t : Nat) (s : State) (vcorr : Nat := 0) : Ans :=
  s.engineStep c 12 1 4 corr bad t fun s d r => (s.dmaVault c true d r).map fun e => (e.1.dmaCounts c vcorr d, e.2)

/-- DMA_SRAM_TO_VAULT. -/
def execDmaSramToVault (c corr bad t : Nat) (s : State) : Ans :=
  s.engineStep c 12 2 4 corr bad t fun s d r => s.dmaVault c false d r

/-- DMA_TILE_TO_CLUSTER. -/
def execDmaTileToCluster (c corr bad t : Nat) (s : State) : Ans :=
  s.engineStep c 12 3 4 corr bad t fun s d r => s.dmaTile c true d r

/-- DMA_CLUSTER_TO_TILE. -/
def execDmaClusterToTile (c corr bad t : Nat) (s : State) : Ans :=
  s.engineStep c 12 4 4 corr bad t fun s d r => s.dmaTile c false d r

end Sys2Proof.Machine
end

