-- ==== Sys2Proof/Machine/RegAccess.lean ====
section
/-! DEFINITION. Register accesses from outside: reach and width (R72, R75, R555), what a write changes (R20, R21, R64), reads
that clear (R20), BAR2 (R75, R545), and packets a stop drops (R34, R77). -/

namespace Sys2Proof.Machine

/-! Reach -/

/-- An address that a sender's endpoints reach: the owner and firmware the owner window and every slice window, a slice
its own window, the PCIe host BAR0. -/
def reaches (who : Sender) (a : Nat) : Bool :=
  let windows := 0x1000_0000 ≤ a && a < 0x1400_0000
  match who with
  | .owner => a < 0x400_0000 || windows
  | .firmware => a < 0x400_0000 || windows
  | .slice x => windows && (a - 0x1000_0000) / 0x10_0000 == x
  | .host => 0x1_0000_0000 ≤ a

/-- A register that its block's table does not give although its array's stride covers it: DEV_PHASE_US below 2, and image
kind 0. -/
def unlistedIndex (a : Nat) : Bool := a == 0x40 || a == 0x44 || a == 0x40080

/-- The unit of a register is enabled, and in a slice window the address is one that the slice's state and share show
(R72, R308, R539). -/
def State.unitShown (s : State) (x : RegAt) (a : Nat) : Bool :=
  if x.block.block = .slice then
    let n := x.inst.headD 0
    let off := (a - 0x1000_0000) % 0x10_0000
    (off < 0x100 || s.sliceOpen n) &&
      (off < 0x1_0000 || 0x5_0000 ≤ off || (off - 0x1_0000) / 16 < s.rd (R.SC_SEQ_SEQ_SHARE n))
  else
    let u := unitOf x.block (dimNumber x.block.insts x.inst)
    s.instOn u.1 u.2

/-- The register an access reaches; none where R72 holds. -/
def State.regAt (s : State) (who : Sender) (a width : Nat) : Option RegAt :=
  if !reaches who a || unlistedIndex a || rsvdQueue a then Option.none
  else match regFind a with
    | none => Option.none
    | some x => if x.reg.bytes * 8 = width && s.unitShown x a then some x else Option.none

/-- BAR0 offsets from 0x40 that no row lists read zero and ignore writes (R592). -/
def bar0Hole (who : Sender) (a : Nat) : Bool := who == .host && 0x1_0000_0040 ≤ a && a < 0x1_0001_0000

/-- An access that R72 turns away: counted, but for BAR0's unlisted offsets. -/
def State.turnedAway (s : State) (who : Sender) (a : Nat) : State := if bar0Hole who a then s else s.windowErr

/-! Writes -/

/-- Whether a write of `value` to a register is a command of its own: a register whose every write is one, or one whose
action bit is set. -/
def ownCommand (name : String) (value : Nat) : Bool :=
  ["JQ_TAIL", "SEQ_STATE", "SEQ_POS", "SEQ_PROMPT_LEN", "SEQ_KV_HANDLE", "MEM_QUERY_VA", "FAB_WIN_HEAD", "FW_LOG_SEL",
    "SEC_EVLOG_SEL", "ASSAY_LOG_SEL"].contains name ||
  (["DEV_FLASH_CTRL", "STRATA_SWITCH_CTRL", "HB_SESSION_CTRL", "HB_ATTACH"].contains name && value / 2 ^ 31 % 2 == 1)

/-- A field belongs to the register's commit group. -/
def inGroup (r : RegDef) (f : FieldDef) : Bool := r.group != .none && f.acc == .rw

/-- The word after a write of `value` to field `f` (R20, R21, R64). At a shadow address only group fields are written, and
their values are checked by a commit; elsewhere a live or plain field takes a listed value, and a 1 clears a W1C bit. -/
def fieldWritten (r : RegDef) (shadow : Bool) (value : Nat) (w : RegWord) (f : FieldDef) : RegWord :=
  let v := bitsOf (BitVec.ofNat 64 value) f.lo f.width
  if shadow then (if inGroup r f then setBits w f.lo f.width v else w)
  else match f.acc with
    | .rw => if inGroup r f || !inRange f v then w else setBits w f.lo f.width v
    | .w1c => w &&& ~~~ (BitVec.ofNat 64 (v * 2 ^ f.lo))
    | _ => w

/-- The word after a write. -/
def wordWritten (r : RegDef) (shadow : Bool) (value : Nat) (w : RegWord) : RegWord :=
  r.fields.foldl (fieldWritten r shadow value) w

/-- The fields of a register that are written at its active address leave it no part: all belong to a commit group. -/
def allGrouped (r : RegDef) : Bool := r.group != .none && r.fields.all (inGroup r)

/-- A write reaches its register. -/
def State.putReg (s : State) (x : RegAt) (a value : Nat) : State :=
  s.wrWord a (wordWritten x.reg x.shadow value (regWord s.regs a))

/-- The levels the device drives: OWNER_OUT pins whose OE is 1 (R648, R655). -/
def State.drivePins (s : State) : State :=
  let oe := BitVec.ofNat 8 (s.rd R.DEV_GPIO_OE_OE) &&& BitVec.ofNat 8 s.dev.pinRoles
  s.emit .pin [1, oe.toNat, (oe &&& BitVec.ofNat 8 (s.rd R.DEV_GPIO_OUT_OUT)).toNat]

/-- A GO of a request slot whose OP is not used: the slot's own checks answer it (R287, R613, R615). -/
def State.oddRequest (s : State) (x : RegAt) (value : Nat) : Option State :=
  let go := value / 2 ^ 31 % 2 == 1
  let n := x.inst.headD 0
  let k := x.idx.headD 0
  let ticket := value / 256 % 256
  if !go then Option.none
  else if x.reg.name = "MEM_REQ_CTRL" then
    some (if 1 ≤ value % 256 && value % 256 ≤ 4 then s else s.memGo n k (value % 256) ticket (value / 2 ^ 16 % 16))
  else if x.reg.name = "REQ_CTRL" then some (if value % 4 = 1 || value % 4 = 2 then s else s.reqGo 0 k (value % 4) ticket)
  else if x.reg.name = "SREQ_CTRL" then some (if value % 4 = 1 || value % 4 = 2 then s else s.reqGo (1 + n) k (value % 4) ticket)
  else if x.reg.name = "SLICECTL_CMD" then some (if value / 64 % 4 = 0 then s.sliceResult (value % 64) 7 else s)
  else Option.none

/-- A write is ignored by the state of its slot or model: a request slot that is BUSY (R287), a field other than ENABLE of
a model that is enabled (R310). -/
def State.heldField (s : State) (x : RegAt) : Bool :=
  let n := x.inst.headD 0
  let k := x.idx.headD 0
  (["MEM_REQ_CTRL", "MEM_REQ_HANDLE", "MEM_REQ_VADDR", "MEM_REQ_FIRST", "MEM_REQ_COUNT", "MEM_REQ_TARGET"].contains x.reg.name
      && s.rd (R.MEM_REQ_CTRL_GO n k) == 1)
    || (["MODEL_STEP", "MODEL_WLIST", "MODEL_WLIST_LEN"].contains x.reg.name && s.rd (R.MODEL_CTRL_ENABLE n k) == 1)

/-- What a write sets going in the same cycle: the room of a completion ring is shown (R302), an unlisted FLOOR is reported
(R138), a switch request's fields written while nothing is staged answer BUSY (R81), the pins follow. Admission takes a
live value at its next decision (R71, R307). -/
def State.liveActed (s : State) (x : RegAt) (value : Nat) : State :=
  let n := x.inst.headD 0
  if x.reg.name = "CQ_HEAD" then s.showCq n (x.idx.headD 0)
  else if x.reg.name = "TILE_ARRAY_SHAPING" then s.iff (16 < value / 2 % 32) (·.flag (R.TILE_ARRAY_ERR_BAD_WRITE n))
  else if x.reg.name = "STRATA_SWITCH_CTRL" then s.iff (s.rd R.STRATA_STATUS_RELOAD != 2) (·.rejectStrata 4 0xFF 0)
  else if x.reg.name = "DEV_GPIO_OE" || x.reg.name = "DEV_GPIO_OUT" then s.drivePins
  else s

/-- The effect of a write that reaches register `x`. -/
def State.regWrite (s : State) (x : RegAt) (a value : Nat) : State :=
  let n := x.inst.headD 0
  let k := x.idx.headD 0
  if ownCommand x.reg.name value || s.heldField x then s
  else if !x.shadow && allGrouped x.reg then s.windowErr
  else match s.oddRequest x value with
    | some t => t
    | none =>
      if x.reg.name = "MODEL_CTRL" && s.rd (R.MODEL_CTRL_ENABLE n k) = 1 then s.wr (R.MODEL_CTRL_ENABLE n k) value
      else (s.putReg x a value).liveActed x value

/-- REGISTER_WRITE: sender `who` writes `value`, `width` bits wide, at address `a`. -/
def execRegisterWrite (who : Sender) (a width value t : Nat) (s : State) : Ans :=
  .next <|
    let s := s.atTime t
    match s.regAt who a width with
    | none => s.turnedAway who a
    | some x => s.regWrite x a value

/-! Reads -/

/-- The fields of a word that a read shows: not those that are write-only. -/
def shownMask (r : RegDef) : RegWord :=
  r.fields.foldl (fun m f => if f.acc = .wo then m else m ||| bitMask f.lo f.width) 0

/-- TBL_STATE of the table that TBL_SELECT names; zeros for none (R83). -/
def State.tableWord (s : State) : Nat :=
  let id := s.rd R.TBL_SELECT_ID
  let y := s.table id
  if id = 0 || 10 < id then 0
  else y.epoch + (if y.active1 then 2 ^ 16 else 0) + (if y.stalled then 2 ^ 17 else 0) + min y.oldFly 4095 * 2 ^ 18

/-- The word a read returns: the register's, or for a register that shows something else, that. -/
def State.readWord (s : State) (x : RegAt) (a : Nat) : Nat :=
  let plain := (regWord s.regs a &&& shownMask x.reg).toNat
  let n := x.inst.headD 0
  match x.reg.name with
  | "TBL_STATE" => s.tableWord
  | "HB_DEV_STATUS" => (regWord s.regs R.DEV_STATUS_PHASE.addr).toNat
  | "HB_SLICE_GEN" => s.gen (s.rd R.HB_ATTACH_SLICE)
  | "PCIE_HB_AGE" => min ((s.now - s.host.beatAt) / 1000) 0xFFFF_FFFF
  | "FW_NOTIFY_PEND" => s.pendBits
  | "AIR_NOW" => (regWord s.showNow.regs a).toNat
  | "SLICE_IDENT" => plain / 64 * 64 + n
  | _ => plain

/-- The word with its RC fields cleared (R20). -/
def readCleared (r : RegDef) (w : RegWord) : RegWord :=
  r.fields.foldl (fun w f => if f.acc = .rc then setBits w f.lo f.width 0 else w) w

/-- The effect of a read that reaches register `x`: its value goes out, and RC fields clear. -/
def State.regRead (s : State) (x : RegAt) (a : Nat) : State :=
  let v := s.readWord x a
  let s := s.emit .read [a, v]
  if x.reg.fields.any (·.acc == .rc) then s.wrWord a (readCleared x.reg (regWord s.regs a)) else s

/-- RC_READ: sender `who` reads `width` bits at address `a`. A stop whose radio boundary has passed shows (R46). -/
def execRcRead (who : Sender) (a width t : Nat) (s : State) : Ans :=
  .next <|
    let s := (s.atTime t).settleStop.passStop
    match s.regAt who a width with
    | none => (s.turnedAway who a).emit .read [a, 0]
    | some x => s.regRead x a

/-- WINDOW_ACCESS_ERROR: an access that reaches no register as wide as it is; a write of a register whose fields all belong
to a commit group, at its active address, is one too (R64). -/
def execWindowAccessError (who : Sender) (a width : Nat) (write : Bool) (t : Nat) (s : State) : Ans :=
  .next <|
    let s := s.atTime t
    let t := if write then s else s.emit .read [a, 0]
    match s.regAt who a width with
    | none => t.turnedAway who a
    | some x => if write && !x.shadow && allGrouped x.reg then s.windowErr else s

/-- PLANE_VIOLATION_DROP: a unit offers a packet to a plane (0 radio, 1 inference, 2 management) at a stop. -/
def execPlaneViolationDrop (plane stop t : Nat) (s : State) : Ans :=
  onUnit (plane < 3 && stop < 160) <|
    let s := s.atTime t
    if s.rd (R.MESH_STOP_CTRL_ENABLED plane stop) = 1 then s else s.sat (R.MESH_PLANE_VIOL_COUNT plane stop) 1

/-! BAR2 (R75) -/

/-- The state a command answers, or the one before it. -/
def stateOf (s : State) (r : Ans) : State :=
  match r with
  | .next t => t
  | _ => s

/-- A write of a slice's register that is a command of its own (R69, R287, R301, R309, R604, R615). -/
def State.sliceCommand (s : State) (x : Nat) (r : RegAt) (off value t : Nat) : Option State :=
  let k := r.idx.headD 0
  let go := value / 2 ^ 31 % 2 == 1
  let ticket := value / 256 % 256
  match r.reg.name with
  | "JQ_TAIL" => some (stateOf s (execJqDoorbell x k value t s))
  | "JQ_CTRL" => if !r.shadow && value / 2 % 2 = 1 then some (stateOf s (execJqFlush x k t s)) else Option.none
  | "SLICE_CG_COMMIT" => some (stateOf s (execCgCommit (1 + x) (value % 256) (value / 256 % 256) (value / 2 ^ 16 % 256) (value / 2 ^ 24) t s))
  | "SLICE_CG_DISCARD" => some (stateOf s (execCgDiscard (1 + x) (value % 256) (value / 256 % 256) (value / 2 ^ 16 % 256) t s))
  | "SLICE_EXTEND_CTRL" => if go then some (stateOf s (execSliceExtend x t s)) else Option.none
  | "MEM_REQ_CTRL" => if go then some (s.memGo x k (value % 256) ticket (value / 2 ^ 16 % 16)) else Option.none
  | "SREQ_CTRL" => if go then some (s.reqGo (1 + x) k (value % 4) ticket) else Option.none
  | _ =>
    if 0x1_0000 ≤ off && off < 0x5_0000 then
      some (stateOf s (execSeqEntryWrite x ((off - 0x1_0000) / 16) (off % 16 / 4) value t s))
    else Option.none

/-- The slice whose window a BAR2 offset addresses, where a VALID entry of the PASID map binds the PASID to it. -/
def State.boundSlice (s : State) (pasid off : Nat) : Option Nat :=
  let x := off / 0x10_0000
  if x < 64 && (s.pasids.any fun i => s.rd (R.PASID_ENTRY_PASID i) == pasid && s.rd (R.PASID_ENTRY_SLICE i) == x) then some x
  else Option.none

/-- BAR2_ACCESS: the host reads (`w` none) or writes `width` bits at a BAR2 offset under a PASID. -/
def execBar2Access (pasid off width : Nat) (w : Option Nat) (t : Nat) (s : State) : Ans :=
  .next <|
    let s := s.atTime t
    let a := 0x1000_0000 + off
    let away := fun (s : State) => if w.isNone then s.windowErr.emit .read [a, 0] else s.windowErr
    if !s.hostReach then s
    else match s.boundSlice pasid off with
      | none => away s
      | some x => match s.regAt (.slice x) a width with
        | none => away s
        | some r => match w with
          | none => s.regRead r a
          | some v => (s.sliceCommand x r (off % 0x10_0000) v t).getD (s.regWrite r a v)

end Sys2Proof.Machine
end

