-- ==== Sys2Proof/Machine/TileArray.lean ====
section
/-! DEFINITION. The matrix array (R115 to R145) and the accumulator port (R155, R156): MATMUL, ACC_READ, ACC_LOAD, the
activity level's intervals, and the capture of Assay samples (R627). -/

namespace Sys2Proof.Machine

/-! Exact reduction -/

/-- The sum of one chunk of 32 products in compatibility mode: the first enters exactly, every addition rounds once
(R249). -/
def compatSum : List Fp → Fp
  | [] => .fin false 0 0
  | p :: ps => ps.foldl (fun s x => f32Val (f32Round (s.add x))) p

/-- One output element: chunks of `kc` products in ascending K, each rounded once into the accumulator (R122, R123). -/
def reduceK (sum : List Fp → Fp) (p : Nat → Fp) (k kc : Nat) (fresh : Bool) (old : Nat) (sigma : Int) : Nat :=
  (List.range ((k + kc - 1) / kc)).foldl (fun acc c =>
    accUpdate (fresh && c == 0) acc (sum ((List.range (min kc (k - c * kc))).map fun t => p (c * kc + t))) sigma) old

/-- The format class for its numbers; 2 where a pairing is refused anyway. -/
def classOf (fa fb : Nat) : Nat := (formatClass fa fb).getD 2

/-! Assay capture (R627) -/

/-- The bytes of the spans in a tile's SRAM. -/
def State.spanBytes (s : State) (site : Nat) (l : List Span) : List Byte :=
  l.flatMap fun p => s.bytes (tileKey site p.addr) p.len

/-- A selected command is captured if its inputs fit the check buffer; with 4 samples waiting the selection is
dropped and counted. -/
def State.capture (s : State) (site : Nat) (e : QEntry) (seam compat : Bool) (inputs : List Byte) (rows : List Nat) :
    State :=
  if s.rd R.ASSAY_CTRL_EN = 0 || 0x10_0000 < inputs.length then s
  else if 4 ≤ s.assay.samples.length then s.sat R.ASSAY_DROPPED_COUNT 1
  else
    let x : Sample := ⟨site, e.tag, seam, compat, e.bits, inputs, rows, s.now, 0⟩
    let t := { s with assay := { s.assay with samples := s.assay.samples ++ [x] } }
    (t.sat R.ASSAY_SAMPLED_COUNT 1).wr R.ASSAY_STATUS_PENDING t.assay.samples.length

/-! MATMUL (R115 to R130, R154) -/

/-- The accumulator rows named do not lie in one bank (ACC_RANGE). -/
def accBad (r : Int) (n : Nat) : Bool := r < 0 || 511 < r || 256 < r.toNat % 256 + n

/-- The decoded body of a MATMUL instance. -/
structure MatOp where
  a : Int
  b : Int
  row : Int
  m : Nat
  n : Nat
  k : Nat
  fa : Nat
  fb : Nat
  start : Nat
  axA : Nat
  axB : Nat
  baseA : Nat
  baseB : Nat
  srefA : Nat
  srefB : Nat
  stride : Nat
deriving DecidableEq, Repr

/-- Reads the body of R154. -/
def Inst.mat (i : Inst) : MatOp where
  a := i.slot 0
  b := i.slot 1
  row := i.slot 2
  m := i.e.fld 0x20 0 8 + 1
  n := i.e.fld 0x20 8 7 + 1
  k := i.e.fld 0x20 16 16 + 1
  fa := i.e.fld 0x24 0 4
  fb := i.e.fld 0x24 4 4
  start := i.e.fld 0x24 8 2
  axA := i.e.fld 0x24 10 2
  axB := i.e.fld 0x24 12 2
  baseA := i.e.fld 0x28 0 12
  baseB := i.e.fld 0x2C 0 12
  srefA := i.e.fld 0x28 12 8
  srefB := i.e.fld 0x2C 12 8
  stride := i.e.fld 0x30 0 16

/-- Format class. -/
def MatOp.cls (o : MatOp) : Nat := classOf o.fa o.fb
/-- Bytes of a bank image and K-chunks. -/
def MatOp.image (o : MatOp) : Nat := bankImage o.cls o.fb
/-- Chunks of the command. -/
def MatOp.chunks (o : MatOp) : Nat := (o.k + kChunk o.cls - 1) / kChunk o.cls
/-- The fill time L_b (R116). -/
def MatOp.fill (o : MatOp) : Nat := o.image / 512
/-- The A rows. -/
def MatOp.aRows (o : MatOp) : List Span := rowsAt o.a o.m (32 * o.stride) (rowBytes o.fa o.k)
/-- The B images. -/
def MatOp.bSpan (o : MatOp) : List Span := oneAt o.b (o.chunks * o.image)
/-- Scale ranges the command reads (R95): none for BF16. -/
def MatOp.scales (o : MatOp) : List (Nat × Nat) :=
  if o.cls = 2 then []
  else [(o.baseA, scaleCount o.axA o.m o.k), (o.baseB, scaleCount o.axB o.k o.n)].filter fun r => r.2 != 0
/-- The row cycles of the command when its first row is read in cycle `f` (R128, R251). -/
def MatOp.run (o : MatOp) (compat : Bool) (f : Nat) : RowRun :=
  let rows := if compat then 4 * o.m else o.m
  let p := max rows o.fill
  ⟨f, p, o.chunks, rows, f + (o.chunks - 1) * p + rows⟩

/-- Element (i, k) of A as the cells receive it (R86, R96, R154). -/
def State.matA (s : State) (site : Nat) (o : MatOp) (i k : Nat) : Fp :=
  expand o.cls o.fa (s.elem site (o.a.toNat + 32 * o.stride * i) o.fa k)
    (s.scaleAt site o.axA o.baseA o.srefA i k - signedOf 8 o.srefA)

/-- Element (k, j) of B: chunk-major bank images of 128 columns (R154). -/
def State.matB (s : State) (site : Nat) (o : MatOp) (k j : Nat) : Fp :=
  let kc := kChunk o.cls
  expand o.cls o.fb (s.elem site (o.b.toNat + k / kc * o.image + k % kc * (128 * fmtBits o.fb / 8)) o.fb j)
    (s.scaleAt site o.axB o.baseB o.srefB k j - signedOf 8 o.srefB)

/-- σ of R122. -/
def MatOp.sigma (o : MatOp) : Int := if o.cls = 2 then 0 else signedOf 8 o.srefA + signedOf 8 o.srefB

/-- One result of a MATMUL: row i, column j. -/
def State.matOut (s : State) (site : Nat) (compat fresh : Bool) (o : MatOp) (i j : Nat) : Nat :=
  reduceK (if compat then compatSum else chunkSum) (fun k => (s.matA site o i k).mul (s.matB site o k j)) o.k
    (if compat then 32 else kChunk o.cls) fresh (s.accAt site (o.row.toNat + i) j) o.sigma

/-- The results of a MATMUL, row by row. -/
def State.matAll (s : State) (site : Nat) (compat fresh : Bool) (o : MatOp) : List Nat :=
  (List.range o.m).flatMap fun i => (List.range o.n).map fun j => s.matOut site compat fresh o i j

/-- The results written to the accumulator file. -/
def State.putMat (s : State) (site : Nat) (o : MatOp) (l : List Nat) : State :=
  s.each (List.range l.length) fun t n => t.setAcc site (o.row.toNat + n / o.n) (n % o.n) (l.getD n 0)

/-- The checks of a MATMUL in order of code (R114, R142, R179, R252). -/
def State.matCode (s : State) (site : Nat) (j : TileJob) (i : Inst) : Option Nat :=
  let o := i.mat
  let spans := o.aRows ++ o.bSpan
  let field := !i.e.clearBut [(0x10, 0, 22), (0x14, 0, 22), (0x18, 0, 9), (0x20, 0, 15), (0x20, 16, 16), (0x24, 0, 14), (0x28, 0, 20),
      (0x2C, 0, 20), (0x30, 0, 16)] || o.start == 3
    || (o.fa ≤ 6 && 1 < o.m && 32 * o.stride < rowBytes o.fa o.k)
  s.sramChecks site j i field (o.a % 32 != 0 || o.b % 512 != 0) false spans
    [(0x20, (formatClass o.fa o.fb).isNone || o.axA == 3 || o.axB == 3),
     (0x21, o.scales.any fun r => 4096 < r.1 + r.2),
     (0x22, o.cls != 2 && (s.scaleBad site o.cls o.fa o.axA o.baseA o.srefA (scaleCount o.axA o.m o.k)
        || s.scaleBad site o.cls o.fb o.axB o.baseB o.srefB (scaleCount o.axB o.k o.n))),
     (0x31, accBad o.row o.m), (0x33, s.rd (R.TILE_ARRAY_STATUS_STATE site) == 6),
     (0x60, j.compat && (o.fa == 1 || o.fb == 1))]

/-- Two ranges (first, count) share an entry. -/
def rangesMeet (a b : Nat × Nat) : Bool := a.1 < b.1 + b.2 && b.1 < a.1 + a.2

/-- The cycle in which the scale check of the head starts (R98): it is next to issue, and every entry of its ranges `l` that
an earlier SCALE_LOAD of the queue writes has been written. -/
def State.scaleStart (s : State) (site q cyc : Nat) (l : List (Nat × Nat)) : Nat :=
  let c := s.queueIn site q cyc
  ((c.loads.filter fun a => l.any fun b => rangesMeet (a.1, a.2.1) b).map (·.2.2 + 1)).foldl max c.headAt

/-- The scale check of a command has not ended (R98), or an earlier SCALE_LOAD of its queue still writes its range. -/
def State.scaleWait (s : State) (site q cyc : Nat) (l : List (Nat × Nat)) : Bool :=
  cyc < s.scaleStart site q cyc l + ((l.map (·.2)).sum + 63) / 64 ||
  (s.tile site).running.any fun c => c.queue == q && c.scaleOut && c.scales.any fun a => l.any fun b => rangesMeet a b

/-- A command of unit `u` that addresses accumulator bank `b` is running (R156). -/
def State.accHeld (s : State) (site b : Nat) (u : TileUnit) : Bool :=
  (s.tile site).running.any fun c => c.unit == u && (match c.acc with | some (r, _) => r / 256 == b | none => false)

/-- The array begins a command whose first row is read in cycle `r.first`: the gap before it ends, the level stays 16
to its last row (R129, R131, R132). -/
def State.beginRows (s : State) (site : Nat) (r : RowRun) : State :=
  let t := s.tallyGap site r.first
  let y := t.tile site
  (t.setTile site { y with
    rows := r :: (y.rows.filter fun p => r.first < p.last + 4096), gapFrom := r.last + 1, dummyTo := r.last + 1,
    rampUp := false, rampEnd := false }).wr (R.TILE_ARRAY_STATUS_STATE site) 3

/-- The stationary bank of the first chunk of a command that issues: the one after the bank its predecessor ends with
(R116; the first after a scrub takes bank 1, log entry 33). -/
def State.nextStat (s : State) (site : Nat) : Nat :=
  match ((s.tile site).running.filterMap (·.array)).getLast? with
  | some w => (w.bank + w.run.chunks) % 2
  | none => (s.rd (R.TILE_ARRAY_STATUS_STAT_BANK site) + 1) % 2

/-- The stationary banks after the chunks of a command whose first chunk goes to bank `k` (R116). The bank shown is that
chunk's unless an earlier command still runs (R137). -/
def State.fillBanks (s : State) (site : Nat) (o : MatOp) (k : Nat) : State :=
  let img := fun c => s.bytes (tileKey site (o.b.toNat + c * o.image)) o.image
  let last := (k + o.chunks - 1) % 2
  let x := s.tile site
  let (a, b) := (img (o.chunks - 1), if o.chunks = 1 then (if last = 0 then x.stat1 else x.stat0) else img (o.chunks - 2))
  (s.setTile site (if last = 0 then { x with stat0 := a, stat1 := b } else { x with stat1 := a, stat0 := b })).iff
    (x.running.all (·.array.isNone)) (·.wr (R.TILE_ARRAY_STATUS_STAT_BANK site) k)

/-- What MATMUL does (R116 to R132). One that meets the array HALTED waits for no ramp (R144, R145). -/
def State.matmulPlan (s : State) (site q cyc par : Nat) (sampled : Bool) (j : TileJob) (i : Inst) : Plan :=
  let o := i.mat
  let x := s.tile site
  let code := s.matCode site j i
  let r := o.run j.compat (cyc + o.fill)
  let fresh := o.start == 1 || (o.start == 2 && firstPass (s.queue site q).frames)
  let rising := s.rd (R.TILE_ARRAY_STATUS_LEVEL site) != 16 || (x.rampUp && cyc < x.fullFrom + 16)
  let other := s.bankHold site (o.aRows ++ o.bSpan) || s.scaleWait site q cyc o.scales
    || s.accHeld site (o.row.toNat / 256) .accPort || cyc + o.fill < x.gapFrom
  let run := { i.onUnit q cyc .array (r.last + 6 - cyc) (o.aRows ++ o.bSpan) [] with
    acc := some (o.row.toNat, o.m), accOut := true, scales := o.scales, par := par
    array := some ⟨r, o.n, o.k, kChunk o.cls, if j.compat then 4 else 1, s.nextStat site, cyc⟩ }
  { code := code, hold := other || (rising && code.isNone), run := some run,
    held := fun t => t.iff (!other) fun t => let y := t.tile site; t.setTile site { y with rampUp := true },
    effect := fun t =>
      let l := t.matAll site j.compat fresh o
      let u := ((t.putMat site o l).fillBanks site o (s.nextStat site)).beginRows site r
      u.iff (sampled && fresh) fun u => u.capture site i.e false j.compat
        (t.spanBytes site (o.aRows ++ o.bSpan) ++ o.scales.flatMap fun p =>
          (List.range p.2).map fun n => BitVec.ofNat 8 (t.rd (scaleFld site (p.1 + n)))) l }

/-- MATMUL: issued in cycle `cyc` once the array is at level 16 and can take it (R126, R129, R132). `par`: the parity
errors that its reads meet, bit 0 in a stationary bank, bit 1 in the accumulator file (R144; COMMAND_COMPLETE names the
cycle). `sampled` says that the Assay unit's generator selects it (R627). -/
def execMatmul (site q cyc par : Nat) (sampled : Bool) (s : State) : Ans :=
  onUnit (s.tileOn site && q < 4) <|
    s.issue site q cyc (fun e => e.opcode == 0x01) fun s q j i =>
      if i.e.opcode = 0x01 then some (s.matmulPlan site q cyc par sampled j i) else none

/-! The accumulator port (R155) -/

/-- The rows of tile SRAM that an ACC_READ or ACC_LOAD touches. -/
def Inst.accRows (i : Inst) : List Span :=
  rowsAt (i.slot 0) (i.e.fld 0x20 0 8 + 1) (32 * i.e.fld 0x24 0 16)
    ((i.e.fld 0x20 8 7 + 1) * if i.e.fld 0x20 16 4 = 5 then 2 else 4)

/-- What ACC_READ and ACC_LOAD share: checks, holds and the record. -/
def State.accPlan (s : State) (site q cyc : Nat) (j : TileJob) (i : Inst) (read : Bool) (outs : List (List Put))
    (effect : State → State) : Plan :=
  let rows := i.e.fld 0x20 0 8 + 1
  let row := i.slot 2
  let f := i.e.fld 0x20 16 4
  let spans := i.accRows
  let field := !i.e.clearBut [(0x10, 0, 22), (0x18, 0, 9), (0x20, 0, 15), (0x20, 16, 4), (0x24, 0, 16)]
  let run := i.onUnit q cyc .accPort (rows + 7) (if read then [] else spans) outs
  { code := s.sramChecks site j i field (i.slot 0 % 64 != 0) false spans
      [(0x20, f != 6 && !(read && f == 5)), (0x31, accBad row rows)]
    hold := s.bankHold site spans || s.unitBusy site cyc .accPort || s.accHeld site (row.toNat / 256) .array
    run := some { run with acc := some (row.toNat, rows), accOut := !read }
    effect := effect }

/-- What ACC_READ does (R155): the accumulator rows of its issue cycle, which no array command changes while it runs
(R156), go to SRAM. -/
def State.accReadPlan (s : State) (site q cyc : Nat) (j : TileJob) (i : Inst) : Plan :=
  let n := i.e.fld 0x20 8 7 + 1
  let row := (i.slot 2).toNat
  let f := i.e.fld 0x20 16 4
  s.accPlan site q cyc j i true ((List.range i.accRows.length).map fun k =>
    [⟨(i.accRows.getD k ⟨0, 0⟩).addr,
      packCodes f ((List.range n).map fun c => fromF32 f (f32Canon (s.accAt site (row + k) c)))⟩]) fun t => t

/-- What ACC_LOAD does (R155). -/
def State.accLoadPlan (s : State) (site q cyc : Nat) (j : TileJob) (i : Inst) : Plan :=
  let n := i.e.fld 0x20 8 7 + 1
  s.accPlan site q cyc j i false [] fun t =>
    t.each (List.range (i.accRows.length * n)) fun t k =>
      let p := i.accRows.getD (k / n) ⟨0, 0⟩
      t.setAcc site ((i.slot 2).toNat + k / n) (k % n) (f32Canon (t.elem site p.addr 6 (k % n)))

/-- A plan whose command meets parity errors when it reads the accumulator file (R144). -/
def Plan.meets (p : Plan) (par : Nat) : Plan := { p with run := p.run.map fun c => { c with par := par } }

/-- What a command of the accumulator port does; an ACC_READ meets the parity errors `par`. -/
def State.portPlan (s : State) (site q cyc par : Nat) (j : TileJob) (i : Inst) : Option Plan :=
  match i.e.opcode with
  | 0x02 => some ((s.accReadPlan site q cyc j i).meets par)
  | 0x03 => some (s.accLoadPlan site q cyc j i)
  | _ => none

/-- ACC_READ: accumulator rows to tile SRAM, as FP32 or BF16. `par` as for MATMUL. -/
def execAccRead (site q cyc par : Nat) (s : State) : Ans :=
  onUnit (s.tileOn site && q < 4) <|
    s.issue site q cyc (fun e => e.opcode == 0x02) fun s q j i => s.portPlan site q cyc par j i

/-- ACC_LOAD: FP32 rows from tile SRAM to the accumulator file, every NaN made canonical. -/
def execAccLoad (site q cyc : Nat) (s : State) : Ans :=
  onUnit (s.tileOn site && q < 4) <|
    s.issue site q cyc (fun e => e.opcode == 0x03) fun s q j i => s.portPlan site q cyc 0 j i

/-! The activity level (R131 to R134) -/

/-- The level in the gap interval `n`, from level `l` before it: up while a command waits; down at once after a job's
end or an abort; else toward the hold level for four intervals, then down (R132, R133, R143). -/
def nextLevel (rampUp rampEnd : Bool) (hold n l : Nat) : Nat :=
  if rampUp then min 16 (l + 1)
  else if rampEnd then l - 1
  else if n < 4 then (if hold < l then l - 1 else l)
  else l - 1

/-- SHAPING_INTERVAL: a 16-cycle interval begins in cycle `cyc`. While rows are read it settles their counts; in a gap it
settles the dummy rows and moves the level. The tile's engines show where they stand (R206). A tile whose job has ended returns to the free set at level 0 (R298),
which the decision of that end sees (R307), or begins its full scrub there. -/
def execShapingInterval (site cyc : Nat) (s : State) : Ans :=
  onUnit (s.tileOn site) <|
    let s := s.showEngines site cyc
    let x := s.tile site
    if cyc < x.gapFrom then s.tallyRows site cyc
    else if (cyc - x.gapFrom) % 16 ≠ 0 || (x.gapFrom ≤ x.lastInt && cyc ≤ x.lastInt && x.lastInt ≠ 0) then s
    else
      let n := (cyc - x.gapFrom) / 16
      let t := (s.tallyGap site cyc).iff (x.lastInt < x.gapFrom || n == 0) fun t => t.sampleShaping site x.gapFrom
      let y := t.tile site
      let l := t.rd (R.TILE_ARRAY_STATUS_LEVEL site)
      let m := nextLevel x.rampUp x.rampEnd y.hold n l
      let t := t.setTile site { y with
        lastInt := cyc, dummyTo := cyc, fullFrom := if x.rampUp && m == 16 && l != 16 then cyc else x.fullFrom }
      let st := if x.rampUp then 2 else if m = 0 then 1 else if x.rampEnd || 4 ≤ n then 5 else 4
      let t := t.wr (R.TILE_ARRAY_STATUS_LEVEL site) m
      let t := if t.rd (R.TILE_ARRAY_STATUS_STATE site) = 6 then t else t.wr (R.TILE_ARRAY_STATUS_STATE site) st
      let freed := m == 0 && t.rd (R.SCHED_TILE_STATE site) == 4 && (t.tile site).job.isNone
      ((t.iff freed (·.wr (R.SCHED_TILE_STATE site) 1)).showScrub site).iff freed State.decision

end Sys2Proof.Machine
end

