-- ==== Sys2Proof/Machine/TileMove.lean ====
section
/-! DEFINITION. Transfers between memory and tile SRAM (R161, R168, R169, R175, R541) and the SEAM command (R182 to
R203). -/

namespace Sys2Proof.Machine

/-! XFER -/

/-- The effective VADDR of an XFER: the stride of slot 1 acts on it (R164). -/
def Inst.vaddr (i : Inst) : Int := i.e.fld 0x20 0 57 + slotAdd i.frames 1

/-- What XFER of a direction does (R161, R168): a region in a bank on its way to ON holds it, as any command (R176; log entry
98). Each tile's XFERs alternate between the two engines of its sector (log entry 98). -/
def State.xferPlan (s : State) (site q : Nat) (out : Bool) (j : TileJob) (i : Inst) : Plan :=
  let n := i.e.fld 0x28 0 22
  let va := i.vaddr
  let spans := oneAt (i.slot 0) n
  let field := !i.e.clearBut [(0x10, 0, 22), (0x20, 0, 57), (0x28, 0, 23)] || n == 0 || n % 64 != 0 || sramSize < n
  let domain := va < 0 || 2 ^ 57 < va + n || !s.hMapped j.holder va.toNat n
  let eng := if j.holder < 64 then site / 17 * 2 + (s.tile site).xferTurn else 16 + (j.holder - 64)
  { code := s.sramChecks site j i field (i.slot 0 % 64 != 0 || va % 64 != 0) false spans [(0x18, domain)]
    hold := s.bankHold site spans
    run := none
    effect := fun t =>
      let (p, t) := t.offer (if j.holder < 64 then 1 else 0) (meshStop site)
      let x := t.tile site
      let r : XferRec := ⟨q, i.e.index, i.e.tag, out, (i.slot 0).toNat, va.toNat, n, eng, j.gen, p, i.e.signal⟩
      t.setTile site { x with
        xfers := x.xfers ++ [r], xferTurn := if j.holder < 64 then 1 - x.xferTurn else x.xferTurn } }

/-- An XFER of either direction (R161, R168): handed over the mesh to a DMA engine of the sector in turn, or to the
claiming cluster's. -/
def State.xfer (s : State) (site q cyc : Nat) (out : Bool) : State :=
  s.issue site q cyc (fun e => e.opcode == 0x0A && (e.fld 0x28 22 1 == 1) == out) fun s q j i =>
    some (s.xferPlan site q out j i)

/-- XFER with DIR = 0. -/
def execXferToSram (site q cyc : Nat) (s : State) : Ans := onUnit (s.tileOn site && q < 4) (s.xfer site q cyc false)

/-- XFER with DIR = 1. -/
def execXferToMemory (site q cyc : Nat) (s : State) : Ans := onUnit (s.tileOn site && q < 4) (s.xfer site q cyc true)

/-- The transfer of queue `q` with this index that was issued first and reached its engine (R34), or that a failure of this
very cycle has cancelled (R181). -/
def State.xferOf (s : State) (site q index cyc : Nat) : Option (XferRec × Bool) :=
  let mine := fun (r : XferRec) => r.queue == q && r.index == index && r.route.isSome
  match (s.tile site).xfers.find? mine with
  | some r => some (r, false)
  | none => (s.failing site cyc).bind fun f => (f.xfers.find? mine).map fun r => (r, true)

/-- A transfer leaves the tile, unless a failure has taken it already; a bank move deferred for it starts its count
(R176). -/
def State.leaveXfer (s : State) (site cyc : Nat) (r : XferRec) (gone : Bool) : State :=
  if gone then s
  else
    let x := s.tile site
    (s.setTile site { x with
      xfers := x.xfers.erase r,
      bankMoves := x.bankMoves.map fun m =>
        if Span.touches ⟨r.sram, r.len⟩ m.bank then { m with since := max m.since cyc } else m }).landPackets r.route

/-- Bytes moved by an inference DMA engine (R292). -/
def State.dmaBytes (s : State) (eng n : Nat) : State :=
  if 16 ≤ eng then s
  else if eng % 2 = 0 then s.bump (R.HUB_DMA0_BYTES_BYTES (eng / 2)) n else s.bump (R.HUB_DMA1_BYTES_BYTES (eng / 2)) n

/-- The data of a transfer moved (R168). -/
def State.moveXfer (s : State) (site h : Nat) (r : XferRec) : State :=
  let t := s.dmaBytes r.engine r.len
  if r.toMemory then t.hStore h r.vaddr (t.bytes (tileKey site r.sram) r.len)
  else (t.setBytes (tileKey site r.sram) (t.hBytes h r.vaddr r.len)).iff (h < 64) (·.touch h r.vaddr r.len)

/-- Words that the reads of a transfer had corrected: of tile SRAM for DIR = 1 (R175), else symbols of the vault that serves
its first byte (R264). -/
def State.xferCorr (s : State) (site h : Nat) (r : XferRec) (corr : Nat) : State :=
  if r.toMemory then s.sat (R.TILE_SRAM_ECC_CORR_COUNT site) corr
  else
    match s.vaultPlace h r.vaddr with
    | some p => s.sat (R.VAULT_ECC_CORR_COUNT p.1) corr
    | none => s

/-- XFER_ARRIVAL: the last byte lands or every write is acknowledged; the signal fires. A completion with an old
generation is discarded (R541); a read that meets an uncorrectable codeword does not arrive (R265). `corr` counts what its
reads had corrected. -/
def execXferArrival (site q index cyc : Nat) (s : State) (corr : Nat := 0) : Ans :=
  onUnit (s.tileOn site && q < 4) <|
    match s.xferOf site q index cyc, (s.tile site).job with
    | some (r, gone), some j =>
      if j.holder < 64 && s.gen j.holder ≠ r.gen then (s.leaveXfer site cyc r gone).staleDrop j.holder
      else if !r.toMemory && (s.hFirstBad j.holder r.vaddr r.len).isSome then s
      else
        let t := ((s.xferCorr site j.holder r corr).moveXfer site j.holder r).leaveXfer site cyc r gone
        (t.signal site cyc r.sig).checkStop site q
    | _, _ => s

/-- XFER_FAULT_REPORT: a DMA engine reports XFER_FAULT (a translation, memory or fabric failure), or where `sram` is
set an uncorrectable word read from tile SRAM at `addr`; the job fails with that code (R175, R179, R180). `fab` is the
fabric code behind the failure, 0 if none, kept in FAB_LAST_FAULT (R506); `corr` counts what its reads had corrected. -/
def execXferFaultReport (site q index cyc : Nat) (sram : Bool) (addr fab : Nat) (s : State) (corr : Nat := 0) : Ans :=
  onUnit (s.tileOn site && q < 4) <|
    match s.xferOf site q index cyc, (s.tile site).job with
    | some (r, gone), some j =>
      if j.holder < 64 && s.gen j.holder ≠ r.gen then (s.leaveXfer site cyc r gone).staleDrop j.holder
      else
        let sram := sram && r.toMemory
        let t := s.xferCorr site j.holder r corr
        let t := if sram then t.sramUncorr site addr else
          match t.hFirstBad j.holder r.vaddr r.len with
          | some (v, cw, m) => if r.toMemory then t else t.vaultBad v cw m
          | none => t
        let t := if fab = 0 || sram then t else t.wr R.FAB_LAST_FAULT_CODE fab
        let t := if gone then t
          else (t.leaveXfer site cyc r false).cancelXfer site { r with route := none }
        t.failCmd site q cyc (if sram then 0x1A else 0x19) r.tag index
    | _, _ => s

/-! SEAM -/

/-- The decoded body of a SEAM instance (R193). -/
structure SeamOp where
  vec : Int
  out : Int
  wscale : Int
  wbase : Int
  n : Nat
  k : Nat
  b : Nat
  fw : Nat
  fv : Nat
  sel : Nat
  wax : Bool
  vax : Bool
  fo : Nat
  srefW : Nat
  srefV : Nat
  vs : Nat
  os : Nat
  vscale : Nat
  wchunks : Nat
deriving DecidableEq, Repr

/-- Reads the body of R193; the stride of slot 3 acts on WBASE. -/
def Inst.seam (i : Inst) : SeamOp where
  vec := i.slot 0
  out := i.slot 1
  wscale := i.slot 2
  wbase := i.e.fld 0x20 0 57 + slotAdd i.frames 3
  n := i.e.fld 0x28 0 16 + 1
  k := i.e.fld 0x28 16 15 + 1
  b := i.e.fld 0x2C 0 3 + 1
  fw := i.e.fld 0x2C 4 4
  fv := i.e.fld 0x2C 8 4
  sel := i.e.fld 0x2C 12 2
  wax := i.e.fld 0x2C 14 1 == 1
  vax := i.e.fld 0x2C 15 1 == 1
  fo := i.e.fld 0x2C 16 4
  srefW := i.e.fld 0x30 0 8
  srefV := i.e.fld 0x30 8 8
  vs := i.e.fld 0x30 16 16
  os := i.e.fld 0x34 0 16
  vscale := i.e.fld 0x38 0 22
  wchunks := i.e.fld 0x3C 0 16

/-- Elements of a channel in one 2 KiB block (R190). -/
def SeamOp.perBlock (o : SeamOp) : Nat := if fmtBits o.fw = 4 then 128 else 64
/-- C of R190. -/
def SeamOp.chunks (o : SeamOp) : Nat := (o.k + o.perBlock - 1) / o.perBlock
/-- G of R190. -/
def SeamOp.groups (o : SeamOp) : Nat := (o.n + 31) / 32
/-- C_s of R190. -/
def SeamOp.stored (o : SeamOp) : Nat := if o.wchunks = 0 then o.chunks else o.wchunks
/-- The virtual address of block (g, c). -/
def SeamOp.block (o : SeamOp) (g c : Nat) : Nat := o.wbase.toNat + 2048 * (g * o.stored + c)
/-- Bytes of the weight region (R191). -/
def SeamOp.region (o : SeamOp) : Nat := 2048 * ((o.groups - 1) * o.stored + o.chunks)
/-- Bytes of a packed vector. -/
def SeamOp.vecBytes (o : SeamOp) : Nat := rowBytes o.fv o.k
/-- The vectors. -/
def SeamOp.vecs (o : SeamOp) : List Span := rowsAt o.vec o.b (32 * o.vs) o.vecBytes
/-- The result rows. -/
def SeamOp.outs (o : SeamOp) : List Span := rowsAt o.out o.b (32 * o.os) (rowBytes o.fo o.n)
/-- The scale bytes read (R187). -/
def SeamOp.scales (o : SeamOp) : List Span :=
  (if o.wax then oneAt o.wscale o.n else []) ++ (if o.vax then oneAt (o.vscale : Int) o.b else [])
/-- Format class of the expansion (R187). -/
def SeamOp.cls (o : SeamOp) : Nat := classOf o.fw o.fv

/-- Scale of channel n, and of vector b. -/
def State.seamScales (s : State) (site : Nat) (o : SeamOp) (n b : Nat) : Int × Int :=
  (if o.wax then (s.byte (tileKey site (o.wscale.toNat + n))).toInt else signedOf 8 o.srefW,
   if o.vax then (s.byte (tileKey site (o.vscale + b))).toInt else signedOf 8 o.srefV)

/-- Weight (n, k) as a code (R190). -/
def State.seamWeight (s : State) (x : Nat) (o : SeamOp) (n k : Nat) : Nat :=
  let per := o.perBlock / 8
  let kk := k % o.perBlock
  let a := o.block (n / 32) (k / o.perBlock) + 256 * (kk / per) + 8 * (n % 32)
  packedAt o.fw (fun i => s.vbyte x (a + i)) (kk % per)

/-- Output n of vector b: the bits of the equivalent fresh MATMUL (R188). -/
def State.seamOut (s : State) (site x : Nat) (o : SeamOp) (b n : Nat) : Nat :=
  let (sw, sv) := s.seamScales site o n b
  reduceK chunkSum (fun k =>
    (expand o.cls o.fv (s.elem site (o.vec.toNat + 32 * o.vs * b) o.fv k) (sv - signedOf 8 o.srefV)).mul
      (expand o.cls o.fw (s.seamWeight x o n k) (sw - signedOf 8 o.srefW)))
    o.k (kChunk o.cls) true 0 (signedOf 8 o.srefW + signedOf 8 o.srefV)

/-- Some scale byte that the command reads lies outside its window (R97, R187). -/
def State.seamRange (s : State) (site : Nat) (o : SeamOp) : Bool :=
  let out := fun (f : Nat) (d : Int) => let w := offsetWindow o.cls f; d < w.1 || w.2 < d
  ((List.range o.n).any fun n => out o.fw ((s.seamScales site o n 0).1 - signedOf 8 o.srefW)) ||
  (List.range o.b).any fun b => out o.fv ((s.seamScales site o 0 b).2 - signedOf 8 o.srefV)

/-- The slabs of the region are not all homed in vault `v` (R191): RESIDENT or in transit out of it. -/
def State.seamAway (s : State) (x v : Nat) (o : SeamOp) : Bool :=
  (slabsOf o.wbase.toNat o.region).any fun k =>
    let h := s.home x k
    h.t3 || h.home != v || !(h.state == .resident || h.state == .transit)

/-- The checks of a SEAM in order of code. -/
def State.seamCode (s : State) (site : Nat) (j : TileJob) (i : Inst) : Option Nat :=
  let o := i.seam
  let field := !i.e.clearBut [(0x10, 0, 22), (0x14, 0, 22), (0x18, 0, 22), (0x20, 0, 57), (0x28, 0, 31), (0x2C, 0, 3),
      (0x2C, 4, 16), (0x30, 0, 32), (0x34, 0, 16), (0x38, 0, 22), (0x3C, 0, 16)]
    || o.sel == 3 || (!o.wax && i.e.slot 2 != 0) || (!o.vax && o.vscale != 0)
  let domain := 64 ≤ j.holder || o.wbase < 0 || 2 ^ 57 < o.wbase + o.region || !s.mapped j.holder o.wbase.toNat o.region
  let shape := 131072 < o.b * o.vecBytes || 32 * o.vs < o.vecBytes || 32 * o.os < rowBytes o.fo o.n
    || (o.wchunks != 0 && o.wchunks < o.chunks)
  let v := s.seamVault site o.sel
  s.sramChecks site j i field (o.vec % 64 != 0 || o.out % 64 != 0 || o.wbase % 2048 != 0)
    (meets o.outs (o.vecs ++ o.scales)) (o.vecs ++ o.outs ++ o.scales)
    [(0x18, domain), (0x20, 4 < o.fw || 4 < o.fv || !(o.fo == 5 || o.fo == 6)), (0x22, s.seamRange site o),
     (0x40, shape), (0x41, v == 0), (0x42, s.seamAway j.holder (v - 1) o), (0x60, j.compat)]

/-- The first codeword of the region, group by group, that cannot be corrected (R202): its group, its number in the group,
and the codeword (vault, number, byte mask). -/
def State.seamBad (s : State) (x : Nat) (o : SeamOp) : Option (Nat × Nat × Nat × Nat × Nat) :=
  (List.range o.groups).findSome? fun g => (List.range (64 * o.chunks)).findSome? fun i =>
    (s.firstBad x (o.block g 0 + 32 * i) 32).map fun e => (g, i, e)

/-- Port cycles of one transfer (R196, R197): two for 4-bit weights with 8-bit vectors above B = 4, and for any while
R286 throttles the port. -/
def State.portCycles (s : State) (v : Nat) (o : SeamOp) : Nat :=
  if 2 ≤ s.rd (R.HUB_THERM_STATE_LEVEL (sectorOfVault v)) || (fmtBits o.fw == 4 && fmtBits o.fv == 8 && 5 ≤ o.b) then 2 else 1

/-- ACLK cycles per port cycle, as a fraction: 2.4 GHz to 1.2 GT/s, or in Stream mode 2.0 GHz to 1.6 GT/s (R197, R200). -/
def State.portRatio (s : State) (v : Nat) : Nat × Nat := if s.rd (R.VAULT_PORT_MODE_RATE v) = 1 then (5, 4) else (2, 1)

/-- The engine's work for a SEAM of `total` transfers (R190, R197). -/
def State.seamWork (s : State) (v yields total : Nat) (bad : Option (Nat × Nat × Nat)) (o : SeamOp) : SeamWork :=
  let bytes := o.b * o.vecBytes + (o.scales.map (·.len)).sum
  let path := if o.sel = 0 then 128 else 64
  let r := s.portRatio v
  { vault := v, perGroup := 8 * o.chunks, total := total
    lead := (bytes + path - 1) / path + 4 + (24 * r.1 + r.2 - 1) / r.2
    num := r.1 * s.portCycles v o, den := r.2, n := o.n, k := o.k, b := o.b, step := o.perBlock / 8, yields := yields
    bad := bad }

/-- The results of one group of 32 channels, a row per vector (R189). -/
def State.seamGroup (s : State) (site x : Nat) (o : SeamOp) (g : Nat) : List Put :=
  (List.range o.b).map fun b =>
    ⟨o.out.toNat + 32 * o.os * b + 32 * g * (fmtBits o.fo / 8),
      packCodes o.fo ((List.range (min 32 (o.n - 32 * g))).map fun c => fromF32 o.fo (s.seamOut site x o b (32 * g + c)))⟩

/-- What SEAM does (R184 to R203). It completes once its last group is written, or at the codeword that ends it. -/
def State.seamPlan (s : State) (site q cyc : Nat) (yields : Nat) (sampled : Bool) (j : TileJob) (i : Inst) : Plan :=
  let o := i.seam
  let x := j.holder
  let v := s.seamVault site o.sel - 1
  let bad := s.seamBad x o
  let groups := match bad with | some (g, _) => g | none => o.groups
  let total := match bad with | some (g, k, _) => 8 * o.chunks * g + k / 8 + 1 | none => 8 * o.chunks * o.groups
  let w := s.seamWork v yields total (bad.map fun e => e.2.2) o
  let tail := if bad.isSome then 0
    else (6 * w.num + w.den - 1) / w.den + (if o.fo = 6 then o.b else (o.b + 1) / 2)
  let slabs := (slabsOf o.wbase.toNat o.region).map fun k => (x, k)
  { code := s.seamCode site j i
    hold := s.bankHold site (o.vecs ++ o.outs ++ o.scales) || 2 ≤ (s.vault v).held.length
      || s.rd (R.VAULT_SEAM_STATUS_DRIVER_VALID v) == 0 || s.rd (R.VAULT_SEAM_STATUS_DRIVER v) != site
    run := some { i.onUnit q cyc .seam (w.cycles total + tail) (o.vecs ++ o.scales)
        ((List.range groups).map fun g => s.seamGroup site x o g) with
      seam := some w, pins := slabs, code := if bad.isSome then 0x43 else 0 }
    effect := fun t =>
      let u := t.touch x o.wbase.toNat o.region
      let u := { u with mm := { u.mm with pins := u.mm.pins ++ slabs } }
      let u := u.setVault v { u.vault v with held := (u.vault v).held ++ [site] }
      let n := (u.vault v).held.length
      let u := u.wrs [(R.VAULT_SEAM_STATUS_QUEUED v, n), (R.VAULT_SEAM_STATUS_STATE v,
        if n = 1 then 2 else u.rd (R.VAULT_SEAM_STATUS_STATE v))]
      u.iff (sampled && bad.isNone) fun u => u.capture site i.e true j.compat
        (t.spanBytes site (o.vecs ++ o.scales) ++ (List.range o.groups).flatMap fun g =>
          t.vbytes x (o.block g 0) (2048 * o.chunks))
        ((List.range o.b).flatMap fun b => (List.range o.n).map fun c => t.seamOut site x o b c) }

/-- SEAM: held until its engine has a free buffer and takes commands from this tile (R186, R195); y_b = W × x_b. `yields`
are the port cycles its stream gives to other requesters (R199), `sampled` that the Assay unit selects it. -/
def execSeam (site q cyc yields : Nat) (sampled : Bool) (s : State) : Ans :=
  onUnit (s.tileOn site && q < 4) <|
    s.issue site q cyc (fun e => e.opcode == 0x0B) fun s q j i =>
      some (s.seamPlan site q cyc yields sampled j i)

end Sys2Proof.Machine
end

