-- ==== Sys2Proof/Machine/TileVec.lean ====
section
/-! DEFINITION. The quantiser (R99 to R113, R157, R158), the vector unit (R159, R226 to R231), the special-function unit
(R213 to R225) and the copy engine (R160). -/

namespace Sys2Proof.Machine

/-! SCALE_LOAD (R99 to R101, R157) -/

/-- What SCALE_LOAD does (R157). -/
def State.scaleLoadPlan (s : State) (site q cyc : Nat) (j : TileJob) (i : Inst) : Plan :=
  let first := i.e.fld 0x20 0 12
  let n := i.e.fld 0x20 12 13
  let spans := oneAt (i.slot 0) n
  let field := !i.e.clearBut [(0x10, 0, 22), (0x20, 0, 25)] || n == 0 || 4096 < n
  let read := (s.tile site).running.any fun c => c.queue == q &&
    c.scales.any fun r => r.1 < first + n && first < r.1 + r.2
  { code := s.sramChecks site j i field false false spans [(0x21, 4096 < first + n)]
    hold := s.bankHold site spans || s.unitBusy site cyc .quant || read
    run := some { i.onUnit q cyc .quant ((n + 63) / 64 + 3) spans [] with
      scales := [(first, n)], scaleOut := true, scaleData := s.bytes (tileKey site (i.slot 0).toNat) n }
    effect := fun t => t }

/-! QUANT (R104 to R113, R158) -/

/-- The decoded body of a QUANT instance. -/
structure QuantOp where
  src : Int
  dst : Int
  stats : Int
  srcFmt : Nat
  dstFmt : Nat
  axis : Nat
  statsEn : Bool
  groupLog : Nat
  rows : Nat
  cols : Nat
  base : Nat
  sref : Nat
  srcStride : Nat
  dstStride : Nat
deriving DecidableEq, Repr

/-- Reads the body of R158. -/
def Inst.quant (i : Inst) : QuantOp where
  src := i.slot 0
  dst := i.slot 1
  stats := i.slot 2
  srcFmt := i.e.fld 0x20 0 4
  dstFmt := i.e.fld 0x20 4 4
  axis := i.e.fld 0x20 8 2
  statsEn := i.e.fld 0x20 10 1 == 1
  groupLog := i.e.fld 0x20 11 4
  rows := i.e.fld 0x20 16 16 + 1
  cols := i.e.fld 0x24 0 16 + 1
  base := i.e.fld 0x28 0 12
  sref := i.e.fld 0x28 12 8
  srcStride := i.e.fld 0x2C 0 16
  dstStride := i.e.fld 0x2C 16 16

/-- Channels along the group axis and groups (R108). -/
def QuantOp.groups (o : QuantOp) : Nat :=
  ((if o.axis = 1 then o.rows else o.cols) + 2 ^ o.groupLog - 1) / 2 ^ o.groupLog

/-- The group of element (i, j). -/
def QuantOp.groupOf (o : QuantOp) (i j : Nat) : Nat := (if o.axis = 1 then i else j) / 2 ^ o.groupLog

/-- Element (i, j) of the source as a number, and its scale. -/
def State.quantIn (s : State) (site : Nat) (o : QuantOp) (i j : Nat) : Fp × Int :=
  (codeVal o.srcFmt (s.elem site (o.src.toNat + 32 * o.srcStride * i) o.srcFmt j),
    s.scaleAt site o.axis o.base o.sref i j)

/-- The code of element (i, j) and whether it saturated (R105, R106). -/
def State.quantOut (s : State) (site : Nat) (o : QuantOp) (i j : Nat) : Nat × Bool :=
  let (x, sc) := s.quantIn site o i j
  quantCode o.dstFmt (x.scale (-sc))

/-- The square of the error of element (i, j), rounded as R109 says; none where the input is not finite. -/
def State.quantErr (s : State) (site : Nat) (o : QuantOp) (i j : Nat) : Option Nat :=
  let (x, sc) := s.quantIn site o i j
  match x with
  | .fin _ _ _ =>
    let v := (codeVal o.dstFmt (s.quantOut site o i j).1).scale sc
    let e := f32Round (x.add v.neg)
    some (f32Mul e e)
  | _ => none

/-- The statistics record (R111): rows ascending, then channels ascending within the row. -/
def State.quantStats (s : State) (site : Nat) (o : QuantOp) : List Byte :=
  let all := (List.range o.rows).flatMap fun i => (List.range o.cols).map fun j => (i, j)
  let errs := fun g => (all.filter fun p => o.groupOf p.1 p.2 == g).filterMap fun p => s.quantErr site o p.1 p.2
  let sse := fun g => (errs g).foldl f32Add 0
  let sat := (all.filter fun p => (s.quantOut site o p.1 p.2).2).length
  let non := (all.filter fun p => (s.quantErr site o p.1 p.2).isNone).length
  let inf := (List.range o.groups).any fun g => f32Kind (sse g) == 1
  toBytes 2 o.groups ++ toBytes 2 (if inf then 1 else 0) ++ toBytes 4 sat ++ toBytes 4 non ++ toBytes 4 0 ++
    (List.range o.groups).flatMap fun g => toBytes 4 (sse g) ++ toBytes 4 (errs g).length

/-- What QUANT does (R106, R158). A statistics record outside tile SRAM fails with STATS_ADDR, as R111 says, and not with
the lower SRAM_RANGE, which the spec would allow too (log entry 98). -/
def State.quantPlan (s : State) (site q cyc : Nat) (j : TileJob) (i : Inst) : Plan :=
  let o := i.quant
  let src := rowsAt o.src o.rows (32 * o.srcStride) (rowBytes o.srcFmt o.cols)
  let dst := rowsAt o.dst o.rows (32 * o.dstStride) (rowBytes o.dstFmt o.cols)
  let rec_ := if o.statsEn then oneAt o.stats (16 + 8 * o.groups) else []
  let n := scaleCount o.axis o.rows o.cols
  let field := !i.e.clearBut [(0x10, 0, 22), (0x14, 0, 22), (0x18, 0, 22), (0x20, 0, 15), (0x20, 16, 16),
    (0x24, 0, 16), (0x28, 0, 20), (0x2C, 0, 32)] || (!o.statsEn && i.e.slot 2 != 0)
  let inSram := rec_.filter fun p => !outside [p]
  { code := firstCode [(0x11, field || i.e.headerBad), (0x12, outside (src ++ dst)), (0x13, o.dst % 32 != 0),
      (0x14, meets dst src || meets dst rec_), (0x15, banksOf (src ++ dst ++ inSram) (s.bankBad site)),
      (0x17, i.targetBad j), (0x20, !(o.srcFmt == 5 || o.srcFmt == 6) || 5 ≤ o.dstFmt || o.axis == 3),
      (0x21, n != 0 && 4096 < o.base + n), (0x23, 12 < o.groupLog || (o.statsEn && 256 < o.groups)),
      (0x24, o.statsEn && (o.stats % 64 != 0 || outside rec_)), (0x60, j.compat && o.dstFmt == 1)]
    hold := s.bankHold site (src ++ dst ++ inSram) || s.unitBusy site cyc .quant ||
      (s.tile site).running.any fun c => c.queue == q && c.scaleOut &&
        c.scales.any fun r => r.1 < o.base + n && o.base < r.1 + r.2
    run := some { i.onUnit q cyc .quant ((o.rows * o.cols + 63) / 64) src
        (((List.range o.rows).map fun r => [⟨o.dst.toNat + 32 * o.dstStride * r,
          packCodes o.dstFmt ((List.range o.cols).map fun c => (s.quantOut site o r c).1)⟩]) ++
          if o.statsEn then [[⟨o.stats.toNat, s.quantStats site o⟩]] else []) with
      scales := if n = 0 then [] else [(o.base, n)], record := if o.statsEn then s.quantStats site o else [] }
    effect := fun t => t }

/-- What a command of the quantiser does. -/
def State.quantiserPlan (s : State) (site q cyc : Nat) (j : TileJob) (i : Inst) : Option Plan :=
  match i.e.opcode with
  | 0x04 => some (s.scaleLoadPlan site q cyc j i)
  | 0x05 => some (s.quantPlan site q cyc j i)
  | _ => none

/-- SCALE_LOAD: bytes of tile SRAM become scale entries, after every earlier command of the queue that still reads
them. -/
def execScaleLoad (site q cyc : Nat) (s : State) : Ans :=
  onUnit (s.tileOn site && q < 4) <|
    s.issue site q cyc (fun e => e.opcode == 0x04) fun s q j i => s.quantiserPlan site q cyc j i

/-- QUANT: rows quantised by RNA with saturation; with statistics, a record. -/
def execQuant (site q cyc : Nat) (s : State) : Ans :=
  onUnit (s.tileOn site && q < 4) <|
    s.issue site q cyc (fun e => e.opcode == 0x05) fun s q j i => s.quantiserPlan site q cyc j i

/-! VEC (R159) -/

/-- Which sources an OP reads: 1, 2 or 3 of a, b, c. -/
def vecArity (op : Nat) : Nat :=
  match op with | 0 => 2 | 1 => 2 | 2 => 2 | 3 => 3 | 4 => 2 | 5 => 2 | _ => 1

/-- The FP32 result of an OP on FP32 codes. -/
def vecResult (op imm a b c : Nat) : Nat :=
  let nan2 := f32Kind a == 3 || f32Kind b == 3
  match op with
  | 0 => f32Add a b
  | 1 => f32Round ((f32Val a).add (f32Val b).neg)
  | 2 => f32Mul a b
  | 3 => f32Fma a b c
  | 4 => if nan2 then canonNaN else f32MaxFin a b
  | 5 => if nan2 then canonNaN else f32MinFin a b
  | 6 => f32Round (f32Val a).abs
  | 7 => f32Round (f32Val a).neg
  | 8 => f32Round ((f32Val a).scale (signedOf 8 imm))
  | _ => a

/-- What VEC of OP `op` does (R159). -/
def State.vecPlan (s : State) (site q cyc : Nat) (op : Nat) (j : TileJob) (i : Inst) : Plan :=
  let fi := i.e.fld 0x20 4 4
  let fo := i.e.fld 0x20 8 4
  let n := i.e.fld 0x24 0 20 + 1
  let src := fun k => oneAt (i.slot k) (rowBytes fi n)
  let dst := oneAt (i.slot 3) (rowBytes fo n)
  let used := (List.range (vecArity op)).map src
  let field := 9 < i.e.fld 0x20 0 4 || !i.e.clearBut [(0x10, 0, 22), (0x14, 0, 22), (0x18, 0, 22), (0x1C, 0, 22),
    (0x20, 0, 12), (0x20, 16, 8), (0x24, 0, 20)] || (List.range 3).any fun k => vecArity op ≤ k && i.e.slot k != 0
  let el := fun k m => toF32 fi (s.elem site (i.slot k).toNat fi m)
  { code := s.sramChecks site j i field false (used.any fun r => badOverlap r dst) (used.flatten ++ dst)
      [(0x20, !(fi == 5 || fi == 6) || !(fo == 5 || fo == 6))]
    hold := s.bankHold site (used.flatten ++ dst) || s.unitBusy site cyc .vector
    run := some (i.onUnit q cyc .vector ((n + 63) / 64 + 7) used.flatten [[⟨(i.slot 3).toNat,
      packCodes fo ((List.range n).map fun m =>
        fromF32 fo (vecResult op (i.e.fld 0x20 16 8) (el 0 m) (el 1 m) (el 2 m)))⟩]])
    effect := fun t => t }

/-! SFU (R213 to R225) -/

/-- `⌈n / d⌉`, four times as much in compatibility mode (R251). -/
def slowTerm (compat : Bool) (n d : Nat) : Nat := (n + d - 1) / d * (if compat then 4 else 1)

/-- Cycles of one SOFTMAX row (R225, R251). -/
def softmaxCycles (compat : Bool) (c : Nat) : Nat :=
  slowTerm compat c 64 + slowTerm compat c 32 + slowTerm compat c 64 + 24

/-- What SFU of FUNC `fn` does (R216 to R225); 0x0A is SOFTMAX. EVALS counts one evaluation per element of a SOFTMAX, the
exponential, and none for the reciprocal of a row (R235 leaves it open; log entry 98). -/
def State.sfuPlan (s : State) (site q cyc : Nat) (fn : Nat) (j : TileJob) (i : Inst) : Plan :=
  let soft := fn == 0x0A
  let fi := i.e.fld 0x20 8 4
  let fo := i.e.fld 0x20 12 4
  let preEn := i.e.fld 0x20 16 1 == 1
  let statEn := i.e.fld 0x20 17 1 == 1
  let r := i.e.fld 0x24 0 16 + 1
  let c := i.e.fld 0x24 16 16 + 1
  let ss := i.e.fld 0x28 0 16
  let ds := i.e.fld 0x28 16 16
  let pre := i.e.fld 0x2C 0 32
  let src := rowsAt (i.slot 0) r (32 * ss) (rowBytes fi c)
  let dst := rowsAt (i.slot 1) r (32 * ds) (rowBytes fo c)
  let recs := if statEn then rowsAt (i.slot 2) r 8 8 else []
  let same := i.slot 0 == i.slot 1 && ss == ds && fmtBits fi == fmtBits fo
  let field := 0x0A < i.e.fld 0x20 0 5 || !i.e.clearBut [(0x10, 0, 22), (0x14, 0, 22), (0x18, 0, 22), (0x20, 0, 5),
    (0x20, 8, 10), (0x24, 0, 32), (0x28, 0, 32), (0x2C, 0, 32)] || (statEn && !soft)
    || (!statEn && i.e.slot 2 != 0) || (!preEn && pre != 0)
  let align := i.slot 0 % 32 != 0 || i.slot 1 % 32 != 0 || (statEn && i.slot 2 % 64 != 0)
  let spans := src ++ dst ++ recs
  let input := fun row =>
    (List.range c).map fun k =>
      let x := toF32 fi (s.elem site ((i.slot 0).toNat + 32 * ss * row) fi k)
      if preEn then f32Mul x pre else x
  let slow := if j.compat then 4 else 1
  let pace : Pace := if soft then ⟨r, softmaxCycles j.compat c, 1, slow, 8, c, slowTerm j.compat c 64⟩
    else ⟨r, c * sfuPasses fn, 32, slow, 20, c * sfuPasses fn, 0⟩
  let row := fun k =>
    let out : Put := ⟨(i.slot 1).toNat + 32 * ds * k, []⟩
    if soft then
      let (y, m, sum) := softmaxRow j.compat (input k)
      [{ out with data := packCodes fo (y.map (fromF32 fo)) }] ++
        if statEn then [⟨(i.slot 2).toNat + 8 * k, toBytes 4 m ++ toBytes 4 sum⟩] else []
    else [{ out with data := packCodes fo ((input k).map fun z => fromF32 fo (sfuEval j.compat fn z)) }]
  let dur := if soft then r * softmaxCycles j.compat c + 8 else slowTerm j.compat (r * c * sfuPasses fn) 32 + 20
  { code := s.sramChecks site j i field align ((meets src dst && !same) || meets recs (src ++ dst)) spans
      [(0x20, !(fi == 5 || fi == 6) || !(fo == 5 || fo == 6)),
       (0x50, 32 * ss < rowBytes fi c || 32 * ds < rowBytes fo c), (0x51, preEn && f32Kind pre != 0),
       (0x52, soft && 16384 < c), (0x60, j.compat && fn == 9)]
    hold := s.bankHold site spans || s.unitBusy site cyc .sfu
    run := some { i.onUnit q cyc .sfu dur src ((List.range r).map row) with pace := some pace }
    effect := fun t => t.wrs [(R.TILE_SFU_STATUS_SFU_BUSY site, 1), (R.TILE_SFU_STATUS_FUNC site, fn)] }

/-- Any SFU command of FUNC `fn` (0x0A is SOFTMAX). A FUNC that is not listed fails with FIELD. -/
def State.sfu (s : State) (site q cyc fn : Nat) : State :=
  s.issue site q cyc (fun e => e.opcode == 0x07 && (e.fld 0x20 0 5 == fn || 0x0A < e.fld 0x20 0 5)) fun s q j i =>
    if i.e.opcode = 0x07 then some (s.sfuPlan site q cyc (i.e.fld 0x20 0 5) j i) else none

/-- SFU EXP2. -/
def execSfuExp2 (site q cyc : Nat) (s : State) : Ans := onUnit (s.tileOn site && q < 4) (s.sfu site q cyc 0)
/-- SFU LOG2. -/
def execSfuLog2 (site q cyc : Nat) (s : State) : Ans := onUnit (s.tileOn site && q < 4) (s.sfu site q cyc 1)
/-- SFU ERF. -/
def execSfuErf (site q cyc : Nat) (s : State) : Ans := onUnit (s.tileOn site && q < 4) (s.sfu site q cyc 2)
/-- SFU EXP. -/
def execSfuExp (site q cyc : Nat) (s : State) : Ans := onUnit (s.tileOn site && q < 4) (s.sfu site q cyc 3)
/-- SFU RECIP. -/
def execSfuRecip (site q cyc : Nat) (s : State) : Ans := onUnit (s.tileOn site && q < 4) (s.sfu site q cyc 4)
/-- SFU RSQRT. -/
def execSfuRsqrt (site q cyc : Nat) (s : State) : Ans := onUnit (s.tileOn site && q < 4) (s.sfu site q cyc 5)
/-- SFU SIGMOID. -/
def execSfuSigmoid (site q cyc : Nat) (s : State) : Ans := onUnit (s.tileOn site && q < 4) (s.sfu site q cyc 6)
/-- SFU SILU. -/
def execSfuSilu (site q cyc : Nat) (s : State) : Ans := onUnit (s.tileOn site && q < 4) (s.sfu site q cyc 7)
/-- SFU GELU_ERF. -/
def execSfuGeluErf (site q cyc : Nat) (s : State) : Ans := onUnit (s.tileOn site && q < 4) (s.sfu site q cyc 8)
/-- SFU GELU_TANH. -/
def execSfuGeluTanh (site q cyc : Nat) (s : State) : Ans := onUnit (s.tileOn site && q < 4) (s.sfu site q cyc 9)
/-- SOFTMAX (R220 to R225). -/
def execSoftmax (site q cyc : Nat) (s : State) : Ans := onUnit (s.tileOn site && q < 4) (s.sfu site q cyc 10)

/-! NORM (R226 to R231) -/

/-- The decoded body of a NORM instance. -/
structure NormOp where
  src : Int
  dst : Int
  aux : Int
  stat : Int
  fi : Nat
  fo : Nat
  fg : Nat
  apply : Bool
  statEn : Bool
  gamma : Bool
  offset : Bool
  rows : Nat
  cols : Nat
  ss : Nat
  ds : Nat
  eps : Nat
deriving DecidableEq, Repr

/-- Reads the body of R226. -/
def Inst.norm (i : Inst) : NormOp where
  src := i.slot 0
  dst := i.slot 1
  aux := i.slot 2
  stat := i.slot 3
  fi := i.e.fld 0x20 0 4
  fo := i.e.fld 0x20 4 4
  fg := i.e.fld 0x20 8 4
  apply := i.e.fld 0x20 12 1 == 1
  statEn := i.e.fld 0x20 13 1 == 1
  gamma := i.e.fld 0x20 14 1 == 1
  offset := i.e.fld 0x20 15 1 == 1
  rows := i.e.fld 0x24 0 16 + 1
  cols := i.e.fld 0x24 16 16 + 1
  ss := i.e.fld 0x28 0 16
  ds := i.e.fld 0x28 16 16
  eps := i.e.fld 0x2C 0 32

/-- Row `r` of the d_i, as FP32 codes (R227, step 1). -/
def State.normIn (s : State) (site : Nat) (o : NormOp) (r : Nat) : List Nat :=
  let off := f32Canon (s.elem site (o.aux.toNat + 16 * r) 6 0)
  (List.range o.cols).map fun k =>
    let x := toF32 o.fi (s.elem site (o.src.toNat + 32 * o.ss * r) o.fi k)
    if o.offset then f32Round ((f32Val x).add (f32Val off).neg) else x

/-- The outputs of APPLY for one row (R229). -/
def State.normOut (s : State) (site : Nat) (compat : Bool) (o : NormOp) (d : List Nat) : List Nat :=
  let y := normApply compat d o.eps
  (List.range o.cols).map fun k =>
    let v := y.getD k 0
    fromF32 o.fo (if o.gamma then f32Mul v (toF32 o.fg (s.elem site o.aux.toNat o.fg k)) else v)

/-- One row of a NORM: its outputs and its record. -/
def State.normRow (s : State) (site : Nat) (compat : Bool) (o : NormOp) (r : Nat) : List Put :=
  let d := s.normIn site o r
  let n := normStat compat d
  (if o.apply then [⟨o.dst.toNat + 32 * o.ds * r, packCodes o.fo (s.normOut site compat o d)⟩] else []) ++
    if o.statEn then [⟨o.stat.toNat + 16 * r,
      toBytes 4 n.mean ++ toBytes 4 n.ms ++ toBytes 4 n.msScaled ++ toBytes 4 (toField 32 n.exp)⟩] else []

/-- Two different regions of the list share a byte. -/
def anyMeet : List (List Span) → Bool
  | [] => false
  | a :: l => l.any (meets a) || anyMeet l

/-- What NORM does (R227 to R235). -/
def State.normPlan (s : State) (site q cyc : Nat) (j : TileJob) (i : Inst) : Plan :=
  let o := i.norm
  let src := rowsAt o.src o.rows (32 * o.ss) (rowBytes o.fi o.cols)
  let dst := if o.apply then rowsAt o.dst o.rows (32 * o.ds) (rowBytes o.fo o.cols) else []
  let gam := if o.gamma then oneAt o.aux (rowBytes o.fg o.cols) else []
  let off := if o.offset then rowsAt o.aux o.rows 16 16 else []
  let rec_ := if o.statEn then rowsAt o.stat o.rows 16 16 else []
  let same := o.apply && o.src == o.dst && o.ss == o.ds && fmtBits o.fi == fmtBits o.fo
  let one := [src, gam, if o.statEn && o.offset && o.aux == o.stat then [] else off, rec_]
  let field := !i.e.clearBut [(0x10, 0, 22), (0x14, 0, 22), (0x18, 0, 22), (0x1C, 0, 22), (0x20, 0, 16),
      (0x24, 0, 32), (0x28, 0, 32), (0x2C, 0, 32)]
    || (!o.apply && !o.statEn) || (o.gamma && !o.apply) || (o.offset && o.apply)
    || (!o.apply && (o.fo != 0 || o.ds != 0 || o.eps != 0 || i.e.slot 1 != 0)) || (!o.gamma && o.fg != 0)
    || (!o.gamma && !o.offset && i.e.slot 2 != 0) || (!o.statEn && i.e.slot 3 != 0)
  let align := o.src % 32 != 0 || (o.apply && o.dst % 32 != 0) || (o.gamma && o.aux % 32 != 0)
    || (o.offset && o.aux % 64 != 0) || (o.statEn && o.stat % 64 != 0)
  let lap := anyMeet one || (meets src dst && !same) || [gam, off, rec_].any (meets dst)
  let bad := fun f => !(f == 5 || f == 6)
  let spans := src ++ dst ++ gam ++ off ++ rec_
  let per := if o.apply then 3 * slowTerm j.compat o.cols 64 + 28 else 2 * slowTerm j.compat o.cols 64 + 16
  { code := s.sramChecks site j i field align lap spans
      [(0x20, bad o.fi || (o.apply && bad o.fo) || (o.gamma && bad o.fg)),
       (0x50, 32 * o.ss < rowBytes o.fi o.cols || (o.apply && 32 * o.ds < rowBytes o.fo o.cols)),
       (0x51, o.apply && (f32Kind o.eps != 0 || 2 ^ 31 ≤ o.eps)), (0x60, j.compat && o.offset)]
    hold := s.bankHold site spans || s.unitBusy site cyc .vector
    run := some { i.onUnit q cyc .vector (o.rows * per + 8) (src ++ gam ++ off)
        ((List.range o.rows).map fun k => s.normRow site j.compat o k) with pace := some ⟨o.rows, per, 1, 1, 8, 0, 0⟩ }
    effect := fun t => t.flag (R.TILE_SFU_STATUS_NORM_BUSY site) }

/-- What a command of the vector unit does. -/
def State.vectorPlan (s : State) (site q cyc : Nat) (j : TileJob) (i : Inst) : Option Plan :=
  match i.e.opcode with
  | 0x06 => some (s.vecPlan site q cyc (i.e.fld 0x20 0 4) j i)
  | 0x08 => some (s.normPlan site q cyc j i)
  | _ => none

/-- NORM. -/
def execNorm (site q cyc : Nat) (s : State) : Ans :=
  onUnit (s.tileOn site && q < 4) <|
    s.issue site q cyc (fun e => e.opcode == 0x08) fun s q j i => s.vectorPlan site q cyc j i

/-- Any VEC command of OP `op`. An OP that R159 does not list fails with FIELD. -/
def State.vec (s : State) (site q cyc op : Nat) : State :=
  s.issue site q cyc (fun e => e.opcode == 0x06 && (e.fld 0x20 0 4 == op || 9 < e.fld 0x20 0 4)) fun s q j i =>
    s.vectorPlan site q cyc j i

/-- VEC ADD. -/
def execVecAdd (site q cyc : Nat) (s : State) : Ans := onUnit (s.tileOn site && q < 4) (s.vec site q cyc 0)
/-- VEC SUB. -/
def execVecSub (site q cyc : Nat) (s : State) : Ans := onUnit (s.tileOn site && q < 4) (s.vec site q cyc 1)
/-- VEC MUL. -/
def execVecMul (site q cyc : Nat) (s : State) : Ans := onUnit (s.tileOn site && q < 4) (s.vec site q cyc 2)
/-- VEC FMA. -/
def execVecFma (site q cyc : Nat) (s : State) : Ans := onUnit (s.tileOn site && q < 4) (s.vec site q cyc 3)
/-- VEC MAX. -/
def execVecMax (site q cyc : Nat) (s : State) : Ans := onUnit (s.tileOn site && q < 4) (s.vec site q cyc 4)
/-- VEC MIN. -/
def execVecMin (site q cyc : Nat) (s : State) : Ans := onUnit (s.tileOn site && q < 4) (s.vec site q cyc 5)
/-- VEC ABS. -/
def execVecAbs (site q cyc : Nat) (s : State) : Ans := onUnit (s.tileOn site && q < 4) (s.vec site q cyc 6)
/-- VEC NEG. -/
def execVecNeg (site q cyc : Nat) (s : State) : Ans := onUnit (s.tileOn site && q < 4) (s.vec site q cyc 7)
/-- VEC SCALE2. -/
def execVecScale2 (site q cyc : Nat) (s : State) : Ans := onUnit (s.tileOn site && q < 4) (s.vec site q cyc 8)
/-- VEC CVT. -/
def execVecCvt (site q cyc : Nat) (s : State) : Ans := onUnit (s.tileOn site && q < 4) (s.vec site q cyc 9)

/-! COPY (R160) -/

/-- What COPY does (R160). -/
def State.copyPlan (s : State) (site q cyc : Nat) (j : TileJob) (i : Inst) : Plan :=
  let n := i.e.fld 0x20 0 22
  let src := oneAt (i.slot 0) n
  let dst := oneAt (i.slot 1) n
  let field := !i.e.clearBut [(0x10, 0, 22), (0x14, 0, 22), (0x20, 0, 22)] || n == 0 || n % 64 != 0 || sramSize < n
  { code := s.sramChecks site j i field (i.slot 0 % 64 != 0 || i.slot 1 % 64 != 0) (meets src dst) (src ++ dst) []
    hold := s.bankHold site (src ++ dst) || s.unitBusy site cyc .copy
    run := some (i.onUnit q cyc .copy (n / 64 + 5) src
      [[⟨(i.slot 1).toNat, s.bytes (tileKey site (i.slot 0).toNat) n⟩]])
    effect := fun t => t }

/-- COPY: a region of tile SRAM copied to another. -/
def execCopy (site q cyc : Nat) (s : State) : Ans :=
  onUnit (s.tileOn site && q < 4) <|
    s.issue site q cyc (fun e => e.opcode == 0x09) fun s q j i =>
      if i.e.opcode = 0x09 then some (s.copyPlan site q cyc j i) else none

end Sys2Proof.Machine
end

