-- ==== Sys2Proof/Machine/Vault.lean ====
section
/-! DEFINITION. The vaults' ports (R200), refresh (R267) and patrol scrub (R266). -/

namespace Sys2Proof.Machine

/-- Layer, bank and row of 2 KiB block `b` of a vault (R263): consecutive blocks rotate through the four layers. -/
def blockPlace (b : Nat) : Nat × Nat × Nat := (b % 4, b / 4 % 32, b / 128)

/-- Codewords of a vault: 768 MiB of 32 bytes (R263, R264). -/
def vaultWords : Nat := 0x180_0000

/-- The Stream write queue has reached 32 KiB, or its oldest write is 20 µs old (R200). -/
def State.windowDue (s : State) (v : Nat) : Bool :=
  let q := (s.vault v).wq
  32768 ≤ 64 * linesOf q || q.any fun w => w.since + 20_000 ≤ s.now

/-- A relock has taken its 48 port cycles, 30 ns at the port's faster rate (R200). -/
def State.relocked (s : State) (v : Nat) : Bool := (s.vault v).relockAt + 30 ≤ s.now

/-- A port starts to relock. -/
def State.relock (s : State) (v : Nat) : State :=
  (s.setVault v { s.vault v with relockAt := s.now }).wr (R.VAULT_PORT_MODE_RELOCK v) 1

/-- SEAM_WRITE_WINDOW: the next step of a write window (R200, R205): it opens and the port relocks to read-write; the
relock ends; the queue, with what waits behind it, is written to the DRAM and the port relocks back; that relock ends
and the window closes. -/
def execSeamWriteWindow (v t : Nat) (s : State) : Ans :=
  onUnit (s.vaultOn v) <|
    let s := s.atTime t
    let x := s.vault v
    let busy := s.rd (R.VAULT_PORT_MODE_RELOCK v) == 1
    if s.rd (R.VAULT_PORT_MODE_WINDOW v) = 0 then
      if s.rd (R.VAULT_PORT_MODE_RATE v) = 1 && !busy && s.windowDue v then
        ((s.setVault v { x with drained := false }).relock v).wr (R.VAULT_PORT_MODE_WINDOW v) 1
      else s
    else if busy then
      if !s.relocked v then s
      else s.wrs [(R.VAULT_PORT_MODE_RELOCK v, 0), (R.VAULT_PORT_MODE_WINDOW v, if x.drained then 0 else 1)]
    else (s.setWq v { x with wq := [], behind := [], drained := true }).relock v

/-- PORT_RATE_CHANGE: a change to the rate that the power mode asks for begins once the engine has no transfer in progress and,
on leaving Stream mode, the write queue has drained; the port relocks, and the new rate is in force when that is over. -/
def execPortRateChange (v t : Nat) (s : State) : Ans :=
  onUnit (s.vaultOn v) <|
    let s := s.atTime t
    let x := s.vault v
    let want := if x.wantStream then 1 else 0
    if !x.held.isEmpty || !(x.wantStream || (x.wq.isEmpty && x.behind.isEmpty)) || s.rd (R.VAULT_PORT_MODE_WINDOW v) = 1 then s
    else if s.rd (R.VAULT_PORT_MODE_RELOCK v) = 1 then
      if s.relocked v then s.wrs [(R.VAULT_PORT_MODE_RATE v, want), (R.VAULT_PORT_MODE_RELOCK v, 0)] else s
    else if s.rd (R.VAULT_PORT_MODE_RATE v) = want then s
    else s.relock v

/-- VAULT_REFRESH: one refresh takes 4 port cycles, lost to a stream if one runs (R208); a change of the refresh rate
takes effect here (R267). -/
def execVaultRefresh (v t : Nat) (s : State) : Ans :=
  onUnit (s.vaultOn v) <|
    let s := s.atTime t
    let hot := s.rd (R.HUB_THERM_STATE_LEVEL (sectorOfVault v)) != 0
    let u := (s.setVault v { s.vault v with doubled := hot }).wr (R.VAULT_STATUS_REFRESH_2X v) (if hot then 1 else 0)
    u.iff (!(s.vault v).held.isEmpty) (·.bump (R.VAULT_SEAM_REFRESH_CYC_COUNT v) 4)

/-- PATROL_SCRUB: the next codeword of the pass is read in an idle port cycle. `found` is what the read meets beyond
what the model holds: 0 nothing, 1 one correctable symbol, 2 an error that cannot be corrected. A corrected codeword
is written back; errors are counted. -/
def execPatrolScrub (v found t : Nat) (s : State) : Ans :=
  onUnit (s.vaultOn v) <|
    let s := s.atTime t
    let cw := (s.vault v).patrolAt
    let s := s.iff (found == 2 && s.badAt v cw == 0) (·.markBad v cw 1)
    let u := if s.badAt v cw ≠ 0 then s.vaultBad v cw (s.badAt v cw)
      else s.iff (found == 1) (·.sat (R.VAULT_ECC_CORR_COUNT v) 1)
    let next := (cw + 1) % vaultWords
    (u.setVault v { u.vault v with patrolAt := next }).iff (next == 0) (·.bump (R.VAULT_PATROL_PASS_COUNT v) 1)

end Sys2Proof.Machine
end

