-- ==== Sys2Proof/Machine/Dispatch.lean ====
section
/-! DEFINITION. The meaning of every command: one arm per constructor of Instr, each a direct call. -/

namespace Sys2Proof.Machine

/-- What a command does to everything but the queue. -/
def exec (i : Instr) (s : State) : Host.Outcome State Fault Refusal :=
  match i with
  -- Lifecycle
  | .coldReset cause lowNs straps trip t => Sys2Proof.Machine.execColdReset cause lowNs straps trip t s
  | .warmReset cause lowNs trip t => Sys2Proof.Machine.execWarmReset cause lowNs trip t s
  | .brownOut mV ns straps trip t => Sys2Proof.Machine.execBrownOut mV ns straps trip t s
  | .devResetWarm word trip t => Sys2Proof.Machine.execDevResetWarm word trip t s
  | .devResetCold word straps trip t => Sys2Proof.Machine.execDevResetCold word straps trip t s
  | .romDone udsOk keysOk first second t => Sys2Proof.Machine.execRomDone udsOk keysOk first second t s
  | .bootDone map mapOk jasper1 jasper2 flint1 flint2 svc1 svc2 manifest1 manifest2 listed recs t => Sys2Proof.Machine.execBootDone map mapOk jasper1 jasper2 flint1 flint2 svc1 svc2 manifest1 manifest2 listed recs t s
  | .buildDone sig1 sig2 slabs tilesAgree vaultsAgree trained initialised t => Sys2Proof.Machine.execBuildDone sig1 sig2 slabs tilesAgree vaultsAgree trained initialised t s
  | .radioReadySet t => Sys2Proof.Machine.execRadioReadySet t s
  | .ownerStop t => Sys2Proof.Machine.execOwnerStop t s
  | .stopComplete t => Sys2Proof.Machine.execStopComplete t s
  -- Registers and the Strata image
  | .registerWrite who a width value t => Sys2Proof.Machine.execRegisterWrite who a width value t s
  | .rcRead who a width t => Sys2Proof.Machine.execRcRead who a width t s
  | .windowAccessError who a width write t => Sys2Proof.Machine.execWindowAccessError who a width write t s
  | .planeViolationDrop plane stop t => Sys2Proof.Machine.execPlaneViolationDrop plane stop t s
  | .strataReloadGo sigOk abort t => Sys2Proof.Machine.execStrataReloadGo sigOk abort t s
  | .strataReloadAbort t => Sys2Proof.Machine.execStrataReloadAbort t s
  | .strataStaged t => Sys2Proof.Machine.execStrataStaged t s
  | .strataSwitchRequest kind sfn slot t => Sys2Proof.Machine.execStrataSwitchRequest kind sfn slot t s
  | .strataSwitch t => Sys2Proof.Machine.execStrataSwitch t s
  | .tableBankReleased id t => Sys2Proof.Machine.execTableBankReleased id t s
  | .drainStall id t => Sys2Proof.Machine.execDrainStall id t s
  | .cgCommit who group btype inst ticket t => Sys2Proof.Machine.execCgCommit who group btype inst ticket t s
  | .cgCheckDone who t => Sys2Proof.Machine.execCgCheckDone who t s
  | .cgAct btype inst group t => Sys2Proof.Machine.execCgAct btype inst group t s
  | .cgDiscard who group btype inst t => Sys2Proof.Machine.execCgDiscard who group btype inst t s
  -- Tile commands and events
  | .cmdFetch site q cyc => Sys2Proof.Machine.execCmdFetch site q cyc s
  | .matmul site q cyc par sampled => Sys2Proof.Machine.execMatmul site q cyc par sampled s
  | .accRead site q cyc par => Sys2Proof.Machine.execAccRead site q cyc par s
  | .accLoad site q cyc => Sys2Proof.Machine.execAccLoad site q cyc s
  | .scaleLoad site q cyc => Sys2Proof.Machine.execScaleLoad site q cyc s
  | .quant site q cyc => Sys2Proof.Machine.execQuant site q cyc s
  | .vecAdd site q cyc => Sys2Proof.Machine.execVecAdd site q cyc s
  | .vecSub site q cyc => Sys2Proof.Machine.execVecSub site q cyc s
  | .vecMul site q cyc => Sys2Proof.Machine.execVecMul site q cyc s
  | .vecFma site q cyc => Sys2Proof.Machine.execVecFma site q cyc s
  | .vecMax site q cyc => Sys2Proof.Machine.execVecMax site q cyc s
  | .vecMin site q cyc => Sys2Proof.Machine.execVecMin site q cyc s
  | .vecAbs site q cyc => Sys2Proof.Machine.execVecAbs site q cyc s
  | .vecNeg site q cyc => Sys2Proof.Machine.execVecNeg site q cyc s
  | .vecScale2 site q cyc => Sys2Proof.Machine.execVecScale2 site q cyc s
  | .vecCvt site q cyc => Sys2Proof.Machine.execVecCvt site q cyc s
  | .sfuExp2 site q cyc => Sys2Proof.Machine.execSfuExp2 site q cyc s
  | .sfuLog2 site q cyc => Sys2Proof.Machine.execSfuLog2 site q cyc s
  | .sfuErf site q cyc => Sys2Proof.Machine.execSfuErf site q cyc s
  | .sfuExp site q cyc => Sys2Proof.Machine.execSfuExp site q cyc s
  | .sfuRecip site q cyc => Sys2Proof.Machine.execSfuRecip site q cyc s
  | .sfuRsqrt site q cyc => Sys2Proof.Machine.execSfuRsqrt site q cyc s
  | .sfuSigmoid site q cyc => Sys2Proof.Machine.execSfuSigmoid site q cyc s
  | .sfuSilu site q cyc => Sys2Proof.Machine.execSfuSilu site q cyc s
  | .sfuGeluErf site q cyc => Sys2Proof.Machine.execSfuGeluErf site q cyc s
  | .sfuGeluTanh site q cyc => Sys2Proof.Machine.execSfuGeluTanh site q cyc s
  | .softmax site q cyc => Sys2Proof.Machine.execSoftmax site q cyc s
  | .norm site q cyc => Sys2Proof.Machine.execNorm site q cyc s
  | .copy site q cyc => Sys2Proof.Machine.execCopy site q cyc s
  | .xferToSram site q cyc => Sys2Proof.Machine.execXferToSram site q cyc s
  | .xferToMemory site q cyc => Sys2Proof.Machine.execXferToMemory site q cyc s
  | .seam site q cyc yields sampled => Sys2Proof.Machine.execSeam site q cyc yields sampled s
  | .sync site q cyc => Sys2Proof.Machine.execSync site q cyc s
  | .loopBody site q cyc => Sys2Proof.Machine.execLoopBody site q cyc s
  | .stopQueue site q cyc => Sys2Proof.Machine.execStopQueue site q cyc s
  | .banksOn site q cyc => Sys2Proof.Machine.execBanksOn site q cyc s
  | .banksRetain site q cyc => Sys2Proof.Machine.execBanksRetain site q cyc s
  | .banksOff site q cyc => Sys2Proof.Machine.execBanksOff site q cyc s
  | .bankTransitionDone site bank cyc => Sys2Proof.Machine.execBankTransitionDone site bank cyc s
  | .commandComplete site q index cyc corr bad vcorr => Sys2Proof.Machine.execCommandComplete site q index cyc corr bad s vcorr
  | .xferArrival site q index cyc corr => Sys2Proof.Machine.execXferArrival site q index cyc s corr
  | .xferFaultReport site q index cyc sram addr fab corr => Sys2Proof.Machine.execXferFaultReport site q index cyc sram addr fab s corr
  | .remoteSignalArrival site counter cyc => Sys2Proof.Machine.execRemoteSignalArrival site counter cyc s
  | .shapingInterval site cyc => Sys2Proof.Machine.execShapingInterval site cyc s
  -- Vaults
  | .seamWriteWindow v t => Sys2Proof.Machine.execSeamWriteWindow v t s
  | .portRateChange v t => Sys2Proof.Machine.execPortRateChange v t s
  | .vaultRefresh v t => Sys2Proof.Machine.execVaultRefresh v t s
  | .patrolScrub v found t => Sys2Proof.Machine.execPatrolScrub v found t s
  | .dramTempSample n temp cyc t => Sys2Proof.Machine.execDramTempSample n temp cyc t s
  -- Memory manager
  | .memAlloc x n ticket hint t => Sys2Proof.Machine.execMemAlloc x n ticket hint t s
  | .memFree x n ticket hint t => Sys2Proof.Machine.execMemFree x n ticket hint t s
  | .memHint x n ticket hint t => Sys2Proof.Machine.execMemHint x n ticket hint t s
  | .memMigrate x n ticket hint t => Sys2Proof.Machine.execMemMigrate x n ticket hint t s
  | .memQuery x slab t => Sys2Proof.Machine.execMemQuery x slab t s
  | .moveStart sector t => Sys2Proof.Machine.execMoveStart sector t s
  | .migrationSwitch x slab t freeze => Sys2Proof.Machine.execMigrationSwitch x slab t s freeze
  | .oldRegionRelease v ix t => Sys2Proof.Machine.execOldRegionRelease v ix t s
  | .regionZeroed v ix t => Sys2Proof.Machine.execRegionZeroed v ix t s
  | .releaseStall v ix t => Sys2Proof.Machine.execReleaseStall v ix t s
  -- Jobs, sequences, deadlines and claims
  | .jqDoorbell x q tail t => Sys2Proof.Machine.execJqDoorbell x q tail t s
  | .jobStart job cyc t standIns => Sys2Proof.Machine.execJobStart job cyc t standIns s
  | .jobLaunch job cyc t standIns => Sys2Proof.Machine.execJobLaunch job cyc t s standIns
  | .launchPlanClose job t => Sys2Proof.Machine.execLaunchPlanClose job t s
  | .jobBoundExpiry job cyc t => Sys2Proof.Machine.execJobBoundExpiry job cyc t s
  | .jobEnd job cyc t => Sys2Proof.Machine.execJobEnd job cyc t s
  | .fullScrub site cyc t => Sys2Proof.Machine.execFullScrub site cyc t s
  | .completionWrite x q decode t => Sys2Proof.Machine.execCompletionWrite x q decode t s
  | .jqFlush x q t => Sys2Proof.Machine.execJqFlush x q t s
  | .accountingPeriod t => Sys2Proof.Machine.execAccountingPeriod t s
  | .seqEntryWrite x ix w v t => Sys2Proof.Machine.execSeqEntryWrite x ix w v t s
  | .stepBuild x m t ops => Sys2Proof.Machine.execStepBuild x m t s ops
  | .checkpointReached job ix cyc t => Sys2Proof.Machine.execCheckpointReached job ix cyc t s
  | .checkpointTimeout job ix cyc t => Sys2Proof.Machine.execCheckpointTimeout job ix cyc t s
  | .fallbackStart job cyc t => Sys2Proof.Machine.execFallbackStart job cyc t s
  | .classicalDoneSignal job t => Sys2Proof.Machine.execClassicalDoneSignal job t s
  | .deadlineExpiry job t => Sys2Proof.Machine.execDeadlineExpiry job t s
  | .claim site cluster t => Sys2Proof.Machine.execClaim site cluster t s
  | .claimComplete site cyc t => Sys2Proof.Machine.execClaimComplete site cyc t s
  | .claimOverrun site t => Sys2Proof.Machine.execClaimOverrun site t s
  | .claimRelease site cyc t => Sys2Proof.Machine.execClaimRelease site cyc t s
  -- Slot tables, FAPI, fronthaul and radio units
  | .tableSeal c bytes t works => Sys2Proof.Machine.execTableSeal c bytes t s works
  | .patchWrite c l id bytes done t => Sys2Proof.Machine.execPatchWrite c l id bytes done t s
  | .patchCutoff c id t => Sys2Proof.Machine.execPatchCutoff c id t s
  | .tableFire c id t => Sys2Proof.Machine.execTableFire c id t s
  | .slotMissed c id t => Sys2Proof.Machine.execSlotMissed c id t s
  | .entryTrigger c id ix front t => Sys2Proof.Machine.execEntryTrigger c id ix front t s
  | .condAbortFire c id l t => Sys2Proof.Machine.execCondAbortFire c id l t s
  | .tableRelease c id decoded weights t => Sys2Proof.Machine.execTableRelease c id decoded weights t s
  | .fapiParam k t => Sys2Proof.Machine.execFapiParam k t s
  | .fapiConfig k mhz mu prbs dl ul t => Sys2Proof.Machine.execFapiConfig k mhz mu prbs dl ul t s
  | .fapiStart k t => Sys2Proof.Machine.execFapiStart k t s
  | .fapiStop k t => Sys2Proof.Machine.execFapiStop k t s
  | .fapiDlTti k id pdus t => Sys2Proof.Machine.execFapiDlTti k id pdus t s
  | .fapiUlTti k id pdus t => Sys2Proof.Machine.execFapiUlTti k id pdus t s
  | .fapiUlDci k id pdus t => Sys2Proof.Machine.execFapiUlDci k id pdus t s
  | .fapiTxData k id data t => Sys2Proof.Machine.execFapiTxData k id data t s
  | .fhUlPacket port eaxc id sym prb total addr data ok t => Sys2Proof.Machine.execFhUlPacket port eaxc id sym prb total addr data ok t s
  | .fhWindowClose e id sym total addr t => Sys2Proof.Machine.execFhWindowClose e id sym total addr t s
  | .ruCallHome r port mac t => Sys2Proof.Machine.execRuCallHome r port mac t s
  | .ruConfigured r catB t => Sys2Proof.Machine.execRuConfigured r catB t s
  | .ruSupervisionMiss r inRow t => Sys2Proof.Machine.execRuSupervisionMiss r inRow t s
  | .ruUplaneSilence k t => Sys2Proof.Machine.execRuUplaneSilence k t s
  | .queuedTriggerStart c u t => Sys2Proof.Machine.execQueuedTriggerStart c u t s
  -- Mica command streams
  | .vld c u corr bad t => Sys2Proof.Machine.execVld c u corr bad t s
  | .vst c u corr bad t => Sys2Proof.Machine.execVst c u corr bad t s
  | .vadd c u corr bad t => Sys2Proof.Machine.execVadd c u corr bad t s
  | .vsub c u corr bad t => Sys2Proof.Machine.execVsub c u corr bad t s
  | .cmul c u corr bad t => Sys2Proof.Machine.execCmul c u corr bad t s
  | .cmac c u corr bad t => Sys2Proof.Machine.execCmac c u corr bad t s
  | .accout c u corr bad t => Sys2Proof.Machine.execAccout c u corr bad t s
  | .accclr c u corr bad t => Sys2Proof.Machine.execAccclr c u corr bad t s
  | .mag2 c u corr bad t => Sys2Proof.Machine.execMag2 c u corr bad t s
  | .minmax c u corr bad t => Sys2Proof.Machine.execMinmax c u corr bad t s
  | .agset c u corr bad t => Sys2Proof.Machine.execAgset c u corr bad t s
  | .repeatBody c u corr bad t => Sys2Proof.Machine.execRepeatBody c u corr bad t s
  | .waitCounter c u corr bad t => Sys2Proof.Machine.execWaitCounter c u corr bad t s
  | .signalCounter c u corr bad t => Sys2Proof.Machine.execSignalCounter c u corr bad t s
  | .endStream c u corr bad t => Sys2Proof.Machine.execEndStream c u corr bad t s
  -- Radio engines, cluster DMA and tracking
  | .ldpcDecode c corr bad t => Sys2Proof.Machine.execLdpcDecode c corr bad t s
  | .ldpcEncode c corr bad t => Sys2Proof.Machine.execLdpcEncode c corr bad t s
  | .polarDecode c corr bad t => Sys2Proof.Machine.execPolarDecode c corr bad t s
  | .polarEncode c corr bad t => Sys2Proof.Machine.execPolarEncode c corr bad t s
  | .fftForward c corr bad t => Sys2Proof.Machine.execFftForward c corr bad t s
  | .fftInverse c corr bad t => Sys2Proof.Machine.execFftInverse c corr bad t s
  | .prachCorrelate c corr bad t => Sys2Proof.Machine.execPrachCorrelate c corr bad t s
  | .prachDetect c corr bad t => Sys2Proof.Machine.execPrachDetect c corr bad t s
  | .dmaVaultToSram c corr bad t vcorr => Sys2Proof.Machine.execDmaVaultToSram c corr bad t s vcorr
  | .dmaSramToVault c corr bad t => Sys2Proof.Machine.execDmaSramToVault c corr bad t s
  | .dmaTileToCluster c corr bad t => Sys2Proof.Machine.execDmaTileToCluster c corr bad t s
  | .dmaClusterToTile c corr bad t => Sys2Proof.Machine.execDmaClusterToTile c corr bad t s
  | .trackingIdleFree c l rnti t => Sys2Proof.Machine.execTrackingIdleFree c l rnti t s
  -- Time
  | .ptpSyncRx d port origin t => Sys2Proof.Machine.execPtpSyncRx d port origin t s
  | .ptpDelayResult d port delay t => Sys2Proof.Machine.execPtpDelayResult d port delay t s
  | .ptpAnnounceRx d port num identity cls accuracy chosen t => Sys2Proof.Machine.execPtpAnnounceRx d port num identity cls accuracy chosen t s
  | .announceTimeout d t => Sys2Proof.Machine.execAnnounceTimeout d t s
  | .syncTimeout d t => Sys2Proof.Machine.execSyncTimeout d t s
  | .ppsEdge pin t => Sys2Proof.Machine.execPpsEdge pin t s
  | .ppsTimeout d t => Sys2Proof.Machine.execPpsTimeout d t s
  | .todFrameRx frame rate t => Sys2Proof.Machine.execTodFrameRx frame rate t s
  | .todPpsOutput t => Sys2Proof.Machine.execTodPpsOutput t s
  | .holdoverBudgetExpiry t => Sys2Proof.Machine.execHoldoverBudgetExpiry t s
  | .timeCapture t => Sys2Proof.Machine.execTimeCapture t s
  | .esmcRx port ql t => Sys2Proof.Machine.execEsmcRx port ql t s
  | .synceRefFail n since t => Sys2Proof.Machine.execSynceRefFail n since t s
  | .synceWtrExpiry n since t => Sys2Proof.Machine.execSynceWtrExpiry n since t s
  -- Network ports
  | .ethRxFrame port f t => Sys2Proof.Machine.execEthRxFrame port f t s
  | .txFrameEnqueue port id len pcp latest t => Sys2Proof.Machine.execTxFrameEnqueue port id len pcp latest t s
  | .txFrameStart port t ps => Sys2Proof.Machine.execTxFrameStart port t ps s
  | .shaperTick port t => Sys2Proof.Machine.execShaperTick port t s
  | .policerTick port t => Sys2Proof.Machine.execPolicerTick port t s
  | .gateEvent port t => Sys2Proof.Machine.execGateEvent port t s
  | .gateChange port t => Sys2Proof.Machine.execGateChange port t s
  | .portLinkUp port since t => Sys2Proof.Machine.execPortLinkUp port since t s
  | .portLinkLoss port t => Sys2Proof.Machine.execPortLinkLoss port t s
  -- Fabric
  | .flitRx l f fec sym t => Sys2Proof.Machine.execFlitRx l f fec sym t s
  | .nakRx l ack t => Sys2Proof.Machine.execNakRx l ack t s
  | .replayTimeout l t => Sys2Proof.Machine.execReplayTimeout l t s
  | .deliveryTimeout l sym t => Sys2Proof.Machine.execDeliveryTimeout l sym t s
  | .fabLinkUp l p since t => Sys2Proof.Machine.execFabLinkUp l p since t s
  | .fabLinkDown l started lost sym t => Sys2Proof.Machine.execFabLinkDown l started lost sym t s
  | .unpark l t => Sys2Proof.Machine.execUnpark l t s
  | .helloSend t => Sys2Proof.Machine.execHelloSend t s
  | .helloRx l dev epoch windows pairs cyc t => Sys2Proof.Machine.execHelloRx l dev epoch windows pairs cyc t s
  | .linkStateRx l dev named t => Sys2Proof.Machine.execLinkStateRx l dev named t s
  | .fabLoad q t => Sys2Proof.Machine.execFabLoad q t s
  | .fabStore q t => Sys2Proof.Machine.execFabStore q t s
  | .fabStoreWord q t => Sys2Proof.Machine.execFabStoreWord q t s
  | .fabGet q t => Sys2Proof.Machine.execFabGet q t s
  | .fabPut q t => Sys2Proof.Machine.execFabPut q t s
  | .fabFetchAdd q t => Sys2Proof.Machine.execFabFetchAdd q t s
  | .fabSwap q t => Sys2Proof.Machine.execFabSwap q t s
  | .fabCswap q t => Sys2Proof.Machine.execFabCswap q t s
  | .fabMin q t => Sys2Proof.Machine.execFabMin q t s
  | .fabMax q t => Sys2Proof.Machine.execFabMax q t s
  | .fabInv q t => Sys2Proof.Machine.execFabInv q t s
  | .fabInvPod q t => Sys2Proof.Machine.execFabInvPod q t s
  | .fabInvLocal q t => Sys2Proof.Machine.execFabInvLocal q t s
  | .fabMsg q t => Sys2Proof.Machine.execFabMsg q t s
  | .fabFenceOp q t => Sys2Proof.Machine.execFabFenceOp q t s
  | .homeLoad h lines t corr => Sys2Proof.Machine.execHomeLoad h lines t s corr
  | .homeStore h data masks t => Sys2Proof.Machine.execHomeStore h data masks t s
  | .homeStoreWord h size8 v t => Sys2Proof.Machine.execHomeStoreWord h size8 v t s
  | .homeAtomic h o t corr => Sys2Proof.Machine.execHomeAtomic h o t s corr
  | .homePut h data masks copy sig cyc t => Sys2Proof.Machine.execHomePut h data masks copy sig cyc t s
  | .homeInv h lines t => Sys2Proof.Machine.execHomeInv h lines t s
  | .homeMsg h msg t => Sys2Proof.Machine.execHomeMsg h msg t s
  | .homeCreditRx h n t => Sys2Proof.Machine.execHomeCreditRx h n t s
  | .cairnApply ix t corr => Sys2Proof.Machine.execCairnApply ix t s corr
  | .fabResponseRx h code data cacheOk evict t => Sys2Proof.Machine.execFabResponseRx h code data cacheOk evict t s
  | .loadRetryTimeout tag t => Sys2Proof.Machine.execLoadRetryTimeout tag t s
  | .requestTimeout tag t => Sys2Proof.Machine.execRequestTimeout tag t s
  | .atomicRetry tag t => Sys2Proof.Machine.execAtomicRetry tag t s
  | .atomicUnknown tag t => Sys2Proof.Machine.execAtomicUnknown tag t s
  | .recvSlotConsume w head t => Sys2Proof.Machine.execRecvSlotConsume w head t s
  | .creditReturnSend pod dev t => Sys2Proof.Machine.execCreditReturnSend pod dev t s
  | .msgCreditResync pod dev window count t => Sys2Proof.Machine.execMsgCreditResync pod dev window count t s
  | .rlcInvAll t => Sys2Proof.Machine.execRlcInvAll t s
  | .rlcInvAllDone t => Sys2Proof.Machine.execRlcInvAllDone t s
  -- Fabric faults and fencing
  | .detectorTick t => Sys2Proof.Machine.execDetectorTick t s
  | .fenceCtrlFence dev t => Sys2Proof.Machine.execFenceCtrlFence dev t s
  | .fenceMsgRx l src dev epoch cyc t => Sys2Proof.Machine.execFenceMsgRx l src dev epoch cyc t s
  | .helloSilenceSelfFence cyc t => Sys2Proof.Machine.execHelloSilenceSelfFence cyc t s
  | .rejoin t => Sys2Proof.Machine.execRejoin t s
  | .fenceNotice w dev t => Sys2Proof.Machine.execFenceNotice w dev t s
  | .fabBooksSnap qty index t => Sys2Proof.Machine.execFabBooksSnap qty index t s
  | .creditLeak l t => Sys2Proof.Machine.execCreditLeak l t s
  -- Slices
  | .sliceCreate x k t => Sys2Proof.Machine.execSliceCreate x k t s
  | .sliceOpened x t => Sys2Proof.Machine.execSliceOpened x t s
  | .sliceReset x cyc t => Sys2Proof.Machine.execSliceReset x cyc t s
  | .sliceRemove x cyc t => Sys2Proof.Machine.execSliceRemove x cyc t s
  | .sliceResetDone x t => Sys2Proof.Machine.execSliceResetDone x t s
  | .bar2Access pasid off width w t => Sys2Proof.Machine.execBar2Access pasid off width w t s
  -- Firmware and host
  | .watchdogExpiry c mcause mepc mtval imageOk took slot t => Sys2Proof.Machine.execWatchdogExpiry c mcause mepc mtval imageOk took slot t s
  | .fwCoreKick c t => Sys2Proof.Machine.execFwCoreKick c t s
  | .coreCrash c cause mcause mepc mtval imageOk took slot t => Sys2Proof.Machine.execCoreCrash c cause mcause mepc mtval imageOk took slot t s
  | .coreRestartDone c slot t => Sys2Proof.Machine.execCoreRestartDone c slot t s
  | .fwCoreRestart c imageOk took slot t => Sys2Proof.Machine.execFwCoreRestart c imageOk took slot t s
  | .logAppend c level trace args t => Sys2Proof.Machine.execLogAppend c level trace args t s
  | .fwLogSel n t => Sys2Proof.Machine.execFwLogSel n t s
  | .notifySend t => Sys2Proof.Machine.execNotifySend t s
  | .hbSessionOpen level t => Sys2Proof.Machine.execHbSessionOpen level t s
  | .hbSessionClose t => Sys2Proof.Machine.execHbSessionClose t s
  | .hbAttach x base t => Sys2Proof.Machine.execHbAttach x base t s
  | .hbHeartbeat v t => Sys2Proof.Machine.execHbHeartbeat v t s
  | .heartbeatTimeout t => Sys2Proof.Machine.execHeartbeatTimeout t s
  | .sessionLostExpiry t => Sys2Proof.Machine.execSessionLostExpiry t s
  | .pcieLinkDown t => Sys2Proof.Machine.execPcieLinkDown t s
  | .pcieFunctionReset kind t => Sys2Proof.Machine.execPcieFunctionReset kind t s
  -- Security
  | .enrolClaim r took t => Sys2Proof.Machine.execEnrolClaim r took t s
  | .enrolAdd r took t => Sys2Proof.Machine.execEnrolAdd r took t s
  | .enrolRevoke r took t => Sys2Proof.Machine.execEnrolRevoke r took t s
  | .enrolRelease r took t => Sys2Proof.Machine.execEnrolRelease r took t s
  | .secExtend mr t => Sys2Proof.Machine.execSecExtend mr t s
  | .sliceExtend x t => Sys2Proof.Machine.execSliceExtend x t s
  | .secEvlogSel ix t => Sys2Proof.Machine.execSecEvlogSel ix t s
  | .reqQuote who k ticket t => Sys2Proof.Machine.execReqQuote who k ticket t s
  | .reqChain who k ticket t => Sys2Proof.Machine.execReqChain who k ticket t s
  | .quoteService mapped t => Sys2Proof.Machine.execQuoteService mapped t s
  -- Power, assay and flash
  | .powerSample mw sectors vdd t => Sys2Proof.Machine.execPowerSample mw sectors vdd t s
  | .junctionTempSample n temp cyc t => Sys2Proof.Machine.execJunctionTempSample n temp cyc t s
  | .pwrWarn ns t => Sys2Proof.Machine.execPwrWarn ns t s
  | .railSag n uv ns cyc t => Sys2Proof.Machine.execRailSag n uv ns cyc t s
  | .shedStepEntry cyc t => Sys2Proof.Machine.execShedStepEntry cyc t s
  | .recoveryStep t => Sys2Proof.Machine.execRecoveryStep t s
  | .assayCheck t => Sys2Proof.Machine.execAssayCheck t s
  | .assayCheckDone rows third cyc t => Sys2Proof.Machine.execAssayCheckDone rows third cyc t s
  | .assaySampleTimeout t => Sys2Proof.Machine.execAssaySampleTimeout t s
  | .strikeLogHour t => Sys2Proof.Machine.execStrikeLogHour t s
  | .tileRetire beams t => Sys2Proof.Machine.execTileRetire beams t s
  | .assayLogSel ix t => Sys2Proof.Machine.execAssayLogSel ix t s
  | .thermtrip t => Sys2Proof.Machine.execThermtrip t s
  | .avsTimeout t => Sys2Proof.Machine.execAvsTimeout t s
  | .flashWrite len mapped t => Sys2Proof.Machine.execFlashWrite len mapped t s
  | .flashWriteDone ok t => Sys2Proof.Machine.execFlashWriteDone ok t s
  | .powerLoss t => Sys2Proof.Machine.execPowerLoss t s
  | .sagCleared n t => Sys2Proof.Machine.execSagCleared n t s
  -- Further events
  | .slewGapClosed t => Sys2Proof.Machine.execSlewGapClosed t s
  | .eecLocked t => Sys2Proof.Machine.execEecLocked t s
  | .ptpTransmit t => Sys2Proof.Machine.execPtpTransmit t s
  | .esmcTransmit t => Sys2Proof.Machine.execEsmcTransmit t s
  | .replayEntryExpiry l t => Sys2Proof.Machine.execReplayEntryExpiry l t s
  | .laneChargeLapse l t => Sys2Proof.Machine.execLaneChargeLapse l t s
  | .lendMessageRx d n t homed => Sys2Proof.Machine.execLendMessageRx d n t s homed
  | .resyncQueryRx h t => Sys2Proof.Machine.execResyncQueryRx h t s
  | .pcieLinkUp width rate t => Sys2Proof.Machine.execPcieLinkUp width rate t s
  | .pcieConfigRequest id t => Sys2Proof.Machine.execPcieConfigRequest id t s
  | .atsInvalidation entries t => Sys2Proof.Machine.execAtsInvalidation entries t s
  | .slotIndication c t => Sys2Proof.Machine.execSlotIndication c t s
  | .ruSessionUp r t => Sys2Proof.Machine.execRuSessionUp r t s
  | .customerImageLoad core x sigOk reqMin reqMax digest t => Sys2Proof.Machine.execCustomerImageLoad core x sigOk reqMin reqMax digest t s
  | .launchSlackExpiry job t => Sys2Proof.Machine.execLaunchSlackExpiry job t s

end Sys2Proof.Machine
end

