-- ==== Sys2Proof/Safety.lean ====
section
/-! DEFINITION. What a run may rely on: every sparse memory in its canonical form, and the units that a command names
enabled on this part. -/

namespace Sys2Proof.Machine

/-- The memory is in canonical form: addresses rise strictly and no listed byte is the unlisted one. -/
def Memory.wf (m : List Host.Cell) : Bool := tblWf (fun _ => unwritten) m

/-- The register file is in canonical form: addresses rise strictly and no listed word is the register's reset word. -/
def RegFile.wf (m : Tbl RegWord) : Bool := tblWf regReset m

/-- The accumulator files are in canonical form. -/
def AccFile.wf (m : Tbl (BitVec 32)) : Bool := tblWf (fun _ => 0) m

/-- A state whose memory, registers and accumulators are in canonical form, so that equal contents are equal data. -/
def State.canonical (s : State) : Prop := Memory.wf s.mem ∧ RegFile.wf s.regs ∧ AccFile.wf s.acc

/-- The tile or vault a command acts on is enabled on this part (R27, R29); every other unit of the right range is
there. -/
def State.unitOn (s : State) : Instr → Bool
  | .coldReset .. => true
  | .warmReset .. => true
  | .brownOut .. => true
  | .devResetWarm .. => true
  | .devResetCold .. => true
  | .romDone .. => true
  | .bootDone .. => true
  | .buildDone .. => true
  | .radioReadySet .. => true
  | .ownerStop .. => true
  | .stopComplete .. => true
  | .registerWrite .. => true
  | .rcRead .. => true
  | .windowAccessError .. => true
  | .planeViolationDrop .. => true
  | .strataReloadGo .. => true
  | .strataReloadAbort .. => true
  | .strataStaged .. => true
  | .strataSwitchRequest .. => true
  | .strataSwitch .. => true
  | .tableBankReleased .. => true
  | .drainStall .. => true
  | .cgCommit .. => true
  | .cgCheckDone .. => true
  | .cgAct .. => true
  | .cgDiscard .. => true
  | .cmdFetch site _ _ => s.tileOn site
  | .matmul site _ _ _ _ => s.tileOn site
  | .accRead site _ _ _ => s.tileOn site
  | .accLoad site _ _ => s.tileOn site
  | .scaleLoad site _ _ => s.tileOn site
  | .quant site _ _ => s.tileOn site
  | .vecAdd site _ _ => s.tileOn site
  | .vecSub site _ _ => s.tileOn site
  | .vecMul site _ _ => s.tileOn site
  | .vecFma site _ _ => s.tileOn site
  | .vecMax site _ _ => s.tileOn site
  | .vecMin site _ _ => s.tileOn site
  | .vecAbs site _ _ => s.tileOn site
  | .vecNeg site _ _ => s.tileOn site
  | .vecScale2 site _ _ => s.tileOn site
  | .vecCvt site _ _ => s.tileOn site
  | .sfuExp2 site _ _ => s.tileOn site
  | .sfuLog2 site _ _ => s.tileOn site
  | .sfuErf site _ _ => s.tileOn site
  | .sfuExp site _ _ => s.tileOn site
  | .sfuRecip site _ _ => s.tileOn site
  | .sfuRsqrt site _ _ => s.tileOn site
  | .sfuSigmoid site _ _ => s.tileOn site
  | .sfuSilu site _ _ => s.tileOn site
  | .sfuGeluErf site _ _ => s.tileOn site
  | .sfuGeluTanh site _ _ => s.tileOn site
  | .softmax site _ _ => s.tileOn site
  | .norm site _ _ => s.tileOn site
  | .copy site _ _ => s.tileOn site
  | .xferToSram site _ _ => s.tileOn site
  | .xferToMemory site _ _ => s.tileOn site
  | .seam site _ _ _ _ => s.tileOn site
  | .sync site _ _ => s.tileOn site
  | .loopBody site _ _ => s.tileOn site
  | .stopQueue site _ _ => s.tileOn site
  | .banksOn site _ _ => s.tileOn site
  | .banksRetain site _ _ => s.tileOn site
  | .banksOff site _ _ => s.tileOn site
  | .bankTransitionDone site _ _ => s.tileOn site
  | .commandComplete site _ _ _ _ _ _ => s.tileOn site
  | .xferArrival site _ _ _ _ => s.tileOn site
  | .xferFaultReport site _ _ _ _ _ _ _ => s.tileOn site
  | .remoteSignalArrival site _ _ => s.tileOn site
  | .shapingInterval site _ => s.tileOn site
  | .seamWriteWindow v _ => s.vaultOn v
  | .portRateChange v _ => s.vaultOn v
  | .vaultRefresh v _ => s.vaultOn v
  | .patrolScrub v _ _ => s.vaultOn v
  | .dramTempSample .. => true
  | .memAlloc .. => true
  | .memFree .. => true
  | .memHint .. => true
  | .memMigrate .. => true
  | .memQuery .. => true
  | .moveStart .. => true
  | .migrationSwitch .. => true
  | .oldRegionRelease .. => true
  | .regionZeroed .. => true
  | .releaseStall .. => true
  | .jqDoorbell .. => true
  | .jobStart .. => true
  | .jobLaunch .. => true
  | .launchPlanClose .. => true
  | .jobBoundExpiry .. => true
  | .jobEnd .. => true
  | .fullScrub site _ _ => s.tileOn site
  | .completionWrite .. => true
  | .jqFlush .. => true
  | .accountingPeriod .. => true
  | .seqEntryWrite .. => true
  | .stepBuild .. => true
  | .checkpointReached .. => true
  | .checkpointTimeout .. => true
  | .fallbackStart .. => true
  | .classicalDoneSignal .. => true
  | .deadlineExpiry .. => true
  | .claim .. => true
  | .claimComplete .. => true
  | .claimOverrun .. => true
  | .claimRelease .. => true
  | .tableSeal .. => true
  | .patchWrite .. => true
  | .patchCutoff .. => true
  | .tableFire .. => true
  | .slotMissed .. => true
  | .entryTrigger .. => true
  | .condAbortFire .. => true
  | .tableRelease .. => true
  | .fapiParam .. => true
  | .fapiConfig .. => true
  | .fapiStart .. => true
  | .fapiStop .. => true
  | .fapiDlTti .. => true
  | .fapiUlTti .. => true
  | .fapiUlDci .. => true
  | .fapiTxData .. => true
  | .fhUlPacket .. => true
  | .fhWindowClose .. => true
  | .ruCallHome .. => true
  | .ruConfigured .. => true
  | .ruSupervisionMiss .. => true
  | .ruUplaneSilence .. => true
  | .queuedTriggerStart .. => true
  | .vld .. => true
  | .vst .. => true
  | .vadd .. => true
  | .vsub .. => true
  | .cmul .. => true
  | .cmac .. => true
  | .accout .. => true
  | .accclr .. => true
  | .mag2 .. => true
  | .minmax .. => true
  | .agset .. => true
  | .repeatBody .. => true
  | .waitCounter .. => true
  | .signalCounter .. => true
  | .endStream .. => true
  | .ldpcDecode .. => true
  | .ldpcEncode .. => true
  | .polarDecode .. => true
  | .polarEncode .. => true
  | .fftForward .. => true
  | .fftInverse .. => true
  | .prachCorrelate .. => true
  | .prachDetect .. => true
  | .dmaVaultToSram .. => true
  | .dmaSramToVault .. => true
  | .dmaTileToCluster .. => true
  | .dmaClusterToTile .. => true
  | .trackingIdleFree .. => true
  | .ptpSyncRx .. => true
  | .ptpDelayResult .. => true
  | .ptpAnnounceRx .. => true
  | .announceTimeout .. => true
  | .syncTimeout .. => true
  | .ppsEdge .. => true
  | .ppsTimeout .. => true
  | .todFrameRx .. => true
  | .todPpsOutput .. => true
  | .holdoverBudgetExpiry .. => true
  | .timeCapture .. => true
  | .esmcRx .. => true
  | .synceRefFail .. => true
  | .synceWtrExpiry .. => true
  | .ethRxFrame .. => true
  | .txFrameEnqueue .. => true
  | .txFrameStart .. => true
  | .shaperTick .. => true
  | .policerTick .. => true
  | .gateEvent .. => true
  | .gateChange .. => true
  | .portLinkUp .. => true
  | .portLinkLoss .. => true
  | .flitRx .. => true
  | .nakRx .. => true
  | .replayTimeout .. => true
  | .deliveryTimeout .. => true
  | .fabLinkUp .. => true
  | .fabLinkDown .. => true
  | .unpark .. => true
  | .helloSend .. => true
  | .helloRx .. => true
  | .linkStateRx .. => true
  | .fabLoad .. => true
  | .fabStore .. => true
  | .fabStoreWord .. => true
  | .fabGet .. => true
  | .fabPut .. => true
  | .fabFetchAdd .. => true
  | .fabSwap .. => true
  | .fabCswap .. => true
  | .fabMin .. => true
  | .fabMax .. => true
  | .fabInv .. => true
  | .fabInvPod .. => true
  | .fabInvLocal .. => true
  | .fabMsg .. => true
  | .fabFenceOp .. => true
  | .homeLoad .. => true
  | .homeStore .. => true
  | .homeStoreWord .. => true
  | .homeAtomic .. => true
  | .homePut .. => true
  | .homeInv .. => true
  | .homeMsg .. => true
  | .homeCreditRx .. => true
  | .cairnApply .. => true
  | .fabResponseRx .. => true
  | .loadRetryTimeout .. => true
  | .requestTimeout .. => true
  | .atomicRetry .. => true
  | .atomicUnknown .. => true
  | .recvSlotConsume .. => true
  | .creditReturnSend .. => true
  | .msgCreditResync .. => true
  | .rlcInvAll .. => true
  | .rlcInvAllDone .. => true
  | .detectorTick .. => true
  | .fenceCtrlFence .. => true
  | .fenceMsgRx .. => true
  | .helloSilenceSelfFence .. => true
  | .rejoin .. => true
  | .fenceNotice .. => true
  | .fabBooksSnap .. => true
  | .creditLeak .. => true
  | .sliceCreate .. => true
  | .sliceOpened .. => true
  | .sliceReset .. => true
  | .sliceRemove .. => true
  | .sliceResetDone .. => true
  | .bar2Access .. => true
  | .watchdogExpiry .. => true
  | .fwCoreKick .. => true
  | .coreCrash .. => true
  | .coreRestartDone .. => true
  | .fwCoreRestart .. => true
  | .logAppend .. => true
  | .fwLogSel .. => true
  | .notifySend .. => true
  | .hbSessionOpen .. => true
  | .hbSessionClose .. => true
  | .hbAttach .. => true
  | .hbHeartbeat .. => true
  | .heartbeatTimeout .. => true
  | .sessionLostExpiry .. => true
  | .pcieLinkDown .. => true
  | .pcieFunctionReset .. => true
  | .enrolClaim .. => true
  | .enrolAdd .. => true
  | .enrolRevoke .. => true
  | .enrolRelease .. => true
  | .secExtend .. => true
  | .sliceExtend .. => true
  | .secEvlogSel .. => true
  | .reqQuote .. => true
  | .reqChain .. => true
  | .quoteService .. => true
  | .powerSample .. => true
  | .junctionTempSample .. => true
  | .pwrWarn .. => true
  | .railSag .. => true
  | .shedStepEntry .. => true
  | .recoveryStep .. => true
  | .assayCheck .. => true
  | .assayCheckDone .. => true
  | .assaySampleTimeout .. => true
  | .strikeLogHour .. => true
  | .tileRetire .. => true
  | .assayLogSel .. => true
  | .thermtrip .. => true
  | .avsTimeout .. => true
  | .flashWrite .. => true
  | .flashWriteDone .. => true
  | .powerLoss .. => true
  | .sagCleared .. => true
  | .slewGapClosed .. => true
  | .eecLocked .. => true
  | .ptpTransmit .. => true
  | .esmcTransmit .. => true
  | .replayEntryExpiry .. => true
  | .laneChargeLapse .. => true
  | .lendMessageRx .. => true
  | .resyncQueryRx .. => true
  | .pcieLinkUp .. => true
  | .pcieConfigRequest .. => true
  | .atsInvalidation .. => true
  | .slotIndication .. => true
  | .ruSessionUp .. => true
  | .customerImageLoad .. => true
  | .launchSlackExpiry .. => true

/-- The command names only units that this part has: none of its meanings stops. -/
def State.accepts (s : State) (c : Instr) : Bool := c.wf && s.unitOn c

/-- Command `i` of job `j` stands at the head of queue `q` of an enabled tile that has not failed, may issue in cycle `cyc`, its
waits and its order are met, and its opcode is listed (R147 to R154). -/
def State.headReady (s : State) (site q cyc : Nat) (j : TileJob) (i : Inst) : Prop :=
  s.tileOn site = true ∧ q < 4 ∧ (s.tile site).job = some j ∧ (s.tile site).fail = none ∧ s.ready site q cyc = some i ∧
    i.e.listed = true

/-- The command issued in cycle `cyc` runs as `c`: it is the last of the running commands, its entry has left its queue, and the
other tiles, the accumulators and the commands that wait are as before. -/
def State.issuedAs (s u : State) (site q cyc : Nat) (c : RunCmd) : Prop :=
  (u.tile site).running = (s.tile site).running ++ [c] ∧ u.queue site q = (s.queue site q).take cyc ∧
    (∀ k, k ≠ site → u.tile k = s.tile k) ∧ u.pending = s.pending

/-- A command that passes every check of its opcode and finds what it needs free (R153, R180). -/
def Plan.passes (p : Plan) : Prop := p.code = none ∧ p.hold = false

/-- Core `u` of cluster `c` is in run `r` and stands at command `e`, whose opcode is `op`; a run at its first command has an
aligned STREAM and a good ARG (R364 to R366). -/
def State.micaAt (s : State) (c u op : Nat) (r : StreamRun) (e : BitVec 128) : Prop :=
  c < 16 ∧ u < 8 ∧ (s.unit c u).run = some r ∧ (r.pc = 0 → r.waits = false → r.trig.stream % 16 = 0 ∧ r.trig.bad = false) ∧
    s.micaFetch c u r = some e ∧ cmdOp e = op

/-- Engine `u` of cluster `c` is in run `r` and stands at descriptor `d` of kind `kind`, whose header keeps the rules of R376 and
whose wait is met. -/
def State.engineAt (s : State) (c u kind : Nat) (r : StreamRun) (d : Desc) : Prop :=
  c < 16 ∧ (s.unit c u).run = some r ∧ r.trig.stream % 64 = 0 ∧ r.trig.bad = false ∧
    r.trig.stream + 64 * r.pc + 64 ≤ clusterBytes ∧
    d = BitVec.ofNat 512 (s.num (clusterKey c (r.trig.stream + 64 * r.pc)) 64) ∧ d.fld 0 0 8 = kind ∧
    (d.fld 0 14 1 = 1 → countReached (s.rd (R.RADIO_CNT_VALUE c (d.fld 0 8 6))) (d.fld 4 0 32) = true) ∧
    d.fld 0 23 9 = 0 ∧ d.fld 8 16 16 = 0 ∧ d.fld 0xC 8 24 = 0 ∧ (d.fld 0 22 1 = 1 → d.fld 8 0 16 ≠ 0)

end Sys2Proof.Machine
end

