-- ==== Sys2Proof/Certificates/Slice0/Obligations.lean ====
section
/-! DEFINITION. The statements about the device, from the rules of spec/. -/

open Sys2Proof Sys2Proof.Machine

/-! Lifecycle -/

/-- A command at the front of the queue takes effect with the rest waiting; an empty queue leaves the device as it is (log entry
1). -/
def Obligations.StepRunsFrontCommand : Prop :=
  (∀ (s : State) (c : Instr), step { s with pending := c :: s.pending } = exec c s) ∧
  (∀ s : State, s.pending = [] → step s = .next s)

/-- COLD_RESET, DEV_RESET_COLD and BROWN_OUT reset the whole device: the phase is ROM, the cause and the straps are recorded,
every memory of the device is empty (log entry 2), every register of the DEV to FW blocks but the two recorded ones is at its
Reset column, and memory outside the device is left alone where no flash write is in progress. WARM_RESET and DEV_RESET_WARM
reset the device but keep the straps, the stop cause, the log ring, the slices' GEN, the parking of links, the boot retries
and the device clock. -/
def Obligations.ResetsComplete : Prop :=
  (∀ (s : State) (lowNs straps mV ns word t : Nat) (trip : Bool),
    let AfterCold := fun (u : State) (cause : Nat) =>
      u.now = max s.now t ∧ u.pending = s.pending ∧ u.rd R.DEV_STATUS_PHASE = 1 ∧ u.rd R.DEV_RESET_CAUSE_CAUSE = cause ∧
      u.rd R.DEV_STRAP_STRAPS = straps % 16 ∧ u.dev.stuck = trip ∧ u.acc = [] ∧ u.tiles = [] ∧ u.slices = [] ∧
      (∀ k, k < outerKeys → u.byte k = unwritten) ∧
      (s.dev.writing = none → ∀ k, outerKeys ≤ k → u.byte k = s.byte k) ∧
      (∀ f : Fld, f.addr < 0x50000 → f.addr ≠ R.DEV_RESET_CAUSE_CAUSE.addr → f.addr ≠ R.DEV_STRAP_STRAPS.addr →
        u.rd f = State.reset.rd f)
    (∃ u, exec (.coldReset 1 lowNs straps trip t) s = .next u ∧ AfterCold u 1) ∧
    (s.runs = true → 10_000 ≤ lowNs → ∃ u, exec (.coldReset 2 lowNs straps trip t) s = .next u ∧ AfterCold u 2) ∧
    (s.runs = true → ∀ cause, cause = 3 ∨ cause = 4 →
      ∃ u, exec (.coldReset cause lowNs straps trip t) s = .next u ∧ AfterCold u cause) ∧
    (s.runs = true → mV < 600 → 1000 ≤ ns → ∃ u, exec (.brownOut mV ns straps trip t) s = .next u ∧ AfterCold u 4) ∧
    (s.runs = true → word % 4 = 2 → word / 256 % 256 = 0xA5 →
      ∃ u, exec (.devResetCold word straps trip t) s = .next u ∧ AfterCold u 3)) ∧
  (∀ (s : State) (lowNs word t : Nat) (trip : Bool), s.canonical → s.runs = true →
    let AfterWarm := fun (u : State) (cause : Nat) =>
      u.pending = s.pending ∧ u.rd R.DEV_STATUS_PHASE = 1 ∧ u.rd R.DEV_RESET_CAUSE_CAUSE = cause ∧
      u.rd R.DEV_STRAP_STRAPS = s.rd R.DEV_STRAP_STRAPS ∧ u.rd R.DEV_STOP_CAUSE_CAUSE = s.rd R.DEV_STOP_CAUSE_CAUSE ∧
      u.rd R.FW_BOOT_RETRIES_COUNT = s.rd R.FW_BOOT_RETRIES_COUNT ∧
      (∀ x, x < 64 → u.rd (R.SLICE_GEN_GEN x) = s.rd (R.SLICE_GEN_GEN x)) ∧
      (∀ l, l < 6 → u.rd (R.FAB_LINK_PARK_HELD l) = s.rd (R.FAB_LINK_PARK_HELD l)) ∧
      u.fw.log = s.fw.log ∧ u.rd R.FW_LOG_HEAD_SEQ = s.rd R.FW_LOG_HEAD_SEQ ∧ u.clk.dev = s.clk.dev ∧
      (∀ k, k < outerKeys → u.byte k = unwritten)
    (10_000 ≤ lowNs → ∃ u, exec (.warmReset 0x11 lowNs trip t) s = .next u ∧ AfterWarm u 0x11) ∧
    (∀ cause, cause = 0x12 ∨ cause = 0x13 →
      ∃ u, exec (.warmReset cause lowNs trip t) s = .next u ∧ AfterWarm u cause) ∧
    (word % 4 = 1 → word / 256 % 256 = 0xA5 → ∃ u, exec (.devResetWarm word trip t) s = .next u ∧ AfterWarm u 0x12))

/-- ROM_DONE, BOOT_DONE and BUILD_DONE each end their phase: with every check passed the next phase begins, with the first
failing check the device is FAILED with that check's cause. ROM_DONE with a good primary AGATE copy, and BOOT_DONE with good
primary copies that fit together, begin BOOT and BUILD. -/
def Obligations.BootPhasesComplete : Prop :=
  ∀ (s : State) (t : Nat), s.runs = true →
    (∀ (a b : ImageCopy), s.rd R.DEV_STATUS_PHASE = 1 → s.dev.resetEnd + s.bootWait ≤ max s.now t → s.dev.stop = .none →
      (s.rd R.DEV_STRAP_STRAPS / 2 % 2 = 0 → a.sigOk = true → a.formOk = true → s.counter 5 ≤ a.keySvn → s.counter 0 ≤ a.svn →
        ∃ u, exec (.romDone true true a b t) s = .next u ∧ u.rd R.DEV_STATUS_PHASE = 2 ∧ u.sec.agate = some a) ∧
      (∀ c, s.pickCopy (s.copyGood 0) a b = some c → ∃ u, exec (.romDone true true a b t) s = .next u ∧
        u.rd R.DEV_STATUS_PHASE = 2 ∧ u.rd (R.FW_CORE_STATUS_STATE 0) = 1 ∧ u.sec.agate = some c.1) ∧
      (s.pickCopy (s.copyGood 0) a b = none → ∃ u, exec (.romDone true true a b t) s = .next u ∧
        u.rd R.DEV_STATUS_PHASE = 0xF ∧ u.rd R.DEV_STOP_CAUSE_CAUSE = 4)) ∧
    (∀ (map : PartMap) (j1 j2 f1 f2 v1 v2 m1 m2 : ImageCopy) (listed : Bool) (recs : List (Nat × EnrolRec)),
      s.rd R.DEV_STATUS_PHASE = 2 → s.agateUp = true →
      (mapLegal map = true → ∀ w j f v m, w = (s.atTime t).readMap map → w.pickCopy (w.copyGood 1) j1 j2 = some j →
        w.pickCopy (w.copyGood 2) f1 f2 = some f → w.pickCopy (w.copyGood 3) v1 v2 = some v →
        w.pickCopy (w.copyGood 4) m1 m2 = some m →
        exec (.bootDone map true j1 j2 f1 f2 v1 v2 m1 m2 listed recs t) s =
          .next (w.bootWith ⟨j, f, v, some m.1⟩ listed (if w.rd R.DEV_STRAP_STRAPS / 2 % 2 = 1 then m2 else m1).digest recs)) ∧
      (mapLegal map = true → s.dev.stop = .none → s.rd R.DEV_STRAP_STRAPS / 2 % 2 = 0 →
        (∀ e ∈ [(1, j1), (2, f1), (3, v1), (4, m1)], e.2.sigOk = true ∧ e.2.formOk = true ∧ s.counter 5 ≤ e.2.keySvn ∧
          s.counter e.1 ≤ e.2.svn) →
        (setLevels (s.sec.agate.getD ⟨true, true, 0, 0, 0, 0, []⟩) j1 f1 v1).isSome = true →
        ∃ u, exec (.bootDone map true j1 j2 f1 f2 v1 v2 m1 m2 listed recs t) s = .next u ∧ u.rd R.DEV_STATUS_PHASE = 3) ∧
      (∀ ok, ok = false ∨ mapLegal map = false →
        ∃ u, exec (.bootDone map ok j1 j2 f1 f2 v1 v2 m1 m2 listed recs t) s = .next u ∧
          u.rd R.DEV_STATUS_PHASE = 0xF ∧ u.rd R.DEV_STOP_CAUSE_CAUSE = 4)) ∧
    (∀ (sig1 sig2 : Bool) (slabs : List (Nat × Nat)), s.rd R.DEV_STATUS_PHASE = 3 → s.agateUp = true →
      (∀ w c, w = (s.atTime t).nextEpoch → w.rd R.SEC_STATUS_OWNED ≠ 0 →
        w.pickCopy w.strataGood (w.flashStrata false, sig1) (w.flashStrata true, sig2) = some c → w.imageBroken c.1.1 = false →
        s.dev.stop = .none →
        exec (.buildDone sig1 sig2 slabs true true true true t) s =
          .next (((w.loadImage c.1.1 c.2).initVaults slabs).bringUp.enterRun)) ∧
      (s.rd R.SEC_STATUS_OWNED = 0 → ∃ u, exec (.buildDone sig1 sig2 slabs true true true true t) s = .next u ∧
        u.rd R.DEV_STATUS_PHASE = 0xF ∧ u.rd R.DEV_STOP_CAUSE_CAUSE = 4)) ∧
    (∀ p, 2 ≤ p → p ≤ 4 → s.dev.stop = .none → (s.nextPhase p).rd R.DEV_STATUS_PHASE = p ∧
      (s.nextPhase p).rd (R.DEV_PHASE_US_US p) = min ((s.now - s.dev.resetEnd) / 1000) 0xFFFF_FFFF)

/-- RADIO_READY becomes 1 at a slot boundary of a cluster with 8 slots preloaded once time is locked and a radio unit has been
READY. That a boundary of any such cluster will do is the model's choice (log entry 92). OWNER_STOP in RUN closes admission
at once; once the running jobs have ended and the radio has stopped, the device enters STOPPING with cause OWNER_STOP; before
RUN the stop is kept for the end of the phase. STOP_COMPLETE ends in STOPPED with admission closed. -/
def Obligations.RunEventsComplete : Prop :=
  (∀ (s w : State) (t c : Nat), w = s.airTime t → w.rd R.DEV_STATUS_PHASE = 4 → w.dev.stop = .none →
    w.rd R.DEV_STATUS_RADIO_READY = 0 → w.rd R.TIME_STATUS_TIME_LOCK = 1 → w.air.discovered = true → w.preloaded = true →
    c < 16 → w.eightReady c = true → w.atSlot (w.clusterMu c) = true →
    ∃ u, exec (.radioReadySet t) s = .next u ∧ u.rd R.DEV_STATUS_RADIO_READY = 1 ∧ u.rd R.AIR_STATUS_RUNNING = 1 ∧
      u.rd R.DEV_STATUS_PHASE = 4 ∧ u.mem = w.mem) ∧
  (∀ (s : State) (t : Nat),
    (s.rd R.DEV_STATUS_PHASE = 4 → s.dev.stop = .none → ∃ w : State, exec (.ownerStop t) s = .next w.passStop ∧
      w.rd R.SCHED_STATUS_ADMIT_OPEN = 0 ∧ w.rd R.DEV_STATUS_INFER_OPEN = 0 ∧ w.dev.stop = .owner ∧ w.sched = s.sched ∧
      w.mem = s.mem ∧ ((s.atTime t).slotGrid = 0 → s.rd R.DEV_STATUS_RADIO_READY = 0 → w.dev.radioStopAt = none)) ∧
    (s.rd R.DEV_STATUS_PHASE = 4 → s.dev.stop = .owner → s.dev.radioStopAt = none → s.jobsEnded = true →
      s.passStop = ((((s.reachStop 1).enterStopping).showAdmit).endWaiting (fun _ => true) 0x85).decision ∧
      ((s.reachStop 1).enterStopping).rd R.DEV_STATUS_PHASE = 5 ∧ ((s.reachStop 1).enterStopping).rd R.DEV_STOP_CAUSE_CAUSE = 1) ∧
    (s.rd R.DEV_STATUS_PHASE < 4 → s.dev.stop = .none →
      exec (.ownerStop t) s = .next { s.atTime t with dev := { s.dev with stop := .asked } }) ∧
    (∀ w, w = (s.atTime t).settleStop.passStop → w.rd R.DEV_STATUS_PHASE = 5 → w.jobsEnded = true → w.dev.radioStopAt = none →
      ∃ u, exec (.stopComplete t) s = .next u ∧ u.rd R.DEV_STATUS_PHASE = 6 ∧ u.rd R.SCHED_STATUS_ADMIT_OPEN = 0 ∧
        u.rd R.DEV_STATUS_INFER_OPEN = 0))

/-! Registers, the Strata image, commits and slices -/

/-- A write of a plain register changes its RW fields to the listed values written, clears the W1C bits written as 1, and leaves
every other register, all of memory and everything else as it was. A write of any register completes: a write that is a
command of its own, or that the slot's or model's state holds off, changes nothing here; one of a register whose fields all
belong to a commit group is an error at its active address; the others take effect and set going what follows in the same
cycle. -/
def Obligations.RegisterWriteCompletes : Prop :=
  ∀ (s : State) (who : Sender) (a width value t : Nat) (x : RegAt), s.regAt who a width = some x →
    (ownCommand x.reg.name value = false → s.heldField x = false → (x.shadow = true ∨ allGrouped x.reg = false) →
      s.oddRequest x value = none →
      x.reg.name ∉ ["MODEL_CTRL", "CQ_HEAD", "TILE_ARRAY_SHAPING", "STRATA_SWITCH_CTRL", "DEV_GPIO_OE", "DEV_GPIO_OUT"] →
      ∃ u, exec (.registerWrite who a width value t) s = .next u ∧
        u = { s.atTime t with regs := regSetWord s.regs a (wordWritten x.reg x.shadow value (regWord s.regs a)) } ∧
        (∀ b, b ≠ a → regWord u.regs b = regWord s.regs b) ∧
        (∀ f ∈ x.reg.fields, x.shadow = false → x.reg.group = .none → f.acc = .ro ∨ f.acc = .roKept ∨ f.acc = .rc →
          f.lo + f.width ≤ 64 →
          (∀ g ∈ x.reg.fields, g ≠ f → g.lo + g.width ≤ 64 ∧ (g.lo + g.width ≤ f.lo ∨ f.lo + f.width ≤ g.lo)) →
          bitsOf (regWord u.regs a) f.lo f.width = bitsOf (regWord s.regs a) f.lo f.width)) ∧
    (ownCommand x.reg.name value = true ∨ s.heldField x = true →
      exec (.registerWrite who a width value t) s = .next (s.atTime t)) ∧
    (ownCommand x.reg.name value = false → s.heldField x = false → x.shadow = false → allGrouped x.reg = true →
      exec (.registerWrite who a width value t) s = .next (s.atTime t).windowErr) ∧
    (ownCommand x.reg.name value = false → s.heldField x = false → (x.shadow = true ∨ allGrouped x.reg = false) →
      s.oddRequest x value = none → (x.reg.name = "MODEL_CTRL" → s.rd (R.MODEL_CTRL_ENABLE (x.inst.headD 0) (x.idx.headD 0)) = 0) →
      exec (.registerWrite who a width value t) s = .next (((s.atTime t).putReg x a value).liveActed x value))

/-- A read sends the register's word out and clears its RC fields alone; an access that reaches no register of its width, or a
write of a group register at its active address, is counted, and a read of the former answers zero; a packet of a plane that
a stop does not give is dropped and counted. -/
def Obligations.ReadsAndTurnedAwayAccessesComplete : Prop :=
  ∀ (s : State) (who : Sender) (a width t : Nat),
    (∀ w x, w = (s.atTime t).settleStop.passStop → w.regAt who a width = some x →
      (exec (.rcRead who a width t) s = .next (w.regRead x a) ∧
       ∃ v, (w.regRead x a).out = w.out ++ [⟨.read, [a, v], []⟩] ∧
        (∀ b, b ≠ a → regWord (w.regRead x a).regs b = regWord w.regs b) ∧ (w.regRead x a).mem = w.mem)) ∧
    (s.regAt who a width = none → bar0Hole who a = false →
      exec (.windowAccessError who a width true t) s = .next (s.atTime t).windowErr ∧
      exec (.windowAccessError who a width false t) s = .next ((s.atTime t).emit .read [a, 0]).windowErr ∧
      (∀ value, exec (.registerWrite who a width value t) s = .next (s.atTime t).windowErr)) ∧
    (s.regAt who a width = none → bar0Hole who a = true →
      exec (.windowAccessError who a width true t) s = .next (s.atTime t) ∧
      exec (.windowAccessError who a width false t) s = .next ((s.atTime t).emit .read [a, 0])) ∧
    (∀ x, s.regAt who a width = some x → x.shadow = false → allGrouped x.reg = true →
      exec (.windowAccessError who a width true t) s = .next (s.atTime t).windowErr) ∧
    (s.windowErr.rd R.STRATA_EVENT_WINDOW_ERR = 1 ∧ s.windowErr.rd R.STRATA_WINDOW_ERR_COUNT =
      min (s.rd R.STRATA_WINDOW_ERR_COUNT + 1) 0xFFFF_FFFF ∧ s.windowErr.mem = s.mem) ∧
    (∀ plane stop, plane < 3 → stop < 160 → s.rd (R.MESH_STOP_CTRL_ENABLED plane stop) = 0 →
      exec (.planeViolationDrop plane stop t) s = .next ((s.atTime t).sat (R.MESH_PLANE_VIOL_COUNT plane stop) 1)) ∧
    (∀ x pasid off, s.hostReach = true → s.boundSlice pasid off = some x →
      ∀ r, s.regAt (.slice x) (0x1000_0000 + off) width = some r →
      exec (.bar2Access pasid off width none t) s = .next ((s.atTime t).regRead r (0x1000_0000 + off)) ∧
      ∀ v, (s.atTime t).sliceCommand x r (off % 0x10_0000) v t = none →
        exec (.bar2Access pasid off width (some v) t) s = .next ((s.atTime t).regWrite r (0x1000_0000 + off) v))

/-- A reload: GO with every check passed enters CHECKING with the file at STRATA_RELOAD_ADDR held, else RESULT gives the reason;
STAGED loads the shadow copies and sets its event; an abort drops what is staged and goes to IDLE with no table's active bank
touched, and has no effect from the accepted switch instant on. -/
def Obligations.StrataReloadCompletes : Prop :=
  ∀ (s : State) (f : StrataFile) (sig : Bool) (t : Nat),
    (s.rd R.DEV_STATUS_PHASE = 4 → s.rd R.STRATA_STATUS_RELOAD = 0 → s.agateUp = true →
      f = s.ownerFile (s.rd R.STRATA_RELOAD_ADDR_ADDR) →
      (∀ r i d, (s.atTime t).reloadCode f sig = (r, i, d) → ∃ u, exec (.strataReloadGo sig false t) s = .next u ∧
        u.rd R.STRATA_RELOAD_RESULT_REASON = r % 256 ∧ u.rd R.STRATA_RELOAD_RESULT_DETAIL = d % 65536 ∧
        u.strata.tables = s.strata.tables ∧ u.mem = s.mem ∧
        (r = 0 → u.rd R.STRATA_STATUS_RELOAD = 1 ∧ u.strata.file = some f) ∧
        (r ≠ 0 → u.rd R.STRATA_STATUS_RELOAD = 0 ∧ u.rd R.STRATA_EVENT_REJECTED = 1)) ∧
      (f.magic ≠ 0x5354_5241 → ∃ u, exec (.strataReloadGo sig false t) s = .next u ∧ u.rd R.STRATA_RELOAD_RESULT_REASON = 1)) ∧
    (s.rd R.DEV_STATUS_PHASE ≠ 4 → exec (.strataReloadGo sig false t) s = .next ((s.atTime t).rejectStrata 0xE 0xFF 0)) ∧
    (s.rd R.DEV_STATUS_PHASE = 4 → s.rd R.STRATA_STATUS_RELOAD ≠ 0 →
      exec (.strataReloadGo sig false t) s = .next ((s.atTime t).rejectStrata 4 0xFF 0)) ∧
    (s.strata.file = some f → s.rd R.STRATA_STATUS_RELOAD = 1 → ∃ u, exec (.strataStaged t) s = .next u ∧
      u.rd R.STRATA_STATUS_RELOAD = 2 ∧ u.rd R.STRATA_EVENT_STAGED = 1 ∧ u.strata.staged = f.sections ∧
      (∀ id, u.activeBank id = s.activeBank id) ∧ u.mem = s.mem) ∧
    (s.rd R.STRATA_STATUS_RELOAD ≠ 0 → (s.rd R.STRATA_STATUS_RELOAD = 3 → (s.atTime t).switchDue = false) →
      ∃ u, exec (.strataReloadAbort t) s = .next u ∧
        u.rd R.STRATA_STATUS_RELOAD = 0 ∧ u.strata.staged = [] ∧ u.strata.file = none ∧
        u.strata.tables = s.strata.tables ∧ u.mem = s.mem) ∧
    (s.rd R.STRATA_STATUS_RELOAD = 3 → (s.atTime t).switchDue = true →
      exec (.strataReloadAbort t) s = .next (s.atTime t))

/-- A switch of a staged image: a request at a JOB boundary switches at once; one at a SLOT boundary in the future, or one at an
instant, waits and switches at that instant; the switch flips each table's bank and raises its epoch. The old bank of a table
is released once nothing holds it; 10 ms after a switch a bank still held is reported as a drain stall. -/
def Obligations.SwitchesAndDrainsComplete : Prop :=
  (∀ (s : State) (sfn slot t : Nat),
    (∀ w, w = (s.atTime t).switchFields 0 sfn slot →
      w.rd R.DEV_STATUS_PHASE = 4 → w.rd R.STRATA_STATUS_RELOAD = 2 → (∀ x ∈ w.strata.staged, sectionBoundary x = 0) →
      w.switchCode = (0, 0, 0) →
      exec (.strataSwitchRequest 0 sfn slot t) s = .next (w.reloadResult 0 0 0).switchNow) ∧
    (∀ w, w = (s.atTime t).switchFields 1 sfn slot →
      w.rd R.DEV_STATUS_PHASE = 4 → w.rd R.STRATA_STATUS_RELOAD = 2 → (∀ x ∈ w.strata.staged, sectionBoundary x = 1) →
      w.switchCode = (0, 0, 0) → slot % 128 < 80 → w.rd R.DEV_STATUS_RADIO_READY = 1 →
      w.gpsNs + 125_000 ≤ w.slot3Start (sfn % 1024) (slot % 128) →
      exec (.strataSwitchRequest 1 sfn slot t) s = .next (w.pendSwitch (w.slot3Start (sfn % 1024) (slot % 128)))) ∧
    (s.rd R.STRATA_STATUS_RELOAD = 3 → (s.atTime t).switchDue = true →
      ∃ u, exec (.strataSwitch t) s = .next u ∧ u.rd R.STRATA_STATUS_RELOAD = 0 ∧ u.rd R.STRATA_EVENT_SWITCHED = 1 ∧
        u.strata.staged = [] ∧ u.strata.file = none) ∧
    (∀ id, ((s.flipTable id).table id).active1 = !(s.table id).active1 ∧
      ((s.flipTable id).table id).epoch = (if (s.table id).epoch = 0xFFFF then 1 else (s.table id).epoch + 1) ∧
      (∀ j, j ≠ id → (s.flipTable id).table j = s.table j))) ∧
  (∀ (s : State) (id t : Nat), 1 ≤ id → id ≤ 10 →
    ((s.table id).held = true → (s.table id).oldFly = 0 →
      exec (.tableBankReleased id t) s =
        .next (((s.atTime t).setTable id { s.table id with held := false, stalled := false }).flag
          R.STRATA_EVENT_RELEASED).showDraining) ∧
    ((s.table id).stalled = false → (s.table id).oldFly ≠ 0 → (s.table id).switchedAt + 10_000_000 ≤ max s.now t →
      exec (.drainStall id t) s =
        .next (((s.atTime t).setTable id { s.table id with stalled := true }).flag R.STRATA_EVENT_DRAIN_STALL)))

/-- A commit: CG_COMMIT takes the snapshot of the shadow copy and the control shows CHECKING; a check that passes with the next
cycle as its act point moves exactly the snapshot into the active copy; a deferred one waits; CG_DISCARD copies the active
values into the shadow. What an acting snapshot writes: each register's group bits take the snapshot's, its other bits and
every other register stay, and nothing beyond the register file changes; the shadow copy takes the same group bits. -/
def Obligations.CommitsAndSnapshotsComplete : Prop :=
  (∀ (s : State) (who group btype inst ticket t : Nat), who < 65 →
    (∀ b i, (s.atTime t).cgReached who = true → s.checkOf who = none → groupAt who btype inst group = some (b, i) →
      exec (.cgCommit who group btype inst ticket t) s =
        .next (({ s.atTime t with strata := { s.strata with checking := s.strata.checking ++
          [Commit.mk (cgSlice who) group btype inst ticket (s.takeSnap b i group) (max s.now t)] } }).flag
          (cgFld R.CG_STATUS_CHECKING R.SLICE_CG_STATUS_CHECKING who))) ∧
    (∀ c w, s.checkOf who = some c → (s.atTime t).commitCode c = (0, 0) →
      w = ((({ s.atTime t with strata := { s.strata with checking := s.strata.checking.filter fun d => d.slice != c.slice } }).wr
        (cgFld R.CG_STATUS_CHECKING R.SLICE_CG_STATUS_CHECKING who) 0).cgReport who 0 0 c.ticket).supersede who c →
      exec (.cgCheckDone who t) s =
        .next ((if w.actsLater c then w.waitCommit c else w.actCommit c).showPending c.slice)) ∧
    (∀ c r d, s.checkOf who = some c → (s.atTime t).commitCode c = (r, d) → r ≠ 0 →
      exec (.cgCheckDone who t) s =
        .next ((({ s.atTime t with strata := { s.strata with checking := s.strata.checking.filter fun d => d.slice != c.slice } }).wr
          (cgFld R.CG_STATUS_CHECKING R.SLICE_CG_STATUS_CHECKING who) 0).cgReport who r d c.ticket)) ∧
    (∀ c, s.waitingFor none btype inst group = some c → btype ≠ 0x40 → btype ≠ 0x41 → (s.atTime t).actPoint c = true →
      exec (.cgAct btype inst group t) s =
        .next ((((s.atTime t).dropWaiting none btype inst group).actCommit c).showPending none)) ∧
    (∀ b i, (s.atTime t).cgReached who = true → s.checkOf who = none → groupAt who btype inst group = some (b, i) →
      s.instOn btype inst = true → s.waitingFor (cgSlice who) btype inst group = none →
      exec (.cgDiscard who group btype inst t) s = .next (((s.atTime t).discardGroup b i group).cgReport who 0 0 0))) ∧
  (∀ (s : State) (a : Nat) (w : RegWord),
    regWord (s.putGroup a a w).regs a = (regWord s.regs a &&& ~~~ maskAt a) ||| (w &&& maskAt a) ∧
    (∀ b, b ≠ a → regWord (s.putGroup a a w).regs b = regWord s.regs b) ∧
    (∀ l : List (Nat × RegWord), (∀ e ∈ l, e.1 ≠ a) → regWord (s.applySnap l).regs a = regWord s.regs a) ∧
    (∀ l : List (Nat × RegWord), { s.actSnap l with regs := s.regs } = s) ∧
    (halfPage a ≠ 0 → regWord (s.actSnap [(a, w)]).regs a &&& maskAt a = w &&& maskAt a ∧
      regWord (s.actSnap [(a, w)]).regs (a + halfPage a) &&& maskAt a = w &&& maskAt a))

/-- Slices: CREATE opens a free slice from a valid template with a new GEN, OPENED serves it, RESET and REMOVE close it, and when
everything of it has been cleared it is OPEN again or FREE. -/
def Obligations.SliceCommandsComplete : Prop :=
  ∀ (s : State) (x k cyc t : Nat), x < 64 →
    (k < 16 → s.rd R.DEV_STATUS_PHASE = 4 → s.rd (R.SLICE_STATE_STATE x) = 0 → s.createCode x k = 0 →
      exec (.sliceCreate x k t) s = .next (((s.atTime t).createSlice x k).sliceResult x 0)) ∧
    (s.rd (R.SLICE_STATE_STATE x) = 1 → s.jasperDown = false →
      exec (.sliceOpened x t) s = .next ((((({ s.atTime t with dev := { s.dev with served := s.dev.served || s.inRun } }).setSliceState
        x 2).showGroups x).showTiles x).showAdmit.decision)) ∧
    (s.rd R.DEV_STATUS_PHASE = 4 → s.rd (R.SLICE_STATE_STATE x) = 2 → s.rd R.SLICECTL_STATUS_ACTIVE < 4 →
      exec (.sliceReset x cyc t) s = .next (((s.atTime t).endSlice x 3 cyc).sliceResult x 0).decision ∧
      exec (.sliceRemove x cyc t) s = .next ((((s.atTime t).endSlice x 4 cyc).unbind x).sliceResult x 0).decision) ∧
    (s.rd (R.SLICE_STATE_STATE x) = 4 → s.sliceClear x = true →
      ∃ u, exec (.sliceResetDone x t) s = .next u ∧ u.rd (R.SLICE_STATE_STATE x) = 0 ∧ u.rd R.SLICECTL_EVENT_DONE = 1 ∧
        u.slice x = .reset ∧ u.mem = s.mem) ∧
    (s.rd (R.SLICE_STATE_STATE x) = 3 → s.sliceClear x = true →
      exec (.sliceResetDone x t) s = .next (((((((((s.atTime t).setSliceState x 2).wrs
        [(R.SC_LAST_RESET_NS_NS x, min (max s.now t - (s.slice x).since) 0xFFFF_FFFF), (R.SLICECTL_EVENT_DONE, 1)]).setSlice x
        .reset).actWaiting none 0x31 0 x).showQuota x).evictExcess x).serveAll).decision)) ∧
    (∀ st, st < 8 → (s.setSliceState x st).rd (R.SLICE_STATE_STATE x) = st) ∧
    ((s.createSlice x k).rd (R.SLICE_STATE_STATE x) = 1 ∧ (s.createSlice x k).rd (R.SLICE_IDENT_TEMPLATE x) = k % 16 ∧
      (s.createSlice x k).rd (R.SLICE_GEN_GEN x) = nextGen (s.gen x) % 0x1_0000 ∧ (s.createSlice x k).mem = s.mem)

/-! Tile commands -/

/-- Issue: the command at a queue's head that passes its checks, is not held and has its turn starts. It takes its entry from the
queue, stands on its unit and leaves its signal to its end; what it changes besides is its plan's effect. A head whose check
fails stops the tile with the lowest code that applies. -/
def Obligations.IssuedCommandLeavesQueue : Prop :=
  ∀ (s : State) (site q cyc : Nat) (j : TileJob) (i : Inst) (p : Plan) (mine : QEntry → Bool)
    (plan : State → Nat → TileJob → Inst → Option Plan),
    s.headReady site q cyc j i → mine i.e = true → plan s q j i = some p → p.hold = false →
    (∀ c, p.code = none → p.run = some c → s.outranked site q cyc j c.unit plan = false →
      s.issue site q cyc mine plan = s.started site q cyc i p) ∧
    (p.code = none → p.run = none → s.issue site q cyc mine plan = s.started site q cyc i p) ∧
    (∀ c, p.code = some c → s.issue site q cyc mine plan = s.failCmd site q cyc c i.e.tag i.e.index) ∧
    (∀ c, p.run = some c → ((p.effect s).tile site).fail = none →
      (s.started site q cyc i p).mem = (p.effect s).mem ∧ (s.started site q cyc i p).acc = (p.effect s).acc ∧
      (∀ f : Fld, f.addr ≠ (R.TILE_CMDQ_STATUS_STATE site q).addr → (s.started site q cyc i p).rd f = (p.effect s).rd f) ∧
      (p.effect s).issuedAs (s.started site q cyc i p) site q cyc c)

/-- Moves of data: COPY reads LEN bytes of tile SRAM to write them to its destination; SCALE_LOAD reads COUNT scale entries; an
XFER is handed to a DMA engine, with its packets on the plane of its holder, or dropped and counted where the tile's stop has
not that plane; SYNC completes with its signal. -/
def Obligations.TileMovesComplete : Prop :=
  ∀ (s : State) (site q cyc : Nat) (j : TileJob) (i : Inst), s.headReady site q cyc j i →
    (i.e.opcode = 9 → (s.copyPlan site q cyc j i).passes → s.outranked site q cyc j .copy
        (fun s q j i => if i.e.opcode = 0x09 then some (s.copyPlan site q cyc j i) else none) = false →
      ∃ u c, exec (.copy site q cyc) s = .next u ∧ s.issuedAs u site q cyc c ∧ c.unit = .copy ∧ c.sig = i.e.signal ∧
        c.outs.flatten = [⟨(i.slot 1).toNat, s.bytes (tileKey site (i.slot 0).toNat) (i.e.fld 0x20 0 22)⟩] ∧
        u.mem = s.mem ∧ u.acc = s.acc ∧ (∀ f : Fld, f.addr ≠ (R.TILE_CMDQ_STATUS_STATE site q).addr → u.rd f = s.rd f)) ∧
    (i.e.opcode = 4 → (s.scaleLoadPlan site q cyc j i).passes →
      s.outranked site q cyc j .quant (fun s q j i => s.quantiserPlan site q cyc j i) = false →
      ∃ u c, exec (.scaleLoad site q cyc) s = .next u ∧ s.issuedAs u site q cyc c ∧ c.unit = .quant ∧ c.outs = [] ∧
        c.scaleOut = true ∧ c.scales = [(i.e.fld 0x20 0 12, i.e.fld 0x20 12 13)] ∧
        c.scaleData = s.bytes (tileKey site (i.slot 0).toNat) (i.e.fld 0x20 12 13) ∧ u.mem = s.mem ∧ u.acc = s.acc ∧
        (∀ f : Fld, f.addr ≠ (R.TILE_CMDQ_STATUS_STATE site q).addr → u.rd f = s.rd f)) ∧
    (∀ out c, (out, c) ∈ [(false, Instr.xferToSram site q cyc), (true, .xferToMemory site q cyc)] → i.e.opcode = 0x0A →
      i.e.fld 0x28 22 1 = (if out then 1 else 0) → (s.xferPlan site q out j i).passes →
      let plane := if j.holder < 64 then 1 else 0
      ∃ u r, exec c s = .next u ∧
        (u.tile site).xfers = (s.tile site).xfers ++ [r] ∧ r.queue = q ∧ r.toMemory = out ∧ r.sram = (i.slot 0).toNat ∧
        r.vaddr = i.vaddr.toNat ∧ r.len = i.e.fld 0x28 0 22 ∧ r.gen = j.gen ∧ r.sig = i.e.signal ∧ u.mem = s.mem ∧ u.acc = s.acc ∧
        u.rd (R.TILE_CMDQ_DONE_DONE site q) = (s.rd (R.TILE_CMDQ_DONE_DONE site q) + 1) % 2 ^ (R.TILE_CMDQ_DONE_DONE site q).width ∧
        u.queue site q = (s.queue site q).take cyc ∧
        (s.rd (R.MESH_STOP_CTRL_ENABLED plane (meshStop site)) = 1 → r.route = some (1 + plane, s.newBank (1 + plane))) ∧
        (s.rd (R.MESH_STOP_CTRL_ENABLED plane (meshStop site)) ≠ 1 → r.route = none ∧
          u.rd (R.MESH_PLANE_VIOL_COUNT plane (meshStop site)) =
            min (s.rd (R.MESH_PLANE_VIOL_COUNT plane (meshStop site)) + 1) 0xFFFF_FFFF)) ∧
    (i.e.opcode = 0x0C → (syncPlan j i).passes → exec (.sync site q cyc) s = .next (s.started site q cyc i (syncPlan j i)) ∧
      s.started site q cyc i (syncPlan j i) = (s.takeHead site q cyc).doneOk site q cyc i.e.signal)

/-- VEC commands run to write their result row, element by element the OP's FP32 result in the output format, and nothing else.
SFU, SOFTMAX, NORM and QUANT commands run to write, row by row, the results their rules give, and no other byte. -/
def Obligations.VectorAndFunctionCommandsComplete : Prop :=
  (∀ (s : State) (site q cyc op : Nat) (c : Instr) (j : TileJob) (i : Inst), s.headReady site q cyc j i →
    (op, c) ∈ [(0, Instr.vecAdd site q cyc), (1, .vecSub site q cyc), (2, .vecMul site q cyc), (3, .vecFma site q cyc),
      (4, .vecMax site q cyc), (5, .vecMin site q cyc), (6, .vecAbs site q cyc), (7, .vecNeg site q cyc),
      (8, .vecScale2 site q cyc), (9, .vecCvt site q cyc)] →
    i.e.opcode = 6 → i.e.fld 0x20 0 4 = op → (s.vecPlan site q cyc op j i).passes →
    s.outranked site q cyc j .vector (fun s q j i => s.vectorPlan site q cyc j i) = false →
    let el := fun k m => toF32 (i.e.fld 0x20 4 4) (s.elem site (i.slot k).toNat (i.e.fld 0x20 4 4) m)
    ∃ u r, exec c s = .next u ∧ s.issuedAs u site q cyc r ∧ r.unit = .vector ∧ r.sig = i.e.signal ∧
      r.outs.flatten = [⟨(i.slot 3).toNat, packCodes (i.e.fld 0x20 8 4)
        ((List.range (i.e.fld 0x24 0 20 + 1)).map fun m =>
          fromF32 (i.e.fld 0x20 8 4) (vecResult op (i.e.fld 0x20 16 8) (el 0 m) (el 1 m) (el 2 m)))⟩] ∧
      u.mem = s.mem ∧ u.acc = s.acc ∧ (∀ f : Fld, f.addr ≠ (R.TILE_CMDQ_STATUS_STATE site q).addr → u.rd f = s.rd f)) ∧
  (∀ (s : State) (site q cyc : Nat) (j : TileJob) (i : Inst), s.headReady site q cyc j i →
    (∀ fn c, (fn, c) ∈ [(0, Instr.sfuExp2 site q cyc), (1, .sfuLog2 site q cyc), (2, .sfuErf site q cyc), (3, .sfuExp site q cyc),
        (4, .sfuRecip site q cyc), (5, .sfuRsqrt site q cyc), (6, .sfuSigmoid site q cyc), (7, .sfuSilu site q cyc),
        (8, .sfuGeluErf site q cyc), (9, .sfuGeluTanh site q cyc)] →
      i.e.opcode = 7 → i.e.fld 0x20 0 5 = fn → (s.sfuPlan site q cyc fn j i).passes →
      s.outranked site q cyc j .sfu
        (fun s q j i => if i.e.opcode = 0x07 then some (s.sfuPlan site q cyc (i.e.fld 0x20 0 5) j i) else none) = false →
      let fi := i.e.fld 0x20 8 4
      let x := fun row k =>
        let z := toF32 fi (s.elem site ((i.slot 0).toNat + 32 * i.e.fld 0x28 0 16 * row) fi k)
        if i.e.fld 0x20 16 1 = 1 then f32Mul z (i.e.fld 0x2C 0 32) else z
      ∃ u r, exec c s = .next u ∧ s.issuedAs u site q cyc r ∧ r.unit = .sfu ∧ u.mem = s.mem ∧ u.acc = s.acc ∧
        r.outs = (List.range (i.e.fld 0x24 0 16 + 1)).map fun row =>
          [⟨(i.slot 1).toNat + 32 * i.e.fld 0x28 16 16 * row, packCodes (i.e.fld 0x20 12 4)
            ((List.range (i.e.fld 0x24 16 16 + 1)).map fun k => fromF32 (i.e.fld 0x20 12 4) (sfuEval j.compat fn (x row k)))⟩]) ∧
    (i.e.opcode = 7 → i.e.fld 0x20 0 5 = 0x0A → i.e.fld 0x20 16 1 = 0 → i.e.fld 0x20 17 1 = 0 →
      (s.sfuPlan site q cyc 0x0A j i).passes →
      s.outranked site q cyc j .sfu
        (fun s q j i => if i.e.opcode = 0x07 then some (s.sfuPlan site q cyc (i.e.fld 0x20 0 5) j i) else none) = false →
      ∃ u r, exec (.softmax site q cyc) s = .next u ∧ s.issuedAs u site q cyc r ∧ r.unit = .sfu ∧ u.mem = s.mem ∧ u.acc = s.acc ∧
        r.outs = (List.range (i.e.fld 0x24 0 16 + 1)).map fun row =>
          [⟨(i.slot 1).toNat + 32 * i.e.fld 0x28 16 16 * row, packCodes (i.e.fld 0x20 12 4)
            ((softmaxRow j.compat ((List.range (i.e.fld 0x24 16 16 + 1)).map fun k => toF32 (i.e.fld 0x20 8 4)
              (s.elem site ((i.slot 0).toNat + 32 * i.e.fld 0x28 0 16 * row) (i.e.fld 0x20 8 4) k))).1.map
                (fromF32 (i.e.fld 0x20 12 4)))⟩]) ∧
    (i.e.opcode = 8 → (s.normPlan site q cyc j i).passes →
      s.outranked site q cyc j .vector (fun s q j i => s.vectorPlan site q cyc j i) = false →
      ∃ u r, exec (.norm site q cyc) s = .next u ∧ s.issuedAs u site q cyc r ∧ r.unit = .vector ∧
        r.outs = (List.range i.norm.rows).map (fun k => s.normRow site j.compat i.norm k) ∧
        u.mem = s.mem ∧ u.acc = s.acc ∧ u.rd (R.TILE_SFU_STATUS_NORM_BUSY site) = 1) ∧
    (i.e.opcode = 5 → (s.quantPlan site q cyc j i).passes →
      s.outranked site q cyc j .quant (fun s q j i => s.quantiserPlan site q cyc j i) = false →
      ∃ u r, exec (.quant site q cyc) s = .next u ∧ s.issuedAs u site q cyc r ∧ r.unit = .quant ∧
        r.outs.take i.quant.rows = (List.range i.quant.rows).map (fun k =>
          [⟨i.quant.dst.toNat + 32 * i.quant.dstStride * k, packCodes i.quant.dstFmt
            ((List.range i.quant.cols).map fun c => (s.quantOut site i.quant k c).1)⟩]) ∧
        (i.quant.statsEn = true → r.record = s.quantStats site i.quant ∧
          r.outs.drop i.quant.rows = [[⟨i.quant.stats.toNat, s.quantStats site i.quant⟩]]) ∧
        (i.quant.statsEn = false → r.record = [] ∧ r.outs.length = i.quant.rows) ∧
        u.mem = s.mem ∧ u.acc = s.acc ∧ (∀ f : Fld, f.addr ≠ (R.TILE_CMDQ_STATUS_STATE site q).addr → u.rd f = s.rd f)))

/-- The array's commands: MATMUL accumulates its products into its accumulator rows and leaves tile SRAM alone; ACC_READ runs to
write accumulator rows to tile SRAM and leaves the accumulators alone; ACC_LOAD does the reverse. SEAM runs to write the
results of its groups to tile SRAM, takes a buffer of its engine and pins its weights. -/
def Obligations.ArrayAndSeamCommandsComplete : Prop :=
  (∀ (s : State) (site q cyc par : Nat) (sampled : Bool) (j : TileJob) (i : Inst), s.headReady site q cyc j i →
    (i.e.opcode = 1 → (s.matmulPlan site q cyc par sampled j i).passes →
      s.outranked site q cyc j .array
        (fun s q j i => if i.e.opcode = 0x01 then some (s.matmulPlan site q cyc par sampled j i) else none) = false →
      ∃ u r, exec (.matmul site q cyc par sampled) s = .next u ∧
        u.acc = (s.putMat site i.mat (s.matAll site j.compat
          (i.mat.start == 1 || (i.mat.start == 2 && firstPass (s.queue site q).frames)) i.mat)).acc ∧
        u.mem = s.mem ∧ u.rd (R.TILE_ARRAY_STATUS_STATE site) = 3 ∧ u.queue site q = (s.queue site q).take cyc ∧
        (u.tile site).running = (s.tile site).running ++ [r] ∧ r.unit = .array ∧ r.outs = [] ∧ r.accOut = true ∧
        r.par = par) ∧
    (i.e.opcode = 2 → (s.accReadPlan site q cyc j i).passes →
      s.outranked site q cyc j .accPort (fun s q j i => s.portPlan site q cyc par j i) = false →
      ∃ u r, exec (.accRead site q cyc par) s = .next u ∧ s.issuedAs u site q cyc r ∧ r.unit = .accPort ∧ r.accOut = false ∧
        r.par = par ∧
        r.outs = (List.range i.accRows.length).map (fun k =>
          [⟨(i.accRows.getD k ⟨0, 0⟩).addr, packCodes (i.e.fld 0x20 16 4)
            ((List.range (i.e.fld 0x20 8 7 + 1)).map fun c =>
              fromF32 (i.e.fld 0x20 16 4) (f32Canon (s.accAt site ((i.slot 2).toNat + k) c)))⟩]) ∧
        u.mem = s.mem ∧ u.acc = s.acc) ∧
    (i.e.opcode = 3 → (s.accLoadPlan site q cyc j i).passes →
      s.outranked site q cyc j .accPort (fun s q j i => s.portPlan site q cyc 0 j i) = false →
      ∃ u, exec (.accLoad site q cyc) s = .next u ∧
        (∀ r c, r < i.accRows.length → c < i.e.fld 0x20 8 7 + 1 →
          u.accAt site ((i.slot 2).toNat + r) c = f32Canon (s.elem site (i.accRows.getD r ⟨0, 0⟩).addr 6 c) % 2 ^ 32) ∧
        u.mem = s.mem ∧ u.queue site q = (s.queue site q).take cyc)) ∧
  (∀ (s : State) (site q cyc yields : Nat) (sampled : Bool) (j : TileJob) (i : Inst), s.headReady site q cyc j i →
    i.e.opcode = 0x0B → (s.seamPlan site q cyc yields sampled j i).passes → s.seamBad j.holder i.seam = none →
    ∃ u r, exec (.seam site q cyc yields sampled) s = .next u ∧ r.unit = .seam ∧ r.code = 0 ∧
      (u.tile site).running = (s.tile site).running ++ [r] ∧
      r.outs = (List.range i.seam.groups).map (fun g => s.seamGroup site j.holder i.seam g) ∧ u.mem = s.mem ∧
      u.acc = s.acc ∧ (u.vault (s.seamVault site i.seam.sel - 1)).held = (s.vault (s.seamVault site i.seam.sel - 1)).held ++ [site] ∧
      u.mm.pins = s.mm.pins ++ (slabsOf i.seam.wbase.toNat i.seam.region).map (fun k => (j.holder, k)) ∧
      u.queue site q = (s.queue site q).take cyc)

/-- LOOP, STOP and BANKS: a loop is opened over the entries that follow; the queue stops; every named bank that is not yet there
moves to the target state. Events of a tile: a fetch fills the prefetch buffer from the ring; a command whose time has come
writes its outputs to tile SRAM and ends with DONE and its signal; transfers and remote signals land; a bank reaches its
target, and one that was or becomes OFF reads zero; the array's level moves by one at a shaping interval. -/
def Obligations.TileControlAndEventsComplete : Prop :=
  (∀ (s : State) (site q cyc : Nat) (j : TileJob) (i : Inst), s.headReady site q cyc j i → i.e.headerBad = false →
    i.e.bareBad = false →
    (i.e.opcode = 0x0D → i.e.fld 0x10 16 6 ≠ 0 → (s.queue site q).frames = [] →
      i.e.clearBut [(0x10, 0, 22), (0x14, 0, 24), (0x18, 0, 24), (0x1C, 0, 24), (0x20, 0, 24), (0x24, 0, 16)] = true →
      ∃ u f, exec (.loopBody site q cyc) s = .next u ∧ u.queue site q = (s.queue site q).openLoop f ∧
        (∀ b, (f b).len = i.e.fld 0x10 16 6 ∧ (f b).count = i.e.fld 0x10 0 16 + 1 ∧ (f b).idx = 0 ∧
          (f b).stride0 = signedOf 24 (i.e.fld 0x14 0 24)) ∧ u.mem = s.mem ∧ u.acc = s.acc) ∧
    (i.e.opcode = 0x0E → i.e.clearBut [] = true → ∃ u, exec (.stopQueue site q cyc) s = .next u ∧
      (u.queue site q).stopping = true ∧ u.mem = s.mem ∧ u.acc = s.acc ∧
      (s.queueDrained site q = true → u.rd (R.TILE_CMDQ_STATUS_STATE site q) = 3)) ∧
    (∀ tgt c, (tgt, c) ∈ [(0, Instr.banksOn site q cyc), (1, .banksRetain site q cyc), (2, .banksOff site q cyc)] →
      i.e.opcode = 0x0F → i.e.fld 0x20 24 2 = tgt → (s.banksPlan site q cyc tgt j i).passes →
      exec c s = .next (s.started site q cyc i (s.banksPlan site q cyc tgt j i)) ∧
      (∀ b, b < 24 → i.e.fld 0x20 b 1 = 1 → s.rd (bankFld site b) ≠ tgt →
        ((s.banksPlan site q cyc tgt j i).effect s).rd (bankFld site b) = 3))) ∧
  (∀ (s : State) (site q cyc : Nat), s.tileOn site = true → q < 4 →
    (∀ j, (s.tile site).job = some j → s.mayIssue site q cyc = true → (s.tile site).fail = none →
      exec (.cmdFetch site q cyc) s = .next (s.fetch site q cyc j.holder (16 - (s.queue site q).buf.length))) ∧
    (∀ h n, s.rd (R.TILE_CMDQ_HEAD_HEAD site q) ≠ s.rd (R.TILE_CMDQ_TAIL_TAIL site q) →
      let a := s.ringEntry site q (s.rd (R.TILE_CMDQ_HEAD_HEAD site q))
      s.hMapped h a 64 = true → s.hFirstBad h a 64 = none →
      s.fetch site q cyc h (n + 1) = ((((s.setQueue site q { s.queue site q with
        buf := (s.queue site q).buf ++ [⟨s.rd (R.TILE_CMDQ_HEAD_HEAD site q), BitVec.ofNat 512 (ofBytes (s.hBytes h a 64))⟩],
        headAt := if (s.queue site q).head.isNone then cyc else (s.queue site q).headAt }).bump
        (R.TILE_CMDQ_HEAD_HEAD site q) 1).showWait site q).fetch site q cyc h n)) ∧
    (∀ index c corr bad vcorr w, (s.tile site).running.find? (fun c => c.queue == q && c.index == index && c.unit != .banks) = some c →
      c.cyc + c.dur ≤ cyc → c.code = 0 → c.parityOf = 0 → (c.ins = [] ∨ bad = 0) → (∀ e, c.seam = some e → s.seamWaits site c e = false) →
      w = (s.sat (R.TILE_SRAM_ECC_CORR_COUNT site) corr).iff c.seam.isSome
        (fun s => s.sat (R.VAULT_ECC_CORR_COUNT ((c.seam.map (·.vault)).getD 0)) vcorr) →
      exec (.commandComplete site q index cyc corr bad vcorr) s =
        .next ((((w.finish site q cyc c).retire site cyc ((c.seam.map (·.total)).getD 0) c).checkPool).doneOk site q cyc c.sig) ∧
      (c.scaleOut = false → c.record = [] → c.seam = none →
        (w.finish site q cyc c).mem = (s.each c.outs.flatten fun t p => t.setBytes (tileKey site p.addr) p.data).mem ∧
        (w.finish site q cyc c).acc = s.acc)) ∧
    (∀ index r j corr, s.xferOf site q index cyc = some (r, false) → (s.tile site).job = some j →
      (j.holder < 64 → s.gen j.holder = r.gen) → (r.toMemory = true ∨ s.hFirstBad j.holder r.vaddr r.len = none) →
      exec (.xferArrival site q index cyc corr) s =
        .next (((((s.xferCorr site j.holder r corr).moveXfer site j.holder r).leaveXfer site cyc r false).signal site cyc
          r.sig).checkStop site q)) ∧
    (∀ index r j addr, s.xferOf site q index cyc = some (r, false) → (s.tile site).job = some j →
      (j.holder < 64 → s.gen j.holder = r.gen) → r.toMemory = true →
      exec (.xferFaultReport site q index cyc false addr 0 0) s =
        .next ((((s.sat (R.TILE_SRAM_ECC_CORR_COUNT site) 0).leaveXfer site cyc r false).cancelXfer site
          { r with route := none }).failCmd site q cyc 0x19 r.tag index)) ∧
    (∀ counter r, counter < 64 → (s.tile site).inbound.find? (fun r => r.counter == counter && r.earliest ≤ cyc) = some r →
      exec (.remoteSignalArrival site counter cyc) s = .next (((s.setTile site { s.tile site with
        inbound := (s.tile site).inbound.erase r }).landPackets (some r.route)).land site counter r.inc cyc)) ∧
    (∀ bank m, bank < 24 → (s.tile site).bankMoves.find? (fun m => m.bank == bank) = some m → s.bankInUse site bank = false →
      m.since + m.dur ≤ cyc → (s.tile site).running = [] →
      exec (.bankTransitionDone site bank cyc) s = .next (((if m.target = 2 then s.zeroBank site bank else s).setTile site
        { s.tile site with bankMoves := (s.tile site).bankMoves.erase m, running := [] }).wr (bankFld site bank) m.target)) ∧
    (∀ x, x = (s.showEngines site cyc).tile site → x.gapFrom ≤ cyc → (cyc - x.gapFrom) % 16 = 0 → x.lastInt < cyc →
      ∃ u m h, exec (.shapingInterval site cyc) s = .next u ∧
        m = nextLevel x.rampUp x.rampEnd h ((cyc - x.gapFrom) / 16) (s.rd (R.TILE_ARRAY_STATUS_LEVEL site)) ∧
        (x.gapFrom ≤ x.lastInt → 16 ≤ cyc - x.gapFrom → h = x.hold) ∧
        (0 < m → u.mem = s.mem ∧ u.acc = s.acc ∧ (u.tile site).lastInt = cyc ∧
          u.rd (R.TILE_ARRAY_STATUS_LEVEL site) = m % 32)))

/-! Vaults and the memory manager -/

/-- A write window of a Stream port opens when it is due, relocks, writes its queue out and relocks back; a rate change waits for
the engine and the queue, relocks the port, and then shows the new rate; a refresh takes the rate the temperature asks for
and costs a stream 4 cycles; the patrol moves on to the next codeword and counts what it finds. That a relock has its own
steps, and takes 30 ns, is the model's choice (log entry 102). -/
def Obligations.VaultEventsComplete : Prop :=
  ∀ (s : State) (v t : Nat), s.vaultOn v = true →
    (s.rd (R.VAULT_PORT_MODE_WINDOW v) = 0 → s.rd (R.VAULT_PORT_MODE_RELOCK v) = 0 → s.rd (R.VAULT_PORT_MODE_RATE v) = 1 →
      (s.atTime t).windowDue v = true → ∃ u, exec (.seamWriteWindow v t) s = .next u ∧ u.rd (R.VAULT_PORT_MODE_WINDOW v) = 1 ∧
        u.rd (R.VAULT_PORT_MODE_RELOCK v) = 1 ∧ (u.vault v).wq = (s.vault v).wq ∧ u.mem = s.mem) ∧
    (s.rd (R.VAULT_PORT_MODE_WINDOW v) = 1 → s.rd (R.VAULT_PORT_MODE_RELOCK v) = 1 → (s.atTime t).relocked v = true →
      ∃ u, exec (.seamWriteWindow v t) s = .next u ∧ u.rd (R.VAULT_PORT_MODE_RELOCK v) = 0 ∧
        u.rd (R.VAULT_PORT_MODE_WINDOW v) = (if (s.vault v).drained then 0 else 1) ∧ u.mem = s.mem) ∧
    (s.rd (R.VAULT_PORT_MODE_WINDOW v) = 1 → s.rd (R.VAULT_PORT_MODE_RELOCK v) = 0 →
      ∃ u, exec (.seamWriteWindow v t) s = .next u ∧ (u.vault v).wq = [] ∧ (u.vault v).behind = [] ∧ (u.vault v).drained = true ∧
        u.rd (R.VAULT_WQ_LEVEL_BYTES v) = 0 ∧ u.rd (R.VAULT_PORT_MODE_RELOCK v) = 1 ∧ u.mem = s.mem) ∧
    ((s.vault v).held = [] → ((s.vault v).wantStream = true ∨ ((s.vault v).wq = [] ∧ (s.vault v).behind = [])) →
      s.rd (R.VAULT_PORT_MODE_WINDOW v) = 0 →
      (s.rd (R.VAULT_PORT_MODE_RELOCK v) = 0 → s.rd (R.VAULT_PORT_MODE_RATE v) ≠ (if (s.vault v).wantStream then 1 else 0) →
        ∃ u, exec (.portRateChange v t) s = .next u ∧ u.rd (R.VAULT_PORT_MODE_RELOCK v) = 1 ∧ (u.vault v).relockAt = max s.now t ∧
          u.mem = s.mem) ∧
      (s.rd (R.VAULT_PORT_MODE_RELOCK v) = 1 → (s.atTime t).relocked v = true →
        ∃ u, exec (.portRateChange v t) s = .next u ∧ u.rd (R.VAULT_PORT_MODE_RELOCK v) = 0 ∧
          u.rd (R.VAULT_PORT_MODE_RATE v) = (if (s.vault v).wantStream then 1 else 0) ∧ u.mem = s.mem)) ∧
    (∀ hot, hot = (s.rd (R.HUB_THERM_STATE_LEVEL (v / 19)) != 0) →
      ∃ u, exec (.vaultRefresh v t) s = .next u ∧ (u.vault v).doubled = hot ∧
        u.rd (R.VAULT_STATUS_REFRESH_2X v) = (if hot then 1 else 0) ∧
        u.rd (R.VAULT_SEAM_REFRESH_CYC_COUNT v) = (s.rd (R.VAULT_SEAM_REFRESH_CYC_COUNT v) +
          (if (s.vault v).held = [] then 0 else 4)) % 2 ^ (R.VAULT_SEAM_REFRESH_CYC_COUNT v).width ∧ u.mem = s.mem) ∧
    (s.badAt v (s.vault v).patrolAt = 0 →
      (s.vault v).patrolAt + 1 < 0x180_0000 →
        exec (.patrolScrub v 0 t) s = .next ((s.atTime t).setVault v { s.vault v with patrolAt := (s.vault v).patrolAt + 1 }) ∧
        exec (.patrolScrub v 1 t) s = .next (((s.atTime t).sat (R.VAULT_ECC_CORR_COUNT v) 1).setVault v
          { s.vault v with patrolAt := (s.vault v).patrolAt + 1 })) ∧
    (s.badAt v (s.vault v).patrolAt = 0 → (s.vault v).patrolAt + 1 = 0x180_0000 →
      exec (.patrolScrub v 0 t) s = .next (((s.atTime t).setVault v { s.vault v with patrolAt := 0 }).bump
        (R.VAULT_PATROL_PASS_COUNT v) 1))

/-- A GO in a free slot of an open window queues its request, and what waits is served in order. A request takes effect when no
other waits and no slice holds more than its ceiling: ALLOC grants the object, FREE gives its slabs back, HINT changes its
placement hint, MIGRATE queues its moves; it ends with its TICKET echoed and its slot free. -/
def Obligations.MemoryRequestsComplete : Prop :=
  ∀ (s : State) (x n ticket hint t op : Nat) (w : State), x < 64 → n < 16 → s.sliceOpen x = true →
    s.rd (R.MEM_REQ_CTRL_GO x n) = 0 → s.mm.reqs = [] →
    w = (s.atTime t).wrs [(R.MEM_REQ_CTRL_OP x n, op), (R.MEM_REQ_CTRL_TICKET x n, ticket), (R.MEM_REQ_CTRL_HINT x n, hint),
      (R.MEM_REQ_CTRL_GO x n, 1)] → w.jasperDown = false → w.reqCheck x n op = 0 →
    (∀ y, y < 64 → w.used y ≤ w.rd (R.MEM_QUOTA_CEIL y)) →
    (op = 1 → hint % 16 = 5 ∨ w.shortBy x (w.reqFields x n).count = 0 →
      exec (.memAlloc x n ticket hint t) s = .next ((w.grant x n).serveReqs 1)) ∧
    (op = 2 → exec (.memFree x n ticket hint t) s =
      .next (((w.freeObject x ((w.reqFields x n).handle % 4096)).endReq x n 0 0).serveReqs 1)) ∧
    (op = 3 → exec (.memHint x n ticket hint t) s =
      .next (((w.setObject x ((w.reqFields x n).handle % 4096) { w.object x ((w.reqFields x n).handle % 4096) with
        hint := (w.reqFields x n).hint, target := (w.reqFields x n).target }).endReq x n 0 0).serveReqs 1)) ∧
    (op = 4 → exec (.memMigrate x n ticket hint t) s = .next ((w.migrate x n).serveReqs 1)) ∧
    (∀ c, (op, c) ∈ [(1, Instr.memAlloc x n ticket hint t), (2, .memFree x n ticket hint t), (3, .memHint x n ticket hint t),
        (4, .memMigrate x n ticket hint t)] →
      exec c s = .next { w with mm := { w.mm with reqs := [MemReq.mk x n op 0 0 0 false] } }.serveAll) ∧
    (∀ code done, code < 256 → (w.endReq x n code done).rd (R.MEM_REQ_STATUS_STATUS x n) = code ∧
      (w.endReq x n code done).rd (R.MEM_REQ_STATUS_TICKET_ECHO x n) = ticket % 256 ∧
      (w.endReq x n code done).rd (R.MEM_REQ_CTRL_GO x n) = 0 ∧ (w.endReq x n code done).mem = s.mem)

/-- A query shows its slab's home-table entry; an engine with fewer than 4 moves starts the next; the move of an unpinned slab
switches; released regions are zeroed and return to the free pool; a region not released in 10 ms is reported; a lend that a
peer announces is listed, and what a borrower has homed is noted. -/
def Obligations.MovesAndRegionsComplete : Prop :=
  ∀ (s : State) (t : Nat),
    (∀ x slab, x < 64 → exec (.memQuery x slab t) s = .next (((s.atTime t).wrs [(R.MEM_QUERY_VA_SLAB_VA, slab),
      (R.MEM_QUERY_VA_SLICE, x)]).wr R.MEM_QUERY_RESULT_ENTRY ((s.atTime t).entryWord x (slab % 2 ^ 36)))) ∧
    (∀ sector m, sector < 8 → (s.mm.moves.filter fun (m : Move) => m.sector == sector && m.started).length < 4 →
      s.nextMove sector = some m → exec (.moveStart sector t) s = .next ((s.atTime t).startMove m).serveAll) ∧
    (∀ x slab m, x < 64 → s.moveOf x slab = some m → (x, slab) ∉ s.mm.pins →
      exec (.migrationSwitch x slab t true) s = .next ((s.atTime t).mapMove x slab fun m => { m with frozen := true }) ∧
      exec (.migrationSwitch x slab t false) s = .next ((s.atTime t).switchMove m).serveAll) ∧
    (∀ v i, v < 152 → i < 384 → (∀ o : OldRegion, o ∈ s.mm.old → ∀ f ∈ o.flights, s.inFlight f = false) →
      exec (.oldRegionRelease v i t) s =
        .next { s.atTime t with mm := { s.mm with old := s.mm.old.map fun (o : OldRegion) =>
          if o.vault == v && o.index == i then { o with released := true } else o } }) ∧
    (∀ v i, v < 152 → i < 384 → (∀ o : OldRegion, o ∈ s.mm.old → ∃ f ∈ o.flights, s.inFlight f = true) →
      exec (.oldRegionRelease v i t) s = .next (s.atTime t)) ∧
    (∀ v i, v < 152 → i < 384 → (∃ o : OldRegion, o ∈ s.mm.old ∧ o.vault = v ∧ o.index = i ∧ o.released = true) →
      ∃ w : State, exec (.regionZeroed v i t) s = .next w.serveAll ∧
        (∀ k, vaultKey v (i * 0x20_0000) ≤ k → k < vaultKey v ((i + 1) * 0x20_0000) → w.byte k = unwritten) ∧
        (∀ k, k < vaultKey v (i * 0x20_0000) ∨ vaultKey v ((i + 1) * 0x20_0000) ≤ k → w.byte k = s.byte k) ∧
        w.region v i = .free ∧ (∀ o : OldRegion, o ∈ w.mm.old → ¬ (o.vault = v ∧ o.index = i)) ∧
        w.rd R.MEM_POOL_FREE_SLABS = (s.rd R.MEM_POOL_FREE_SLABS + 1) % 2 ^ R.MEM_POOL_FREE_SLABS.width ∧
        w.rd R.MEM_POOL_HELD_SLABS = s.rd R.MEM_POOL_HELD_SLABS - 1) ∧
    (∀ v i, v < 152 → i < 384 → (∃ o : OldRegion, o ∈ s.mm.old ∧ o.vault = v ∧ o.index = i ∧ o.moved = true ∧ o.released = false ∧
        o.switchedAt + 10_000_000 ≤ max s.now t) →
      exec (.releaseStall v i t) s = .next (({ s.atTime t with mm := { s.mm with old := s.mm.old.map fun (o : OldRegion) =>
        if o.vault == v && o.index == i then { o with stalled := true } else o } }).flag R.MEM_EVENT_RELEASE_STALL)) ∧
    (∀ d n, d < 256 → s.lendOf d = none →
      exec (.lendMessageRx d (some n) t []) s = .next ((s.atTime t).setLends (s.mm.lendsIn ++ [⟨d, n, []⟩])).serveAll) ∧
    (∀ d k n, d < 256 → k < 16 → s.rd (R.MEM_LEND_VALID k) = 1 → s.rd (R.MEM_LEND_DEVICE k) = d →
      exec (.lendMessageRx d none t [(k, n)]) s =
        .next { s.atTime t with mm := { s.mm with lentHomed := tblSet 0 s.mm.lentHomed k n } })

/-- Bytes stored in memory read back, and every byte outside them is as before; register fields read back the low bits written,
and every other field that shares no bit is as before. -/
def Obligations.StoresAndFieldWritesReadBack : Prop :=
  ∀ (s : State),
    (∀ k l, (∀ i (h : i < l.length), (s.setBytes k l).byte (k + i) = l[i]) ∧
      (∀ a, a < k ∨ k + l.length ≤ a → (s.setBytes k l).byte a = s.byte a) ∧ (s.setBytes k l).regs = s.regs ∧
      (Memory.wf s.mem = true → Memory.wf (s.setBytes k l).mem = true)) ∧
    (∀ f v, f.lo + f.width ≤ 64 → (s.wr f v).rd f = v % 2 ^ f.width ∧ (s.wr f v).mem = s.mem ∧
      (∀ g : Fld, g.addr ≠ f.addr ∨ f.lo + f.width ≤ g.lo ∨ g.lo + g.width ≤ f.lo → (s.wr f v).rd g = s.rd g) ∧
      (RegFile.wf s.regs = true → RegFile.wf (s.wr f v).regs = true)) ∧
    (∀ lo hi a, (s.zeroKeys lo hi).byte a = if lo ≤ a ∧ a < hi then unwritten else s.byte a)

/-! Jobs, sequences, deadlines and claims -/

/-- A doorbell moves TAIL and brings a decision; a flush ends every waiting and held job of its queue with CANCELLED; the
completion writer stores the oldest record of a queue in its ring, moves TAIL by one and drops the job. For a neural primary
that ended with OK it advances the counter of the cluster's decode entry by 1. -/
def Obligations.JobQueueCommandsComplete : Prop :=
  ∀ (s : State) (x q decode t : Nat), q < 32 → decode < 64 →
    (∀ tail : Nat, x < 64 → s.sliceOpen x = true →
      toField 32 ((tail : Int) - s.rd (R.JQ_HEAD_HEAD x q)) ≤ 2 ^ s.rd (R.JQ_SIZE_SIZE_LOG2 x q) →
      exec (.jqDoorbell x q tail t) s = .next ((s.atTime t).wr (R.JQ_TAIL_TAIL x q) tail).decision) ∧
    (x < 64 → s.sliceOpen x = true → exec (.jqFlush x q t) s =
      .next (((s.atTime t).endWaiting (fun j => j.slice == x && j.queue == q) 4).drainRing x q 4 4096).decision) ∧
    (∀ (j : JobRec) (u : State), x < 64 → s.sched.jobs.find? (fun j => j.slice == x && j.queue == q && j.phase == .ended) = some j →
      s.gen x = j.gen → j.hgen = 0 → s.rd (R.CQ_BASE_ADDR x q) * 32 < 2 ^ 56 →
      s.cqUsed x q < 2 ^ s.rd (R.CQ_SIZE_SIZE_LOG2 x q) →
      u = ((s.atTime t).dropJob j.id).put x (s.rd (R.CQ_BASE_ADDR x q) * 32 +
          32 * (s.rd (R.CQ_TAIL_TAIL x q) % 2 ^ s.rd (R.CQ_SIZE_SIZE_LOG2 x q)))
        (j.record (1 - toField 32 ((s.rd (R.CQ_TAIL_TAIL x q) : Int) - tblGet 0 s.sched.ringBase (x * 32 + q)) /
          2 ^ s.rd (R.CQ_SIZE_SIZE_LOG2 x q) % 2)) →
      exec (.completionWrite x q decode t) s = .next ((((u.bump (R.CQ_TAIL_TAIL x q) 1).showCq x q).emit .completion
        [x, q, s.rd (R.CQ_TAIL_TAIL x q)]).ringVector x q)) ∧
    (∀ j : JobRec, 64 ≤ x → x < 80 → s.sched.jobs.find? (fun j => j.slice == x && j.queue == q && j.phase == .ended) = some j →
      j.fbKind = 2 → j.status = some 0 → exec (.completionWrite x q decode t) s =
        .next ((((s.atTime t).dropJob j.id).emit .completion [x, j.id] (j.record 0)).bump (R.RADIO_CNT_VALUE (x - 64) decode) 1))

/-- A placed job starts, with the stand-in bindings Jasper makes for it; a job whose queues have all stopped ends OK; a job at
its bound is aborted, a realtime primary is replaced by its fall-back. A launch job: its plan closes 5.05 ms before
LAUNCH_TIME, it starts at LAUNCH_TIME on tiles that are free (a loss of lock in that very cycle counts as locked), and it
ends with LAUNCH_MISSED once its lateness exceeds its slack. -/
def Obligations.JobsRunAndLaunch : Prop :=
  (∀ (s : State) (job cyc t : Nat) (binds : List (Nat × Nat)) (j : JobRec), s.job job = some j →
    (j.phase = .placed → (s.atTime t).tilesHalt j = false → (s.atTime t).mayLoad j = true →
      exec (.jobStart job cyc t binds) s =
        .next ((((s.atTime t).standIns j.slice j.tiles binds).startJob j cyc).showTiles j.slice)) ∧
    (j.phase = .running → s.firstFail j = none → j.status = none → s.allStopped j = true →
      exec (.jobEnd job cyc t) s = .next ((((s.atTime t).closeJob j cyc 0).decision.passStop).checkJob j)) ∧
    (j.phase = .running → s.firstFail j = none → s.allStopped j = false → j.startNs + j.bound ≤ max s.now t →
      (j.realtime = false ∨ j.fallback = true → exec (.jobBoundExpiry job cyc t) s =
        .next (((s.atTime t).abortTiles j cyc).putJob { j with status := some 2 })) ∧
      (j.realtime = true → j.fallback = false → exec (.jobBoundExpiry job cyc t) s =
        .next ((s.atTime t).replacePrimary j cyc))) ∧
    (j.realtime = false → s.startJob j cyc = (s.putJob { j with
      startNs := s.now, startCyc := s.aclk, startWord := s.devTime, phase := .running }).loadTiles { j with
      startNs := s.now, startCyc := s.aclk, startWord := s.devTime, phase := .running } cyc j.tiles j.table)) ∧
  (∀ (s w : State) (job cyc t : Nat) (binds : List (Nat × Nat)) (j : JobRec), w = s.atTime t → s.job job = some j →
    j.phase = .held →
    (w.untilWord j.launch ≤ 5_050_000 →
      exec (.launchPlanClose job t) s = .next (w.putJob { j with closed := true })) ∧
    (w.untilWord j.launch ≤ 0 → w.jasperDown = false → (j.mode / 16 % 2 = 0 ∨ w.rd R.DEV_STATUS_TIME_LOCK = 1 ∨ w.clk.lostAt = w.now + 1) →
      (j.slack = 0 ∨ (-(w.untilWord j.launch)).toNat ≤ j.slack) → w.tilesHalt j = false →
      (if j.slice < 64 then j.tiles.all (w.tileFree j.slice) else w.mayLoad j) = true →
      (j.hgen = 0 ∨ w.rd R.HB_SESSION_STATUS_STATE ≠ 2) →
      ∃ v, v = (w.each j.tiles fun s k => s.wr (R.SCHED_TILE_LAUNCH_PLANNED k) 0) ∧
        exec (.jobLaunch job cyc t binds) s =
          .next (((((v.put j.slice (j.policy + 0x40) (toBytes 4 (ofBytes (v.hBytes j.slice (j.policy + 0x40) 4) % 4 + 4 +
              (if w.untilWord j.launch = 0 then 0 else 8)))).put j.slice (j.policy + 0x48)
            (toBytes 4 (min (-(w.untilWord j.launch)).toNat 0xFFFF_FFFF))).standIns j.slice j.tiles binds).startJob
              { j with launched := true } cyc).showTiles j.slice)) ∧
    (j.slack ≠ 0 → w.untilWord j.launch < -(j.slack : Int) →
      exec (.launchSlackExpiry job t) s = .next (w.endUnstarted j 0x65).decision))

/-- Deadlines: a checkpoint on time is ticked off, one whose projection passes L or that is overdue replaces the primary; the
fall-back starts once its tiles are idle; a classical path ends with its signal by the deadline, or without it. At a boundary
of the local clock's milliseconds the accounting period's whole supply is divided among the active groups by weight, the
remainder to the lowest. -/
def Obligations.DeadlinesAndSuppliesComplete : Prop :=
  (∀ (s w : State) (job i cyc t : Nat) (j : JobRec), w = s.atTime t → s.job job = some j →
    (j.awaits i = true → w.checkReached j i = true → 0 ≤ w.beforeL j (j.remain i) →
      exec (.checkpointReached job i cyc t) s = .next (w.putJob { j with checks := i :: j.checks })) ∧
    (j.awaits i = true → w.checkReached j i = true → w.beforeL j (j.remain i) < 0 →
      exec (.checkpointReached job i cyc t) s = .next (w.replacePrimary j cyc)) ∧
    (j.awaits i = true → w.checkReached j i = false → w.beforeL j (j.remain i) ≤ 0 →
      exec (.checkpointTimeout job i cyc t) s = .next (w.replacePrimary j cyc)) ∧
    (j.phase = .fallbackDue → (∀ k, k ∈ j.tiles → s.rd (R.TILE_ARRAY_STATUS_LEVEL k) = 0 ∧ (s.tile k).job = none) →
      exec (.fallbackStart job cyc t) s = .next (w.startFallback j cyc)) ∧
    (j.phase = .classical → 0 ≤ w.untilWord j.deadline →
      exec (.classicalDoneSignal job t) s = .next (w.endJob j 5).passStop) ∧
    (j.phase = .classical → w.untilWord j.deadline ≤ 0 → exec (.deadlineExpiry job t) s = .next (w.endJob j 6).passStop)) ∧
  (∀ (s w v : State) (t : Nat) (act : List Nat) (total : Nat), w = (s.atTime t).supplyMark → w.periodNow ≠ w.sched.periodAt →
    v = ({ w with sched := { w.sched with supply := 0, periodAt := w.periodNow } } : State) →
    act = (List.range 256).filter v.groupActive → total = (act.map fun g => w.rd (R.SCHED_SG_WEIGHT_WEIGHT g)).sum →
    ∃ f : Nat → Nat, exec (.accountingPeriod t) s = .next (v.each act fun t g => t.credit g (f g)).decision ∧
      (∀ g, g ∈ act → act.head? ≠ some g → total ≠ 0 → f g = w.sched.supply * w.rd (R.SCHED_SG_WEIGHT_WEIGHT g) / total) ∧
      (total ≠ 0 → (act.map f).sum = w.sched.supply))

/-- Writes of a FREE sequence entry set its fields, and a step is built and submitted in queue 31 from the entries that have
work; its job carries the step's matrix operations. -/
def Obligations.SequenceCommandsComplete : Prop :=
  ∀ (s : State) (x t : Nat), x < 64 → s.sliceOpen x = true →
    (∀ i v, i < s.rd (R.SC_SEQ_SEQ_SHARE x) → s.rd (R.SEQ_STATE_STATE x i) = 0 →
      exec (.seqEntryWrite x i 1 v t) s = .next ((s.atTime t).wr (R.SEQ_POS_POS x i) v) ∧
      exec (.seqEntryWrite x i 2 v t) s = .next ((s.atTime t).wr (R.SEQ_PROMPT_LEN_PROMPT_LEN x i) v) ∧
      exec (.seqEntryWrite x i 3 v t) s = .next ((s.atTime t).wr (R.SEQ_KV_HANDLE_KV_HANDLE x i) v) ∧
      exec (.seqEntryWrite x i 0 v t) s = .next ((((s.atTime t).wr (R.SEQ_STATE_STATE x i)
        (if v % 4 = 1 && s.rd (R.SEQ_PROMPT_LEN_PROMPT_LEN x i) ≤ s.rd (R.SEQ_POS_POS x i) then 2 else v % 4)).wr
        (R.SEQ_STATE_MODEL x i) (v / 256 % 16)).freeDone x)) ∧
    (∀ m dec pre l w ops, m < 16 → s.workList x m = (dec, pre) → s.rd (R.MODEL_CTRL_ENABLE x m) = 1 → s.jasperDown = false →
      (∀ j, j ∈ s.sched.jobs → j.slice = x → j.model = m + 1 → j.phase = .ended) → (dec ≠ [] ∨ pre ≠ []) →
      l = s.workBytes x m (s.policyMode x (s.vbytes x (s.rd (R.MODEL_STEP_DESC x m)) 128) % 4 == 1) dec pre →
      l.length ≤ s.rd (R.MODEL_WLIST_LEN_BYTES x m) →
      w = ({ s.atTime t with sched := { s.sched with lastPrefill :=
        (if dec.isEmpty then [x * 16 + m] else []) ++ s.sched.lastPrefill.filter (fun k => k != x * 16 + m) } } : State) →
      w.addrOk x (s.rd (R.MODEL_WLIST_ADDR x m)) 64 l.length = true → w.addrOk x (s.rd (R.MODEL_STEP_DESC x m)) 64 128 = true →
      exec (.stepBuild x m t ops) s =
        .next (((w.put x (s.rd (R.MODEL_WLIST_ADDR x m)) l).submit x 31
          ((w.put x (s.rd (R.MODEL_WLIST_ADDR x m)) l).rd (R.MODEL_STATUS_STEPS x m)) (m + 1) (dec.map (fun i => (i, 1)) ++ pre)
          ((w.put x (s.rd (R.MODEL_WLIST_ADDR x m)) l).vbytes x (s.rd (R.MODEL_STEP_DESC x m)) 128)).withOps
            ops).decision)

/-- Claims: a swing tile held by a slice or by no one is claimed at once; the claim completes on a full scrub once no job holds
the tile and its level is 0; it is counted as over after 250 µs; a release returns the tile, or waits until the claim is
complete and the tile free; a tile that changes holder is scrubbed. A full scrub leaves nothing of the last holder: tile SRAM
and accumulators read zero, the scale file is at reset, and no other tile's memory changes. -/
def Obligations.ClaimsAndScrubsComplete : Prop :=
  (∀ (s w : State) (site cluster cyc t : Nat), site < 136 → w = s.atTime t →
    (cluster < 16 → s.flintUp = true → s.rd R.POWER_STATUS_SHED_STEP < 7 → s.tileOn site = true →
      s.rd (R.SCHED_TILE_SWING site) = 1 → (s.rd (R.SCHED_TILE_HOLDER site) < 64 ∨ s.rd (R.SCHED_TILE_HOLDER site) = 0x7E) →
      s.claimOf site = none →
      exec (.claim site cluster t) s =
        .next ((({ w.unplace site with sched := { (w.unplace site).sched with
          claims := (w.unplace site).sched.claims ++ [Claim.mk site cluster (w.unplace site).now false false false] } }.sat
          R.SCHED_CLAIM_COUNT_COUNT 1).wr (R.SCHED_TILE_STATE site) 3).showScrub site)) ∧
    (∀ c, s.claimOf site = some c → c.done = false → c.released = false → s.tenantOn site = false →
      (s.tile site).job = none → s.rd (R.TILE_ARRAY_STATUS_LEVEL site) = 0 →
      ∃ u v : State, exec (.claimComplete site cyc t) s = .next u.placeRadio ∧
        v = (w.supplyMark.fullScrub site cyc).wr (R.SCHED_TILE_STATE site) 6 ∧
        u = ((({ v with sched := { v.sched with scrubDue := v.sched.scrubDue.filter (· != site) } }.putClaim
          { c with done := true }).unbindTile site).showClaimed).wr R.SCHED_CLAIM_MAX_NS_NS
            (max ((({ v with sched := { v.sched with scrubDue := v.sched.scrubDue.filter (· != site) } }.putClaim
              { c with done := true }).unbindTile site).showClaimed.rd R.SCHED_CLAIM_MAX_NS_NS)
              (min (w.now - c.since) 0xFFFF_FFFF))) ∧
    (∀ c, s.claimOf site = some c → c.done = false → c.overdue = false → c.since + 250_000 ≤ max s.now t →
      exec (.claimOverrun site t) s = .next ((w.putClaim { c with overdue := true }).sat R.SCHED_CLAIM_OVER_COUNT 1)) ∧
    (∀ c, s.claimOf site = some c →
      ((c.done = false ∨ s.jobOn site = true ∨ (s.tile site).job ≠ none ∨ s.rd (R.TILE_ARRAY_STATUS_LEVEL site) ≠ 0) →
        exec (.claimRelease site cyc t) s = .next ((w.putClaim { c with released := true }).showScrub site)) ∧
      (c.done = true → s.jobOn site = false → (s.tile site).job = none → s.rd (R.TILE_ARRAY_STATUS_LEVEL site) = 0 →
        exec (.claimRelease site cyc t) s = .next (w.returnTile site cyc).decision)) ∧
    (s.tileOn site = true → s.jobOn site = false → (s.tile site).job = none → s.rd (R.TILE_ARRAY_STATUS_LEVEL site) = 0 →
      (∀ c, s.claimOf site = some c → c.done = true → c.released = true →
        exec (.fullScrub site cyc t) s = .next (w.returnTile site cyc).decision) ∧
      ((site ∈ s.sched.scrubDue ∨ s.rd (R.SCHED_TILE_HOLDER site) ≠ s.planHolder site) → s.inReserve site = false →
        s.claimOf site = none →
        ∃ u v : State, exec (.fullScrub site cyc t) s = .next u.decision ∧
          v = (w.supplyMark.fullScrub site cyc).moveHolder site ∧
          u = { v with sched := { v.sched with scrubDue := v.sched.scrubDue.filter (· != site) } }))) ∧
  (∀ (s : State) (site cyc : Nat), site < 136 →
    (∀ a, a < sramSize → (s.fullScrub site cyc).byte (tileKey site a) = unwritten) ∧
    (∀ k, k < tileKey site 0 ∨ tileKey site sramSize ≤ k → (s.fullScrub site cyc).byte k = s.byte k) ∧
    (∀ row col, row < 512 → col < 128 → (s.fullScrub site cyc).accAt site row col = 0) ∧
    (∀ n, n < 4096 → (s.fullScrub site cyc).rd (scaleFld site n) = 0) ∧
    (s.fullScrub site cyc).rd (R.TILE_ARRAY_STATUS_LEVEL site) = 0)

/-! The air interface: slot tables, FAPI, fronthaul and radio units -/

/-- Slot tables are built: a table that passes its checks is sealed for its cluster, the next slot moves on and the jobs of its
neural receivers are submitted, one that fails is rejected with its code; patch entries of one carrier join the table before
its cut-off; at the cut-off it is closed. -/
def Obligations.TablesAreBuilt : Prop :=
  ∀ (s w : State) (c t : Nat), c < 16 → w = s.airTime t →
    (∀ (bytes : List (BitVec 8)) (id n count : Nat) (works : List (Nat × List (BitVec 8))) (late wrong : Bool),
      id = bankNum bytes 0 4 → n = w.slotOf (w.clusterMu c) id →
      count = bankNum bytes 4 2 → late = decide (fireNs (w.clusterMu c) n ≤ w.gpsNs) →
      wrong = (w.clusterMu c == 3 || id != slotId (w.clusterMu c) n ||
        n != (if late then n else max (w.cluster c).next (w.slotNow (w.clusterMu c) + 3)) ||
        decide (w.gpsNs < (n - 9) * slotNs (w.clusterMu c))) → w.flintUp = true → w.radioHalted = false →
      (w.entryCode c (w.clusterMu c) n count (entriesOf ((bytes.drop 64).take (16 * count))) late wrong = 0 →
        ∃ (v : State) (tab : SlotTable), v = (w.carriersAtSeal c n).showAir ∧ tab.slot = n ∧ tab.id = id ∧
          tab.skel = entriesOf ((bytes.drop 64).take (16 * count)) ∧ tab.patch = [] ∧ tab.pusch = [] ∧ tab.pucch = [] ∧
          tab.carriers = bankNum bytes 8 2 ∧
          tab.neural = bankNum bytes 0xC 2 ∧ tab.phase = 0 ∧ tab.patched = 0 ∧
          exec (.tableSeal c bytes t works) s = .next (((v.setCluster c { v.cluster c with next := n + 1 }).setTables c
            ((w.cluster c).tables ++ [tab])).submitWorks c tab works)) ∧
      (w.entryCode c (w.clusterMu c) n count (entriesOf ((bytes.drop 64).take (16 * count))) late wrong ≠ 0 →
        exec (.tableSeal c bytes t works) s = .next (w.tableReject c id
          (w.entryCode c (w.clusterMu c) n count (entriesOf ((bytes.drop 64).take (16 * count))) late wrong)))) ∧
    (∀ (l id : Nat) (bytes : List (BitVec 8)) (done : Bool) (tab : SlotTable), l < 16 →
      w.slotTable c (w.slotOf (w.clusterMu c) id) = some tab → tab.phase = 0 →
      w.pastCutoff (w.clusterMu c) (w.slotOf (w.clusterMu c) id) = false →
      w.entryCode c (w.clusterMu c) (w.slotOf (w.clusterMu c) id) (tab.skel.length + tab.patch.length + (entriesOf bytes).length)
        (entriesOf bytes) false false = 0 →
      exec (.patchWrite c l id bytes done t) s = .next (w.putTable c { tab with
        patch := (entriesOf bytes).foldl (fun p e => insertEntry (w.clusterMu c) (w.slotOf (w.clusterMu c) id) e p) tab.patch,
        patched := if done then (BitVec.ofNat 16 tab.patched ||| BitVec.ofNat 16 (2 ^ l)).toNat else tab.patched })) ∧
    (∀ (id : Nat) (tab : SlotTable), w.slotTable c (w.slotOf (w.clusterMu c) id) = some tab → tab.phase = 0 →
      w.pastCutoff (w.clusterMu c) tab.slot = true →
      exec (.patchCutoff c id t) s = .next (w.putTable c { tab with phase := 1 }))

/-- Slot tables run: at its fire instant a table becomes active with the banks of tables 0x07 and 0x08 held, carriers not patched
or not on air run null; a slot without a table is counted and flagged; an entry fires at its trigger, a conditional one only
where its carrier's primary was aborted, and the abort signal, which cannot come while the primary runs or has ended with OK,
fires those that wait. -/
def Obligations.TablesRun : Prop :=
  ∀ (s w : State) (c id n t : Nat), c < 16 → w = s.airTime t → n = w.slotOf (w.clusterMu c) id →
    (∀ (z v : State) (m mu : Nat) (tab : SlotTable) (b7 b8 : Bool) (null : Nat → Bool), z = w.makeReady → mu = z.clusterMu c →
      m = z.slotOf mu id → b7 = z.newBank 7 → b8 = z.newBank 8 → z.slotTable c m = some tab → tab.phase ≠ 2 →
      fireNs mu m ≤ z.gpsNs → z.gpsNs < fireNs mu m + slotNs mu → z.rd R.DEV_STATUS_RADIO_READY ≠ 0 →
      null = (fun l => hasBit tab.nulls l || !hasBit tab.patched l || (match z.carrierIn b7 c l with
        | some k => z.rd (R.AIR_CARRIER_STATE k) == 6 || z.rd (R.AIR_CARRIER_STATE k) == 0 || ((z.carrier k).stopAt != 0)
        | none => true)) →
      v = (z.putTable c { tab with
        phase := 2, nulls := maskOf null, bank7 := b7, bank8 := b8,
        entries := (((tab.patch.filter fun e => !(hasBit tab.carriers (entLocal e) && null (entLocal e))).foldl
            (fun p e => insertEntry mu m e p) tab.skel).map
          fun e => TabEntry.mk e (entTrig mu m e) 0) }).flag R.AIR_STATUS_RUNNING →
      exec (.tableFire c id t) s = .next (((v.holdBank 7 b7 1).holdBank 8 b8 1).each
        ((List.range 16).filter fun l => hasBit tab.carriers l && null l) fun u l => match u.carrierIn b7 c l with
          | some k => u.sat (R.AIR_CARRIER_NULL_COUNT k) 1
          | none => u)) ∧
    (w.clusterMu c ≠ 3 → fireNs (w.clusterMu c) n ≤ w.gpsNs → w.slotTable c n = none → (w.cluster c).next ≤ n →
      w.rd R.DEV_STATUS_RADIO_READY ≠ 0 →
      exec (.slotMissed c id t) s = .next (((w.setCluster c { w.cluster c with next := n + 1 }).sat
        (R.AIR_CL_MISSED_COUNT c) 1).flag R.AIR_EVENT_SLOT_MISSED)) ∧
    (∀ (tab : SlotTable) (i : Nat) (e : TabEntry), w.slotTable c n = some tab → tab.entries[i]? = some e → e.stage = 0 →
      e.trig ≤ w.airUnits → (∀ d, d ∈ tab.entries.take i → d.stage ≠ 0) →
      (entCond e.bits = false → exec (.entryTrigger c id i [] t) s =
        .next ((w.putTable c { tab with entries := tab.entries.set i { e with stage := 2 } }).fireEntry c n e.bits)) ∧
      (entCond e.bits = true → tab.aborted.contains (entLocal e.bits) = false → exec (.entryTrigger c id i [] t) s =
        .next (w.putTable c { tab with entries := tab.entries.set i { e with stage := 1 } })) ∧
      (entCond e.bits = true → tab.aborted.contains (entLocal e.bits) = true → exec (.entryTrigger c id i [] t) s =
        .next ((w.putTable c { tab with entries := tab.entries.set i { e with stage := 2 },
                                        fellBack := entLocal e.bits :: tab.fellBack }).fireEntry c n e.bits))) ∧
    (∀ (tab : SlotTable) (l : Nat) (hit : TabEntry → Bool), l < 16 → w.slotTable c n = some tab → l ∉ tab.aborted →
      w.primaryStands c n l = false → hit = (fun e => e.stage == 1 && entLocal e.bits == l) →
      exec (.condAbortFire c id l t) s = .next ((w.putTable c { tab with
          aborted := l :: tab.aborted, fellBack := if (tab.entries.filter hit).isEmpty then tab.fellBack else l :: tab.fellBack,
          entries := tab.entries.map fun e => if hit e then { e with stage := 2 } else e }).each (tab.entries.filter hit)
        fun u e => u.fireEntry c n e.bits))

/-- A fired table is released, with all its entries done or its time over: the cluster no longer holds a table for the slot. A
stream that waits in a unit starts late when the unit is free; a tracking context left idle is freed. -/
def Obligations.TablesAreReleased : Prop :=
  ∀ (s w : State) (c t : Nat), c < 16 → w = s.airTime t →
    (∀ (id n : Nat) (tab : SlotTable) (decoded : List (Nat × Nat)) (weights : List Nat), n = w.slotOf (w.clusterMu c) id →
      w.slotTable c n = some tab → tab.phase = 2 → (n + 3) * slotNs (w.clusterMu c) ≤ w.gpsNs →
      ∃ u : State, exec (.tableRelease c id decoded weights t) s = .next u ∧ u.slotTable c n = none ∧
        (∀ k, k < 13 → ∀ g, g ∈ (u.unit c k).queue → g.slot ≠ n)) ∧
    (∀ (u : Nat) (g : Trigger) (q : List Trigger), u < 13 → (w.unit c u).run = none → (w.unit c u).queue = g :: q →
      exec (.queuedTriggerStart c u t) s =
        .next ((w.setUnit c u ⟨some ⟨g, 0, false, []⟩, q⟩).sat (R.AIR_CL_LATE_ENTRY_COUNT c) 1)) ∧
    (∀ (l rnti : Nat) (due : TrkCtx → Bool), l < 16 →
      due = (fun (k : TrkCtx) => k.local_ == l && k.rnti == rnti &&
        decide (k.slot + 64 * w.rd (R.RX_TRK_CTRL_TRK_IDLE c l) ≤ w.slotNow (w.clusterMu c))) →
      exec (.trackingIdleFree c l rnti t) s =
        .next (w.setCluster c { w.cluster c with ctxs := (w.cluster c).ctxs.filter fun k => !due k }))

/-- FAPI requests of a carrier whose endpoint runs: PARAM is answered, CONFIG within the class configures, START and STOP set the
first and the last slot, the slot requests before the cut-off reach the slot's table; a cluster's started carriers indicate
its slots. -/
def Obligations.FapiRequestsComplete : Prop :=
  ∀ (s w : State) (k t : Nat), k < 256 → w = s.airTime t → w.carrierValid k = true → w.endpointUp k = true →
    (exec (.fapiParam k t) s = .next (w.fapi k 0x01 [w.rd (R.AIR_CARRIER_STATE k), w.carrierClass k])) ∧
    (∀ mhz prbs dl ul : Nat, w.rd (R.AIR_CARRIER_STATE k) ≤ 1 → classBand (w.carrierClass k) (w.carrierMu k) mhz = true →
      dl ≤ classDl (w.carrierClass k) → ul ≤ classUl (w.carrierClass k) → prbs ≤ [270, 273, 264].getD (w.carrierMu k) 0 →
      exec (.fapiConfig k mhz (w.carrierMu k) prbs dl ul t) s =
        .next ((((w.setCarrier k { w.carrier k with prbs := prbs, dl := dl, ul := ul }).wr
          (R.AIR_CARRIER_STATE k) 1).showAir).fapi k 0x03 [0])) ∧
    (w.rd (R.AIR_CARRIER_STATE k) = 1 → w.rd (R.AIR_RU_STATE_STATE (w.rd (R.AIR_CARRIER_RU k))) = 3 →
      w.radioHalted = false → exec (.fapiStart k t) s = .next (w.setCarrier k { w.carrier k with
        started := true, stopAt := 0,
        startAt := max (w.cluster (w.carrierCluster k)).next (w.slotNow (w.clusterMu (w.carrierCluster k)) + 3) })) ∧
    ((w.carrier k).started = true →
      (∀ tab, (w.cluster (w.carrierCluster k)).tables.getLast? = some tab →
        exec (.fapiStop k t) s = .next (w.setCarrier k { w.carrier k with started := false, stopAt := tab.slot + 1 })) ∧
      ((w.cluster (w.carrierCluster k)).tables = [] → exec (.fapiStop k t) s = .next ((w.carrierOff k).fapi k 0x06 []))) ∧
    (∀ (id n : Nat) (tab : SlotTable), n = w.slotOf (w.clusterMu (w.carrierCluster k)) id →
      w.pastCutoff (w.clusterMu (w.carrierCluster k)) n = false → w.slotTable (w.carrierCluster k) n = some tab →
      hasBit tab.nulls (w.carrierLocal k) = false →
      (∀ pdus, exec (.fapiDlTti k id pdus t) s = .next (w.takePdus k (w.carrierCluster k) n 0x80 pdus) ∧
        exec (.fapiUlTti k id pdus t) s = .next (w.takePdus k (w.carrierCluster k) n 0x81 pdus) ∧
        exec (.fapiUlDci k id pdus t) s = .next (w.takePdus k (w.carrierCluster k) n 0x83 pdus)) ∧
      (∀ data, exec (.fapiTxData k id data t) s = .next (w.setCarrier k { w.carrier k with
        tx := (w.carrier k).tx.filter (fun p => decide (w.slotNow (w.carrierMu k) ≤ p.1)) ++ [(n, data)] }))) ∧
    (∀ c : Nat, c < 16 → exec (.slotIndication c t) s =
      .next (w.each ((w.carriersOf c).filter fun k => w.endpointUp k && (w.carrier k).started &&
          decide ((w.carrier k).startAt ≤ w.slotNow (w.clusterMu c)) && decide (2 ≤ w.rd (R.AIR_CARRIER_STATE k)))
        fun u k => u.fapi k 0x82 [slotId (w.clusterMu c) (w.slotNow (w.clusterMu c))]))

/-- Fronthaul reception: a packet inside its window is written to its symbol's place and its new PRBs are ticked off, the counter
advancing when the symbol is whole; a packet before or after the window only counts; the PRBs missing at the window's end
read as zeros. A radio unit goes from OFF or LOST to CONNECTING, CONFIGURING and READY; it is lost at the third supervision
miss in a row, or when a running carrier receives nothing for 10 frames. -/
def Obligations.FronthaulAndRadioUnitsComplete : Prop :=
  (∀ (s w : State) (e k c id sym total addr t a : Nat), w = s.airTime t → k = eaxcCarrier (w.eaxc e) → c = w.carrierCluster k →
    a = 14 * w.slotOf (w.carrierMu k) id + sym →
    (∀ (port eaxc prb : Nat) (data : List (BitVec 8)), port < 32 → w.uplinkEntry port eaxc = some e →
      (w.airUnits < symbolStart (w.carrierMu k) a + w.rd (R.AIR_FH_TA4_MIN_NS (w.carrierMu k)) * 30_720 →
        exec (.fhUlPacket port eaxc id sym prb total addr data true t) s = .next (w.sat (R.AIR_FH_UL_EARLY_COUNT c) 1)) ∧
      (symbolStart (w.carrierMu k) a + w.rd (R.AIR_FH_TA4_MIN_NS (w.carrierMu k)) * 30_720 ≤ w.airUnits →
        symbolStart (w.carrierMu k) a + w.rd (R.AIR_FH_TA4_MAX_NS (w.carrierMu k)) * 30_720 < w.airUnits →
        exec (.fhUlPacket port eaxc id sym prb total addr data true t) s = .next (w.sat (R.AIR_FH_UL_LATE_COUNT c) 1)) ∧
      (∀ (new : List Nat) (u v : State), symbolStart (w.carrierMu k) a + w.rd (R.AIR_FH_TA4_MIN_NS (w.carrierMu k)) * 30_720 ≤
          w.airUnits →
        w.airUnits ≤ symbolStart (w.carrierMu k) a + w.rd (R.AIR_FH_TA4_MAX_NS (w.carrierMu k)) * 30_720 →
        new = ((List.range (data.length / prbBytes)).map (· + prb)).filter (fun p =>
          decide (p < total) && !(w.rxSymbol e a).prbs.contains p) →
        u = (w.setBytes (clusterKey c (addr + prbBytes * prb)) data).setRx { w.rxSymbol e a with
          prbs := (w.rxSymbol e a).prbs ++ new } →
        v = u.setCarrier k { u.carrier k with lastUl := u.now } →
        exec (.fhUlPacket port eaxc id sym prb total addr data true t) s =
          .next (if new ≠ [] ∧ (w.rxSymbol e a).prbs.length + new.length = total then v.radioCount c (eaxcCounter (w.eaxc e)) 1
            else v))) ∧
    (∀ (miss : List Nat) (u : State), e < 4096 → eaxcValid (w.eaxc e) = true →
      symbolStart (w.carrierMu k) a + w.rd (R.AIR_FH_TA4_MAX_NS (w.carrierMu k)) * 30_720 ≤ w.airUnits →
      miss = (List.range total).filter (fun p => !(w.rxSymbol e a).prbs.contains p) → miss ≠ [] →
      u = ((w.each miss fun u p => u.setBytes (clusterKey c (addr + prbBytes * p)) (List.replicate prbBytes 0)).setRx
        { w.rxSymbol e a with prbs := (w.rxSymbol e a).prbs ++ miss }).sat (R.AIR_FH_PRB_MISSING_COUNT c) miss.length →
      exec (.fhWindowClose e id sym total addr t) s =
        .next (({ u with air := { u.air with erased := u.air.erased ++ miss.map fun p => (e, a, p) } } : State).radioCount c
          (eaxcCounter (w.eaxc e)) 1))) ∧
  (∀ (s w : State) (r t : Nat), r < 64 → w = s.airTime t →
    (∀ port mac : Nat, port < 32 → (∃ e, e ∈ w.eaxcRange ∧ eaxcValid (w.eaxc e) = true ∧ eaxcRu (w.eaxc e) = r ∧
        eaxcPort (w.eaxc e) = port) →
      (w.rd (R.AIR_RU_STATE_STATE r) = 0 ∨ w.rd (R.AIR_RU_STATE_STATE r) = 4) → exec (.ruCallHome r port mac t) s =
        .next (w.wrs [(R.AIR_RU_STATE_STATE r, 1), (R.AIR_RU_STATE_PORT r, port), (R.AIR_RU_MAC_MAC r, mac)])) ∧
    (w.rd (R.AIR_RU_STATE_STATE r) = 1 →
      exec (.ruSessionUp r t) s = .next ((w.wr (R.AIR_RU_STATE_STATE r) 2).emit .netconf [r])) ∧
    (∀ catB : Bool, w.rd (R.AIR_RU_STATE_STATE r) = 2 → exec (.ruConfigured r catB t) s =
      .next (((({ w with air := { w.air with discovered := true } } : State).wrs [(R.AIR_RU_STATE_STATE r, 3),
        (R.AIR_RU_STATE_CAT_B r, if catB then 1 else 0)]).flag R.AIR_EVENT_RU_READY).showAir)) ∧
    (∀ inRow : Nat, w.rd (R.AIR_RU_STATE_STATE r) = 3 → exec (.ruSupervisionMiss r inRow t) s =
      .next (if 3 ≤ inRow then (w.sat (R.AIR_RU_SUP_MISS_COUNT r) 1).ruLost r else w.sat (R.AIR_RU_SUP_MISS_COUNT r) 1)) ∧
    (∀ k : Nat, k < 256 → w.rd (R.AIR_CARRIER_RU k) = r → w.rd (R.AIR_CARRIER_STATE k) = 2 → w.rd (R.AIR_RU_STATE_STATE r) = 3 →
      (w.carrier k).lastUl + 100_000_000 ≤ w.now → exec (.ruUplaneSilence k t) s = .next (w.ruLost r)))

/-! The cores and engines of a radio cluster -/

/-- A core's vector, accumulator and search commands: the lanes of V[D], the accumulator, the samples moved and the record
written are the ones the rules name, saturations are counted, and the core moves past the command. A core's control commands:
AGSET loads an address generator, REPEAT opens a level, WAIT passes at its count or waits, SIGNAL advances a counter, END
ends the stream. -/
def Obligations.MicaCommandsComplete : Prop :=
  (∀ (s w v : State) (c u corr t op : Nat) (r : StreamRun) (e : BitVec 128) (m : MicaState) (fin : MicaState → Nat → State)
    (vec : (Nat → Int × Int) → State), w = s.airTime t → w.micaAt c u op r e → v = w.micaBegin c u r e corr → m = v.mica c u →
    fin = (fun k n => ((v.setMica c u k).sat (R.RADIO_MICA_SAT_COUNT c) n).micaNext c u r []) →
    vec = (fun f => fin (m.setV (cmdD e) fun i => (((List.range 32).map fun i =>
        outSample (cmdShift e) (f i).1 (f i).2).getD i (0, 0)).1)
      (((List.range 32).map fun i => outSample (cmdShift e) (f i).1 (f i).2).map (·.2)).sum) →
    (∀ l g, op = 1 → onlyBits e [(8, 4), (20, 3)] = true → (m.gen (cmdAg e)).walk 32 = some (l, g) → exec (.vld c u corr 0 t) s =
      .next (fin ((m.setV (cmdD e) fun i => BitVec.ofNat 32 (v.num (clusterKey c (4 * l.getD i 0)) 4)).setGen (cmdAg e) g) 0)) ∧
    (∀ l g, op = 2 → onlyBits e [(12, 4), (20, 3)] = true → (m.gen (cmdAg e)).walk 32 = some (l, g) →
      exec (.vst c u corr 0 t) s = .next (((v.setMica c u (m.setGen (cmdAg e) g)).each l.zipIdx fun t p =>
        t.setNum (clusterKey c (4 * p.1)) 4 (m.lane (cmdA e) p.2).toNat).micaNext c u r (l.map fun a => Span.mk (4 * a) 4))) ∧
    (op = 3 → onlyBits e dabFields = true → exec (.vadd c u corr 0 t) s = .next (vec fun i =>
      (reOf (m.lane (cmdA e) i) + (bPart m e i).1, imOf (m.lane (cmdA e) i) + (bPart m e i).2))) ∧
    (op = 4 → onlyBits e dabFields = true → exec (.vsub c u corr 0 t) s = .next (vec fun i =>
      (reOf (m.lane (cmdA e) i) - (bPart m e i).1, imOf (m.lane (cmdA e) i) - (bPart m e i).2))) ∧
    (op = 5 → onlyBits e dabFields = true → exec (.cmul c u corr 0 t) s = .next (vec fun i => laneProduct m e i)) ∧
    (op = 6 → onlyBits e [(8, 2), (12, 4), (16, 4), (23, 1)] = true → exec (.cmac c u corr 0 t) s =
      .next (fin (m.setAcc (cmdBits e 8 2) fun i => (accClamp (m.accPart (cmdBits e 8 2) i 0 + (laneProduct m e i).1),
        accClamp (m.accPart (cmdBits e 8 2) i 1 + (laneProduct m e i).2))) 0)) ∧
    (op = 7 → onlyBits e [(8, 4), (12, 2), (24, 5), (32, 1)] = true → cmdImm e ≠ 1 → exec (.accout c u corr 0 t) s =
      .next (vec fun i => (m.accPart (cmdBits e 12 2) i 0, m.accPart (cmdBits e 12 2) i 1))) ∧
    (op = 8 → onlyBits e [(8, 2)] = true →
      exec (.accclr c u corr 0 t) s = .next (fin (m.setAcc (cmdBits e 8 2) fun _ => (0, 0)) 0)) ∧
    (op = 9 → onlyBits e [(8, 2), (12, 4)] = true → exec (.mag2 c u corr 0 t) s =
      .next (fin (m.setAcc (cmdBits e 8 2) fun i => (reOf (m.lane (cmdA e) i) * reOf (m.lane (cmdA e) i) +
        imOf (m.lane (cmdA e) i) * imOf (m.lane (cmdA e) i), 0)) 0)) ∧
    (∀ k i g, op = 0xA → onlyBits e [(20, 3), (32, 24), (64, 16)] = true → cmdImm e / 2 % 4 ≠ 3 →
      cmdImm e / 8 % 2 ^ 21 * 8 + 8 ≤ clusterBytes →
      v.minmaxScan c (cmdImm e / 2 % 4) (cmdImm e % 2 == 1) (m.gen (cmdAg e)) 0 none (cmdExt e + 1) = some (k, i, g) →
      exec (.minmax c u corr 0 t) s = .next ((((v.setMica c u (m.setGen (cmdAg e) g)).setNum
        (clusterKey c (cmdImm e / 8 % 2 ^ 21 * 8)) 4 (toField 32 k)).setNum (clusterKey c (cmdImm e / 8 % 2 ^ 21 * 8 + 4)) 4
          i).micaNext c u r [Span.mk (cmdImm e / 8 % 2 ^ 21 * 8) 8]))) ∧
  (∀ (s w v : State) (c u corr t op : Nat) (r : StreamRun) (e : BitVec 128) (m : MicaState) (fin : MicaState → Nat → State),
    w = s.airTime t → w.micaAt c u op r e → v = w.micaBegin c u r e corr → m = v.mica c u →
    fin = (fun k n => ((v.setMica c u k).sat (R.RADIO_MICA_SAT_COUNT c) n).micaNext c u r []) →
    (∀ mode inc bits len, op = 0xB → mode = cmdExt e % 4 → inc = signedOf 16 (cmdExt e / 4 % 65536) →
      bits = cmdExt e / 2 ^ 18 % 16 + 1 → len = cmdD e * 256 + cmdA e * 16 + cmdB e + 1 →
      onlyBits e [(8, 4), (12, 4), (16, 4), (20, 3), (32, 21), (64, 22)] = true → mode ≠ 3 → (mode = 1 → inc.natAbs < len) →
      (mode = 2 → 1 ≤ inc ∧ inc ≤ (2 ^ bits - 1 : Nat)) → exec (.agset c u corr 0 t) s =
        .next (fin (m.setGen (cmdAg e) ⟨cmdImm e + r.trig.reloc, 0, mode, inc, bits, len⟩) 0)) ∧
    (∀ body, op = 0xC → body = cmdExt e / 2 ^ 16 % 64 → onlyBits e [(32, 4), (48, 16), (64, 22)] = true → body ≠ 0 →
      m.loops.length ≠ 4 → (∀ l, m.loops.head? = some l → r.pc + body ≤ l.last) → exec (.repeatBody c u corr 0 t) s =
        .next (fin { m with
          loops := ⟨r.pc + 1, r.pc + body, cmdExt e % 65536 + 1, cmdImm e % 8, cmdImm e / 8 % 2 == 1,
            signedOf 16 (cmdImm e / 65536)⟩ :: m.loops,
          buf := if m.loops.isEmpty then [] else m.buf } 0)) ∧
    (op = 0xD → onlyBits e [(32, 6), (64, 32)] = true →
      exec (.waitCounter c u corr 0 t) s = .next (if countReached (v.rd (R.RADIO_CNT_VALUE c (cmdImm e))) (cmdExt e) then
        v.micaNext c u r [] else v.streamWaits c u r)) ∧
    (op = 0xE → onlyBits e [(32, 6), (64, 16)] = true → cmdExt e ≠ 0 →
      exec (.signalCounter c u corr 0 t) s = .next ((v.radioCount c (cmdImm e) (cmdExt e)).micaNext c u r [])) ∧
    (op = 0xF → onlyBits e [] = true → exec (.endStream c u corr 0 t) s = .next (v.streamDone c u)))

/-- LDPC and polar descriptors that keep their rules write each block's result, and the stream moves on. Transform, PRACH and DMA
descriptors that keep their rules write what their bodies name, and the stream moves on; a DMA descriptor moves its bytes
where the cluster's stop has the radio plane, and one that reads a vault counts the codewords the vault corrected. -/
def Obligations.EngineDescriptorsComplete : Prop :=
  (∀ (s w v : State) (c corr t : Nat) (r : StreamRun) (d : Desc), w = s.airTime t → v = w.sat (R.RADIO_SRAM_ECC_CORR_COUNT c) corr →
    (∀ b : LdpcBody, b = ldpcBody d r → b.bad = false → b.inAddr % 64 = 0 → b.outAddr % 64 = 0 →
      (b.statAddr % 8 = 0 → b.inAddr + b.inStride * (b.blocks - 1) + b.cols * b.z ≤ clusterBytes →
        b.outAddr + b.outStride * (b.blocks - 1) + bitBytes b.info ≤ clusterBytes → b.statAddr + 8 * b.blocks ≤ clusterBytes →
        w.engineAt c 8 1 r d → exec (.ldpcDecode c corr 0 t) s =
          .next ((v.each (List.range b.blocks) fun t i => t.ldpcBlock c b i).engineNext c 8 d r (Span.mk b.statAddr (8 * b.blocks) ::
            (List.range b.blocks).map fun i => Span.mk (b.outAddr + b.outStride * i) (bitBytes b.info)))) ∧
      (b.inAddr + b.inStride * (b.blocks - 1) + bitBytes b.info ≤ clusterBytes →
        b.outAddr + b.outStride * (b.blocks - 1) + bitBytes (b.cols * b.z) ≤ clusterBytes →
        w.engineAt c 8 2 r d → exec (.ldpcEncode c corr 0 t) s =
          .next ((v.each (List.range b.blocks) fun t i => t.setNum (clusterKey c (b.outAddr + b.outStride * i)) (bitBytes (b.cols * b.z))
              (Config.ldpcEncode b.key (t.bytes (clusterKey c (b.inAddr + b.inStride * i)) (bitBytes b.info)))).engineNext c 8 d r
            ((List.range b.blocks).map fun i => Span.mk (b.outAddr + b.outStride * i) (bitBytes (b.cols * b.z)))))) ∧
    (∀ k n i o : Nat, k = d.fld 0x20 4 11 + 1 → n = d.fld 0x20 16 14 + 1 → i = r.place d 0x10 → o = r.place d 0x14 →
      polarBad d = false →
      (i + n ≤ clusterBytes → o + (bitBytes k + 1) ≤ clusterBytes → w.engineAt c 9 1 r d →
        ∀ bits ok, Config.polarDecode (polarKey d) (v.bytes (clusterKey c i) n) = (bits, ok) → exec (.polarDecode c corr 0 t) s =
          .next (((v.setNum (clusterKey c o) (bitBytes k) (bits % 2 ^ k)).setNum (clusterKey c (o + bitBytes k)) 1
            ((v.byte (clusterKey c (o + bitBytes k))).toNat / 2 * 2 + if ok then 1 else 0)).engineNext c 9 d r
              [Span.mk o (bitBytes k + 1)])) ∧
      (i + bitBytes k ≤ clusterBytes → o + bitBytes n ≤ clusterBytes → w.engineAt c 9 2 r d → exec (.polarEncode c corr 0 t) s =
        .next ((v.setNum (clusterKey c o) (bitBytes n) (Config.polarEncode (polarKey d) (v.bytes (clusterKey c i) (bitBytes k)) %
          2 ^ n)).engineNext c 9 d r [Span.mk o (bitBytes n)])))) ∧
  (∀ (s w v x : State) (c corr vcorr t : Nat) (r : StreamRun) (d : Desc) (o : List Span), w = s.airTime t →
    v = w.sat (R.RADIO_SRAM_ECC_CORR_COUNT c) corr →
    (w.engineAt c 10 1 r d → v.fftDesc c false d r = .ok (x, o) →
      exec (.fftForward c corr 0 t) s = .next (x.engineNext c 10 d r o)) ∧
    (w.engineAt c 10 2 r d → v.fftDesc c true d r = .ok (x, o) →
      exec (.fftInverse c corr 0 t) s = .next (x.engineNext c 10 d r o)) ∧
    (∀ inv n count : _, n = d.fld 0x20 0 12 + 1 → count = d.fld 0x20 12 16 + 1 → v.fftDesc c inv d r = .ok (x, o) →
      x = v.each (List.range count) (fun t k => (t.setNum (clusterKey c (r.place d 0x14 + 64 * d.fld 0x24 16 16 * k)) (4 * n)
        (Config.fft inv n (t.bytes (clusterKey c (r.place d 0x10 + 64 * d.fld 0x24 0 16 * k)) (4 * n))).1).setNum
          (clusterKey c (r.place d 0x18 + k)) 1
          (Config.fft inv n (t.bytes (clusterKey c (r.place d 0x10 + 64 * d.fld 0x24 0 16 * k)) (4 * n))).2)) ∧
    (∀ (lra p root ants reps roots i q : Nat) (f : List (BitVec 8)), prachSize (d.fld 0x20 10 1) = (lra, p) →
      root = d.fld 0x20 0 10 → ants = d.fld 0x20 11 5 + 1 → reps = d.fld 0x20 16 4 + 1 → roots = d.fld 0x20 20 6 + 1 →
      i = r.place d 0x10 → q = r.place d 0x14 → d.fld 0x20 26 6 = 0 → reps ≤ 12 → root ≤ lra - 2 → i % 4 = 0 → q % 4 = 0 →
      i + (64 * d.fld 0x24 0 16 * (ants - 1) + 64 * d.fld 0x24 16 16 * (reps - 1) + 4 * lra) ≤ clusterBytes →
      q + 4 * p * roots ≤ clusterBytes → w.engineAt c 11 1 r d →
      f = ((List.range ants).flatMap fun a => (List.range reps).flatMap fun z =>
        v.bytes (clusterKey c (i + 64 * d.fld 0x24 0 16 * a + 64 * d.fld 0x24 16 16 * z)) (4 * lra)) →
      exec (.prachCorrelate c corr 0 t) s = .next ((v.each (List.range (roots * p)) fun t k => t.setNum (clusterKey c (q + 4 * k)) 4
        (min (Config.prachBin [root, lra, ants, reps] f (k / p) (k % p)) 0xFFFF_FFFF)).engineNext c 11 d r
          [Span.mk q (4 * p * roots)])) ∧
    (v.dmaVault c true d r = .ok (x, o) → w.engineAt c 12 1 r d →
      exec (.dmaVaultToSram c corr 0 t vcorr) s = .next ((x.dmaCounts c vcorr d).engineNext c 12 d r o)) ∧
    (v.dmaVault c false d r = .ok (x, o) → w.engineAt c 12 2 r d →
      exec (.dmaSramToVault c corr 0 t) s = .next (x.engineNext c 12 d r o)) ∧
    (v.dmaTile c true d r = .ok (x, o) → w.engineAt c 12 3 r d →
      exec (.dmaTileToCluster c corr 0 t) s = .next (x.engineNext c 12 d r o)) ∧
    (v.dmaTile c false d r = .ok (x, o) → w.engineAt c 12 4 r d →
      exec (.dmaClusterToTile c corr 0 t) s = .next (x.engineNext c 12 d r o)) ∧
    (∀ n, n = dmaLen d → dmaBad d = false → r.place d 0x10 % 64 = 0 → r.place d 0x10 + n ≤ clusterBytes →
      v.rd (R.MESH_STOP_CTRL_ENABLED 0 (clusterStop c)) ≠ 0 →
      (d.fld 0x20 0 57 % 64 = 0 → v.hMapped (64 + c) (d.fld 0x20 0 57) n = true → v.hFirstBad (64 + c) (d.fld 0x20 0 57) n = none →
        v.dmaVault c true d r = .ok (v.setBytes (clusterKey c (r.place d 0x10)) (v.hBytes (64 + c) (d.fld 0x20 0 57) n),
          [Span.mk (r.place d 0x10) n]) ∧
        v.dmaVault c false d r = .ok (v.hStore (64 + c) (d.fld 0x20 0 57) (v.bytes (clusterKey c (r.place d 0x10)) n), [])) ∧
      (∀ k, d.fld 0x20 0 22 % 64 = 0 → d.fld 0x20 0 22 + n ≤ sramSize → (v.clusterTiles c)[d.fld 0x20 22 2]? = some k →
        v.dmaTile c true d r = .ok (v.setBytes (clusterKey c (r.place d 0x10)) (v.bytes (tileKey k (d.fld 0x20 0 22)) n),
          [Span.mk (r.place d 0x10) n]) ∧
        v.dmaTile c false d r = .ok (v.setBytes (tileKey k (d.fld 0x20 0 22)) (v.bytes (clusterKey c (r.place d 0x10)) n), []))))

/-- PRACH_DETECT searches the zones of its roots in order and ends its output with the count of preambles found; a zone whose
peak is below the threshold adds none, and a zone with a preamble adds one record and its message. -/
def Obligations.PrachDetectCompletes : Prop :=
  (∀ (s w v x : State) (c corr t p lra roots n : Nat) (set : Nat → Nat) (rep : Bool) (r : StreamRun) (d prev : Desc) (g : PrachRun),
    w = s.airTime t →
    v = w.sat (R.RADIO_SRAM_ECC_CORR_COUNT c) corr → w.engineAt c 11 2 r d → prachSize (d.fld 0x20 10 1) = (lra, p) →
    roots = d.fld 0x20 11 6 + 1 → d.fld 0x20 0 10 ≤ 838 → d.fld 0x20 27 5 = 0 → d.fld 0x24 10 22 = 0 → roots ≤ 64 →
    set = v.prachSet c (d.fld 0x20 23 4) r →
    rep = (set 3 == 1) → rep = (d.fld 0x14 0 23 != 0) →
    prev = BitVec.ofNat 512 (v.num (clusterKey c (r.trig.stream + 64 * (r.pc - 1))) 64) →
    (rep = true → r.place d 0x14 + 2 * (4 * p * roots) ≤ clusterBytes ∧
      (r.pc = 0 ∨ prev.fld 0 0 8 ≠ 1 ∨ prev.fld 0x20 16 4 ≠ 0)) → r.place d 0x10 % 64 = 0 → r.place d 0x18 % 64 = 0 →
    r.place d 0x10 + 4 * p * roots ≤ clusterBytes → r.place d 0x18 + (16 + 16 * 64) ≤ clusterBytes →
    g = ⟨d.fld 0x20 23 4, lra, p, d.fld 0x20 0 10, r.place d 0x10, r.place d 0x14, 4 * p * roots, r.place d 0x18, d.fld 0x20 17 6,
      ⟨d.fld 0x24 0 10 + 1, set 0, set 1, set 2, rep, d.fld 0x28 0 32, d.fld 0x2C 0 32⟩⟩ →
    (x, n) = (g.zones roots).foldl (fun acc z => acc.1.prachZone c g acc.2 z) (v, 0) →
    exec (.prachDetect c corr 0 t) s =
      .next ((x.setBytes (clusterKey c (r.place d 0x18)) (toBytes 2 n ++ List.replicate 14 0)).engineNext c 11 d r
        [Span.mk (r.place d 0x18) (16 + 16 * n)])) ∧
  (∀ (s : State) (c n lo w pk : Nat) (g : PrachRun) (z : Nat × Nat) (f : Nat → Nat),
    f = (fun k => s.num (clusterKey c (g.prof + 4 * (z.1 * g.p + k))) 4) → lo = g.start z.2 → w = g.start (z.2 + 1) - lo → 0 < w →
    pk = f (argMax f lo (lo + min g.cfg.win w - 1)) →
    (pk * 65536 < g.cfg.thr * g.cfg.floor → s.prachZone c g n z = (s, n)) ∧
    (g.cfg.thr * g.cfg.floor ≤ pk * 65536 → g.cfg.psrMin = 0 → g.cfg.rep = false → (s.prachZone c g n z).2 = n + 1))

/-! Time and Ethernet -/

/-- PTP reception: a Sync on the port in use brings the domain its offset from the mean path and the asymmetry, a path-delay
result joins the last 16, and the Announce that the profile's algorithm chose sets the port and its grandmaster. A domain in
TRACKING whose source falls silent goes to holdover: 375 ms without an Announce, 500 ms without a Sync, 2 s without a pulse. -/
def Obligations.PtpAndTimeoutsComplete : Prop :=
  (∀ (s w x : State) (d port t : Nat), d < 2 → port < 40 → w = (s.atTime t).timeNow →
    (∀ origin p, w.slavePort d port = true → w.rd (R.TIME_DOM_STATUS_PORT d) = port →
      x = w.setDom d { w.dom d with syncAt := w.now } → x.meanPath d port = some p →
      exec (.ptpSyncRx d port origin t) s = .next
        ((x.domUpdate d ((origin : Int) + (p + tblGet 0 (w.dom d).asym port) * 4096 - (w.dom d).clk.read w.now) 4).timeStep)) ∧
    (∀ delay a, (s.atTime t).slavePort d port = true → a = signedOf 32 (s.rd (R.TIME_PORT_ASYM_ASYM port)) →
      x = (s.atTime t).setDom d { (s.atTime t).dom d with
        paths := tblSet [] ((s.atTime t).dom d).paths port ((delay :: tblGet [] ((s.atTime t).dom d).paths port).take 16),
        asym := tblSet 0 ((s.atTime t).dom d).asym port a } →
      (∀ p, x.meanPath d port = some p → s.rd (R.TIME_DOM_STATUS_PORT d) = port →
        exec (.ptpDelayResult d port delay t) s = .next (x.wr (R.TIME_DOM_PATH_DELAY d) (toField 32 p))) ∧
      (s.rd (R.TIME_DOM_STATUS_PORT d) ≠ port → exec (.ptpDelayResult d port delay t) s = .next x)) ∧
    (∀ identity cls accuracy y, w.slavePort d port = true →
      x = w.setDom d { w.dom d with annAt := tblSet 0 (w.dom d).annAt port (w.now + 1) } →
      y = (x.setDom d { x.dom d with accuracy := accuracy }).wrs [(R.TIME_DOM_STATUS_PORT d, port),
        (R.TIME_DOM_STATUS_GM_CLASS d, cls), (R.TIME_DOM_GM_IDENTITY d, identity)] →
      exec (.ptpAnnounceRx d port (w.rd (R.TIME_DOM_CFG_DOMAIN_NUM d)) identity cls accuracy false t) s = .next x ∧
      exec (.ptpAnnounceRx d port (w.rd (R.TIME_DOM_CFG_DOMAIN_NUM d)) identity cls accuracy true t) s =
        .next (y.wr (R.TIME_DOM_PATH_DELAY d) (match y.meanPath d port with
          | some p => toField 32 p
          | none => 0)))) ∧
  (∀ (s w : State) (d t : Nat), d < 2 → w = (s.atTime t).timeNow → w.domSt d = 2 →
    (w.rd (R.TIME_DOM_CFG_SOURCE d) = 0 →
      (tblGet 0 (w.dom d).annAt (w.rd (R.TIME_DOM_STATUS_PORT d)) + 375_000_000 ≤ w.now + 1 →
        exec (.announceTimeout d t) s = .next ((w.holdDom d).timeStep)) ∧
      ((w.dom d).syncAt + 500_000_000 ≤ w.now → exec (.syncTimeout d t) s = .next ((w.holdDom d).timeStep))) ∧
    (w.rd (R.TIME_DOM_CFG_SOURCE d) = 1 → (w.dom d).updAt + 2_000_000_000 ≤ w.now →
      exec (.ppsTimeout d t) s = .next ((w.holdDom d).timeStep)))

/-- Pulses and frames of the time of day: an accepted edge is kept for its pin and offered to both domains, a good frame is
counted and kept, any other is counted as an error, and a pulse of the block's own is put out. The device clock: a holdover
past its limit expires and, where HO_ACTION says so, runs the carriers null; a closed gap shows; a capture latches the clock
and the gap. -/
def Obligations.PulsesAndDeviceClockComplete : Prop :=
  (∀ (s w u : State) (t : Nat), w = (s.atTime t).timeNow →
    (∀ pin, pin < 2 → (pin = 0 → w.rd R.TIME_TOD_STATUS_ROLE = 2) →
      u = (w.edgeFor 0 pin (tblGet 0 w.clk.edges pin)).edgeFor 1 pin (tblGet 0 w.clk.edges pin) →
      exec (.ppsEdge pin t) s = .next (({ u with clk := { u.clk with
        edges := tblSet 0 u.clk.edges pin (w.now + 1), frame := if pin = 0 then none else u.clk.frame } } : State).timeStep)) ∧
    (∀ frame rate good, s.rd R.TIME_TOD_STATUS_ROLE = 2 →
      good = (decide (tblGet 0 s.clk.edges 0 ≠ 0) && decide (500_000 ≤ (s.atTime t).now + 1 - tblGet 0 s.clk.edges 0) &&
        decide ((s.atTime t).now + 1 - tblGet 0 s.clk.edges 0 ≤ 900_000_000) && rate && decide (frame.length = 18) &&
        decide (crc16 0xFFFF (frame.take 16) = ofBytes (frame.drop 16))) →
      (good = true → exec (.todFrameRx frame rate t) s = .next (({ s.atTime t with clk := { s.clk with
        frame := some (bankNum frame 2 6, bankNum frame 12 1 % 2 == 1) } } : State).sat R.TIME_TOD_RX_OK_COUNT 1)) ∧
      (good = false → exec (.todFrameRx frame rate t) s = .next ((s.atTime t).sat R.TIME_TOD_RX_ERR_COUNT 1))) ∧
    exec (.todPpsOutput t) s =
      .next (w.pulse (((w.devNs : Int) + signedOf 16 (w.rd R.TIME_TOD_CFG_DELAY_COMP)).toNat / 1_000_000_000))) ∧
  (∀ (s w : State) (t : Nat), w = (s.atTime t).timeNow →
    (∀ u limit, limit = (if w.rd R.TIME_STATUS_SYNCE_STATE = 1 then w.rd R.TIME_HO_CFG_HO_LIMIT_SE_S else
        w.rd R.TIME_HO_CFG_HO_LIMIT_S) → w.rd R.TIME_STATUS_TIME_LOCK ≠ 1 → w.rd R.TIME_STATUS_HO_EXPIRED ≠ 1 →
      w.clk.hoFrom ≠ none → limit ≤ w.rd R.TIME_HO_ELAPSED_SECONDS →
      u = (w.flag R.TIME_STATUS_HO_EXPIRED).flag R.TIME_EVENT_HO_EXPIRED →
      exec (.holdoverBudgetExpiry t) s = .next (if u.rd R.TIME_HO_ACT_HO_ACTION = 0 then u else
        u.each (List.range 256) fun u k => if u.rd (R.AIR_CARRIER_STATE k) = 2 then u.wr (R.AIR_CARRIER_STATE k) 3 else u)) ∧
    exec (.slewGapClosed t) s = .next w ∧
    (∀ c, c = w.clk.dev.read w.now → exec (.timeCapture t) s =
      .next (w.wrs [(R.TIME_CAP_NS_FRAC, c % 65536), (R.TIME_CAP_NS_NS, c / 65536 % 1_000_000_000),
        (R.TIME_CAP_SEC_SEC, c / 65536 / 1_000_000_000),
        (R.TIME_CAP_GAP_GAP_NS, sat32 (rneDiv (w.gapTo w.activeDom) 65536))])))

/-- Frequency references: a received quality level, a failure after the hold-off and a recovery after the wait to restore bring a
new selection; the clock locks to the reference selected. Each sixteenth of a second the master ports send Sync, with
Follow_Up in two-step operation, and in every second interval Announce, the slave ports Delay_Req; the quality level goes out
on the master ports, do-not-use on the port selected. -/
def Obligations.SynceAndTimeMessagesComplete : Prop :=
  (∀ (s w : State) (t : Nat), w = s.atTime t →
    (∀ port ql, port < 40 → exec (.esmcRx port ql t) s =
      .next (({ w with clk := { w.clk with ql := tblSet 15 w.clk.ql port (ql % 16) } } : State).synceSelect)) ∧
    (∀ n since, n < 4 → since + w.rd R.TIME_SYNCE_TIMING_HOLDOFF_MS * 1_000_000 ≤ w.now → n ∉ w.clk.dropped →
      exec (.synceRefFail n since t) s =
        .next (({ w with clk := { w.clk with dropped := w.clk.dropped ++ [n] } } : State).synceSelect)) ∧
    (∀ n since, n < 4 → since + w.rd R.TIME_SYNCE_TIMING_WTR_S * 1_000_000_000 ≤ w.now → n ∈ w.clk.dropped →
      exec (.synceWtrExpiry n since t) s =
        .next (({ w with clk := { w.clk with dropped := w.clk.dropped.filter (· != n) } } : State).synceSelect)) ∧
    (∀ p, w.synceChoice = some p → exec (.eecLocked t) s = .next (({ w with clk := { w.clk with eecWas := true } } : State).wrs
      [(R.TIME_SYNCE_STATUS_PORT, p), (R.TIME_SYNCE_STATUS_QL, w.qualityOf p), (R.TIME_STATUS_SYNCE_STATE, 1)]))) ∧
  (∀ (s w u v : State) (t : Nat), w = (s.atTime t).timeNow →
    (w.rd R.TIME_MASTER_CFG_TWO_STEP = 0 → u = (w.each w.masterPorts fun u p =>
        let u := u.emit .ptp [p, 0, w.rd R.TIME_MASTER_CFG_DOMAIN_NUM, w.rd R.TIME_MASTER_CFG_MCAST, u.clk.dev.read u.now]
        if w.clk.txCount % 2 = 0 then u.emit .ptp [p, 11, w.rd R.TIME_MASTER_CFG_DOMAIN_NUM, w.rd R.TIME_MASTER_CFG_MCAST, u.clockClass]
        else u) →
      v = (u.each [0, 1] fun u d => u.each (u.slavePorts d) fun u p =>
        u.emit .ptp [p, 1, u.rd (R.TIME_DOM_CFG_DOMAIN_NUM d), u.rd (R.TIME_DOM_CFG_MCAST d)]) →
      exec (.ptpTransmit t) s = .next { v with clk := { v.clk with txCount := w.clk.txCount + 1 } }) ∧
    (w.rd R.TIME_MASTER_CFG_TWO_STEP = 1 → u = (w.each w.masterPorts fun u p =>
        let u := u.emit .ptp [p, 0, w.rd R.TIME_MASTER_CFG_DOMAIN_NUM, w.rd R.TIME_MASTER_CFG_MCAST, 0]
        let u := u.emit .ptp [p, 8, w.rd R.TIME_MASTER_CFG_DOMAIN_NUM, w.rd R.TIME_MASTER_CFG_MCAST, u.clk.dev.read u.now]
        if w.clk.txCount % 2 = 0 then u.emit .ptp [p, 11, w.rd R.TIME_MASTER_CFG_DOMAIN_NUM, w.rd R.TIME_MASTER_CFG_MCAST, u.clockClass]
        else u) →
      v = (u.each [0, 1] fun u d => u.each (u.slavePorts d) fun u p =>
        u.emit .ptp [p, 1, u.rd (R.TIME_DOM_CFG_DOMAIN_NUM d), u.rd (R.TIME_DOM_CFG_MCAST d)]) →
      exec (.ptpTransmit t) s = .next { v with clk := { v.clk with txCount := w.clk.txCount + 1 } }) ∧
    (s.rd R.TIME_STATUS_SYNCE_STATE = 1 → exec (.esmcTransmit t) s =
      .next (((s.atTime t).each ((s.atTime t).masterPorts.filter fun p => p != s.rd R.TIME_SYNCE_STATUS_PORT) fun u p =>
        u.emit .esmc [p, u.rd R.TIME_SYNCE_STATUS_QL]).emit .esmc [s.rd R.TIME_SYNCE_STATUS_PORT, 15])) ∧
    (s.rd R.TIME_STATUS_SYNCE_STATE ≠ 1 → exec (.esmcTransmit t) s =
      .next ((s.atTime t).each (s.atTime t).masterPorts fun u p => u.emit .esmc [p, 11])))

/-- Frames: a good frame on a port that is up goes to its consumer, one that fails a check is counted only; a frame that fits is
queued; a port that is idle starts its next frame. Ticks, gates and links of a port: credits and policers are fed for the
whole microseconds passed, gates follow their list, an armed list takes over at its start, and the link comes up after its
hold time and goes down on a loss. -/
def Obligations.EthernetCommandsComplete : Prop :=
  (∀ (s w : State) (port t : Nat), port < 40 → w = s.atTime t →
    (∀ f : EthFrame, w.rd (R.PORT_STATUS_LINK port) = 2 →
      (f.len < 64 ∨ w.rd (R.PORT_CTRL_MTU port) < f.len →
        exec (.ethRxFrame port f t) s = .next (w.sat (R.PORT_RX_LEN_ERR_COUNT port) 1)) ∧
      (64 ≤ f.len → f.len ≤ w.rd (R.PORT_CTRL_MTU port) → f.fcsOk = false →
        exec (.ethRxFrame port f t) s = .next (w.sat (R.PORT_RX_FCS_ERR_COUNT port) 1)) ∧
      (64 ≤ f.len → f.len ≤ w.rd (R.PORT_CTRL_MTU port) → f.fcsOk = true → f.etype ≠ 0x8808 → w.consumer port f < 2 →
        exec (.ethRxFrame port f t) s = .next (w.deliver port f (if (f.tag.map (·.2.1)).getD false then 1 else 0))) ∧
      (∀ k v pcp, 64 ≤ f.len → f.len ≤ w.rd (R.PORT_CTRL_MTU port) → f.fcsOk = true → f.etype ≠ 0x8808 → 2 ≤ w.consumer port f →
        pcp = (f.tag.map (·.1)).getD 0 → w.colour port pcp (8 * f.len) ((f.tag.map (·.2.1)).getD false) = (k, v) →
        exec (.ethRxFrame port f t) s =
          .next (if k = 2 ∨ k = 1 ∧ (v.countColour port pcp k).rd (R.PORT_POL_CIR_YELLOW_DROP port pcp) = 1 then
            v.countColour port pcp k else (v.countColour port pcp k).deliver port f (if k = 1 then 1 else
              if (f.tag.map (·.2.1)).getD false then 1 else 0)))) ∧
    (∀ id len q pcp latest, q = w.queueOf port pcp → lenSum ((w.port port).queue q) + len ≤ w.rd (R.PORT_Q_LIMIT_LIMIT port q) * 4096 →
      (w.port port).used + len ≤ 128 * 1024 * 2 ^ w.rd (R.PORT_STATUS_SPEED port) → exec (.txFrameEnqueue port id len pcp latest t) s =
        .next ((w.setPort port ((w.port port).setQueue q ((w.port port).queue q ++ [⟨id, len, latest⟩]))).dropLongAll port)) ∧
    (∀ ps, (w.port port).flight = none → (w.frameDone port).rd (R.PORT_STATUS_LINK port) = 2 →
      exec (.txFrameStart port t ps) s = .next ((w.frameDone port).startFrame port ps
        (((w.frameDone port).port port).queues.foldl (fun n e => n + e.2.length) 1)))) ∧
  (∀ (s w : State) (port t : Nat), port < 40 → w = s.atTime t →
    (exec (.shaperTick port t) s = .next (w.setPort port { w.port port with
      fedS := w.devNs / 1000,
      credit := (portQueues port).foldl (fun c q => tblSet 0 c q (min (tblGet 0 c q + (w.devNs / 1000 - (w.port port).fedS) *
        w.rd (R.PORT_Q_SHAPE_RATE port q)) (w.rd (R.PORT_Q_BURST_BURST port q) * 1_000_000))) (w.port port).credit })) ∧
    (exec (.policerTick port t) s = .next (w.setPort port { w.port port with
      fedP := w.devNs / 1000,
      missC := (List.range 8).foldl (fun m c => tblSet 0 m c (tblGet 0 m c - (w.devNs / 1000 - (w.port port).fedP) *
        w.rd (R.PORT_POL_CIR_CIR_MBPS port c))) (w.port port).missC,
      missP := (List.range 8).foldl (fun m c => tblSet 0 m c (tblGet 0 m c - (w.devNs / 1000 - (w.port port).fedP) *
        w.rd (R.PORT_POL_PIR_PIR_MBPS port c))) (w.port port).missP })) ∧
    (exec (.gateEvent port t) s = .next (w.setPort port { w.port port with
      open_ := gatesAt (w.port port).force_ (w.port port).next w.devNs })) ∧
    (∀ g, (w.port port).next = some g → g.start ≤ w.devNs → exec (.gateChange port t) s =
      .next ((((w.setPort port { w.port port with force_ := some g, next := none, open_ := gatesAt (some g) none w.devNs }).actWaiting
        none (portUnit port).1 (portUnit port).2 3).wrs [(R.PORT_STATUS_GATE_PENDING port, 0),
          (R.PORT_STATUS_GATE_ACTIVE port, if g.en then 1 else 0), (R.PORT_EVENT_GATE_SWITCHED port, 1)]).dropLongAll port)) ∧
    (∀ since, w.rd (R.PORT_STATUS_LINK port) = 1 → w.portBundled port = true →
      since + w.rd (R.PORT_CTRL_UP_HOLD_MS port) * 1_000_000 ≤ w.now →
      exec (.portLinkUp port since t) s = .next ((w.wr (R.PORT_STATUS_LINK port) 2).flag (R.PORT_EVENT_LINK_UP port))) ∧
    (w.rd (R.PORT_STATUS_LINK port) ≠ 0 → exec (.portLinkLoss port t) s =
      .next ((((w.wr (R.PORT_STATUS_LINK port) 1).sat (R.PORT_LINK_FLAPS_COUNT port) 1).flag (R.PORT_EVENT_LINK_DOWN port)).iff
        (w.rd (R.PORT_STATUS_LINK port) == 2) (·.flushPort port))))

/-! The fabric: links, requests, homes, cache and rings -/

/-- A flit received in order with a good CRC: corrected symbols and lane warnings show, the acknowledgement and the credits are
taken, waiting flits go out, and the flit takes its place in its receive buffer and is acknowledged; a bad flit asks for a
replay once. Links: a NAK or 2 µs without progress brings a replay, 6 µs without delivery or a loss takes the link down,
training that has held for 1 ms brings it up with full credits, UNPARK frees a parked lane, charges lapse after 10 s, and an
idle link that has lost credits retrains. -/
def Obligations.FlitsAndLinksComplete : Prop :=
  (∀ (s w v x y : State) (l t warn : Nat) (f : FlitTail) (fec : Nat × Nat) (sym : List Nat), l < 6 → w = s.atTime t →
    w.linkUp l = true →
    v = (w.bump (R.FAB_LINK_FEC_CORR_COUNT l) fec.1).sat (R.FAB_LINK_FEC_UNCORR_COUNT l) fec.2 →
    warn = ((List.range 8).map fun i => if v.rd R.FAB_DETECT_WARN_WARN_SYM < sym.getD i 0 then 2 ^ i else 0).sum →
    x = (v.wr (R.FAB_LANE_WARN_WARN l) warn).iff ((List.range 8).any fun i =>
      warn / 2 ^ i % 2 == 1 && v.rd (R.FAB_LANE_WARN_WARN l) / 2 ^ i % 2 == 0) (·.flag R.FAB_FAULT_EVENT_LANE_WARN) →
    (f.crcOk = false → exec (.flitRx l f fec sym t) s =
      .next (if (x.link l).naking = true then x.sat (R.FAB_LINK_CRC_ERR_COUNT l) 1
        else (x.sat (R.FAB_LINK_CRC_ERR_COUNT l) 1).putIdle l true)) ∧
    (f.crcOk = true → f.idle = false → f.seq ≠ (x.link l).rxNext →
      exec (.flitRx l f fec sym t) s = .next (if (x.link l).naking = true then x else x.putIdle l true)) ∧
    (f.crcOk = true → f.idle = true ∨ f.seq = (x.link l).rxNext →
      y = ((match f.ack with
        | some a => x.acked l a
        | none => x).each f.credits fun u c => u.wr (creditFld l c.1) (min (u.rd (creditFld l c.1) + c.2) (vcSize c.1))) →
      (f.idle = true → exec (.flitRx l f fec sym t) s = .next ((y.pump l (y.link l).wait.length).checkMemCredits)) ∧
      (∀ z u, f.idle = false → z = y.pump l (y.link l).wait.length →
        u = z.setLink l { z.link l with
          rxNext := ((z.link l).rxNext + 1) % 4096, naking := false, lastFlit := z.now,
          rxBuf := tblSet 0 (z.link l).rxBuf f.vc (tblGet 0 (z.link l).rxBuf f.vc + 1) } →
        exec (.flitRx l f fec sym t) s = .next ((if f.kind = 0 ∨ 0x0F < f.kind then
          (u.sat R.FAB_BAD_FLIT_COUNT 1).freeBuf l f.vc else u.putIdle l false).checkMemCredits)))) ∧
  (∀ (s w : State) (l t : Nat), l < 6 → w = s.atTime t →
    (∀ ack, w.linkUp l = true → exec (.nakRx l ack t) s = .next ((w.acked l ack).replayAll l)) ∧
    (w.linkUp l = true → (w.link l).progress + 2_000 ≤ w.now → exec (.replayTimeout l t) s = .next (w.replayAll l)) ∧
    (∀ sym e, w.linkUp l = true → e ∈ (w.link l).replay → e.first + 6_000 ≤ w.now →
      exec (.deliveryTimeout l sym t) s = .next (w.linkDrop l (worstLane (sym.take 8)))) ∧
    (∀ lost sym, w.linkUp l = true → exec (.fabLinkDown l true lost sym t) s = .next (w.linkDrop l none) ∧
      (lost = [] → exec (.fabLinkDown l false lost sym t) s = .next (w.linkDrop l (worstLane (sym.take 8)))) ∧
      (∀ i, (List.range 8).find? lost.contains = some i →
        exec (.fabLinkDown l false lost sym t) s = .next (w.linkDrop l (some i)))) ∧
    (∀ p : Partner, ∀ since : Nat, ∀ v : State, w.rd (R.FAB_LINK_STATUS_STATE l) = 1 → w.rd (R.FAB_LINK_PARK_HELD l) ≠ 1 →
      since + 1_000_000 ≤ w.now → p.switch_ = false →
      v = (w.setLink l { LinkState.reset with charges := (w.link l).charges, pod := p.pod, port := p.port, lastFlit := w.now, progress := w.now }).wrs
        [(R.FAB_LINK_STATUS_STATE l, 2), (R.FAB_LINK_STATUS_SWITCH l, 0), (R.FAB_LINK_STATUS_PARTNER_PORT l, p.port),
          (R.FAB_LINK_STATUS_LANES l, w.lanesOf l p.parked), (creditFld l 0, 192), (creditFld l 1, 192), (creditFld l 2, 96),
          (creditFld l 3, 32)] →
      exec (.fabLinkUp l p since t) s = .next ((v.wrs [(R.FAB_STATUS_POD, if v.rd R.FAB_CFG_DIRECT = 1 then v.rd R.FAB_CFG_DIRECT_POD
        else p.pod), (R.FAB_STATUS_DEV, if v.rd R.FAB_CFG_DIRECT = 1 then v.rd R.FAB_CFG_DIRECT_DEV else p.port),
          (R.FAB_STATUS_NUMBERED, 1)]).manage l 0x0A p.pod p.port 0 0 0 [])) ∧
    (∀ u : State, w.rd (R.FAB_LINK_PARK_PARKED l) ≠ 0 ∨ w.rd (R.FAB_LINK_PARK_HELD l) ≠ 0 →
      u = w.wrs [(R.FAB_LINK_PARK_PARKED l, 0), (R.FAB_LINK_PARK_LANE l, 0), (R.FAB_LINK_PARK_HELD l, 0)] →
      ((u.setLink l { u.link l with charges := [] }).showCharges l).linkUp l = false →
      exec (.unpark l t) s =
        .next (((u.setLink l { u.link l with charges := [] }).showCharges l).wr (R.FAB_LINK_STATUS_STATE l) 1)) ∧
    (exec (.laneChargeLapse l t) s = .next ((w.setLink l { w.link l with
      charges := (w.link l).charges.filter fun c => decide (w.devNs < c.2 + 10_000_000_000) }).showCharges l)) ∧
    (∀ vc, w.linkUp l = true → (w.link l).lastFlit + 2_000 ≤ w.now → vc < 4 → (w.rd (creditFld l vc) ≠ vcSize vc ∨
        tblGet 0 (w.link l).rxBuf vc ≠ 0 ∨ tblGet 0 (w.link l).owed vc ≠ 0) →
      exec (.creditLeak l t) s = .next ((w.flag R.FAB_FAULT_EVENT_CREDIT_LEAK).linkDrop l none)))

/-- Every operation at the head of a queue in RUN or STOPPING is issued: HEAD moves by one, and it starts, or, where a check
fails, ends with its code. -/
def Obligations.FabricOperationsIssue : Prop :=
  ∀ (s w v : State) (q t h : Nat) (d : List (BitVec 8)) (c : Instr), q < 32 → w = s.atTime t → w.opqHead q = some (h, d) →
    (w.rd R.DEV_STATUS_PHASE = 4 ∨ w.rd R.DEV_STATUS_PHASE = 5) →
    (c, dOp d) ∈ [(Instr.fabLoad q t, 1), (Instr.fabStore q t, 2), (Instr.fabStoreWord q t, 3), (Instr.fabGet q t, 4),
      (Instr.fabPut q t, 5), (Instr.fabFetchAdd q t, 6), (Instr.fabSwap q t, 7), (Instr.fabCswap q t, 8), (Instr.fabMin q t, 9),
      (Instr.fabMax q t, 10), (Instr.fabInv q t, 11), (Instr.fabInvPod q t, 12), (Instr.fabInvLocal q t, 13), (Instr.fabMsg q t, 14),
      (Instr.fabFenceOp q t, 15)] →
    v = w.bump (R.FAB_OPQ_HEAD_HEAD q) 1 →
    (w.issueCode q d ≠ 0 → exec c s = .next (v.writeDone q h d 0 (w.issueCode q d) 0)) ∧
    (w.issueCode q d = 0 → w.issueWaits q d = false → exec c s =
      .next ((v.setFab { v.fab with nextOp := v.fab.nextOp + 1 }).startOp
        ⟨v.fab.nextOp, q, h, if v.opqOwner q then 0 else v.gen (v.opqSlice q), d, 0, 0, 0, 0⟩))

/-- Requests under way: a response ends its request, lines of a LOAD reach memory; a LOAD is sent again after 24 µs, an atomic
likewise with RETRY set; a request whose time is over ends with TIMEOUT, an atomic with OUTCOME_UNKNOWN. -/
def Obligations.FabricRequestsComplete : Prop :=
  ∀ (s w : State) (tag t : Nat) (r : FabReq), w = s.atTime t →
    (∀ (h : FabHdr) (code : Nat) (data : List (BitVec 8)) (evict : List Nat) (o : FabOp) (u : State), h.link < 6 →
      u = w.freeBuf h.link 1 → u.reqOf h.tag = some r → r.dev = h.dev → r.flit.pod = h.pod → u.fabOp r.op = some o →
      (code ≠ 0 → r.kind ≠ 7 → exec (.fabResponseRx h code data false evict t) s = .next ((u.endFabReq r code).pumpOps)) ∧
      (r.kind = 7 → (code = 4 ∨ code = 5 ∨ code = 0x0C) → exec (.fabResponseRx h code data false evict t) s =
        .next (((u.setSpent r.flit.pod r.dev r.flit.window (·.dropLast)).endFabReq r code).pumpOps)) ∧
      (code = 0 → r.kind = 1 → (u.opqOwner o.queue = true ∨ u.gen (u.opqSlice o.queue) = o.gen) →
        exec (.fabResponseRx h code data false evict t) s =
          .next (((u.opqStore o.queue (dLocal o.desc + 64 * r.line) (data.take (64 * r.lines))).endFabReq r 0).pumpOps)) ∧
      (code = 0 → r.kind = 4 → exec (.fabResponseRx h code data false evict t) s =
        .next (((u.putOp { o with result := bankNum data 0 (if dSize8 o.desc then 8 else 4) }).endFabReq r 0).pumpOps))) ∧
    (w.reqOf tag = some r →
      (∀ n u o, r.kind = 1 → r.retried = false → r.first + 24_000 ≤ w.now → w.takeTag = (n, u) → u.fabOp r.op = some o →
        exec (.loadRetryTimeout tag t) s = .next (((u.setFab { u.fab with
          reqs := u.fab.reqs.map fun p => if p.tag == tag then { r with
            tag := n, last := u.now, retried := true, flit := { r.flit with tag := n } } else p }).putOp { o with tag := n }).send
            { r.flit with tag := n })) ∧
      ((r.kind = 1 ∧ r.retried = true ∧ r.last + 40_000 ≤ w.now) ∨ (r.kind ≠ 1 ∧ r.kind ≠ 4 ∧ r.last + 64_000 ≤ w.now) →
        exec (.requestTimeout tag t) s = .next ((w.endFabReq r 0x0E).pumpOps)) ∧
      (∀ q, r.kind = 4 → r.retried = false → r.first + 24_000 ≤ w.now →
        q = { r with last := w.now, retried := true, flit := { r.flit with data := r.flit.data.dropLast ++ [1] } } →
        exec (.atomicRetry tag t) s = .next ((w.setFab { w.fab with
          reqs := w.fab.reqs.map fun p => if p.tag == tag then q else p, tagsAt := w.fab.tagsAt ++ [(tag, w.now)] }).send q.flit)) ∧
      (r.kind = 4 → r.first + 64_000 ≤ w.now →
        exec (.atomicUnknown tag t) s = .next ((w.flag R.FAB_EVENT_UNKNOWN_OUTCOME).endFabReq r 0x07)))

/-- A home serves a request that passes its checks: lines are read, corrected where a symbol was bad, and answered, written
through the cairn queue, words are stored, atomics applied once, copies land, invalidations are acknowledged and messages
enter their ring; one that fails a check is turned away with its code. -/
def Obligations.HomeRequestsComplete : Prop :=
  ∀ (s w : State) (h : FabHdr) (t : Nat), h.link < 6 →
    (∀ lines corr l x, w = (s.atTime t).freeBuf h.link 0 → 1 ≤ lines → lines ≤ 3 → h.offset % 64 = 0 →
      (w.homeCode h 1 (64 * lines) ≠ 0 →
        exec (.homeLoad h lines t corr) s = .next (w.turnAway h 1 (w.homeCode h 1 (64 * lines)))) ∧
      (w.homeCode h 1 (64 * lines) = 0 → l = w.winLines h.window h.offset (64 * lines) →
        x = (w.settleLines l).corrAt l.head? corr → (∀ p, p ∈ l → ∀ i, i < 2 → x.badAt p.1 (p.2 / 32 + i) = 0) →
        exec (.homeLoad h lines t corr) s = .next (x.respond h 1 lines 0 ((l.flatMap fun p => x.bytes (vaultKey p.1 p.2) 64) ++
          [if x.rd (R.FAB_WIN_CTRL_CACHEABLE h.window) = 1 then 1 else 0])))) ∧
    (∀ (data : List (BitVec 8)) (masks : List Nat), w = (s.atTime t).freeBuf h.link 0 → 1 ≤ masks.length → masks.length ≤ 3 →
      h.offset % 64 = 0 → data.length = 64 * masks.length → w.homeCode h 2 (64 * masks.length) = 0 →
      exec (.homeStore h data masks t) s = .next (w.enterLines h 2 data masks)) ∧
    (∀ (size8 : Bool) (v n : Nat), w = (s.atTime t).freeBuf h.link 0 → n = (if size8 then 8 else 4) → h.offset % n = 0 →
      w.homeCode h 3 n = 0 → exec (.homeStoreWord h size8 v t) s =
        .next (w.enterLines h 3 (List.replicate (h.offset % 64) 0 ++ toBytes n v ++ List.replicate (64 - h.offset % 64 - n) 0)
          [(2 ^ n - 1) * 2 ^ (h.offset % 64)])) ∧
    (∀ (o : AtomicOp) (n corr : Nat), w = (s.atTime t).freeBuf h.link 0 → n = (if o.size8 then 8 else 4) → h.offset % n = 0 →
      6 ≤ o.op → o.op ≤ 10 → w.homeCode h 4 n = 0 → o.homeEpoch = w.ownEpoch →
      (o.retry = false → (w.fab.replays.filter fun e => e.port == h.link).length < 4096 →
        exec (.homeAtomic h o t corr) s = .next ((w.corrAt (w.winPlace h.window h.offset) corr).applyAtomic h o)) ∧
      (∀ e, o.retry = true →
        w.fab.replays.find? (fun e => e.pod == h.pod && e.dev == h.dev && e.epoch == h.epoch && e.tag == h.tag) = some e →
        exec (.homeAtomic h o t corr) s = .next ((w.sat R.FAB_RPL_HITS_COUNT 1).respond h 4 0 0 (toBytes n e.old)))) ∧
    (∀ (data : List (BitVec 8)) (masks : List Nat) (copy cyc : Nat) (sig : Option (Nat × Nat × Nat)),
      w = (s.atTime t).freeBuf h.link 0 → 1 ≤ masks.length → masks.length ≤ 3 → h.offset % 64 = 0 →
      data.length = 64 * masks.length → w.homeCode h 5 (64 * masks.length) = 0 →
      (s.rd (R.FAB_WIN_CTRL_KIND h.window) = 1 → w.rd (R.FAB_WIN_CTRL_KIND h.window) = 1 →
        (s.fab.cairn.filter fun e => e.kind == 5).length + masks.length ≤ 3076 →
        exec (.homePut h data masks copy sig cyc t) s = .next (w.enterLines h 5 data masks)) ∧
      (∀ site, s.rd (R.FAB_WIN_CTRL_KIND h.window) ≠ 1 → w.rd (R.FAB_WIN_CTRL_KIND h.window) ≠ 1 → w.winTile h.window = some site →
        banksOf [⟨h.offset, 64 * masks.length⟩] (fun b => w.rd (bankFld site b) != 0) = false →
        exec (.homePut h data masks copy sig cyc t) s = .next (((w.each (data.zipIdx.filter fun e =>
          masks.getD (e.2 / 64) 0 / 2 ^ (e.2 % 64) % 2 == 1) fun u e => u.setByte (tileKey site (h.offset + e.2)) e.1).landLine h copy
            masks.length cyc sig).respond h 5 0 0 []))) ∧
    (∀ lines, w = (s.atTime t).freeBuf h.link 0 → 0 < lines → lines ≤ 2 ^ 24 →
      (h.pod = w.ownPod → h.epoch ∉ (w.peer h.dev).retired) →
      exec (.homeInv h lines t) s = .next ((w.invLines h.window h.offset lines).respond h 6 0 0 [])) ∧
    (∀ msg : List (BitVec 8), w = (s.atTime t).freeBuf h.link 2 → 1 ≤ msg.length → msg.length ≤ 222 →
      w.homeCode h 7 msg.length = 0 → exec (.homeMsg h msg t) s =
        .next ((w.writeSlot h.window h.pod h.dev h.epoch h.pkey msg).respond h 7 0 0 []))

/-- The queue at the home, the replay store, the cache and the rings: an entry with no older one of its line is applied to the
vault and leaves, replay entries of 64 µs leave, the cache is emptied while INV_BUSY shows, freed slots owe credits, credits
go out and come back, and a query is answered with the slots held. -/
def Obligations.FabricStoresComplete : Prop :=
  ∀ (s w : State) (t : Nat), w = s.atTime t →
    (∀ i corr e x, w.fab.cairn[i]? = some e → (∀ c, c ∈ w.fab.cairn.take i → ¬ (c.vault = e.vault ∧ c.addr = e.addr)) →
      x = w.corrAt (if e.mask = 2 ^ 64 - 1 then none else some (e.vault, e.addr)) corr →
      w.mergeBad e.vault e.addr e.mask = [] → exec (.cairnApply i t corr) s =
        .next ((((x.setFab { x.fab with cairn := x.fab.cairn.eraseIdx i }).writeLine e.vault e.addr e.data e.mask).ackStore
          e).showCairn 0)) ∧
    (∀ l, l < 6 → exec (.replayEntryExpiry l t) s = .next ((w.setFab { w.fab with
      replays := w.fab.replays.filter fun e => e.port != l || decide (w.now < e.since + 64_000) }).showReplays l)) ∧
    (exec (.rlcInvAll t) s = .next ((w.uncache fun _ => true).wr R.FAB_RLC_CTRL_INV_BUSY 1)) ∧
    (exec (.rlcInvAllDone t) s = .next (w.wr R.FAB_RLC_CTRL_INV_BUSY 0)) ∧
    (∀ (h : FabHdr) (n : Nat), h.link < 6 →
      exec (.homeCreditRx h n t) s = .next ((w.freeBuf h.link 3).setSpent h.pod h.dev h.window (·.drop n))) ∧
    (∀ (i head n : Nat) (l : List Nat) (u : State), i < 192 → n = (head + 2 ^ 32 - w.rd (R.FAB_WIN_HEAD_HEAD i)) % 2 ^ 32 →
      l = w.ring i → u = (w.wr (R.FAB_WIN_HEAD_HEAD i) head).setRing i (l.drop n) → exec (.recvSlotConsume i head t) s =
        .next (u.each ((l.take n).filter fun p => !(p / 256 == u.ownPod && u.rd (R.FAB_PEER_STATE (p % 256)) == 2))
          fun u p => u.oweCredit p i)) ∧
    (∀ pod dev, pod < 16 → dev < 256 → exec (.creditReturnSend pod dev t) s =
      .next (w.each ((w.fab.due.filter fun e => e.1 == pod * 256 + dev).map (·.2.1)) fun u i => u.returnCredit (pod * 256 + dev) i)) ∧
    (∀ (h : FabHdr) (u : State), h.link < 6 → h.window < 192 → u = (w.freeBuf h.link 3).returnCredit (h.pod * 256 + h.dev) h.window →
      exec (.resyncQueryRx h t) s = .next (u.manage h.link 0x0F h.pod h.dev h.tag h.window 0
        (toBytes 1 ((u.ring h.window).filter (· == h.pod * 256 + h.dev)).length))) ∧
    (∀ (pod dev win count l : Nat) (c : MsgCredit) (x : Nat) (u : State), pod < 16 → dev < 256 → win < 192 →
      w.msgCredit pod dev win = some c → x ∈ c.spent → x + 10_000_000 ≤ w.now → (w.usable pod dev).head? = some l →
      u = (w.manage l 0x0E pod dev 0 win 0 []).setSpent pod dev win (fun l => l.drop (l.length - count)) →
      exec (.msgCreditResync pod dev win count t) s = .next (u.setFab { u.fab with credits := u.fab.credits.map fun e =>
        if e.pod == pod && e.dev == dev && e.window == win then { e with unconsumed := count } else e }))

/-- Pod membership: HELLOs go to every peer over every link, a HELLO heard refreshes its peer, a peer that stops using a link is
noted, a peer silent too long or named by the owner or by a peer is fenced, silence from all fences this device, REJOIN
begins a new epoch. -/
def Obligations.FencingCompletes : Prop :=
  ∀ (s w : State) (t cyc : Nat), w = s.atTime t →
    (w.rd R.FAB_STATUS_NUMBERED ≠ 0 → exec (.helloSend t) s = .next (w.each w.upLinks fun u l =>
      u.each (allPeers.filter (· != w.ownDev)) fun u d => u.manage l 0x09 u.ownPod d 0 0 0 w.helloData)) ∧
    (∀ l dev named u, l < 6 → dev < 256 → named < 6 → u = w.freeBuf l 3 → exec (.linkStateRx l dev named t) s =
      .next (u.setPeer dev { u.peer dev with
        off := if (u.peer dev).off.contains named then (u.peer dev).off else (u.peer dev).off ++ [named] })) ∧
    (∀ l dev epoch windows pairs u v, l < 6 → dev < 256 →
      u = (w.freeBuf l 3).setFab { (w.freeBuf l 3).fab with heard := (w.freeBuf l 3).now } →
      (u.peer dev).retired.contains epoch = false → v = u.peerJoins dev epoch →
      exec (.helloRx l dev epoch windows pairs cyc t) s = .next ((v.setPeer dev { v.peer dev with
        heard := v.now, off := (v.peer dev).off.filter (· != l), windows := windows }).each (pairs.take 16)
          fun u p => u.fenceNamed dev p.1 p.2 cyc)) ∧
    (exec (.detectorTick t) s =
      .next (w.each (w.upPeers.filter fun d => decide ((w.peer d).heard + w.deadTime ≤ w.now)) fun u d => u.fencePeer d)) ∧
    (∀ dev, dev < 256 → exec (.fenceCtrlFence dev t) s = .next (w.fencePeer dev)) ∧
    (∀ l src dev epoch, l < 6 → src < 256 → dev < 256 →
      exec (.fenceMsgRx l src dev epoch cyc t) s = .next ((w.freeBuf l 3).fenceNamed src dev epoch cyc)) ∧
    (w.upPeers ≠ [] → w.fab.heard + w.deadTime ≤ w.now → exec (.helloSilenceSelfFence cyc t) s = .next (w.selfFence cyc)) ∧
    (∀ u, w.selfFenced = true → u = ((w.setFab { w.fab with
        cache := [], replays := [], credits := [], peers := w.fab.peers.map fun p => (p.1, { p.2 with credits := 4 }) }).each allLinks
          (·.showReplays ·)) →
      exec (.rejoin t) s = .next (u.nextEpoch.wrs [(R.FAB_FENCE_STATUS_SELF_FENCED, 0), (R.FAB_FENCE_STATUS_HEAL_CONFLICT, 0)])) ∧
    (∀ (i dev : Nat) (n : Nat × Nat × Nat), i < 192 → dev < 256 → w.fab.notices.find? (fun n => n.1 == i && n.2.1 == dev) = some n →
      ((w.ring i).filter (· == w.ownPod * 256 + dev)).length < 2 → w.rd (R.FAB_WIN_CTRL_KIND i) = 3 →
      exec (.fenceNotice i dev t) s = .next ((w.setFab { w.fab with notices := w.fab.notices.filter (· != n) }).writeSlot i w.ownPod dev
        n.2.2 (w.rd (R.FAB_WIN_CTRL_PKEY i)) [])) ∧
    (∀ qty index a b c, qty ≠ 4 → w.books qty index = some (a, b, c) → exec (.fabBooksSnap qty index t) s =
      .next (w.wrs [(R.FAB_BOOKS_STATUS_VALID, 1), (R.FAB_BOOKS_STATUS_QTY, qty), (R.FAB_BOOKS_STATUS_INDEX, index),
        (R.FAB_BOOKS_A_A, a), (R.FAB_BOOKS_B_B, b), (R.FAB_BOOKS_C_C, c), (R.FAB_BOOKS_TIME_TIME, w.devTime)]))

/-! Firmware, the host, security, power and the assay -/

/-- Firmware cores: a kick restarts the watchdog, a period without one or a trap crashes the core, the owner's RESTART restarts
it, a restarted core runs again; a core's record is appended and read back; a risen source is notified. -/
def Obligations.FirmwareCommandsComplete : Prop :=
  ∀ (s w : State) (c t : Nat), w = s.atTime t →
    (c < 23 → w.coreRuns c = true →
      exec (.fwCoreKick c t) s = .next { w with fw := { w.fw with kicks := tblInsert c w.now (tblErase w.fw.kicks c) } } ∧
      (∀ mcause mepc mtval ok took slot, tblGet w.dev.resetEnd w.fw.kicks c + watchdogNs c ≤ w.now →
        exec (.watchdogExpiry c mcause mepc mtval ok took slot t) s = .next (w.crash c 1 mcause mepc mtval ok took slot)) ∧
      (∀ cause mcause mepc mtval ok took slot, cause = 0 ∨ cause = 2 →
        exec (.coreCrash c cause mcause mepc mtval ok took slot t) s = .next (w.crash c cause mcause mepc mtval ok took slot)) ∧
      (∀ level trace args, level ≤ 4 → 0 < trace → trace ≤ 0xFFFF →
        exec (.logAppend c level trace args t) s = .next (w.log c level trace args))) ∧
    (c < 23 → 4 ≤ w.rd R.DEV_STATUS_PHASE →
      (∀ ok took slot, w.rd (R.FW_CORE_STATUS_STATE c) = 1 ∨ w.rd (R.FW_CORE_STATUS_STATE c) = 4 →
        exec (.fwCoreRestart c ok took slot t) s = .next ((w.restartCore c ok).coreStopped c took slot)) ∧
      (∀ ok took slot, w.rd (R.FW_CORE_STATUS_STATE c) = 3 → exec (.fwCoreRestart c ok took slot t) s =
        .next ((({ w with fw := { w.fw with crashes := tblErase w.fw.crashes (coreClass c) } } : State).restartCore c ok).coreStopped
          c took slot))) ∧
    (∀ (slot : Nat) (u v x y : State), c < 23 → w.rd (R.FW_CORE_STATUS_STATE c) = 2 →
      u = (w.log c 2 0x0002 [(w.now - tblGet w.now w.fw.crashAt (coreClass c)) / 1000,
        (recent w.devNs (tblGet [] w.fw.crashes (coreClass c))).length, 0, 0]).kickAll c →
      v = (if coreClass c = 5 then
          if u.flintUp = true then u.wr (R.FW_CORE_STATUS_STATE c) 4
          else u.activate c (w.now - tblGet w.now w.fw.crashAt (coreClass c)) slot
        else u.setCores c 1) →
      x = (if coreClass c = 1 then v.wr R.SCHED_STATUS_RESTARTING 0 else v) →
      y = ((x.showStandby.showAdmit).showDegraded).refreshCarriers →
      exec (.coreRestartDone c slot t) s = .next (if coreClass c = 1 then ((y.serveAll).actWaitingHost).decision else y)) ∧
    (∀ n b, b = (match tblFind w.fw.log (n % 2 ^ 32 % 32768) with
        | some r => if r.seq = n % 2 ^ 32 then r.bytes else []
        | none => []) →
      exec (.fwLogSel n t) s = .next ((w.wr R.FW_LOG_SEL_SEQ n).each (List.range 8) fun t j =>
        t.wr (R.FW_LOG_DATA_DATA j) (bankNum b (4 * j) 4))) ∧
    (∀ on u, u = w.wr R.FW_NOTIFY_PEND_PEND w.pendBits → on = w.pendBits &&& u.rd R.FW_NOTIFY_MASK_MASK → on ≠ 0 →
      u.rd R.FW_NOTIFY_ROUTE_ROUTE ≠ 0 → (on ≠ w.fw.notified &&& on ∨ w.fw.notifyAt + 1_000_000 ≤ w.now) →
      u.fw = w.fw → u.now = w.now → exec (.notifySend t) s =
        .next (({ u with fw := { w.fw with notified := on, notifyAt := w.now } } : State).emit .notify
          [u.rd R.FW_NOTIFY_ROUTE_ROUTE, w.pendBits]))

/-- The host link: it comes up at its width and rate and goes down, session actions are queued and performed, a matching
heartbeat keeps the session, its silence loses it and 10 s later ends it, a function reset clears vectors and translations. -/
def Obligations.HostCommandsComplete : Prop :=
  ∀ (s w : State) (t : Nat), w = s.atTime t →
    (∀ width rate, w.rd R.DEV_STRAP_STRAPS / 8 ≠ 0 → 1 ≤ width → width ≤ 16 → rate ≤ 5 → exec (.pcieLinkUp width rate t) s =
      .next (({ w with host := { w.host with linkUp := true } } : State).wrs [(R.PCIE_LINK_STATE, 2),
        (R.PCIE_LINK_WIDTH, if 6 ≤ w.rd R.POWER_STATUS_SHED_STEP then min width w.shedWidth else width), (R.PCIE_LINK_RATE, rate)])) ∧
    (exec (.pcieLinkDown t) s = .next w.linkLost) ∧
    (∀ id, w.host.linkUp = true →
      exec (.pcieConfigRequest id t) s = .next (w.emit .pcie [if w.host.config = true then 2 else 1, id])) ∧
    (w.hostReach = true →
      (∀ level, exec (.hbSessionOpen level t) s =
        .next ((w.wrs [(R.HB_SESSION_CTRL_OP, 1), (R.HB_SESSION_CTRL_LEVEL, level)]).hostAction (.opens (level % 16)))) ∧
      (exec (.hbSessionClose t) s = .next ((w.wr R.HB_SESSION_CTRL_OP 2).hostAction .closes)) ∧
      (∀ x base, x < 64 → exec (.hbAttach x base t) s = .next ((w.wrs [(R.HB_ATTACH_SLICE, x), (R.HB_ATTACH_VEC_BASE, base)]).hostAction
        (.attaches x (w.rd R.HB_ATTACH_QMASK_QMASK) (base % 64)))) ∧
      (∀ v u, v % 2 ^ 16 = w.rd R.PCIE_SESSION_HGEN → u = ({ w with host := { w.host with beatAt := w.now } } : State) →
        exec (.hbHeartbeat v t) s = .next (if w.rd R.PCIE_SESSION_STATE = 2 then (u.setSession 1 4).decision else u)) ∧
      (∀ v, v % 2 ^ 16 ≠ w.rd R.PCIE_SESSION_HGEN → exec (.hbHeartbeat v t) s = .next (w.sat R.PCIE_HB_BAD_COUNT 1))) ∧
    (w.host.beatAt + 100_000_000 ≤ w.now → exec (.heartbeatTimeout t) s = .next (w.loseSession 2)) ∧
    (w.rd R.PCIE_SESSION_STATE = 2 → w.host.lostAt + 10_000_000_000 ≤ w.now →
      exec (.sessionLostExpiry t) s = .next (w.discardHost.detachAll.setSession 0 5).decision) ∧
    (∀ kind u, (kind = 0 → w.rd R.DEV_STRAP_STRAPS / 8 ≠ 0) →
      u = ({ w with host := { w.host with vecAt := [], vecDue := [], ats := [], waiting := [] } } : State) →
      exec (.pcieFunctionReset kind t) s = .next (if kind = 2 then u.loseSession 3 else u.linkLost.wr R.PCIE_LINK_STATE 1)) ∧
    (∀ entries, exec (.atsInvalidation entries t) s = .next (({ w with host := { w.host with
      ats := w.host.ats.filter fun e => !entries.contains e } } : State).emit .pcie [3, entries.length]))

/-- Security: a checked enrolment record is applied and answers 0, one that fails answers its code; extends reach their
measurement register, event records are read back, requests wait in their slots and are served in turn, a customer image is
measured into its slice or logged as refused. -/
def Obligations.SecurityCommandsComplete : Prop :=
  ∀ (s w : State) (t : Nat), w = s.atTime t →
    (∀ (r : EnrolRec) (took op : Nat) (c : Instr) (u : State), w.agateUp = true → w.inRun = true → w.sec.checkUntil ≤ w.now →
      r.mapped = true → u = ({ w with sec := { w.sec with checkUntil := w.now + min took 5_000_000 } } : State) →
      (c, op) ∈ [(Instr.enrolClaim r took t, 1), (Instr.enrolAdd r took t, 2), (Instr.enrolRevoke r took t, 3),
        (Instr.enrolRelease r took t, 4)] →
      exec c s = .next (if u.enrolCode op r = 0 then (u.enrol op r).enrolResult 0 else u.enrolResult (u.enrolCode op r))) ∧
    (∀ mr, 8 ≤ mr → mr < 16 → exec (.secExtend mr t) s = .next (w.extendMr mr 4 (w.digestAt R.SEC_EXTEND_DATA_DIGEST))) ∧
    (∀ x, x < 64 → w.sliceOpen x = true →
      exec (.sliceExtend x t) s = .next (w.extendSlice x 1 5 (w.digestAt (R.SLICE_EXTEND_DATA_DIGEST x)))) ∧
    (∀ i, exec (.secEvlogSel i t) s = .next ((w.wr R.SEC_EVLOG_SEL_INDEX i).each (List.range 20) fun t j =>
      t.wr (R.SEC_EVLOG_DATA_DATA j) (bankNum (((w.sec.log[i % 2 ^ 32]?).map EvRec.bytes).getD []) (4 * j) 4))) ∧
    (∀ (who k ticket op : Nat) (c : Instr) (u : State), reqUnit who k = true → (0 < who → w.sliceOpen (who - 1) = true) →
      w.inRun = true → w.rd (reqFld R.REQ_CTRL_GO R.SREQ_CTRL_GO who k) ≠ 1 →
      (c, op) ∈ [(Instr.reqQuote who k ticket t, 1), (Instr.reqChain who k ticket t, 2)] →
      u = w.wrs [(reqFld R.REQ_CTRL_OP R.SREQ_CTRL_OP who k, op), (reqFld R.REQ_CTRL_TICKET R.SREQ_CTRL_TICKET who k, ticket)] →
      exec c s = .next (({ u with sec := { u.sec with
        reqs := u.sec.reqs ++ [SecReq.mk who k (if who = 0 then 0 else w.gen (who - 1))] } } : State).wr
          (reqFld R.REQ_CTRL_GO R.SREQ_CTRL_GO who k) 1)) ∧
    (∀ mapped r, w.agateUp = true → w.sec.nextReq = some r → exec (.quoteService mapped t) s = .next (w.serveReq r mapped)) ∧
    (∀ core x lo hi digest, x < 64 → 7 ≤ core → core < 23 → w.rd (R.FW_CORE_STATUS_STATE core) = 1 → w.sliceOpen x = true →
      (max lo w.sec.runtime.1 ≤ min hi w.sec.runtime.2 →
        exec (.customerImageLoad core x true lo hi digest t) s = .next (w.extendSlice x 0 1 digest)) ∧
      (exec (.customerImageLoad core x false lo hi digest t) s = .next (w.log core 1 (Config.traceOf 0) [x, 0, 0, 0])))

/-- Power: samples move the governor, temperatures show and throttle, sag sources start and end a sag, its time enters the steps
and its end undoes them; 110 °C pulls THERMTRIP_N low; a regulator silent twice keeps 750 mV. -/
def Obligations.PowerCommandsComplete : Prop :=
  ∀ (s w : State) (cyc t : Nat), w = s.atTime t →
    (∀ mw sectors vdd u, u = w.takeSample mw sectors vdd → exec (.powerSample mw sectors vdd t) s = .next (u.govern u.pow.mean)) ∧
    (∀ (n : Nat) (v : Int) (u : State), n < 8 → v < 392 → v < 4 * w.rd R.POWER_MODE_CFG_TJ_THROTTLE - 12 →
      u = ((({ w with pow := { w.pow with badTj := tblSet 0 w.pow.badTj n 0 } } : State).wrs [(R.POWER_SECTOR_TJ n, toField 12 v),
        (R.POWER_SECTOR_TJ_VALID n, 1)]).topTemp (R.POWER_SECTOR_TJMAX_TJ n) v) →
      ∃ x : State, x = (({ u with pow := { u.pow with thermHeld := member u.pow.thermHeld n false } } : State).wr
          (R.POWER_SECTOR_HALTED n) 0) ∧
        exec (.junctionTempSample n (some v) cyc t) s = .next (if u.rd (R.POWER_SECTOR_HALTED n) = 1 ∧ x.rd (R.POWER_SECTOR_HALTED n) = 0
          then x.decision else x)) ∧
    (∀ (n : Nat) (v : Int) (u x : State), n < 8 → v ≤ 340 → w.rd (R.HUB_THERM_STATE_LEVEL n) ≠ 3 →
      u = ((({ w with mm := { w.mm with badSensor := tblSet 0 w.mm.badSensor n 0 } } : State).wrs [(R.HUB_DRAM_TEMP_TEMP n, toField 12 v),
        (R.HUB_DRAM_TEMP_VALID n, 1)]).topTemp (R.HUB_TEMP_MAX_TEMP n) v) →
      x = (({ u with pow := { u.pow with dramHeld := member u.pow.dramHeld n false } } : State).wr (R.HUB_THERM_STATE_LEVEL n) 0) →
      exec (.dramTempSample n (some v) cyc t) s = .next (x.each (x.inferVaults.filter fun v => sectorOfVault v == n) fun s v =>
        s.wr (R.VAULT_STATUS_THROTTLED v) 0)) ∧
    (∀ ns, 100 ≤ ns → w.shedding = true → exec (.pwrWarn ns t) s = .next (w.sagSource 0)) ∧
    (∀ n uv ns, n < 6 → 1000 ≤ ns → w.shedding = true → (n = 0 → uv + 25_000 < w.setpoint * 1000) →
      (n ≠ 0 → uv * 100 < railNominal n * 1000 * 95) → exec (.railSag n uv ns cyc t) s =
        .next (if n = 0 ∧ uv < 630_000 then (w.sagSource (n + 1)).enterShed 9 cyc else w.sagSource (n + 1))) ∧
    (∀ n u, u = ({ w with pow := { w.pow with sources := member w.pow.sources n false } } : State) →
      (member w.pow.sources n false ≠ [] → exec (.sagCleared n t) s = .next u) ∧
      (member w.pow.sources n false = [] → w.pow.sagFrom ≠ none → exec (.sagCleared n t) s = .next (({ u with pow := { u.pow with
        sagTime := w.sagTime, sagFrom := none, clearFrom := w.now } } : State).wr R.POWER_STATUS_SAG 0))) ∧
    (∀ n, n = w.rd R.POWER_STATUS_SHED_STEP → w.shedding = true → w.pow.sagFrom ≠ none → n < 9 → (n = 8 → w.pow.level ≤ 1) →
      entryTime (n + 1) ≤ w.sagTime → exec (.shedStepEntry cyc t) s = .next (w.enterShed (n + 1) cyc)) ∧
    (exec (.recoveryStep t) s = .next w.recover) ∧
    (exec (.thermtrip t) s = .next (if w.dev.thermtrip = true then w else
      ({ w with dev := { w.dev with thermtrip := true } } : State).emit .pin [0, 0])) ∧
    (w.pow.avsTries = 0 → exec (.avsTimeout t) s = .next { w with pow := { w.pow with avsTries := 1 } }) ∧
    (w.pow.avsTries ≠ 0 → exec (.avsTimeout t) s = .next ((({ w with pow := { w.pow with avsTries := 0 } } : State).wr
      R.POWER_VDD_CORE_SET_MV 750).log 0 1 (Config.traceOf 1) []))

/-- The assay and the flash: a sample goes to its checker and is compared, an old one is dropped, records age by the hour and are
read back, sites with three strikes retire; a flash write that passes its checks starts, and ends done or failed; power lost
leaves the block unpowered. -/
def Obligations.AssayAndFlashComplete : Prop :=
  ∀ (s w : State) (cyc t : Nat), w = s.atTime t →
    (∀ x k, w.assay.samples.find? (fun x => x.checker == 0) = some x → w.inRun = true → w.rd R.POWER_STATUS_SHED_STEP < 3 →
      w.checkerFor x.site [] = some k → exec (.assayCheck t) s =
        .next ((w.setSamples (w.assay.samples.map fun y => if y == x then { x with checker := k + 1 } else y)).wr
          (R.SCHED_TILE_STATE k) 2)) ∧
    (∀ x rows third u, w.assay.samples.find? (fun x => x.checker != 0) = some x → u = w.setSamples (w.assay.samples.erase x) →
      exec (.assayCheckDone rows third cyc t) s = .next ((if rows = x.rows then u.sat R.ASSAY_CHECKED_COUNT 1 else
        u.thirdRun x rows third cyc).freeChecker cyc (x.checker - 1))) ∧
    (∀ x, w.assay.samples.find? (fun x => x.checker == 0) = some x → x.at_ns + 10_000_000 ≤ w.now →
      exec (.assaySampleTimeout t) s = .next ((w.setSamples (w.assay.samples.erase x)).sat R.ASSAY_DROPPED_COUNT 1)) ∧
    (w.inRun = true → exec (.strikeLogHour t) s = .next ((({ w with flash := { w.flash with
      strikes := w.flash.strikes.map fun r => { r with life := r.life - 1 },
      sensorHours := (List.range 16).foldl (fun m n =>
        let bad := if n < 8 then tblGet 0 w.pow.badTj n else tblGet 0 w.mm.badSensor (n - 8)
        if 3 ≤ bad then tblSet 0 m n (tblGet 0 m n + 1) else m) w.flash.sensorHours } } : State).showStrikes).checkHealth)) ∧
    (∀ i, exec (.assayLogSel i t) s = .next ((w.wr R.ASSAY_LOG_SEL_INDEX i).each (List.range 8) fun t j =>
      t.wr (R.ASSAY_LOG_DATA_DATA j) (bankNum (((w.flash.strikes[i % 256]?).map StrikeRec.bytes).getD []) (4 * j) 4))) ∧
    (∀ l u v beams, l = w.assay.toRetire.filter w.retireReady → l ≠ [] →
      u = (w.supplyMark.each l State.retireSite).showUnits →
      v = ((((u.extendMr 6 3 u.mapDigest).adopt.keepDrivers).showClaimed).showChecker) →
      ∃ x y z : State,
        x = (v.each (beams.filter fun k => decide (k < 256) && v.rd (R.AIR_CARRIER_STATE k) == 2) fun s k => s.wr (R.AIR_CARRIER_STATE k) 4) ∧
        y = (x.each l fun s k => s.each s.sched.jobs fun s j => s.replanJob k j) ∧
        z = ((y.wr R.ASSAY_RETIRED_COUNT y.flash.retired.length).flag R.ASSAY_EVENT_RETIRED) ∧
        exec (.tileRetire beams t) s = .next ((z.each allSlices fun s x =>
          if s.rd (R.SLICE_STATE_STATE x) = 0 then s else s.showTiles x).checkHealth).decision) ∧
    (∀ len n u, w.dev.writing = none → n = len % 2 ^ 24 * 65536 → u = w.wr R.DEV_FLASH_CTRL_LEN_64K len →
      (u.inRun && u.agateUp) = true → w.rd R.DEV_FLASH_OFFSET_OFFSET % 65536 = 0 →
      inCopyRegion (w.rd R.DEV_FLASH_OFFSET_OFFSET) n = true → w.rd R.DEV_FLASH_SRC_VADDR % 64 = 0 →
      exec (.flashWrite len true t) s = .next (({ u with dev := { u.dev with
        writing := some (w.rd R.DEV_FLASH_SRC_VADDR, w.rd R.DEV_FLASH_OFFSET_OFFSET, n) } } : State).wrs
          [(R.DEV_FLASH_RESULT_CODE, 0), (R.DEV_FLASH_RESULT_DONE, 0)])) ∧
    (∀ src off n u, w.dev.writing = some (src, off, n) → u = ({ w with dev := { w.dev with writing := none } } : State) →
      exec (.flashWriteDone true t) s = .next ((u.copyToFlash src off n).flashResult 0) ∧
      exec (.flashWriteDone false t) s = .next ((u.scramble (flashKey off) n).flashResult 4)) ∧
    (exec (.powerLoss t) s = .next { w.bare with dev := { w.bare.dev with powered := false } })

/-! The device as a whole, and single rules -/

/-- A command whose operands are in range and whose unit is enabled on this part is carried out; any other one faults with
`noSuchUnit`; no command is ever refused. -/
def Obligations.AcceptedCommandsComplete : Prop :=
  ∀ (s : State) (c : Instr), (s.accepts c = true → ∃ t : State, exec c s = .next t) ∧
    (s.accepts c = false → exec c s = .fault .noSuchUnit)

/-- Every step keeps memory, register file and accumulator files in canonical form, so that equal contents stay equal data. -/
def Obligations.StepKeepsCanonicalForm : Prop :=
  ∀ s t : State, s.canonical → step s = .next t → t.canonical

/-- The reset state lists nothing: no command waits, its memories are in canonical form, every byte reads as `unwritten`, every
register at its Reset column, and the device is in ROM. -/
def Obligations.ResetStateIsClean : Prop :=
  State.reset.canonical ∧ State.reset.pending = [] ∧ (∀ k, State.reset.byte k = unwritten) ∧
    (∀ a, regWord State.reset.regs a = regReset a) ∧ State.reset.rd R.DEV_STATUS_PHASE = 1

/-- Through every step time and the count of free values drawn do not run back, and the queue loses its front command only. -/
def Obligations.StepMovesForward : Prop :=
  ∀ s t : State, step s = .next t → s.now ≤ t.now ∧ s.freeCtr ≤ t.freeCtr ∧ t.pending = s.pending.tail

/-- A slice's endpoints reach its own window only (R555): at every other address a write has no effect but the count of R72, and
a read, which also lets a stop that is due show, answers zero and is counted. The owner reaches no BAR0 address, the host no
other. -/
def Obligations.EndpointsReachTheirWindowsOnly : Prop :=
  ∀ (s : State) (who : Sender) (a width v t : Nat),
    (∃ x, who = .slice x ∧ (a < 0x1000_0000 + 0x10_0000 * x ∨ 0x1000_0000 + 0x10_0000 * (x + 1) ≤ a)) ∨
      (who = .owner ∨ who = .firmware) ∧ 0x1_0000_0000 ≤ a ∨ who = .host ∧ a < 0x1_0000_0000 →
    exec (.registerWrite who a width v t) s = .next (s.atTime t).windowErr ∧
    exec (.rcRead who a width t) s = .next ((s.atTime t).settleStop.passStop.windowErr.emit .read [a, 0])

/-- R521: a HELLO with a fenced epoch changes nothing and is answered with a FENCE message; one with any other epoch makes its
peer UP with that epoch, before its windows and its fence list are taken. -/
def Obligations.FencedPeerReturnsWithNewEpoch : Prop :=
  ∀ (s u : State) (l dev epoch cyc t : Nat) (windows pairs : List (Nat × Nat)), l < 6 → dev < 256 → epoch < 2 ^ 16 →
    u = ((s.atTime t).freeBuf l 3).setFab { ((s.atTime t).freeBuf l 3).fab with heard := ((s.atTime t).freeBuf l 3).now } →
    (epoch ∈ (u.peer dev).retired →
      exec (.helloRx l dev epoch windows pairs cyc t) s = .next (u.manage l 0x0C u.ownPod dev 0 dev epoch [])) ∧
    (epoch ∉ (u.peer dev).retired → ∃ v : State, v.rd (R.FAB_PEER_STATE dev) = 1 ∧ v.rd (R.FAB_PEER_EPOCH dev) = epoch ∧
      exec (.helloRx l dev epoch windows pairs cyc t) s =
        .next (v.each (pairs.take 16) fun w p => w.fenceNamed dev p.1 p.2 cyc))

/-- R77: MESH_PLANE_VIOL lies at offset 0x008 of its MESH instance, is 0 at reset, counts the packets that a stop drops,
saturates, keeps its value through a write and is cleared by the read that returns it. -/
def Obligations.PlaneViolationsAreCounted : Prop :=
  ∀ (s : State) (plane stop t : Nat), plane < 3 → stop < 160 →
    R.MESH_PLANE_VIOL_COUNT plane stop = ⟨0x140_0000 + 0x4_0000 * plane + 0x400 * stop + 0x008, 0, 32⟩ ∧
    State.reset.rd (R.MESH_PLANE_VIOL_COUNT plane stop) = 0 ∧
    (s.rd (R.MESH_STOP_CTRL_ENABLED plane stop) = 0 → ∃ u : State, exec (.planeViolationDrop plane stop t) s = .next u ∧
      u.rd (R.MESH_PLANE_VIOL_COUNT plane stop) = min (s.rd (R.MESH_PLANE_VIOL_COUNT plane stop) + 1) 0xFFFF_FFFF) ∧
    (∃ u w : State, w = (s.atTime t).settleStop.passStop ∧
      exec (.rcRead .owner (R.MESH_PLANE_VIOL_COUNT plane stop).addr 32 t) s = .next u ∧
      u.rd (R.MESH_PLANE_VIOL_COUNT plane stop) = 0 ∧
      u.out = w.out ++ [⟨.read, [(R.MESH_PLANE_VIOL_COUNT plane stop).addr, w.rd (R.MESH_PLANE_VIOL_COUNT plane stop)], []⟩]) ∧
    (∀ v, ∃ u : State, exec (.registerWrite .owner (R.MESH_PLANE_VIOL_COUNT plane stop).addr 32 v t) s = .next u ∧
      u.rd (R.MESH_PLANE_VIOL_COUNT plane stop) = s.rd (R.MESH_PLANE_VIOL_COUNT plane stop))

/-- R166: a wait is reached when (value - target) mod 2^32 is below 2^31, so a target up to 2^31 behind the value is reached and
one up to 2^31 - 1 above it is not. -/
def Obligations.WaitsCompareModulo : Prop :=
  ∀ value target : Nat, value < 2 ^ 32 → target < 2 ^ 32 →
    (countReached value target = true ↔ (value + 2 ^ 32 - target) % 2 ^ 32 < 2 ^ 31) ∧
    (∀ d, d < 2 ^ 31 → target = (value + 2 ^ 32 - d) % 2 ^ 32 → countReached value target = true) ∧
    (∀ d, 0 < d → d < 2 ^ 31 → target = (value + d) % 2 ^ 32 → countReached value target = false)

/-- R357: every cold or warm reset that takes effect empties the table rings, sets every carrier to OFF and every radio unit to
ABSENT and closes every FAPI endpoint. -/
def Obligations.ResetsClearTheRadio : Prop :=
  ∀ (s u : State) (cause lowNs straps mV ns word t : Nat) (trip : Bool), s.canonical → s.runs = true →
    (1 ≤ cause ∧ cause ≤ 4 ∧ 10_000 ≤ lowNs ∧ exec (.coldReset cause lowNs straps trip t) s = .next u ∨
      mV < 600 ∧ 1000 ≤ ns ∧ exec (.brownOut mV ns straps trip t) s = .next u ∨
      word % 4 = 2 ∧ word / 256 % 256 = 0xA5 ∧ exec (.devResetCold word straps trip t) s = .next u ∨
      0x11 ≤ cause ∧ cause ≤ 0x13 ∧ 10_000 ≤ lowNs ∧ exec (.warmReset cause lowNs trip t) s = .next u ∨
      word % 4 = 1 ∧ word / 256 % 256 = 0xA5 ∧ exec (.devResetWarm word trip t) s = .next u) →
    (∀ c, (u.cluster c).tables = []) ∧ (∀ k, k < 256 → u.rd (R.AIR_CARRIER_STATE k) = 0) ∧
      (∀ r, r < 64 → u.rd (R.AIR_RU_STATE_STATE r) = 0) ∧ (∀ k, k < 256 → u.endpointUp k = false)

/-- R605: each extend of a measurement register appends its 80-byte record to the event log of 512 records; when the log is full
the extend still acts, the record is lost and EVLOG_OVERFLOW reads 1. -/
def Obligations.ExtendsAreLogged : Prop :=
  ∀ (s u : State) (f : Nat → Fld) (reg src : Nat) (d : BitVec 512),
    ((∃ n, n < 16 ∧ f = R.SEC_MR_VALUE n ∧ reg = n ∧ u = s.extendMr n src d) ∨
      (∃ x k, x < 64 ∧ k < 2 ∧ f = (if k = 0 then R.SLICE_MR_S0_VALUE x else R.SLICE_MR_S1_VALUE x) ∧ reg = 0x40 + 2 * x + k ∧
        u = s.extendSlice x k src d)) →
    u.digestAt f = Config.sha3 (digestBytes (s.digestAt f) ++ digestBytes d) ∧
    (s.sec.log.length < 512 → ∃ (r : EvRec) (kind : BitVec 8), u.sec.log = s.sec.log ++ [r] ∧
      r.bytes = BitVec.ofNat 8 reg :: kind :: List.replicate 6 0 ++ toBytes 8 s.devTime ++ digestBytes d ∧ r.bytes.length = 80) ∧
    (512 ≤ s.sec.log.length → u.sec.log = s.sec.log ∧ u.rd R.SEC_STATUS_EVLOG_OVERFLOW = 1)

/-- The commands of time, ports and frames store nothing and touch no tile, vault or slice. -/
def Obligations.NetworkCommandsTouchNoMemory : Prop :=
  ∀ (s u : State) (a b c d t n : Nat) (z : Int) (p : Bool) (f : EthFrame) (latest : Option Nat),
    (exec (.ptpSyncRx a b c t) s = .next u ∨ exec (.ptpDelayResult a b z t) s = .next u ∨
      exec (.ptpAnnounceRx a b c d n a p t) s = .next u ∨ exec (.ppsEdge a t) s = .next u ∨ exec (.esmcRx a b t) s = .next u ∨
      exec (.timeCapture t) s = .next u ∨ exec (.slewGapClosed t) s = .next u ∨ exec (.ptpTransmit t) s = .next u ∨
      exec (.ethRxFrame a f t) s = .next u ∨ exec (.txFrameEnqueue a b c latest latest t) s = .next u ∨
      exec (.shaperTick a t) s = .next u ∨ exec (.policerTick a t) s = .next u ∨ exec (.gateEvent a t) s = .next u ∨
      exec (.portLinkUp a b t) s = .next u ∨ exec (.portLinkLoss a t) s = .next u) →
    (∀ k, u.byte k = s.byte k) ∧ u.acc = s.acc ∧ u.tiles = s.tiles ∧ u.vaults = s.vaults ∧ u.slices = s.slices

/-! Forms whose check the rules spell out -/

/-- The image and control commands complete where every check of their rule passes, the checks spelled out: BUILD_DONE with a
good image in the primary copy begins RUN from it (R53, R54, R597); a GO at a section image that passes the checks of R656
enters CHECKING; a JOB switch of staged sections that no present state stands against switches (R61, R62); a commit that
passes R65's checks acts or waits; CREATE opens a slice (R544, R560); a write of an owner register is stored, and an access
outside a slice's window is counted (R72, R555). -/
def Obligations.ControlFormsCompleteByTheRules : Prop :=
  ∀ (s w : State) (t : Nat),
    (∀ (f : StrataFile) (sig2 : Bool) (slabs : List (Nat × Nat)) (k : Nat), w = (s.atTime t).nextEpoch → s.runs = true →
      s.rd R.DEV_STATUS_PHASE = 3 → s.agateUp = true → s.dev.stop = .none → w.rd R.SEC_STATUS_OWNED ≠ 0 →
      w.rd R.DEV_STRAP_STRAPS / 2 % 2 = 0 → f = w.flashStrata false → headerOk f = true → f.kind = 0 → f.baseDigest = 0 →
      (∀ x, x ∈ f.sections → x.digest = x.found) → k < 4 → w.keyMay k 0 = true → (w.ownerSlot k).id = f.keyId →
      w.counter 6 ≤ f.rollback → sectionsWhole f.sections = true → f.gradeMask / 2 ^ w.dev.map.grade % 2 = 1 →
      domainOk f.sections = true → pinOk f.sections ((w.putRoles f.sections).withSections f.sections).swingSet = true →
      (∀ x, x ∈ f.sections → bootListed x = true ∧
        ((w.putRoles f.sections).sectionCode ((w.putRoles f.sections).withSections f.sections) x true).1 = 0) →
      exec (.buildDone true sig2 slabs true true true true t) s = .next (((w.loadImage f false).initVaults slabs).bringUp.enterRun)) ∧
    (∀ (f : StrataFile) (k : Nat), w = s.atTime t → f = s.ownerFile (s.rd R.STRATA_RELOAD_ADDR_ADDR) → s.rd R.DEV_STATUS_PHASE = 4 →
      s.rd R.STRATA_STATUS_RELOAD = 0 → s.agateUp = true → s.rd R.STRATA_RELOAD_ADDR_ADDR % 64 = 0 →
      s.rd R.STRATA_RELOAD_ADDR_ADDR + f.totalLen ≤ 2 ^ 57 → headerOk f = true → f.kind = 1 →
      (∀ x, x ∈ f.sections → entryListed x = true) → k < 4 → w.keyMay k 0 = true → (w.ownerSlot k).id = f.keyId →
      (∀ x, x ∈ f.sections → x.digest = x.found) → w.counter 6 ≤ f.rollback → f.baseDigest = w.digestAt R.STRATA_DIGEST_DIGEST →
      (∀ x, x ∈ f.sections → x.kind = 3 → x.base = digestBytes (Config.sha3 (w.activeBank (1 + x.plane)))) →
      (∀ x, x ∈ f.sections → x.kind ≠ 1 ∧ x.kind ≠ 5) → (∀ x, x ∈ f.sections → x.kind = 4 → w.groupDown x.portGroup = true) →
      (∀ x y, x ∈ f.sections → y ∈ f.sections → sectionBoundary x = sectionBoundary y) → doubledAt f.sections = none →
      (∀ x, x ∈ f.sections → (w.sectionCode (w.withSections f.sections) x false).1 = 0) →
      (∀ x id, x ∈ f.sections → sectionTable x = some id → (w.table id).oldFly = 0) →
      ∃ u, exec (.strataReloadGo true false t) s = .next u ∧ u.rd R.STRATA_STATUS_RELOAD = 1 ∧
        u.rd R.STRATA_RELOAD_RESULT_REASON = 0 ∧ u.strata.file = some f ∧ u.mem = s.mem) ∧
    (∀ sfn slot, w = (s.atTime t).switchFields 0 sfn slot → w.rd R.DEV_STATUS_PHASE = 4 → w.rd R.STRATA_STATUS_RELOAD = 2 →
      (∀ x, x ∈ w.strata.staged → sectionBoundary x = 0 ∧ x.kind ≠ 4 ∧ sectionTable x ∉ [some 5, some 7, some 8]) →
      (∀ x id, x ∈ w.strata.staged → sectionTable x = some id → (w.table id).oldFly = 0) →
      exec (.strataSwitchRequest 0 sfn slot t) s = .next (w.reloadResult 0 0 0).switchNow) ∧
    (∀ (c : Commit) (v : State), w = s.atTime t → s.checkOf 0 = some c → c.slice = none → s.rd R.DEV_STATUS_PHASE = 4 →
      (groupAt 0 c.btype c.inst c.group).isSome = true → w.ownSliceOpen c = true → w.instOn c.btype c.inst = true →
      (∀ e, e ∈ c.snap → wordListed e.1 e.2 = true) → (w.applySnap c.snap).alsoListed c.btype c.inst c.group = true →
      (w.applySnap c.snap).ownershipOk c.btype c.group = true →
      w.agree (w.applySnap c.snap) c.btype c.inst c.group w.sliceOpen = 0 →
      (c.btype = 0x31 → 128 ≤ c.group →
        (w.applySnap c.snap).lendCount (c.group - 128) - w.lendCount (c.group - 128) ≤ w.poolFree) →
      v = ((({ w with strata := { w.strata with checking := w.strata.checking.filter fun d => d.slice != none } }).wr
        R.CG_STATUS_CHECKING 0).cgReport 0 0 0 c.ticket).supersede 0 c →
      exec (.cgCheckDone 0 t) s = .next ((if v.actsLater c then v.waitCommit c else v.actCommit c).showPending none)) ∧
    (∀ x k, x < 64 → k < 16 → s.rd R.DEV_STATUS_PHASE = 4 → s.rd (R.SLICE_STATE_STATE x) = 0 → s.template k 0xA 2 % 2 = 1 →
      s.template k 0 2 ≤ s.template k 2 2 → s.template k 2 2 ≤ s.rd R.MEM_POOL_TOTAL_SLABS →
      ((allSlices.filter (· != x)).map fun y => s.rd (R.MEM_QUOTA_FLOOR y)).sum + s.template k 0 2 ≤
        s.rd R.MEM_POOL_TOTAL_SLABS - s.rd R.MEM_POOL_LENT_SLABS →
      (s.template k 6 2 = 0 ∨ shareFits (s.shares x) 0 (s.template k 6 2) = true ∨
        ∃ e, e ∈ s.shares x ∧ shareFits (s.shares x) (e.1 + e.2) (s.template k 6 2) = true) →
      exec (.sliceCreate x k t) s = .next (((s.atTime t).createSlice x k).sliceResult x 0)) ∧
    (∀ v, ∃ u, exec (.registerWrite .owner R.STRATA_RELOAD_ADDR_ADDR.addr 64 v t) s = .next u ∧
      u.rd R.STRATA_RELOAD_ADDR_ADDR = v % 2 ^ 64 ∧ (∀ g : Fld, g.addr ≠ R.STRATA_RELOAD_ADDR_ADDR.addr → u.rd g = s.rd g) ∧
      u.mem = s.mem) ∧
    (∀ x a width, a < 0x1000_0000 + 0x10_0000 * x →
      exec (.windowAccessError (.slice x) a width true t) s = .next (s.atTime t).windowErr ∧
      exec (.windowAccessError (.slice x) a width false t) s = .next ((s.atTime t).emit .read [a, 0]).windowErr)

/-- Requests complete where every check of their rule passes, the checks spelled out: memory requests (R271, R272, R287, R288),
enrolment records (R607, R608), a quote for the owner (R609), fabric operations (R497, R505, R506), requests at their home
(R482), and transforms of either direction (the cluster's FFT engine). -/
def Obligations.RequestFormsCompleteByTheRules : Prop :=
  ∀ (s w : State) (t : Nat),
    (∀ (x n ticket hint op : Nat) (f : ReqFields) (o : ObjRec), x < 64 → n < 16 → s.sliceOpen x = true →
      s.rd (R.MEM_REQ_CTRL_GO x n) = 0 → s.mm.reqs = [] →
      w = (s.atTime t).wrs [(R.MEM_REQ_CTRL_OP x n, op), (R.MEM_REQ_CTRL_TICKET x n, ticket), (R.MEM_REQ_CTRL_HINT x n, hint),
        (R.MEM_REQ_CTRL_GO x n, 1)] → w.jasperDown = false → w.rd R.DEV_STATUS_PHASE = 4 →
      (∀ y, y < 64 → w.used y ≤ w.rd (R.MEM_QUOTA_CEIL y)) → f = w.reqFields x n → o = w.object x (f.handle % 4096) →
      (op = 1 → f.hint ≠ 5 → f.first = 0 → 1 ≤ f.count → f.count ≤ 65536 → w.rangeFree x f = true →
        w.used x + f.count ≤ w.rd (R.MEM_QUOTA_CEIL x) → w.hintOk f.hint f.target = true → w.shortBy x f.count = 0 →
        (∃ i, i < 4096 ∧ (w.object x i).live = false) → exec (.memAlloc x n ticket hint t) s = .next ((w.grant x n).serveReqs 1)) ∧
      (o.live = true → f.handle = handleOf x (f.handle % 4096) o.serial → f.vaddr = 0 →
        (op = 2 → f.hint = 0 → f.first = 0 → f.count = 0 → f.target = 0 → exec (.memFree x n ticket hint t) s =
          .next (((w.freeObject x (f.handle % 4096)).endReq x n 0 0).serveReqs 1)) ∧
        (op = 3 → f.first = 0 → f.count = 0 → w.hintOk f.hint f.target = true → exec (.memHint x n ticket hint t) s =
          .next (((w.setObject x (f.handle % 4096) { o with hint := f.hint, target := f.target }).endReq x n 0 0).serveReqs 1)) ∧
        (op = 4 → 1 ≤ f.count → f.first + f.count ≤ o.count → w.hintOk f.hint f.target = true →
          (∀ k, k ∈ w.migrateSlabs x f → (w.home x k).state ≠ .transit ∧ (w.home x k).state ≠ .lost) →
          exec (.memMigrate x n ticket hint t) s = .next ((w.migrate x n).serveReqs 1)))) ∧
    (∀ (r : EnrolRec) (took : Nat) (u : State), w = s.atTime t → w.agateUp = true → w.inRun = true → w.sec.checkUntil ≤ w.now →
      u = ({ w with sec := { w.sec with checkUntil := w.now + min took 5_000_000 } } : State) → r.mapped = true →
      r.fieldsOk = true → r.deviceOk = true → r.sigOk = true → r.seq = u.counter 7 + 1 →
      ((∀ k, k < 4 → (u.ownerSlot k).valid = false) → r.slot < 4 → r.usage < 8 → 4 ≤ r.usage → r.vendor = true →
        exec (.enrolClaim r took t) s = .next ((u.enrol 1 r).enrolResult 0)) ∧
      (r.signer < 4 → u.keyMay r.signer 2 = true →
        (r.slot < 4 → r.usage < 8 → (u.ownerSlot r.slot).valid = false →
          exec (.enrolAdd r took t) s = .next ((u.enrol 2 r).enrolResult 0)) ∧
        (r.slot < 4 → r.usage = 0 → u.otherKey r.slot 2 = true → u.otherKey r.slot 0 = true → r.slot ≠ u.sec.imageSlot →
          exec (.enrolRevoke r took t) s = .next ((u.enrol 3 r).enrolResult 0)) ∧
        (r.slot = 0 → r.usage = 0 → exec (.enrolRelease r took t) s = .next ((u.enrol 4 r).enrolResult 0)))) ∧
    (∀ (r : SecReq) (na oa len : Nat) (l : List (BitVec 8)), w = s.atTime t → w.agateUp = true → w.sec.nextReq = some r → r.who = 0 →
      w.rd (R.REQ_CTRL_OP r.slot) = 1 → w.rd (R.REQ_MASK_MASK r.slot) < 2 ^ 16 → na = w.rd (R.REQ_NONCE_ADDR_VADDR r.slot) →
      oa = w.rd (R.REQ_OUT_ADDR_VADDR r.slot) → len = w.rd (R.REQ_OUT_LEN_LEN r.slot) → na % 64 = 0 → oa % 64 = 0 → 1 ≤ len →
      len ≤ 65536 → l = w.evidence 0 1 (w.rd (R.REQ_MASK_MASK r.slot)) (w.bytes (ownerKey na) 64) → l.length ≤ len →
      exec (.quoteService true t) s = .next (({ (w.reqServed r).setBytes (ownerKey oa) l with freeCtr := w.freeCtr + 1 }).reqEnd
        0 r.slot 0 l.length)) ∧
    (∀ (q h : Nat) (d : List (BitVec 8)) (c : Instr) (v : State), q < 32 → w = s.atTime t → w.opqHead q = some (h, d) →
      (w.rd R.DEV_STATUS_PHASE = 4 ∨ w.rd R.DEV_STATUS_PHASE = 5) →
      (c, dOp d) ∈ [(Instr.fabLoad q t, 1), (Instr.fabStore q t, 2), (Instr.fabStoreWord q t, 3), (Instr.fabGet q t, 4),
        (Instr.fabPut q t, 5), (Instr.fabFetchAdd q t, 6), (Instr.fabSwap q t, 7), (Instr.fabCswap q t, 8), (Instr.fabMin q t, 9),
        (Instr.fabMax q t, 10), (Instr.fabInv q t, 11), (Instr.fabInvPod q t, 12), (Instr.fabInvLocal q t, 13), (Instr.fabMsg q t, 14),
        (Instr.fabFenceOp q t, 15)] →
      v = w.bump (R.FAB_OPQ_HEAD_HEAD q) 1 → descBreaks d = false →
      (dOp d ∈ [1, 2, 4, 5, 14] → w.opqMapped q (dLocal d) (dLen d) = true) → (dOp d ∉ [13, 15] → w.selfFenced = false) →
      (dOp d ∉ [12, 13, 15] → (dOp d = 14 ∨ dPod d = w.ownPod) ∧ (dPod d = w.ownPod → w.peerUp (dDev d) = true) ∧
        w.usable (dPod d) (dDev d) ≠ []) → w.issueWaits q d = false →
      exec c s = .next ((v.setFab { v.fab with nextOp := v.fab.nextOp + 1 }).startOp
        ⟨v.fab.nextOp, q, h, if v.opqOwner q then 0 else v.gen (v.opqSlice q), d, 0, 0, 0, 0⟩)) ∧
    (∀ (h : FabHdr) (kind len : Nat), h.link < 6 → w = (s.atTime t).freeBuf h.link (if kind = 7 then 2 else 0) → h.window < 192 →
      (h.pod = w.ownPod → h.epoch ∉ (w.peer h.dev).retired) → h.pkey = w.rd (R.FAB_WIN_CTRL_PKEY h.window) →
      (w.rd (R.FAB_WIN_CTRL_KIND h.window) = 3 ∧ w.rd (R.FAB_WIN_CTRL_SCOPE_FABRIC h.window) = 1 ∨
        h.pod = w.ownPod ∧ (w.rd (R.FAB_WIN_CTRL_SRC_ANY h.window) = 1 ∨ w.rd (R.FAB_WIN_CTRL_SRC_DEV h.window) = h.dev)) →
      kindOk kind (w.rd (R.FAB_WIN_CTRL_KIND h.window)) = true → (kind ≠ 7 → h.offset + len ≤ w.winSize h.window) →
      w.homeCode h kind len = 0 ∧
      (∀ (data : List (BitVec 8)) (masks : List Nat), kind = 2 → len = 64 * masks.length → 1 ≤ masks.length → masks.length ≤ 3 →
        h.offset % 64 = 0 → data.length = 64 * masks.length → exec (.homeStore h data masks t) s = .next (w.enterLines h 2 data masks)) ∧
      (∀ msg : List (BitVec 8), kind = 7 → len = msg.length → 1 ≤ msg.length → msg.length ≤ 222 →
        exec (.homeMsg h msg t) s = .next ((w.writeSlot h.window h.pod h.dev h.epoch h.pkey msg).respond h 7 0 0 []))) ∧
    (∀ (c corr n count i o e si so : Nat) (inv : Bool) (form : Instr) (r : StreamRun) (d : Desc) (v : State), w = s.airTime t →
      v = w.sat (R.RADIO_SRAM_ECC_CORR_COUNT c) corr → (inv, form) ∈ [(false, Instr.fftForward c corr 0 t), (true, .fftInverse c corr 0 t)] →
      w.engineAt c 10 (if inv then 2 else 1) r d → n = d.fld 0x20 0 12 + 1 → count = d.fld 0x20 12 16 + 1 → i = r.place d 0x10 →
      o = r.place d 0x14 → e = r.place d 0x18 → si = 64 * d.fld 0x24 0 16 → so = 64 * d.fld 0x24 16 16 → fftSize n = true →
      d.fld 0x20 28 4 = 0 → (i = o ∨ o + (so * (count - 1) + 4 * n) ≤ i ∨ i + (si * (count - 1) + 4 * n) ≤ o) →
      i + (si * (count - 1) + 4 * n) ≤ clusterBytes → o + (so * (count - 1) + 4 * n) ≤ clusterBytes → e + count ≤ clusterBytes →
      i % 64 = 0 → o % 64 = 0 →
      exec form s = .next ((v.each (List.range count) fun t k =>
        (t.setNum (clusterKey c (o + so * k)) (4 * n) (Config.fft inv n (t.bytes (clusterKey c (i + si * k)) (4 * n))).1).setNum
          (clusterKey c (e + k)) 1 (Config.fft inv n (t.bytes (clusterKey c (i + si * k)) (4 * n))).2).engineNext c 10 d r
            (Span.mk e count :: (List.range count).map fun k => Span.mk (o + so * k) (4 * n))))
end

