-- ==== Sys2Proof/Laws/Tbl.lean ====
section
/-! SUPPORT. Laws of sparse tables: reading after writing, and that every operation keeps the canonical form. -/

namespace Sys2Proof.Machine

variable {α : Type}

/-! Reading -/

/-- An erased key is not listed. -/
@[simp] theorem tblFind_erase_same (m : Tbl α) (k : Nat) : tblFind (tblErase m k) k = none := by
  induction m with
  | nil => rfl
  | cons e m ih =>
    obtain ⟨a, v⟩ := e
    by_cases h : a = k
    · simpa [tblErase, h] using ih
    · simpa [tblErase, tblFind, h] using ih

/-- Erasing one key leaves what is listed for another. -/
@[simp] theorem tblFind_erase_ne (m : Tbl α) {k j : Nat} (h : j ≠ k) : tblFind (tblErase m k) j = tblFind m j := by
  induction m with
  | nil => rfl
  | cons e m ih =>
    obtain ⟨a, v⟩ := e
    by_cases ha : a = k
    · subst ha; simp [tblErase, tblFind, ih, h.symm]
    · by_cases hj : a = j
      · subst hj; simp [tblErase, tblFind, ha]
      · simp [tblErase, tblFind, ha, hj, ih]

/-- An inserted key that was not listed before is found. -/
theorem tblFind_insert_same (m : Tbl α) (k : Nat) (v : α) (h : tblFind m k = none) :
    tblFind (tblInsert k v m) k = some v := by
  induction m with
  | nil => simp [tblInsert, tblFind]
  | cons e m ih =>
    obtain ⟨a, w⟩ := e
    have ha : a ≠ k := by rintro rfl; simp [tblFind] at h
    have hm : tblFind m k = none := by simpa [tblFind, ha] using h
    by_cases hk : k < a
    · simp [tblInsert, hk, tblFind]
    · simp [tblInsert, hk, tblFind, ha, ih hm]

/-- Inserting one key leaves what is listed for another. -/
theorem tblFind_insert_ne (m : Tbl α) {k j : Nat} (v : α) (h : j ≠ k) : tblFind (tblInsert k v m) j = tblFind m j := by
  induction m with
  | nil => simp [tblInsert, tblFind, h.symm]
  | cons e m ih =>
    obtain ⟨a, w⟩ := e
    by_cases hk : k < a
    · simp [tblInsert, hk, tblFind, h.symm]
    · by_cases hj : a = j
      · subst hj; simp [tblInsert, hk, tblFind]
      · simp [tblInsert, hk, tblFind, hj, ih]

/-- A key outside a cleared range reads as before; one inside reads as unlisted. -/
theorem tblFind_clear (m : Tbl α) (lo hi k : Nat) :
    tblFind (tblClear m lo hi) k = if lo ≤ k ∧ k < hi then none else tblFind m k := by
  induction m with
  | nil => simp [tblClear, tblFind]
  | cons e m ih =>
    obtain ⟨a, v⟩ := e
    unfold tblClear at ih ⊢
    by_cases ha : lo ≤ a ∧ a < hi
    · rw [List.filter_cons_of_neg (by simp [ha]), ih]
      by_cases hk : a = k
      · subst hk; simp [ha]
      · simp [tblFind, hk]
    · rw [List.filter_cons_of_pos (by simp only [Bool.not_eq_eq_eq_not, Bool.not_true, Bool.and_eq_false_iff, decide_eq_false_iff_not]; omega)]
      by_cases hk : a = k
      · subst hk; simp [tblFind, ha]
      · simpa [tblFind, hk] using ih

/-- Erasing is filtering. -/
theorem tblErase_eq_filter (m : Tbl α) (k : Nat) : tblErase m k = m.filter fun e => e.1 != k := by
  induction m with
  | nil => rfl
  | cons e m ih =>
    obtain ⟨a, v⟩ := e
    by_cases h : a = k <;> simp [tblErase, h, ih]

variable [DecidableEq α]

/-- A key reads as the value last written to it. -/
@[simp] theorem tblGet_set_same (d : α) (m : Tbl α) (k : Nat) (v : α) : tblGet d (tblSet d m k v) k = v := by
  by_cases h : v = d
  · simp [tblSet, tblGet, h]
  · simp [tblSet, tblGet, h, tblFind_insert_same _ _ _ (tblFind_erase_same m k)]

/-- A write to one key leaves what every other key reads as. -/
@[simp] theorem tblGet_set_ne (d e : α) (m : Tbl α) {k j : Nat} (v : α) (h : j ≠ k) :
    tblGet e (tblSet d m k v) j = tblGet e m j := by
  by_cases hv : v = d <;> simp [tblSet, tblGet, hv, tblFind_insert_ne _ _ h, tblFind_erase_ne _ h]

/-! The canonical form -/

/-- A table whose keys start later starts early enough. -/
theorem tblWfFrom_mono (d : Nat → α) (m : Tbl α) {lo lo' : Nat} (hl : lo ≤ lo') (h : tblWfFrom d lo' m = true) :
    tblWfFrom d lo m = true := by
  cases m with
  | nil => rfl
  | cons e m =>
    obtain ⟨a, v⟩ := e
    simp only [tblWfFrom, Bool.and_eq_true, decide_eq_true_eq] at h ⊢
    exact ⟨⟨by omega, h.1.2⟩, h.2⟩

/-- Filtering keeps the canonical form. -/
theorem tblWfFrom_filter (d : Nat → α) (p : Nat × α → Bool) (m : Tbl α) (lo : Nat) (h : tblWfFrom d lo m = true) :
    tblWfFrom d lo (m.filter p) = true := by
  induction m generalizing lo with
  | nil => rfl
  | cons e m ih =>
    obtain ⟨a, v⟩ := e
    simp only [tblWfFrom, Bool.and_eq_true, decide_eq_true_eq] at h
    have hm := ih (a + 1) h.2
    by_cases hp : p (a, v) = true
    · simp only [List.filter_cons_of_pos hp, tblWfFrom, Bool.and_eq_true, decide_eq_true_eq]
      exact ⟨h.1, hm⟩
    · simp only [List.filter_cons_of_neg hp]
      exact tblWfFrom_mono d _ (by omega) hm

/-- Inserting a value that differs from the unlisted one, at a key not listed, keeps the canonical form. -/
theorem tblWfFrom_insert (d : Nat → α) (m : Tbl α) (k : Nat) (v : α) (lo : Nat) (hk : lo ≤ k) (hv : v ≠ d k)
    (hn : tblFind m k = none) (h : tblWfFrom d lo m = true) : tblWfFrom d lo (tblInsert k v m) = true := by
  induction m generalizing lo with
  | nil => simp [tblInsert, tblWfFrom, hk, hv]
  | cons e m ih =>
    obtain ⟨a, w⟩ := e
    simp only [tblWfFrom, Bool.and_eq_true, decide_eq_true_eq] at h
    have ha : a ≠ k := by rintro rfl; simp [tblFind] at hn
    have hm : tblFind m k = none := by simpa [tblFind, ha] using hn
    by_cases hlt : k < a
    · simp only [tblInsert, hlt, if_true, tblWfFrom, Bool.and_eq_true, decide_eq_true_eq]
      exact ⟨⟨hk, hv⟩, ⟨by omega, h.1.2⟩, h.2⟩
    · simp only [tblInsert, hlt, if_false, tblWfFrom, Bool.and_eq_true, decide_eq_true_eq]
      exact ⟨h.1, ih (a + 1) (by omega) hm h.2⟩

/-- Writing a key keeps the canonical form. -/
theorem tblWf_set (d : Nat → α) (m : Tbl α) (k : Nat) (v : α) (h : tblWf d m = true) :
    tblWf d (tblSet (d k) m k v) = true := by
  have he : tblWfFrom d 0 (tblErase m k) = true := by rw [tblErase_eq_filter]; exact tblWfFrom_filter d _ m 0 h
  by_cases hv : v = d k
  · simpa [tblWf, tblSet, hv] using he
  · simpa [tblWf, tblSet, hv] using tblWfFrom_insert d _ k v 0 (Nat.zero_le k) hv (tblFind_erase_same m k) he

/-- Clearing a range keeps the canonical form. -/
theorem tblWf_clear (d : Nat → α) (m : Tbl α) (lo hi : Nat) (h : tblWf d m = true) : tblWf d (tblClear m lo hi) = true :=
  tblWfFrom_filter d _ m 0 h

/-- Filtering keeps the canonical form. -/
theorem tblWf_filter (d : Nat → α) (p : Nat × α → Bool) (m : Tbl α) (h : tblWf d m = true) : tblWf d (m.filter p) = true :=
  tblWfFrom_filter d p m 0 h

/-- The empty table is canonical. -/
@[simp] theorem tblWf_nil (d : Nat → α) : tblWf d ([] : Tbl α) = true := rfl

/-- In a table whose keys start at `lo`, an earlier key is not listed. -/
theorem tblFind_before (d : Nat → α) (m : Tbl α) (lo k : Nat) (h : tblWfFrom d lo m = true) (hk : k < lo) :
    tblFind m k = none := by
  induction m generalizing lo with
  | nil => rfl
  | cons e m ih =>
    obtain ⟨a, v⟩ := e
    simp only [tblWfFrom, Bool.and_eq_true, decide_eq_true_eq] at h
    have : a ≠ k := by omega
    simpa [tblFind, this] using ih (a + 1) h.2 (by omega)

/-- Two canonical tables that read alike everywhere are equal. -/
theorem tblWfFrom_ext (d : Nat → α) (m n : Tbl α) (lo : Nat) (hm : tblWfFrom d lo m = true)
    (hn : tblWfFrom d lo n = true) (h : ∀ k, tblGet (d k) m k = tblGet (d k) n k) : m = n := by
  induction m generalizing n lo with
  | nil =>
    cases n with
    | nil => rfl
    | cons e n =>
      obtain ⟨a, v⟩ := e
      simp only [tblWfFrom, Bool.and_eq_true, decide_eq_true_eq] at hn
      have := h a
      simp only [tblGet, tblFind, if_true, Option.getD_none, Option.getD_some] at this
      exact absurd this.symm hn.1.2
  | cons e m ih =>
    obtain ⟨a, v⟩ := e
    have hm' := hm
    simp only [tblWfFrom, Bool.and_eq_true, decide_eq_true_eq] at hm
    cases n with
    | nil =>
      have := h a
      simp only [tblGet, tblFind, if_true, Option.getD_none, Option.getD_some] at this
      exact absurd this hm.1.2
    | cons e' n =>
      obtain ⟨b, w⟩ := e'
      have hn' := hn
      simp only [tblWfFrom, Bool.and_eq_true, decide_eq_true_eq] at hn
      have fm : tblFind m a = none := tblFind_before d m (a + 1) a hm.2 (by omega)
      have fn : tblFind n b = none := tblFind_before d n (b + 1) b hn.2 (by omega)
      have hab : a = b := by
        rcases Nat.lt_trichotomy a b with hlt | heq | hgt
        · have ha := h a
          have hb : b ≠ a := by omega
          have : tblFind n a = none := tblFind_before d n (b + 1) a hn.2 (by omega)
          simp only [tblGet, tblFind, hb, this, if_true, if_false, Option.getD_none, Option.getD_some] at ha
          exact absurd ha hm.1.2
        · exact heq
        · have hb := h b
          have hne : a ≠ b := by omega
          have : tblFind m b = none := tblFind_before d m (a + 1) b hm.2 (by omega)
          simp only [tblGet, tblFind, hne, this, if_true, if_false, Option.getD_none, Option.getD_some] at hb
          exact absurd hb.symm hn.1.2
      subst hab
      have hv : v = w := by simpa [tblGet, tblFind] using h a
      subst hv
      congr 1
      refine ih n (a + 1) hm.2 hn.2 fun k => ?_
      by_cases hk : a = k
      · subst hk; simp [tblGet, fm, fn]
      · simpa [tblGet, tblFind, hk] using h k

/-- Two canonical tables that read alike everywhere are equal data. -/
theorem tblWf_ext (d : Nat → α) (m n : Tbl α) (hm : tblWf d m = true) (hn : tblWf d n = true)
    (h : ∀ k, tblGet (d k) m k = tblGet (d k) n k) : m = n := tblWfFrom_ext d m n 0 hm hn h

end Sys2Proof.Machine
end

