-- ==== Sys2Proof/Laws/Follows.lean ====
section
/-! SUPPORT. What every meaning does to the state as a whole (`Follows`): the queue is left alone, time and the count of
free values drawn never run back, and the memory, the register file and the accumulator files keep their canonical form.
This file has the relation and its lemmas for the shared operations that touch those fields directly. -/

namespace Sys2Proof.Machine

/-- `s` may follow `s₀`: the same commands wait, the instant and the count of free values have not run back, and what was
canonical is canonical. -/
structure Follows (s₀ s : State) : Prop where
  now : s₀.now ≤ s.now
  pending : s.pending = s₀.pending
  free : s₀.freeCtr ≤ s.freeCtr
  mem : Memory.wf s₀.mem = true → Memory.wf s.mem = true
  regs : RegFile.wf s₀.regs = true → RegFile.wf s.regs = true
  acc : AccFile.wf s₀.acc = true → AccFile.wf s.acc = true

/-- An answer whose next state, if it has one, follows `s₀`. -/
def AnsFollows (s₀ : State) (a : Ans) : Prop := ∀ t, a = .next t → Follows s₀ t

variable {s₀ s : State}

theorem Follows.refl (s : State) : Follows s s := ⟨Nat.le_refl _, rfl, Nat.le_refl _, id, id, id⟩

theorem Follows.trans {t : State} (h : Follows s₀ s) (k : Follows s t) : Follows s₀ t :=
  ⟨Nat.le_trans h.now k.now, k.pending.trans h.pending, Nat.le_trans h.free k.free, fun x => k.mem (h.mem x),
    fun x => k.regs (h.regs x), fun x => k.acc (h.acc x)⟩

/-- A change outside the six fields that `Follows` speaks of. -/
theorem Follows.upd (h : Follows s₀ s) {dev strata tiles vaults mm slices sched host fw flash sec pow assay clk air
    clusters ports fab out} :
    Follows s₀ ⟨s.now, s.regs, s.mem, s.acc, dev, strata, tiles, vaults, mm, slices, sched, host, fw, flash, sec, pow,
      assay, clk, air, clusters, ports, fab, out, s.freeCtr, s.pending⟩ :=
  ⟨h.now, h.pending, h.free, h.mem, h.regs, h.acc⟩

theorem Follows.ite {c : Prop} [Decidable c] {a b : State} (ha : Follows s₀ a) (hb : Follows s₀ b) :
    Follows s₀ (if c then a else b) := by
  split <;> assumption

theorem Follows.ite1 {β : Type} {c : Prop} [Decidable c] {a b : State × β} (ha : Follows s₀ a.1) (hb : Follows s₀ b.1) :
    Follows s₀ (if c then a else b).1 := by
  split <;> assumption

theorem Follows.ite2 {β : Type} {c : Prop} [Decidable c] {a b : β × State} (ha : Follows s₀ a.2) (hb : Follows s₀ b.2) :
    Follows s₀ (if c then a else b).2 := by
  split <;> assumption

/-- Opening a pair whose first part is a state. -/
theorem Follows.of_pair1 {β : Type} {p : State × β} {t : State} {b : β} (e : p = (t, b)) (h : Follows s₀ p.1) :
    Follows s₀ t := by
  subst e
  exact h

/-- Opening a pair whose second part is a state. -/
theorem Follows.of_pair2 {β : Type} {p : β × State} {t : State} {b : β} (e : p = (b, t)) (h : Follows s₀ p.2) :
    Follows s₀ t := by
  subst e
  exact h

theorem Follows.atTime {t : Nat} (h : Follows s₀ s) : Follows s₀ (s.atTime t) :=
  ⟨Nat.le_trans h.now (Nat.le_max_left _ _), h.pending, h.free, h.mem, h.regs, h.acc⟩

theorem Follows.wrWord {a : Nat} {w : RegWord} (h : Follows s₀ s) : Follows s₀ (s.wrWord a w) :=
  ⟨h.now, h.pending, h.free, h.mem, fun x => tblWf_set regReset _ a w (h.regs x), h.acc⟩

theorem Follows.wr {f : Fld} {v : Nat} (h : Follows s₀ s) : Follows s₀ (s.wr f v) := h.wrWord

theorem Follows.resetRegs {lo hi : Nat} (h : Follows s₀ s) : Follows s₀ (s.resetRegs lo hi) :=
  ⟨h.now, h.pending, h.free, h.mem, fun x => tblWf_clear regReset _ lo hi (h.regs x), h.acc⟩

theorem Follows.setByte {k : Nat} {b : Byte} (h : Follows s₀ s) : Follows s₀ (s.setByte k b) :=
  ⟨h.now, h.pending, h.free, fun x => tblWf_set (fun _ => unwritten) _ k b (h.mem x), h.regs, h.acc⟩

theorem Follows.memFilter {p : Host.Cell → Bool} (h : Follows s₀ s) : Follows s₀ { s with mem := s.mem.filter p } :=
  ⟨h.now, h.pending, h.free, fun x => tblWf_filter _ p _ (h.mem x), h.regs, h.acc⟩

theorem Follows.zeroKeys {lo hi : Nat} (h : Follows s₀ s) : Follows s₀ (s.zeroKeys lo hi) := h.memFilter

theorem Follows.accSet {k : Nat} {v : BitVec 32} (h : Follows s₀ s) : Follows s₀ { s with acc := tblSet 0 s.acc k v } :=
  ⟨h.now, h.pending, h.free, h.mem, h.regs, fun x => tblWf_set (fun _ => 0) _ k v (h.acc x)⟩

theorem Follows.accClear {lo hi : Nat} (h : Follows s₀ s) : Follows s₀ { s with acc := tblClear s.acc lo hi } :=
  ⟨h.now, h.pending, h.free, h.mem, h.regs, fun x => tblWf_clear _ _ lo hi (h.acc x)⟩

theorem Follows.drawUpd {n : Nat} (h : Follows s₀ s) : Follows s₀ { s with freeCtr := s.freeCtr + n } :=
  ⟨h.now, h.pending, Nat.le_trans h.free (Nat.le_add_right _ _), h.mem, h.regs, h.acc⟩

theorem Follows.foldl {α : Type} {g : State → α → State} {l : List α} (h : Follows s₀ s)
    (hg : ∀ t x, Follows s₀ t → Follows s₀ (g t x)) : Follows s₀ (l.foldl g s) := by
  induction l generalizing s with
  | nil => exact h
  | cons a l ih => exact ih (hg s a h)

theorem Follows.foldl1 {α β : Type} {g : State × β → α → State × β} {l : List α} {p : State × β} (h : Follows s₀ p.1)
    (hg : ∀ p x, Follows s₀ p.1 → Follows s₀ (g p x).1) : Follows s₀ (l.foldl g p).1 := by
  induction l generalizing p with
  | nil => exact h
  | cons a l ih => exact ih (hg p a h)

theorem Follows.foldl2 {α β : Type} {g : β × State → α → β × State} {l : List α} {p : β × State} (h : Follows s₀ p.2)
    (hg : ∀ p x, Follows s₀ p.2 → Follows s₀ (g p x).2) : Follows s₀ (l.foldl g p).2 := by
  induction l generalizing p with
  | nil => exact h
  | cons a l ih => exact ih (hg p a h)

theorem Follows.each {α : Type} {g : State → α → State} {l : List α} (h : Follows s₀ s)
    (hg : ∀ t x, Follows s₀ t → Follows s₀ (g t x)) : Follows s₀ (s.each l g) := h.foldl hg

theorem Follows.iff {g : State → State} {b : Bool} (h : Follows s₀ s) (hg : ∀ t, Follows s₀ t → Follows s₀ (g t)) :
    Follows s₀ (s.iff b g) := by
  unfold State.iff
  split
  · exact hg s h
  · exact h

theorem AnsFollows.next (h : Follows s₀ s) : AnsFollows s₀ (.next s) := by
  rintro t ⟨⟩
  exact h

theorem AnsFollows.fault (r : Fault) : AnsFollows s₀ (.fault r) := by
  rintro t ⟨⟩

theorem AnsFollows.ite {c : Prop} [Decidable c] {a b : Ans} (ha : AnsFollows s₀ a) (hb : AnsFollows s₀ b) :
    AnsFollows s₀ (if c then a else b) := by
  split <;> assumption

theorem AnsFollows.onUnit {b : Bool} (h : Follows s₀ s) : AnsFollows s₀ (onUnit b s) := by
  unfold Machine.onUnit
  split
  · exact .next h
  · exact .fault _

end Sys2Proof.Machine
end

