-- ==== Sys2Proof/Laws/Follows/Ops.lean ====
section
/-! SUPPORT. What the operations and meanings of Machine/Ops.lean do to the state as a whole (`Follows`). -/

namespace Sys2Proof.Machine

variable {s₀ s : State}

theorem Follows.flag {f : Fld} (hs : Follows s₀ s) : Follows s₀ (s.flag f) := by
  unfold State.flag
  exact hs.wr

theorem Follows.sat {f : Fld} {n : Nat} (hs : Follows s₀ s) : Follows s₀ (s.sat f n) := by
  unfold State.sat
  exact hs.wr

theorem Follows.bump {f : Fld} {n : Nat} (hs : Follows s₀ s) : Follows s₀ (s.bump f n) := by
  unfold State.bump
  exact hs.wr

theorem Follows.drop {f : Fld} {n : Nat} (hs : Follows s₀ s) : Follows s₀ (s.drop f n) := by
  unfold State.drop
  exact hs.wr

theorem Follows.wrs {n_ : List (Fld × Nat)} (hs : Follows s₀ s) : Follows s₀ (s.wrs n_) := by
  induction n_ generalizing s with
  | nil => exact hs
  | cons a l ih =>
    obtain ⟨f, v⟩ := a
    rw [State.wrs]
    apply ih
    exact hs.wr

theorem Follows.emit {k : MsgKind} {args : List Nat} {data : List Byte} (hs : Follows s₀ s) :
    Follows s₀ (s.emit k args data) := by
  unfold State.emit
  exact hs.upd

theorem Follows.drawByte (hs : Follows s₀ s) : Follows s₀ s.drawByte.2 := hs.drawUpd

theorem Follows.drawBytes {n : Nat} (hs : Follows s₀ s) : Follows s₀ (s.drawBytes n).2 := hs.drawUpd

theorem Follows.drawWord (hs : Follows s₀ s) : Follows s₀ s.drawWord.2 := hs.drawUpd

theorem Follows.setBytes {k : Nat} {n_ : List Byte} (hs : Follows s₀ s) : Follows s₀ (s.setBytes k n_) := by
  induction n_ generalizing s k with
  | nil => exact hs
  | cons a l ih =>
    rw [State.setBytes]
    apply ih
    exact hs.setByte

theorem Follows.setNum {k : Nat} {n : Nat} {v : Nat} (hs : Follows s₀ s) : Follows s₀ (s.setNum k n v) := by
  unfold State.setNum
  exact hs.setBytes

theorem Follows.scramble {k : Nat} {n : Nat} (hs : Follows s₀ s) : Follows s₀ (s.scramble k n) := by
  unfold State.scramble
  split
  rename_i e2
  have h1 : Follows s₀ _ := Follows.of_pair2 e2 hs.drawBytes
  exact h1.setBytes

theorem Follows.setTile {site : Nat} {x : TileState} (hs : Follows s₀ s) : Follows s₀ (s.setTile site x) := by
  unfold State.setTile
  exact hs.upd

theorem Follows.setVault {v : Nat} {x : VaultState} (hs : Follows s₀ s) : Follows s₀ (s.setVault v x) := by
  unfold State.setVault
  exact hs.upd

theorem Follows.setSlice {x : Nat} {v : SliceState} (hs : Follows s₀ s) : Follows s₀ (s.setSlice x v) := by
  unfold State.setSlice
  exact hs.upd

theorem Follows.setCluster {c : Nat} {x : ClusterState} (hs : Follows s₀ s) : Follows s₀ (s.setCluster c x) := by
  unfold State.setCluster
  exact hs.upd

theorem Follows.setTable {id : Nat} {x : TableState} (hs : Follows s₀ s) : Follows s₀ (s.setTable id x) := by
  unfold State.setTable
  exact hs.upd

theorem Follows.showDraining (hs : Follows s₀ s) : Follows s₀ (s.showDraining) := by
  unfold State.showDraining
  exact hs.wr

theorem Follows.holdBank {id : Nat} {one : Bool} {n : Nat} (hs : Follows s₀ s) : Follows s₀ (s.holdBank id one n) := by
  unfold State.holdBank
  extract_lets +onlyGivenNames t1
  exact hs.setTable.showDraining

theorem Follows.leaveBank {id : Nat} {one : Bool} {n : Nat} (hs : Follows s₀ s) :
    Follows s₀ (s.leaveBank id one n) := by
  unfold State.leaveBank
  extract_lets +onlyGivenNames t1
  exact hs.setTable.showDraining

end Sys2Proof.Machine
end

