-- ==== Sys2Proof/Laws/Follows/Xlate.lean ====
section
/-! SUPPORT. What the operations and meanings of Machine/Xlate.lean do to the state as a whole (`Follows`). -/

namespace Sys2Proof.Machine

variable {s₀ s : State}

theorem Follows.setHome {x : Nat} {slab : Nat} {h : HomeEntry} (hs : Follows s₀ s) :
    Follows s₀ (s.setHome x slab h) := by
  unfold State.setHome
  exact hs.upd

theorem Follows.mapMove {x : Nat} {slab : Nat} {g : Move → Move} (hs : Follows s₀ s) :
    Follows s₀ (s.mapMove x slab g) := by
  unfold State.mapMove
  exact hs.upd

theorem Follows.vset {x : Nat} {va : Nat} {b : Byte} (hs : Follows s₀ s) : Follows s₀ (s.vset x va b) := by
  unfold State.vset
  split
  · exact hs
  · split
    · exact hs.setByte
    · exact hs.mapMove

theorem Follows.vsets {x : Nat} {va : Nat} {n_ : List Byte} (hs : Follows s₀ s) : Follows s₀ (s.vsets x va n_) := by
  induction n_ generalizing s x va with
  | nil => exact hs
  | cons a l ih =>
    rw [State.vsets]
    apply ih
    exact hs.vset

theorem Follows.cacheHost {x : Nat} {slab : Nat} (hs : Follows s₀ s) : Follows s₀ (s.cacheHost x slab) := by
  unfold State.cacheHost
  refine Follows.ite ?_ ?_
  · exact hs
  · exact hs.upd

theorem Follows.touch {x : Nat} {va : Nat} {n : Nat} (hs : Follows s₀ s) : Follows s₀ (s.touch x va n) := by
  unfold State.touch
  refine Follows.each ?_ ?_
  · exact hs
  · intro _ _ h1
    extract_lets +onlyGivenNames t2
    refine Follows.ite ?_ ?_
    · exact h1.cacheHost
    · refine Follows.ite ?_ ?_
      · exact h1
      · exact h1.setHome

theorem Follows.setMark {k : Nat} {m : Nat} (hs : Follows s₀ s) : Follows s₀ (s.setMark k m) := by
  unfold State.setMark
  exact hs.upd

theorem Follows.markBad {v : Nat} {cw : Nat} {m : Nat} (hs : Follows s₀ s) : Follows s₀ (s.markBad v cw m) := by
  unfold State.markBad
  exact hs.setMark

theorem Follows.eccUncorr {v : Nat} {cw : Nat} {m : Nat} (hs : Follows s₀ s) : Follows s₀ (s.eccUncorr v cw m) := by
  unfold State.eccUncorr
  exact hs.sat.wr.wr

theorem Follows.setWq {v : Nat} {x : VaultState} (hs : Follows s₀ s) : Follows s₀ (s.setWq v x) := by
  unfold State.setWq
  exact hs.setVault.wr

theorem Follows.queueLines {v : Nat} {a : Nat} {n : Nat} (hs : Follows s₀ s) : Follows s₀ (s.queueLines v a n) := by
  unfold State.queueLines
  refine Follows.ite ?_ ?_
  · exact hs
  · extract_lets +onlyGivenNames t1
    exact hs.setWq

theorem Follows.queueLine {v : Nat} {a : Nat} (hs : Follows s₀ s) : Follows s₀ (s.queueLine v a) := by
  unfold State.queueLine
  exact hs.queueLines

theorem Follows.lineWritten {x : Nat} {lo : Nat} {hi : Nat} (hs : Follows s₀ s) :
    Follows s₀ (s.lineWritten x lo hi) := by
  unfold State.lineWritten
  refine Follows.ite ?_ ?_
  · exact hs
  · extract_lets +onlyGivenNames t1
    have h2 : Follows s₀ t1 := by
      refine Follows.each ?_ ?_
      · exact hs
      · intro _ _ h3
        split
        · exact h3.setMark
        · exact h3
    clear_value t1
    split
    · exact h2.queueLine
    · exact h2

theorem Follows.vstore {x : Nat} {va : Nat} {l : List Byte} (hs : Follows s₀ s) : Follows s₀ (s.vstore x va l) := by
  unfold State.vstore
  extract_lets +onlyGivenNames t1 t2
  have h3 : Follows s₀ t2 := hs.vsets.touch
  clear_value t2
  refine Follows.each ?_ ?_
  · exact h3
  · intro _ _ h4
    exact h4.lineWritten

theorem Follows.staleDrop {x : Nat} (hs : Follows s₀ s) : Follows s₀ (s.staleDrop x) := by
  unfold State.staleDrop
  exact hs.sat.flag

theorem Follows.windowErr (hs : Follows s₀ s) : Follows s₀ (s.windowErr) := by
  unfold State.windowErr
  exact hs.sat.flag

end Sys2Proof.Machine
end

