-- ==== Sys2Proof/Laws/Follows/Operands.lean ====
section
/-! SUPPORT. What the operations and meanings of Machine/Operands.lean do to the state as a whole (`Follows`). -/

namespace Sys2Proof.Machine

variable {s₀ s : State}

theorem Follows.setAcc {site : Nat} {row : Nat} {col : Nat} {v : Nat} (hs : Follows s₀ s) :
    Follows s₀ (s.setAcc site row col v) := by
  unfold State.setAcc
  exact hs.accSet

theorem Follows.scrambleAcc {site r n : Nat} (hs : Follows s₀ s) : Follows s₀ (s.scrambleAcc site r n) := by
  unfold State.scrambleAcc
  extract_lets +onlyGivenNames t
  have h : Follows s₀ t := hs.each fun _ _ k => k.setAcc
  exact ⟨h.now, h.pending, Nat.le_trans hs.free (Nat.le_add_right _ _), h.mem, h.regs, h.acc⟩

end Sys2Proof.Machine
end

