-- ==== Sys2Proof/Laws/Follows/Strike.lean ====
section
/-! SUPPORT. What the operations and meanings of Machine/Strike.lean do to the state as a whole (`Follows`). -/

namespace Sys2Proof.Machine

variable {s₀ s : State}

theorem Follows.showStrikes (hs : Follows s₀ s) : Follows s₀ (s.showStrikes) := by
  unfold State.showStrikes
  refine Follows.each ?_ ?_
  · exact hs
  · intro _ _ h1
    exact h1.wr

theorem Follows.healthBit {n : Nat} (hs : Follows s₀ s) : Follows s₀ (s.healthBit n) := by
  unfold State.healthBit
  extract_lets +onlyGivenNames t1 t2 t3 t4
  have h5 : Follows s₀ t4 := hs.upd
  clear_value t4
  extract_lets +onlyGivenNames t6
  have h7 : Follows s₀ t6 := h5.wr.wr
  clear_value t6
  refine Follows.ite ?_ ?_
  · exact h7.flag
  · exact h7

theorem Follows.checkHealth (hs : Follows s₀ s) : Follows s₀ (s.checkHealth) := by
  unfold State.checkHealth
  extract_lets +onlyGivenNames t1
  have h2 : Follows s₀ t1 := by
    refine Follows.iff ?_ ?_
    · exact hs
    · intro _ h3
      exact h3.healthBit
  clear_value t1
  extract_lets +onlyGivenNames t4
  have h5 : Follows s₀ t4 := by
    refine Follows.iff ?_ ?_
    · exact h2
    · intro _ h6
      exact h6.healthBit
  clear_value t4
  extract_lets +onlyGivenNames t7
  have h8 : Follows s₀ t7 := by
    refine Follows.iff ?_ ?_
    · exact h5
    · intro _ h9
      exact h9.healthBit
  clear_value t7
  extract_lets +onlyGivenNames t10
  have h11 : Follows s₀ t10 := by
    refine Follows.iff ?_ ?_
    · exact h8
    · intro _ h12
      exact h12.healthBit
  clear_value t10
  refine Follows.iff ?_ ?_
  · exact h11
  · intro _ h13
    exact h13.healthBit

theorem Follows.strike {kind : Nat} {unit : Nat} {sector : Nat} {level : Nat} {detail : Nat} (hs : Follows s₀ s) :
    Follows s₀ (s.strike kind unit sector level detail) := by
  unfold State.strike
  extract_lets +onlyGivenNames t1
  split
  extract_lets +onlyGivenNames t2 t3
  have h4 : Follows s₀ t3 := hs.upd
  clear_value t3
  extract_lets +onlyGivenNames t5
  have h6 : Follows s₀ t5 := by
    refine Follows.iff ?_ ?_
    · refine Follows.iff ?_ ?_
      · exact h4
      · intro _ h7
        exact h7.flag
    · intro _ h8
      exact h8.flag
  clear_value t5
  extract_lets +onlyGivenNames t9
  have h10 : Follows s₀ t9 := by
    refine Follows.iff ?_ ?_
    · exact h6
    · intro _ h11
      exact h11.upd
  clear_value t9
  exact h10.showStrikes.checkHealth

theorem Follows.tileStrike {kind : Nat} {site : Nat} {detail : Nat} (hs : Follows s₀ s) :
    Follows s₀ (s.tileStrike kind site detail) := by
  unfold State.tileStrike
  exact hs.strike

theorem Follows.vaultBad {v : Nat} {cw : Nat} {m : Nat} (hs : Follows s₀ s) : Follows s₀ (s.vaultBad v cw m) := by
  unfold State.vaultBad
  refine Follows.ite ?_ ?_
  · exact hs
  · exact hs.eccUncorr.strike

theorem Follows.booksFault {qty : Nat} {index : Nat} {sector : Nat} {level : Nat} (hs : Follows s₀ s) :
    Follows s₀ (s.booksFault qty index sector level) := by
  unfold State.booksFault
  extract_lets +onlyGivenNames t1 t2
  exact hs.wrs.strike

theorem Follows.checkPool (hs : Follows s₀ s) : Follows s₀ (s.checkPool) := by
  unfold State.checkPool
  refine Follows.iff ?_ ?_
  · exact hs
  · intro _ h1
    exact h1.booksFault

end Sys2Proof.Machine
end

