-- ==== Sys2Proof/Laws/Follows/Tile.lean ====
section
/-! SUPPORT. What the operations and meanings of Machine/Tile.lean do to the state as a whole (`Follows`). -/

namespace Sys2Proof.Machine

variable {s₀ s : State}

/-- The effect of a plan, and what its hold leaves, follow what they start from. -/
def Plan.follows (p : Plan) : Prop := ∀ s₀ t, Follows s₀ t → Follows s₀ (p.effect t) ∧ Follows s₀ (p.held t)

/-- A plan, if there is one, follows. -/
def PlanFollows (o : Option Plan) : Prop := ∀ p, o = some p → p.follows

theorem PlanFollows.none : PlanFollows .none := fun _ h => nomatch h

theorem PlanFollows.some {p : Plan} (h : p.follows) : PlanFollows (.some p) := fun _ e => by cases e; exact h

theorem PlanFollows.ite {c : Prop} [Decidable c] {a b : Option Plan} (ha : PlanFollows a) (hb : PlanFollows b) :
    PlanFollows (if c then a else b) := by
  split <;> assumption

theorem Follows.setQueue {site : Nat} {q : Nat} {c : CmdQueue} (hs : Follows s₀ s) :
    Follows s₀ (s.setQueue site q c) := by
  unfold State.setQueue
  exact hs.setTile

theorem Follows.hStore {h : Nat} {va : Nat} {l : List Byte} (hs : Follows s₀ s) : Follows s₀ (s.hStore h va l) := by
  unfold State.hStore
  refine Follows.ite ?_ ?_
  · exact hs.vstore
  · extract_lets +onlyGivenNames t1
    have h2 : Follows s₀ t1 := by
      refine Follows.each ?_ ?_
      · exact hs
      · intro _ _ h3
        split
        · exact h3.setByte
        · exact h3
    clear_value t1
    refine Follows.each ?_ ?_
    · exact h2
    · intro _ _ h4
      split
      · exact h4.setMark
      · exact h4

theorem Follows.showWait {site : Nat} {q : Nat} (hs : Follows s₀ s) : Follows s₀ (s.showWait site q) := by
  unfold State.showWait
  extract_lets +onlyGivenNames t1
  refine Follows.ite ?_ ?_
  · extract_lets +onlyGivenNames t2
    exact hs.wr
  · exact hs

theorem Follows.land {site : Nat} {n : Nat} {inc : Nat} {cyc : Nat} (hs : Follows s₀ s) :
    Follows s₀ (s.land site n inc cyc) := by
  unfold State.land
  extract_lets +onlyGivenNames t1 t2
  refine Follows.each ?_ ?_
  · exact hs.setTile.bump
  · intro _ _ h3
    exact h3.showWait

theorem Follows.offer {plane : Nat} {stop : Nat} (hs : Follows s₀ s) : Follows s₀ (s.offer plane stop).2 := by
  unfold State.offer
  refine Follows.ite2 ?_ ?_
  · extract_lets +onlyGivenNames t1
    exact hs.holdBank
  · exact hs.sat

theorem Follows.landPackets {r : Option (Nat × Bool)} (hs : Follows s₀ s) : Follows s₀ (s.landPackets r) := by
  unfold State.landPackets
  split
  · exact hs.leaveBank
  · exact hs

theorem Follows.signal {site cyc : Nat} {g : Signal} (hs : Follows s₀ s) : Follows s₀ (s.signal site cyc g) := by
  unfold State.signal
  refine Follows.ite hs (Follows.ite hs.land ?_)
  split
  · exact hs
  · split
    · exact hs
    · split
      · exact Follows.of_pair2 (by assumption) hs.offer
      · exact (Follows.of_pair2 (by assumption) hs.offer).setTile

theorem Follows.dummyRows {site : Nat} {n : Nat} (hs : Follows s₀ s) : Follows s₀ (s.dummyRows site n) := by
  unfold State.dummyRows
  extract_lets +onlyGivenNames t1
  exact hs.setTile.bump

theorem Follows.tallyArray {site : Nat} {upto : Nat} {w : ArrayWork} (hs : Follows s₀ s) :
    Follows s₀ (s.tallyArray site upto w) := by
  unfold State.tallyArray
  extract_lets +onlyGivenNames t1 t2 t3
  have h4 : Follows s₀ t3 := hs.bump.bump
  clear_value t3
  extract_lets +onlyGivenNames t5
  have h6 : Follows s₀ t5 := h4.dummyRows
  clear_value t5
  refine Follows.ite ?_ ?_
  · exact h6
  · exact h6.wr

theorem Follows.tallyRows {site : Nat} {upto : Nat} (hs : Follows s₀ s) : Follows s₀ (s.tallyRows site upto) := by
  unfold State.tallyRows
  extract_lets +onlyGivenNames t1 t2
  have h3 : Follows s₀ t2 := by
    refine Follows.each ?_ ?_
    · exact hs
    · intro _ _ h4
      exact h4.tallyArray
  clear_value t2
  exact h3.setTile

theorem Follows.tallyGap {site : Nat} {upto : Nat} (hs : Follows s₀ s) : Follows s₀ (s.tallyGap site upto) := by
  unfold State.tallyGap
  extract_lets +onlyGivenNames t1 t2 t3
  refine Follows.ite ?_ ?_
  · exact hs
  · extract_lets +onlyGivenNames t4
    exact hs.setTile.dummyRows

theorem Follows.showEngine {site : Nat} {cyc : Nat} {v : Nat} (hs : Follows s₀ s) :
    Follows s₀ (s.showEngine site cyc v) := by
  unfold State.showEngine
  extract_lets +onlyGivenNames t1 t2
  exact hs.wrs

theorem Follows.showEngines {site : Nat} {cyc : Nat} (hs : Follows s₀ s) : Follows s₀ (s.showEngines site cyc) := by
  unfold State.showEngines
  refine Follows.each ?_ ?_
  · exact hs
  · intro _ _ h1
    refine Follows.ite ?_ ?_
    · exact h1.showEngine
    · exact h1

theorem Follows.leaveEngine {site : Nat} {cyc : Nat} {n : Nat} {c : RunCmd} {w : SeamWork} (hs : Follows s₀ s) :
    Follows s₀ (s.leaveEngine site cyc n c w) := by
  unfold State.leaveEngine
  extract_lets +onlyGivenNames t1 t2 t3
  have h4 : Follows s₀ t3 := hs.setVault
  clear_value t3
  extract_lets +onlyGivenNames t5 t6 t7
  have h8 : Follows s₀ t7 := h4.upd.showEngine
  clear_value t7
  exact h8.bump.bump.bump

theorem Follows.retire {site : Nat} {cyc : Nat} {n : Nat} {c : RunCmd} (hs : Follows s₀ s) :
    Follows s₀ (s.retire site cyc n c) := by
  unfold State.retire
  extract_lets +onlyGivenNames t1
  have h2 : Follows s₀ t1 := by
    unfold t1
    split
    · exact hs.tallyArray
    · exact hs
  clear_value t1
  extract_lets +onlyGivenNames t3 t4 t5
  have h6 : Follows s₀ t5 := h2.setTile
  clear_value t5
  extract_lets +onlyGivenNames t7 t8
  have h9 : Follows s₀ t8 := by
    unfold t8
    split
    · exact h6.wr.bump.bump
    · exact h6.wr.bump
    · exact h6
  clear_value t8
  split
  · exact h9.leaveEngine
  · exact h9

theorem Follows.checkStop {site : Nat} {q : Nat} (hs : Follows s₀ s) : Follows s₀ (s.checkStop site q) := by
  unfold State.checkStop
  refine Follows.ite ?_ ?_
  · exact hs.wr.bump
  · exact hs

theorem Follows.doneOk {site : Nat} {q : Nat} {cyc : Nat} {g : Signal} (hs : Follows s₀ s) :
    Follows s₀ (s.doneOk site q cyc g) := by
  unfold State.doneOk
  exact hs.bump.signal.checkStop

theorem Follows.write {site : Nat} {p : Put} (hs : Follows s₀ s) : Follows s₀ (s.write site p) := by
  unfold State.write
  exact hs.setBytes

theorem Follows.rampDown {site : Nat} {cyc : Nat} (hs : Follows s₀ s) : Follows s₀ (s.rampDown site cyc) := by
  unfold State.rampDown
  extract_lets +onlyGivenNames t1
  refine Follows.ite ?_ ?_
  · exact hs.setTile
  · exact hs.setTile

theorem Follows.drawIn {lo : Nat} {hi : Nat} (hs : Follows s₀ s) : Follows s₀ (s.drawIn lo hi).2 := by
  unfold State.drawIn
  split
  rename_i e2
  have h1 : Follows s₀ _ := Follows.of_pair2 e2 hs.drawWord
  exact h1

theorem Follows.seamRead {cyc : Nat} {c : RunCmd} {w : SeamWork} (hs : Follows s₀ s) :
    Follows s₀ (s.seamRead cyc c w).2 := by
  unfold State.seamRead
  extract_lets +onlyGivenNames t1 t2
  exact hs.drawIn

theorem Follows.spoil {site : Nat} {whole : Nat} {c : RunCmd} (hs : Follows s₀ s) :
    Follows s₀ (s.spoil site whole c) := by
  unfold State.spoil
  extract_lets +onlyGivenNames t1
  have h2 : Follows s₀ t1 := by
    refine Follows.each ?_ ?_
    · exact hs
    · intro _ _ h3
      exact h3.write
  clear_value t1
  extract_lets +onlyGivenNames t4
  have h5 : Follows s₀ t4 := by
    refine Follows.each ?_ ?_
    · exact h2
    · intro _ _ h6
      exact h6.scramble
  clear_value t4
  extract_lets +onlyGivenNames t7
  have h8 : Follows s₀ t7 := by
    unfold t7
    split
    · refine Follows.ite ?_ ?_
      · exact h5.scrambleAcc
      · exact h5
    · exact h5
  clear_value t7
  refine Follows.ite ?_ ?_
  · refine Follows.each ?_ ?_
    · exact h8
    · intro _ _ h9
      refine Follows.each ?_ ?_
      · exact h9
      · intro _ _ h10
        split
        rename_i e12
        have h11 : Follows s₀ _ := Follows.of_pair2 e12 h10.drawByte
        exact h11.wr
  · exact h8

theorem Follows.stopRun {site : Nat} {cyc : Nat} {c : RunCmd} (hs : Follows s₀ s) :
    Follows s₀ (s.stopRun site cyc c) := by
  unfold State.stopRun
  split
  · exact hs.spoil.retire
  · extract_lets +onlyGivenNames t1
    have h2 : Follows s₀ t1 := by
      refine Follows.ite ?_ ?_
      · exact hs.retire
      · split
        rename_i e4
        have h3 : Follows s₀ _ := Follows.of_pair2 e4 hs.seamRead
        exact h3.spoil.retire
    clear_value t1
    exact h2.wrs

theorem Follows.cancelXfer {site : Nat} {x : XferRec} (hs : Follows s₀ s) : Follows s₀ (s.cancelXfer site x) := by
  unfold State.cancelXfer
  extract_lets +onlyGivenNames t1
  have h2 : Follows s₀ t1 := hs.landPackets
  clear_value t1
  refine Follows.ite ?_ ?_
  · split
    · exact h2
    · split
      rename_i e4
      have h3 : Follows s₀ _ := Follows.of_pair2 e4 h2.drawBytes
      exact h3.hStore
  · exact h2.scramble

theorem Follows.stopWork {site : Nat} {cyc : Nat} (hs : Follows s₀ s) : Follows s₀ (s.stopWork site cyc) := by
  unfold State.stopWork
  extract_lets +onlyGivenNames t1 t2 t3
  have h4 : Follows s₀ t3 := by
    refine Follows.each ?_ ?_
    · exact hs
    · intro _ _ h5
      exact h5.stopRun
  clear_value t3
  extract_lets +onlyGivenNames t6
  have h7 : Follows s₀ t6 := by
    refine Follows.each ?_ ?_
    · exact h4
    · intro _ _ h8
      exact h8.cancelXfer
  clear_value t6
  extract_lets +onlyGivenNames t9
  have h10 : Follows s₀ t9 := by
    refine Follows.ite ?_ ?_
    · exact h7.rampDown
    · exact h7
  clear_value t9
  exact h10.setTile

theorem Follows.stopTile {site : Nat} {cyc : Nat} {bad : List Nat} (hs : Follows s₀ s) :
    Follows s₀ (s.stopTile site cyc bad) := by
  unfold State.stopTile
  refine Follows.each ?_ ?_
  · exact hs.stopWork
  · intro _ _ h1
    refine Follows.ite ?_ ?_
    · extract_lets +onlyGivenNames t2
      have h3 : Follows s₀ t2 := h1.wr
      clear_value t2
      extract_lets +onlyGivenNames t4
      exact h3.setQueue
    · exact h1

theorem Follows.fails {site : Nat} {cyc : Nat} {q : Nat} {code : Nat} {tag : Nat} {bad : List Nat}
    (hs : Follows s₀ s) :
    Follows s₀ (s.fails site cyc q code tag bad) := by
  unfold State.fails
  extract_lets +onlyGivenNames t1 t2
  have h3 : Follows s₀ t2 := hs.stopTile
  clear_value t2
  exact h3.setTile

theorem Follows.failCmd {site : Nat} {q : Nat} {cyc : Nat} {code : Nat} {tag : Nat} {index : Nat}
    (hs : Follows s₀ s) :
    Follows s₀ (s.failCmd site q cyc code tag index) := by
  unfold State.failCmd
  extract_lets +onlyGivenNames t1
  split
  · exact hs.fails.wrs
  · refine Follows.ite ?_ ?_
    · exact hs
    · extract_lets +onlyGivenNames t2
      have h3 : Follows s₀ t2 := hs.wrs
      clear_value t2
      refine Follows.ite ?_ ?_
      · exact h3.setTile
      · exact h3

theorem Follows.abortTile {site : Nat} {cyc : Nat} (hs : Follows s₀ s) : Follows s₀ (s.abortTile site cyc) := by
  unfold State.abortTile
  split
  · exact hs
  · exact hs.fails

theorem Follows.sramUncorr {site : Nat} {addr : Nat} (hs : Follows s₀ s) : Follows s₀ (s.sramUncorr site addr) := by
  unfold State.sramUncorr
  exact hs.sat.wr.tileStrike

theorem Follows.parity {site : Nat} {cyc : Nat} {tag : Nat} {par : Nat} {acc : Option (Nat × Nat)}
    (hs : Follows s₀ s) :
    Follows s₀ (s.parity site cyc tag par acc) := by
  unfold State.parity
  extract_lets +onlyGivenNames t1
  have h2 : Follows s₀ t1 := by
    refine Follows.iff ?_ ?_
    · exact hs
    · intro _ h3
      exact h3.flag.tileStrike
  clear_value t1
  extract_lets +onlyGivenNames t4
  have h5 : Follows s₀ t4 := by
    refine Follows.iff ?_ ?_
    · exact h2
    · intro _ h6
      exact h6.flag.tileStrike
  clear_value t4
  extract_lets +onlyGivenNames t7
  have h8 : Follows s₀ t7 := by
    unfold t7
    split
    · exact h5.scrambleAcc
    · exact h5
  clear_value t7
  exact h8.rampDown.wr

theorem Follows.stopLate {site : Nat} {cyc : Nat} (hs : Follows s₀ s) : Follows s₀ (s.stopLate site cyc) := by
  unfold State.stopLate
  refine Follows.ite ?_ ?_
  · exact hs.stopWork
  · exact hs

theorem Follows.takeHead {site : Nat} {q : Nat} {cyc : Nat} (hs : Follows s₀ s) :
    Follows s₀ (s.takeHead site q cyc) := by
  unfold State.takeHead
  split
  · exact hs.setTile
  · exact hs.setQueue.showWait

theorem Follows.started {site q cyc : Nat} {i : Inst} {p : Plan} (h : Follows s₀ (p.effect s)) :
    Follows s₀ (s.started site q cyc i p) := by
  unfold State.started
  refine Follows.stopLate ?_
  dsimp only
  split
  · exact h.takeHead.setTile
  · exact h.takeHead.doneOk

theorem Follows.issue {site q cyc : Nat} {mine : QEntry → Bool} {plan : State → Nat → TileJob → Inst → Option Plan}
    (hs : Follows s₀ s) (hp : ∀ j i, PlanFollows (plan s q j i)) : Follows s₀ (s.issue site q cyc mine plan) := by
  unfold State.issue
  split
  · refine Follows.ite hs.failCmd (Follows.ite hs ?_)
    split
    · exact hs
    · have k := hp _ _ _ (by assumption) _ _ hs
      refine Follows.ite k.2 ?_
      split
      · exact hs.failCmd
      · exact Follows.ite hs k.1.started
  · exact hs

theorem Follows.fetch {site : Nat} {q : Nat} {cyc : Nat} {h : Nat} {n_ : Nat} (hs : Follows s₀ s) :
    Follows s₀ (s.fetch site q cyc h n_) := by
  induction n_ generalizing s site q cyc h with
  | zero => exact hs
  | succ n ih =>
    rw [State.fetch]
    refine Follows.ite ?_ ?_
    · exact hs
    · refine Follows.ite ?_ ?_
      · split
        rename_i e2
        have h1 : Follows s₀ _ := Follows.of_pair2 e2 hs.drawByte
        exact h1.failCmd
      · split
        · split
          rename_i e4
          have h3 : Follows s₀ _ := Follows.of_pair2 e4 hs.vaultBad.drawByte
          exact h3.failCmd
        · extract_lets +onlyGivenNames t5 t6 t7
          apply ih
          exact hs.setQueue.bump.showWait

theorem execCmdFetch_follows {site : Nat} {q : Nat} {cyc : Nat} (hs : Follows s₀ s) :
    AnsFollows s₀ (execCmdFetch site q cyc s) := by
  unfold execCmdFetch
  refine AnsFollows.onUnit ?_
  split
  · exact hs
  · refine Follows.ite ?_ ?_
    · exact hs.fetch
    · exact hs

theorem Follows.setTail {site : Nat} {q : Nat} {v : Nat} (hs : Follows s₀ s) : Follows s₀ (s.setTail site q v) := by
  unfold State.setTail
  refine Follows.ite ?_ ?_
  · exact hs.flag
  · exact hs.wr

theorem Follows.writeStats {site : Nat} {c : RunCmd} (hs : Follows s₀ s) : Follows s₀ (s.writeStats site c) := by
  unfold State.writeStats
  refine Follows.ite ?_ ?_
  · exact hs
  · extract_lets +onlyGivenNames t1 t2
    have h3 : Follows s₀ t2 := hs.bump.wrs
    clear_value t2
    refine Follows.each ?_ ?_
    · exact h3
    · intro _ _ h4
      exact h4.wr.wr

theorem Follows.finish {site : Nat} {q : Nat} {cyc : Nat} {c : RunCmd} (hs : Follows s₀ s) :
    Follows s₀ (s.finish site q cyc c) := by
  unfold State.finish
  extract_lets +onlyGivenNames t1
  have h2 : Follows s₀ t1 := by
    refine Follows.each ?_ ?_
    · exact hs
    · intro _ _ h3
      exact h3.write
  clear_value t1
  extract_lets +onlyGivenNames t4
  have h5 : Follows s₀ t4 := by
    refine Follows.iff ?_ ?_
    · exact h2
    · intro _ h6
      split
      extract_lets +onlyGivenNames t7
      have h8 : Follows s₀ t7 := by
        refine Follows.each ?_ ?_
        · exact h6
        · intro _ _ h9
          exact h9.wr
      clear_value t7
      extract_lets +onlyGivenNames t10
      exact h8.setQueue
  clear_value t4
  extract_lets +onlyGivenNames t11
  have h12 : Follows s₀ t11 := h5.writeStats
  clear_value t11
  split
  · split
    · exact h12.vaultBad.flag
    · exact h12
  · exact h12

theorem Follows.haltLate {site : Nat} {cyc : Nat} {c : RunCmd} (hs : Follows s₀ s) :
    Follows s₀ (s.haltLate site cyc c) := by
  unfold State.haltLate
  refine Follows.each ?_ ?_
  · exact hs
  · intro _ _ h1
    refine Follows.ite ?_ ?_
    · exact h1.failCmd
    · exact h1

theorem Follows.failRun {site : Nat} {cyc : Nat} {c : RunCmd} {stopped : Bool} {bad : Nat} {par : Nat}
    (hs : Follows s₀ s) :
    Follows s₀ (s.failRun site cyc c stopped bad par) := by
  unfold State.failRun
  extract_lets +onlyGivenNames t1
  have h2 : Follows s₀ t1 := by
    refine Follows.ite ?_ ?_
    · exact hs
    · exact hs.spoil.retire
  clear_value t1
  extract_lets +onlyGivenNames t3
  have h4 : Follows s₀ t3 := by
    refine Follows.iff ?_ ?_
    · exact h2
    · intro _ h5
      exact h5.sramUncorr
  clear_value t3
  extract_lets +onlyGivenNames t6
  have h7 : Follows s₀ t6 := by
    refine Follows.iff ?_ ?_
    · exact h4
    · intro _ h8
      exact h8.parity
  clear_value t6
  extract_lets +onlyGivenNames t9
  have h10 : Follows s₀ t9 := h7.failCmd
  clear_value t9
  refine Follows.iff ?_ ?_
  · exact h10
  · intro _ h11
    exact h11.haltLate

theorem execCommandComplete_follows {site : Nat} {q : Nat} {index : Nat} {cyc : Nat} {corr : Nat} {bad : Nat} {vcorr : Nat}
    (hs : Follows s₀ s) :
    AnsFollows s₀ (execCommandComplete site q index cyc corr bad s vcorr) := by
  unfold execCommandComplete
  refine AnsFollows.onUnit ?_
  split
  · exact hs
  · extract_lets +onlyGivenNames t1
    have h2 : Follows s₀ t1 := hs.sat
    clear_value t1
    extract_lets +onlyGivenNames t3
    have h4 : Follows s₀ t3 := by
      unfold t3
      split
      · exact h2.sat
      · exact h2
    clear_value t3
    extract_lets +onlyGivenNames t5 t6
    refine Follows.ite ?_ ?_
    · exact h4.failRun.checkPool
    · refine Follows.ite ?_ ?_
      · exact h4
      · extract_lets +onlyGivenNames t7 t8
        have h9 : Follows s₀ t8 := h4.finish.retire.checkPool
        clear_value t8
        refine Follows.ite ?_ ?_
        · exact h9.failCmd
        · exact h9.doneOk

theorem execRemoteSignalArrival_follows {site : Nat} {counter : Nat} {cyc : Nat} (hs : Follows s₀ s) :
    AnsFollows s₀ (execRemoteSignalArrival site counter cyc s) := by
  unfold execRemoteSignalArrival
  refine AnsFollows.onUnit ?_
  split
  · exact hs
  · extract_lets +onlyGivenNames t1
    exact hs.setTile.landPackets.land

theorem execLoopBody_follows {site : Nat} {q : Nat} {cyc : Nat} (hs : Follows s₀ s) :
    AnsFollows s₀ (execLoopBody site q cyc s) := by
  unfold execLoopBody
  refine AnsFollows.onUnit ?_
  split
  · exact hs
  · refine Follows.ite ?_ ?_
    · exact hs
    · refine Follows.ite ?_ ?_
      · exact hs.failCmd
      · refine Follows.ite ?_ ?_
        · exact hs
        · extract_lets +onlyGivenNames t1 t2 t3 t4 t5
          split
          · exact hs.failCmd
          · extract_lets +onlyGivenNames t6
            exact hs.setQueue.showWait

theorem execStopQueue_follows {site : Nat} {q : Nat} {cyc : Nat} (hs : Follows s₀ s) :
    AnsFollows s₀ (execStopQueue site q cyc s) := by
  unfold execStopQueue
  refine AnsFollows.onUnit ?_
  split
  · exact hs
  · refine Follows.ite ?_ ?_
    · exact hs
    · refine Follows.ite ?_ ?_
      · exact hs.failCmd
      · refine Follows.ite ?_ ?_
        · exact hs
        · refine Follows.ite ?_ ?_
          · exact hs.failCmd
          · extract_lets +onlyGivenNames t1
            exact hs.setQueue.showWait.checkStop

theorem syncPlan_follows {j : TileJob} {i : Inst} : (syncPlan j i).follows := fun _ _ h => ⟨h, h⟩

theorem execSync_follows {site q cyc : Nat} (hs : Follows s₀ s) : AnsFollows s₀ (execSync site q cyc s) :=
  AnsFollows.onUnit (hs.issue fun _ _ => .some syncPlan_follows)

theorem banksPlan_follows {site q cyc tgt : Nat} {j : TileJob} {i : Inst} : (s.banksPlan site q cyc tgt j i).follows := fun _ _ h => ⟨h.each fun _ _ k => k.setTile.wr, h⟩

theorem Follows.banks {site q cyc tgt : Nat} (hs : Follows s₀ s) : Follows s₀ (s.banks site q cyc tgt) :=
  hs.issue fun _ _ => .some banksPlan_follows

theorem execBanksOn_follows {site : Nat} {q : Nat} {cyc : Nat} (hs : Follows s₀ s) :
    AnsFollows s₀ (execBanksOn site q cyc s) := by
  unfold execBanksOn
  exact AnsFollows.onUnit hs.banks

theorem execBanksRetain_follows {site : Nat} {q : Nat} {cyc : Nat} (hs : Follows s₀ s) :
    AnsFollows s₀ (execBanksRetain site q cyc s) := by
  unfold execBanksRetain
  exact AnsFollows.onUnit hs.banks

theorem execBanksOff_follows {site : Nat} {q : Nat} {cyc : Nat} (hs : Follows s₀ s) :
    AnsFollows s₀ (execBanksOff site q cyc s) := by
  unfold execBanksOff
  exact AnsFollows.onUnit hs.banks

theorem Follows.zeroBank {site : Nat} {b : Nat} (hs : Follows s₀ s) : Follows s₀ (s.zeroBank site b) := by
  unfold State.zeroBank
  exact hs.memFilter

theorem execBankTransitionDone_follows {site : Nat} {bank : Nat} {cyc : Nat} (hs : Follows s₀ s) :
    AnsFollows s₀ (execBankTransitionDone site bank cyc s) := by
  unfold execBankTransitionDone
  refine AnsFollows.onUnit ?_
  split
  · exact hs
  · refine Follows.ite ?_ ?_
    · exact hs
    · extract_lets +onlyGivenNames t1
      have h2 : Follows s₀ t1 := by
        refine Follows.ite ?_ ?_
        · exact hs.zeroBank
        · exact hs
      clear_value t1
      extract_lets +onlyGivenNames t3 t4 t5 t6
      have h7 : Follows s₀ t6 := h2.setTile.wr
      clear_value t6
      refine Follows.each ?_ ?_
      · exact h7
      · intro _ _ h8
        exact h8.doneOk

theorem Follows.sampleShaping {site : Nat} {cyc : Nat} (hs : Follows s₀ s) :
    Follows s₀ (s.sampleShaping site cyc) := by
  unfold State.sampleShaping
  exact hs.setTile.wr

theorem Follows.tileJobStart {site : Nat} {cyc : Nat} {j : TileJob} {qs : List (Nat × Nat × Nat × Nat × Nat)}
    (hs : Follows s₀ s) :
    Follows s₀ (s.tileJobStart site cyc j qs) := by
  unfold State.tileJobStart
  extract_lets +onlyGivenNames t1 t2
  have h3 : Follows s₀ t2 := hs.setTile.sampleShaping
  clear_value t2
  extract_lets +onlyGivenNames t4
  have h5 : Follows s₀ t4 := by
    refine Follows.each ?_ ?_
    · exact h3
    · intro _ _ h6
      exact h6.wr
  clear_value t4
  extract_lets +onlyGivenNames t7
  have h8 : Follows s₀ t7 := by
    refine Follows.each ?_ ?_
    · exact h5
    · intro _ _ h9
      exact h9.wrs
  clear_value t7
  refine Follows.each ?_ ?_
  · exact h8
  · intro _ _ h10
    extract_lets +onlyGivenNames t11
    have h12 : Follows s₀ t11 := h10.wrs
    clear_value t11
    exact h12.setQueue.setTail

theorem Follows.showScrub {site : Nat} (hs : Follows s₀ s) : Follows s₀ (s.showScrub site) := by
  unfold State.showScrub
  extract_lets +onlyGivenNames t1
  refine Follows.ite ?_ ?_
  · refine Follows.iff ?_ ?_
    · exact hs.wr
    · intro _ h2
      exact h2.wr
  · exact hs

theorem Follows.jobEndScrub {site : Nat} {cyc : Nat} (hs : Follows s₀ s) : Follows s₀ (s.jobEndScrub site cyc) := by
  unfold State.jobEndScrub
  extract_lets +onlyGivenNames t1 t2
  have h3 : Follows s₀ t2 := by
    refine Follows.each ?_ ?_
    · exact hs
    · intro _ _ h4
      exact h4.retire
  clear_value t2
  extract_lets +onlyGivenNames t5
  have h6 : Follows s₀ t5 := by
    refine Follows.each ?_ ?_
    · exact h3
    · intro _ _ h7
      exact h7.landPackets
  clear_value t5
  extract_lets +onlyGivenNames t8
  have h9 : Follows s₀ t8 := by
    refine Follows.each ?_ ?_
    · exact h6
    · intro _ _ h10
      exact h10.landPackets
  clear_value t8
  extract_lets +onlyGivenNames t11
  have h12 : Follows s₀ t11 := h9.rampDown
  clear_value t11
  extract_lets +onlyGivenNames t13 t14
  have h15 : Follows s₀ t14 := h12.setTile
  clear_value t14
  extract_lets +onlyGivenNames t16
  have h17 : Follows s₀ t16 := by
    refine Follows.each ?_ ?_
    · exact h15
    · intro _ _ h18
      exact h18.wr
  clear_value t16
  extract_lets +onlyGivenNames t19
  have h20 : Follows s₀ t19 := by
    refine Follows.each ?_ ?_
    · exact h17
    · intro _ _ h21
      exact h21.wr
  clear_value t19
  exact h20.wr

theorem Follows.fullScrub {site : Nat} {cyc : Nat} (hs : Follows s₀ s) : Follows s₀ (s.fullScrub site cyc) := by
  unfold State.fullScrub
  extract_lets +onlyGivenNames t1
  have h2 : Follows s₀ t1 := hs.jobEndScrub
  clear_value t1
  extract_lets +onlyGivenNames t3
  have h4 : Follows s₀ t3 := h2.zeroKeys
  clear_value t3
  extract_lets +onlyGivenNames t5 t6
  have h7 : Follows s₀ t6 := h4.setTile
  clear_value t6
  extract_lets +onlyGivenNames t8 t9
  have h10 : Follows s₀ t9 := h7.resetRegs.resetRegs.resetRegs
  clear_value t9
  extract_lets +onlyGivenNames t11
  have h12 : Follows s₀ t11 := h10.accClear
  clear_value t11
  exact h12.wrs

theorem Follows.resetTile {site : Nat} (hs : Follows s₀ s) : Follows s₀ (s.resetTile site) := by
  unfold State.resetTile
  extract_lets +onlyGivenNames t1
  have h2 : Follows s₀ t1 := hs.zeroKeys
  clear_value t1
  extract_lets +onlyGivenNames t3
  have h4 : Follows s₀ t3 := h2.setTile.resetRegs
  clear_value t3
  exact h4.accClear

end Sys2Proof.Machine
end

