-- ==== Sys2Proof/Laws/Follows/Adopt.lean ====
section
/-! SUPPORT. What the operations and meanings of Machine/Adopt.lean do to the state as a whole (`Follows`). -/

namespace Sys2Proof.Machine

variable {s₀ s : State}

theorem Follows.setDriver {v : Nat} {d : Option (Nat × Nat)} (hs : Follows s₀ s) : Follows s₀ (s.setDriver v d) := by
  unfold State.setDriver
  split
  · exact hs.wrs
  · exact hs.wrs

theorem Follows.adoptOne {v : Nat} (hs : Follows s₀ s) : Follows s₀ (s.adoptOne v) := by
  unfold State.adoptOne
  extract_lets +onlyGivenNames t1
  clear_value t1
  split
  · exact hs
  · extract_lets +onlyGivenNames t2
    exact hs.wrs.setDriver

theorem Follows.adopt (hs : Follows s₀ s) : Follows s₀ (s.adopt) := by
  unfold State.adopt
  extract_lets +onlyGivenNames t1
  have h2 : Follows s₀ t1 := by
    refine Follows.each ?_ ?_
    · exact hs
    · intro _ _ h3
      exact h3.wrs
  clear_value t1
  extract_lets +onlyGivenNames t4
  have h5 : Follows s₀ t4 := by
    refine Follows.each ?_ ?_
    · exact h2
    · intro _ _ h6
      extract_lets +onlyGivenNames t7
      have h8 : Follows s₀ t7 := h6.wr
      clear_value t7
      split
      · exact h8.wrs.setDriver
      · exact h8.wrs.setDriver
  clear_value t4
  refine Follows.each ?_ ?_
  · exact h5
  · intro _ _ h9
    exact h9.adoptOne

theorem Follows.unbindTile {site : Nat} (hs : Follows s₀ s) : Follows s₀ (s.unbindTile site) := by
  unfold State.unbindTile
  extract_lets +onlyGivenNames t1
  refine Follows.each ?_ ?_
  · exact hs
  · intro _ _ h2
    refine Follows.ite ?_ ?_
    · exact h2
    · exact h2.setDriver

theorem Follows.rebindTile {site : Nat} (hs : Follows s₀ s) : Follows s₀ (s.rebindTile site) := by
  unfold State.rebindTile
  extract_lets +onlyGivenNames t1
  split
  · refine Follows.ite ?_ ?_
    · exact hs
    · exact hs.setDriver
  · refine Follows.ite ?_ ?_
    · refine Follows.ite ?_ ?_
      · exact hs
      · exact hs.setDriver
    · refine Follows.setDriver ?_
      refine Follows.ite ?_ ?_
      · exact hs
      · exact hs.setDriver

theorem Follows.standIn {site : Nat} {v : Nat} (hs : Follows s₀ s) : Follows s₀ (s.standIn site v) := by
  unfold State.standIn
  exact hs.wrs.setDriver

theorem Follows.standIns {x : Nat} {tiles : List Nat} {l : List (Nat × Nat)} (hs : Follows s₀ s) :
    Follows s₀ (s.standIns x tiles l) := by
  unfold State.standIns
  refine Follows.each ?_ ?_
  · exact hs
  · intro _ _ h1
    refine Follows.ite ?_ ?_
    · exact h1.standIn
    · exact h1

theorem Follows.endStandIn {site : Nat} (hs : Follows s₀ s) : Follows s₀ (s.endStandIn site) := by
  unfold State.endStandIn
  refine Follows.ite ?_ ?_
  · exact hs
  · extract_lets +onlyGivenNames t1 t2
    have h3 : Follows s₀ t2 := hs.wrs.setDriver
    clear_value t2
    extract_lets +onlyGivenNames t4
    split
    · refine Follows.ite ?_ ?_
      · exact h3.setDriver
      · exact h3
    · split
      · refine Follows.ite ?_ ?_
        · exact h3.setDriver
        · exact h3
      · exact h3

end Sys2Proof.Machine
end

