-- ==== Sys2Proof/Laws/Follows/Job.lean ====
section
/-! SUPPORT. What the operations and meanings of Machine/Job.lean do to the state as a whole (`Follows`). -/

namespace Sys2Proof.Machine

variable {s₀ s : State}

theorem Follows.aclkMark (hs : Follows s₀ s) : Follows s₀ (s.aclkMark) := by
  unfold State.aclkMark
  exact hs.upd

theorem Follows.supplyMark (hs : Follows s₀ s) : Follows s₀ (s.supplyMark) := by
  unfold State.supplyMark
  extract_lets +onlyGivenNames t1 t2
  exact hs.upd

theorem Follows.addBalance {g : Nat} {d : Int} (hs : Follows s₀ s) : Follows s₀ (s.addBalance g d) := by
  unfold State.addBalance
  exact hs.wr

theorem Follows.setJobs {l : List JobRec} (hs : Follows s₀ s) : Follows s₀ (s.setJobs l) := by
  unfold State.setJobs
  exact hs.upd.wr

theorem Follows.putJob {j : JobRec} (hs : Follows s₀ s) : Follows s₀ (s.putJob j) := by
  unfold State.putJob
  exact hs.setJobs

theorem Follows.lastJob {j : JobRec} (hs : Follows s₀ s) : Follows s₀ (s.lastJob j) := by
  unfold State.lastJob
  exact hs.setJobs

theorem Follows.dropJob {id : Nat} (hs : Follows s₀ s) : Follows s₀ (s.dropJob id) := by
  unfold State.dropJob
  exact hs.setJobs

theorem Follows.showTiles {x : Nat} (hs : Follows s₀ s) : Follows s₀ (s.showTiles x) := by
  unfold State.showTiles
  extract_lets +onlyGivenNames t1
  refine Follows.ite ?_ ?_
  · exact hs
  · exact hs.wrs

theorem Follows.jobCount {x : Nat} {q : Nat} {k : Nat} (hs : Follows s₀ s) : Follows s₀ (s.jobCount x q k) := by
  unfold State.jobCount
  refine Follows.ite ?_ ?_
  · exact hs.bump
  · split
    · exact hs.bump
    · exact hs.bump
    · exact hs.bump
    · exact hs.bump

theorem Follows.freeDone {x : Nat} (hs : Follows s₀ s) : Follows s₀ (s.freeDone x) := by
  unfold State.freeDone
  refine Follows.each ?_ ?_
  · exact hs
  · intro _ _ h1
    refine Follows.ite ?_ ?_
    · exact h1.wr
    · exact h1

theorem Follows.stepEnd {j : JobRec} {status : Nat} (hs : Follows s₀ s) : Follows s₀ (s.stepEnd j status) := by
  unfold State.stepEnd
  refine Follows.ite ?_ ?_
  · exact hs
  · extract_lets +onlyGivenNames t1 t2 t3
    have h4 : Follows s₀ t3 := hs.wr.bump
    clear_value t3
    extract_lets +onlyGivenNames t5
    have h6 : Follows s₀ t5 := by
      refine Follows.ite ?_ ?_
      · exact h4.wr
      · refine Follows.each ?_ ?_
        · exact h4
        · intro _ _ h7
          extract_lets +onlyGivenNames t8
          have h9 : Follows s₀ t8 := h7.bump
          clear_value t8
          refine Follows.ite ?_ ?_
          · exact h9.wr
          · exact h9
    clear_value t5
    exact h6.freeDone

theorem Follows.leaveTables {j : JobRec} (hs : Follows s₀ s) : Follows s₀ (s.leaveTables j) := by
  unfold State.leaveTables
  refine Follows.each ?_ ?_
  · exact hs
  · intro _ _ h1
    exact h1.leaveBank

theorem Follows.markEnd {j : JobRec} (hs : Follows s₀ s) : Follows s₀ (s.markEnd j) := by
  unfold State.markEnd
  refine Follows.iff ?_ ?_
  · exact hs
  · intro _ h1
    exact h1.setSlice

theorem Follows.endJob {j : JobRec} {status : Nat} (hs : Follows s₀ s) : Follows s₀ (s.endJob j status) := by
  unfold State.endJob
  extract_lets +onlyGivenNames t1
  have h2 : Follows s₀ t1 := hs.lastJob.markEnd
  clear_value t1
  extract_lets +onlyGivenNames t3
  have h4 : Follows s₀ t3 := h2.leaveTables
  clear_value t3
  extract_lets +onlyGivenNames t5
  have h6 : Follows s₀ t5 := h4.jobCount
  clear_value t5
  extract_lets +onlyGivenNames t7
  have h8 : Follows s₀ t7 := h6.stepEnd
  clear_value t7
  refine Follows.each ?_ ?_
  · exact h8
  · intro _ _ h9
    exact h9.wr

theorem Follows.submit {x : Nat} {q : Nat} {index : Nat} {model : Nat} {entries : List (Nat × Nat)} {d : List Byte}
    (hs : Follows s₀ s) :
    Follows s₀ (s.submit x q index model entries d) := by
  unfold State.submit
  extract_lets +onlyGivenNames t1
  exact hs.upd.setJobs.jobCount

theorem Follows.fetchHead {x : Nat} {q : Nat} {n_ : Nat} (hs : Follows s₀ s) : Follows s₀ (s.fetchHead x q n_) := by
  induction n_ generalizing s x q with
  | zero => exact hs
  | succ n ih =>
    rw [State.fetchHead]
    refine Follows.ite ?_ ?_
    · exact hs
    · refine Follows.ite ?_ ?_
      · exact hs.wr
      · extract_lets +onlyGivenNames t1 t2 t3
        have h4 : Follows s₀ t3 := hs.submit.bump
        clear_value t3
        split
        · exact h4
        · split
          · apply ih
            exact h4.endJob
          · exact h4

theorem Follows.fetchNext {x : Nat} {q : Nat} (hs : Follows s₀ s) : Follows s₀ (s.fetchNext x q) := by
  unfold State.fetchNext
  exact hs.fetchHead

theorem Follows.fetchHeads (hs : Follows s₀ s) : Follows s₀ (s.fetchHeads) := by
  unfold State.fetchHeads
  refine Follows.each ?_ ?_
  · exact hs
  · intro _ _ h1
    refine Follows.ite ?_ ?_
    · exact h1
    · refine Follows.each ?_ ?_
      · exact h1
      · intro _ _ h2
        exact h2.fetchNext

theorem Follows.put {h : Nat} {a : Nat} {l : List Byte} (hs : Follows s₀ s) : Follows s₀ (s.put h a l) := by
  unfold State.put
  exact hs.hStore

theorem Follows.writePolicy {x : Nat} {a : Nat} {mode : Nat} {split : Nat} {held : Nat} (hs : Follows s₀ s) :
    Follows s₀ (s.writePolicy x a mode split held) := by
  unfold State.writePolicy
  refine Follows.ite ?_ ?_
  · exact hs
  · extract_lets +onlyGivenNames t1 t2
    exact hs.put

theorem Follows.admitJob {j : JobRec} {tiles : List Nat} (hs : Follows s₀ s) : Follows s₀ (s.admitJob j tiles) := by
  unfold State.admitJob
  extract_lets +onlyGivenNames t1 t2 t3 t4 t5 t6 t7 t8 t9 t10 t11 t12 t13
  have h14 : Follows s₀ t13 := hs.putJob.addBalance
  clear_value t13
  extract_lets +onlyGivenNames t15
  have h16 : Follows s₀ t15 := by
    refine Follows.each ?_ ?_
    · exact h14
    · intro _ _ h17
      exact h17.holdBank
  clear_value t15
  extract_lets +onlyGivenNames t18
  have h19 : Follows s₀ t18 := h16.jobCount.writePolicy
  clear_value t18
  extract_lets +onlyGivenNames t20
  have h21 : Follows s₀ t20 := by
    refine Follows.each ?_ ?_
    · exact h19
    · intro _ _ h22
      refine Follows.ite ?_ ?_
      · exact h22.flag
      · refine Follows.ite ?_ ?_
        · exact h22
        · exact h22.wr
  clear_value t20
  refine Follows.ite ?_ ?_
  · exact h21
  · exact h21.upd.showTiles

theorem Follows.placeAll {shut : List (Nat × Nat)} {blocks : List (Nat × List Nat × Nat)} {n_ : Nat}
    (hs : Follows s₀ s) :
    Follows s₀ (s.placeAll shut blocks n_) := by
  induction n_ generalizing s shut blocks with
  | zero => exact hs
  | succ n ih =>
    rw [State.placeAll]
    split
    · exact hs
    · extract_lets +onlyGivenNames t1
      split
      · split
        · apply ih
          exact hs.admitJob.fetchNext
        · extract_lets +onlyGivenNames t2
          apply ih
          exact hs
      · apply ih
        exact hs.endJob.fetchNext

theorem Follows.placeRadio (hs : Follows s₀ s) : Follows s₀ (s.placeRadio) := by
  unfold State.placeRadio
  refine Follows.each ?_ ?_
  · exact hs
  · intro _ _ h1
    split
    · extract_lets +onlyGivenNames t2 t3
      refine Follows.ite ?_ ?_
      · exact h1.admitJob
      · exact h1
    · exact h1.endJob

theorem Follows.decision (hs : Follows s₀ s) : Follows s₀ (s.decision) := by
  unfold State.decision
  extract_lets +onlyGivenNames t1
  have h2 : Follows s₀ t1 := hs.placeRadio
  clear_value t1
  refine Follows.ite ?_ ?_
  · exact h2.fetchHeads.placeAll
  · exact h2

end Sys2Proof.Machine
end

