-- ==== Sys2Proof/Laws/Follows/Air.lean ====
section
/-! SUPPORT. What the operations and meanings of Machine/Air.lean do to the state as a whole (`Follows`). -/

namespace Sys2Proof.Machine

variable {s₀ s : State}

theorem Follows.setUnit {c : Nat} {u : Nat} {x : UnitState} (hs : Follows s₀ s) : Follows s₀ (s.setUnit c u x) := by
  unfold State.setUnit
  extract_lets +onlyGivenNames t1 t2
  have h3 : Follows s₀ t2 := hs.setCluster
  clear_value t2
  extract_lets +onlyGivenNames t4 t5
  split
  · exact h3.wrs
  · exact h3.wrs

theorem Follows.showAhead {c : Nat} (hs : Follows s₀ s) : Follows s₀ (s.showAhead c) := by
  unfold State.showAhead
  extract_lets +onlyGivenNames t1 t2 t3
  exact hs.wr

theorem Follows.setTables {c : Nat} {l : List SlotTable} (hs : Follows s₀ s) : Follows s₀ (s.setTables c l) := by
  unfold State.setTables
  exact hs.setCluster.showAhead

theorem Follows.putTable {c : Nat} {t : SlotTable} (hs : Follows s₀ s) : Follows s₀ (s.putTable c t) := by
  unfold State.putTable
  exact hs.setTables

theorem Follows.setCarrier {k : Nat} {x : CarrierState} (hs : Follows s₀ s) : Follows s₀ (s.setCarrier k x) := by
  unfold State.setCarrier
  exact hs.upd

theorem Follows.showAir (hs : Follows s₀ s) : Follows s₀ (s.showAir) := by
  unfold State.showAir
  exact hs.wrs

theorem Follows.showNow (hs : Follows s₀ s) : Follows s₀ (s.showNow) := by
  unfold State.showNow
  extract_lets +onlyGivenNames t1 t2
  exact hs.wrs

theorem Follows.carrierOff {k : Nat} (hs : Follows s₀ s) : Follows s₀ (s.carrierOff k) := by
  unfold State.carrierOff
  extract_lets +onlyGivenNames t1 t2 t3
  have h4 : Follows s₀ t3 := hs.setCluster
  clear_value t3
  extract_lets +onlyGivenNames t5 t6
  have h7 : Follows s₀ t6 := h4.upd
  clear_value t6
  exact h7.setCarrier.wr.showAir

theorem Follows.radioStop (hs : Follows s₀ s) : Follows s₀ (s.radioStop) := by
  unfold State.radioStop
  extract_lets +onlyGivenNames t1 t2
  have h3 : Follows s₀ t2 := hs.upd
  clear_value t2
  extract_lets +onlyGivenNames t4
  have h5 : Follows s₀ t4 := by
    refine Follows.each ?_ ?_
    · exact h3
    · intro _ _ h6
      refine Follows.ite ?_ ?_
      · exact h6
      · exact h6.carrierOff
  clear_value t4
  extract_lets +onlyGivenNames t7
  have h8 : Follows s₀ t7 := by
    refine Follows.each ?_ ?_
    · exact h5
    · intro _ _ h9
      extract_lets +onlyGivenNames t10
      have h11 : Follows s₀ t10 := by
        refine Follows.each ?_ ?_
        · exact h9
        · intro _ _ h12
          exact h12.leaveBank.leaveBank
      clear_value t10
      exact h11.setTables
  clear_value t7
  exact h8.wr.wr

theorem Follows.settleStop (hs : Follows s₀ s) : Follows s₀ (s.settleStop) := by
  unfold State.settleStop
  split
  · refine Follows.ite ?_ ?_
    · exact hs.radioStop
    · exact hs
  · exact hs

theorem Follows.airTime {t : Nat} (hs : Follows s₀ s) : Follows s₀ (s.airTime t) := by
  unfold State.airTime
  exact hs.atTime.settleStop.showNow

theorem Follows.fapi {k : Nat} {msg : Nat} {l : List Nat} (hs : Follows s₀ s) : Follows s₀ (s.fapi k msg l) := by
  unfold State.fapi
  exact hs.emit

theorem Follows.showCarriers (hs : Follows s₀ s) : Follows s₀ (s.showCarriers) := by
  unfold State.showCarriers
  extract_lets +onlyGivenNames t1
  have h2 : Follows s₀ t1 := by
    refine Follows.each ?_ ?_
    · exact hs
    · intro _ _ h3
      extract_lets +onlyGivenNames t4
      exact h3.wrs
  clear_value t1
  extract_lets +onlyGivenNames t5
  have h6 : Follows s₀ t5 := by
    refine Follows.each ?_ ?_
    · exact h2
    · intro _ _ h7
      extract_lets +onlyGivenNames t8
      exact h7.wrs
  clear_value t5
  refine Follows.each ?_ ?_
  · exact h6
  · intro _ _ h9
    extract_lets +onlyGivenNames t10
    exact h9.wr

theorem Follows.tableReject {c : Nat} {id : Nat} {code : Nat} (hs : Follows s₀ s) :
    Follows s₀ (s.tableReject c id code) := by
  unfold State.tableReject
  exact hs.wrs.flag

theorem Follows.carriersAtSeal {c : Nat} {n : Nat} (hs : Follows s₀ s) : Follows s₀ (s.carriersAtSeal c n) := by
  unfold State.carriersAtSeal
  refine Follows.each ?_ ?_
  · exact hs
  · intro _ _ h1
    extract_lets +onlyGivenNames t2
    refine Follows.ite ?_ ?_
    · extract_lets +onlyGivenNames t3
      have h4 : Follows s₀ t3 := by
        refine Follows.ite ?_ ?_
        · exact h1.setCarrier
        · exact h1
      clear_value t3
      exact h4.wr
    · exact h1

theorem Follows.submitWorks {c : Nat} {tab : SlotTable} {works : List (Nat × List (BitVec 8))} (hs : Follows s₀ s) :
    Follows s₀ (s.submitWorks c tab works) := by
  unfold State.submitWorks
  refine Follows.placeRadio ?_
  refine Follows.each ?_ ?_
  · exact hs
  · intro _ _ h1
    extract_lets +onlyGivenNames t2
    have h3 : Follows s₀ t2 := h1.submit
    clear_value t2
    split
    · exact h3.putJob
    · exact h3

theorem execTableSeal_follows {c : Nat} {bytes : List (BitVec 8)} {works : List (Nat × List (BitVec 8))} {t : Nat}
    (hs : Follows s₀ s) :
    AnsFollows s₀ (execTableSeal c bytes t s works) := by
  unfold execTableSeal
  refine AnsFollows.onUnit ?_
  extract_lets +onlyGivenNames t1
  have h2 : Follows s₀ t1 := hs.airTime
  clear_value t1
  extract_lets +onlyGivenNames t3 t4 t5 t6 t7 t8 t9 t10 t11
  split
  · exact h2
  · extract_lets +onlyGivenNames t12
    have h13 : Follows s₀ t12 := h2.carriersAtSeal.showAir
    clear_value t12
    extract_lets +onlyGivenNames t14 t15 t16
    exact h13.setCluster.setTables.submitWorks
  · exact h2.tableReject

theorem execPatchWrite_follows {c : Nat} {l : Nat} {id : Nat} {bytes : List (BitVec 8)} {done : Bool} {t : Nat}
    (hs : Follows s₀ s) :
    AnsFollows s₀ (execPatchWrite c l id bytes done t s) := by
  unfold execPatchWrite
  refine AnsFollows.onUnit ?_
  extract_lets +onlyGivenNames t1
  have h2 : Follows s₀ t1 := hs.airTime
  clear_value t1
  extract_lets +onlyGivenNames t3 t4 t5
  split
  · exact h2.tableReject
  · extract_lets +onlyGivenNames t6
    split
    · exact h2.putTable
    · exact h2.tableReject

theorem execPatchCutoff_follows {c : Nat} {id : Nat} {t : Nat} (hs : Follows s₀ s) :
    AnsFollows s₀ (execPatchCutoff c id t s) := by
  unfold execPatchCutoff
  refine AnsFollows.onUnit ?_
  extract_lets +onlyGivenNames t1
  have h2 : Follows s₀ t1 := hs.airTime
  clear_value t1
  extract_lets +onlyGivenNames t3
  split
  · exact h2
  · refine Follows.ite ?_ ?_
    · exact h2.putTable
    · exact h2

theorem Follows.makeReady (hs : Follows s₀ s) : Follows s₀ (s.makeReady) := by
  unfold State.makeReady
  refine Follows.ite ?_ ?_
  · extract_lets +onlyGivenNames t1
    exact hs.upd.wrs
  · exact hs

theorem execTableFire_follows {c : Nat} {id : Nat} {t : Nat} (hs : Follows s₀ s) :
    AnsFollows s₀ (execTableFire c id t s) := by
  unfold execTableFire
  refine AnsFollows.onUnit ?_
  extract_lets +onlyGivenNames t1
  have h2 : Follows s₀ t1 := hs.airTime.makeReady
  clear_value t1
  extract_lets +onlyGivenNames t3 t4
  split
  · exact h2
  · refine Follows.ite ?_ ?_
    · exact h2
    · extract_lets +onlyGivenNames t5 t6 t7 t8 t9 t10 t11
      have h12 : Follows s₀ t11 := h2.putTable.flag
      clear_value t11
      extract_lets +onlyGivenNames t13
      have h14 : Follows s₀ t13 := h12.holdBank.holdBank
      clear_value t13
      refine Follows.each ?_ ?_
      · exact h14
      · intro _ _ h15
        split
        · exact h15.sat
        · exact h15

theorem execSlotMissed_follows {c : Nat} {id : Nat} {t : Nat} (hs : Follows s₀ s) :
    AnsFollows s₀ (execSlotMissed c id t s) := by
  unfold execSlotMissed
  refine AnsFollows.onUnit ?_
  extract_lets +onlyGivenNames t1
  have h2 : Follows s₀ t1 := hs.airTime
  clear_value t1
  extract_lets +onlyGivenNames t3 t4 t5
  refine Follows.ite ?_ ?_
  · exact h2
  · exact h2.setCluster.sat.flag

theorem Follows.giveTrigger {c : Nat} {u : Nat} {g : Trigger} (hs : Follows s₀ s) :
    Follows s₀ (s.giveTrigger c u g) := by
  unfold State.giveTrigger
  extract_lets +onlyGivenNames t1
  refine Follows.ite ?_ ?_
  · exact hs.setUnit
  · refine Follows.ite ?_ ?_
    · exact hs.setUnit
    · exact hs.sat.flag

theorem Follows.fireEntry {c : Nat} {n : Nat} {e : BitVec 128} (hs : Follows s₀ s) :
    Follows s₀ (s.fireEntry c n e) := by
  unfold State.fireEntry
  extract_lets +onlyGivenNames t1
  split
  · exact hs.giveTrigger
  · exact hs.emit
  · split
    · exact hs.setTail
    · exact hs
  · refine Follows.ite ?_ ?_
    · exact hs.giveTrigger
    · exact hs

theorem Follows.setNoise {k : Nat} {stream : Nat} {group : Nat} {x : NoiseCell} (hs : Follows s₀ s) :
    Follows s₀ (s.setNoise k stream group x) := by
  unfold State.setNoise
  exact hs.upd

theorem Follows.noiseRecord {k : Nat} {id : Nat} {g32 : Nat} {stale : Nat} (hs : Follows s₀ s) :
    Follows s₀ (s.noiseRecord k id g32 stale) := by
  unfold State.noiseRecord
  extract_lets +onlyGivenNames t1 t2 t3 t4 t5
  have h6 : Follows s₀ t5 := hs.wrs.bump
  clear_value t5
  extract_lets +onlyGivenNames t7
  refine Follows.each ?_ ?_
  · exact h6
  · intro _ _ h8
    refine Follows.each ?_ ?_
    · exact h8
    · intro _ _ h9
      exact h9.wrs

theorem Follows.takeCtx {c l rnti n : Nat} {p : State × TrkCtx} (hp : s.takeCtx c l rnti n = some p)
    (hs : Follows s₀ s) : Follows s₀ p.1 := by
  unfold State.takeCtx at hp
  extract_lets at hp
  split at hp
  · cases hp
    exact hs
  · split at hp
    · cases hp
      exact hs.setCluster
    · split at hp
      · cases hp
      · cases hp
        exact hs.setCluster.sat

theorem Follows.trackKey {c l k : Nat} {tab : SlotTable} {key : Nat × List PilotPdu} (hs : Follows s₀ s) :
    Follows s₀ (s.trackKey c l k tab key) := by
  unfold State.trackKey
  split
  · exact hs.sat
  · have h := Follows.takeCtx (by assumption) hs
    extract_lets
    refine Follows.ite h ?_
    extract_lets
    exact h.setCluster.iff fun _ k => k.sat

theorem Follows.noiseSlot {k : Nat} {tab : SlotTable} {f : FrontEnd} (hs : Follows s₀ s) :
    Follows s₀ (s.noiseSlot k tab f) := by
  unfold State.noiseSlot
  extract_lets +onlyGivenNames t1
  refine Follows.each ?_ ?_
  · exact hs
  · intro _ _ h2
    refine Follows.each ?_ ?_
    · exact h2
    · intro _ _ h3
      extract_lets +onlyGivenNames t4 t5
      exact h3.setNoise

theorem Follows.equalise {c : Nat} {k : Nat} {tab : SlotTable} {f : FrontEnd} (hs : Follows s₀ s) :
    Follows s₀ (s.equalise c k tab f) := by
  unfold State.equalise
  extract_lets +onlyGivenNames t1
  have h2 : Follows s₀ t1 := by
    refine Follows.each ?_ ?_
    · exact hs
    · intro _ _ h3
      refine Follows.ite ?_ ?_
      · exact h3.scramble
      · exact h3.setBytes
  clear_value t1
  refine Follows.each ?_ ?_
  · exact h2
  · intro _ _ h4
    extract_lets +onlyGivenNames t5
    exact h4.setBytes

theorem Follows.frontEnd {c : Nat} {tab : SlotTable} {f : FrontEnd} (hs : Follows s₀ s) :
    Follows s₀ (s.frontEnd c tab f) := by
  unfold State.frontEnd
  split
  · exact hs
  · refine Follows.ite ?_ ?_
    · exact hs
    · extract_lets +onlyGivenNames t1 t2
      have h3 : Follows s₀ t2 := by
        refine Follows.equalise ?_
        refine Follows.each ?_ ?_
        · exact hs.noiseSlot
        · intro _ _ h4
          exact h4.trackKey
      clear_value t2
      refine Follows.each ?_ ?_
      · exact h3
      · intro _ _ h5
        extract_lets +onlyGivenNames t6
        split
        split
        extract_lets +onlyGivenNames t7
        refine Follows.iff ?_ ?_
        · exact h5.setNum.setNum
        · intro _ h8
          exact h8.sat

theorem execEntryTrigger_follows {c : Nat} {id : Nat} {i : Nat} {front : List FrontEnd} {t : Nat}
    (hs : Follows s₀ s) :
    AnsFollows s₀ (execEntryTrigger c id i front t s) := by
  unfold execEntryTrigger
  refine AnsFollows.onUnit ?_
  extract_lets +onlyGivenNames t1
  have h2 : Follows s₀ t1 := hs.airTime
  clear_value t1
  extract_lets +onlyGivenNames t3 t4
  split
  · exact h2
  · split
    · exact h2
    · refine Follows.ite ?_ ?_
      · exact h2
      · extract_lets +onlyGivenNames t5 t6 t7 t8
        have h9 : Follows s₀ t8 := h2.putTable
        clear_value t8
        extract_lets +onlyGivenNames t10
        have h11 : Follows s₀ t10 := by
          refine Follows.each ?_ ?_
          · exact h9
          · intro _ _ h12
            exact h12.frontEnd
        clear_value t10
        refine Follows.ite ?_ ?_
        · exact h11.fireEntry
        · exact h11

theorem execCondAbortFire_follows {c : Nat} {id : Nat} {l : Nat} {t : Nat} (hs : Follows s₀ s) :
    AnsFollows s₀ (execCondAbortFire c id l t s) := by
  unfold execCondAbortFire
  refine AnsFollows.onUnit ?_
  extract_lets +onlyGivenNames t1
  have h2 : Follows s₀ t1 := hs.airTime
  clear_value t1
  extract_lets +onlyGivenNames t3 t4
  split
  · exact h2
  · extract_lets +onlyGivenNames t5 t6 t7
    have h8 : Follows s₀ t7 := h2.putTable
    clear_value t7
    refine Follows.each ?_ ?_
    · exact h8
    · intro _ _ h9
      exact h9.fireEntry

theorem Follows.endRun {c : Nat} {u : Nat} (hs : Follows s₀ s) : Follows s₀ (s.endRun c u) := by
  unfold State.endRun
  exact hs.setUnit

theorem Follows.failStream {c : Nat} {u : Nat} {code : Nat} {tag : Nat} (hs : Follows s₀ s) :
    Follows s₀ (s.failStream c u code tag) := by
  unfold State.failStream
  split
  · exact hs
  · extract_lets +onlyGivenNames t1
    have h2 : Follows s₀ t1 := by
      refine Follows.each ?_ ?_
      · exact hs
      · intro _ _ h3
        exact h3.scramble
    clear_value t1
    extract_lets +onlyGivenNames t4
    have h5 : Follows s₀ t4 := h2.endRun.wrs
    clear_value t4
    exact h5.flag.sat

theorem Follows.stopCarriers {c : Nat} {n : Nat} (hs : Follows s₀ s) : Follows s₀ (s.stopCarriers c n) := by
  unfold State.stopCarriers
  refine Follows.each ?_ ?_
  · exact hs
  · intro _ _ h1
    refine Follows.ite ?_ ?_
    · exact h1.carrierOff.fapi
    · exact h1

theorem Follows.beamHold {k : Nat} {good : Bool} (hs : Follows s₀ s) : Follows s₀ (s.beamHold k good) := by
  unfold State.beamHold
  extract_lets +onlyGivenNames t1 t2 t3
  have h4 : Follows s₀ t3 := hs.setCarrier
  clear_value t3
  extract_lets +onlyGivenNames t5
  refine Follows.ite ?_ ?_
  · exact h4.wr
  · refine Follows.ite ?_ ?_
    · exact h4.wr.flag
    · exact h4

theorem execTableRelease_follows {c : Nat} {id : Nat} {decoded : List (Nat × Nat)} {weights : List Nat} {t : Nat}
    (hs : Follows s₀ s) :
    AnsFollows s₀ (execTableRelease c id decoded weights t s) := by
  unfold execTableRelease
  refine AnsFollows.onUnit ?_
  extract_lets +onlyGivenNames t1
  have h2 : Follows s₀ t1 := hs.airTime
  clear_value t1
  extract_lets +onlyGivenNames t3 t4
  split
  · exact h2
  · extract_lets +onlyGivenNames t5 t6 t7 t8 t9 t10
    refine Follows.ite ?_ ?_
    · refine Follows.ite ?_ ?_
      · exact h2.setTables
      · exact h2
    · refine Follows.ite ?_ ?_
      · exact h2
      · extract_lets +onlyGivenNames t11
        have h12 : Follows s₀ t11 := by
          refine Follows.each ?_ ?_
          · exact h2
          · intro _ _ h13
            exact h13.failStream
        clear_value t11
        extract_lets +onlyGivenNames t14
        have h15 : Follows s₀ t14 := by
          refine Follows.each ?_ ?_
          · exact h12
          · intro _ _ h16
            extract_lets +onlyGivenNames t17
            exact h16.setUnit
        clear_value t14
        extract_lets +onlyGivenNames t18 t19
        have h20 : Follows s₀ t19 := by
          refine Follows.iff ?_ ?_
          · exact h15.sat
          · intro _ h21
            exact h21.flag
        clear_value t19
        extract_lets +onlyGivenNames t22
        have h23 : Follows s₀ t22 := by
          refine Follows.each ?_ ?_
          · exact h20
          · intro _ _ h24
            split
            · exact h24
            · extract_lets +onlyGivenNames t25
              have h26 : Follows s₀ t25 := by
                refine Follows.iff ?_ ?_
                · exact h24
                · intro _ h27
                  exact h27.sat
              clear_value t25
              extract_lets +onlyGivenNames t28
              have h29 : Follows s₀ t28 := by
                refine Follows.iff ?_ ?_
                · exact h26
                · intro _ h30
                  exact h30.beamHold
              clear_value t28
              extract_lets +onlyGivenNames t31
              have h32 : Follows s₀ t31 := by
                refine Follows.each ?_ ?_
                · exact h29
                · intro _ _ h33
                  exact h33.fapi
              clear_value t31
              extract_lets +onlyGivenNames t34
              have h35 : Follows s₀ t34 := by
                refine Follows.each ?_ ?_
                · exact h32
                · intro _ _ h36
                  exact h36.fapi
              clear_value t34
              refine Follows.ite ?_ ?_
              · exact h35
              · exact h35.noiseRecord
        clear_value t22
        extract_lets +onlyGivenNames t37
        have h38 : Follows s₀ t37 := h23.setTables
        clear_value t37
        extract_lets +onlyGivenNames t39
        have h40 : Follows s₀ t39 := h38.leaveBank.leaveBank
        clear_value t39
        extract_lets +onlyGivenNames t41 t42 t43
        have h44 : Follows s₀ t43 := h40.upd
        clear_value t43
        exact h44.stopCarriers

theorem execQueuedTriggerStart_follows {c : Nat} {u : Nat} {t : Nat} (hs : Follows s₀ s) :
    AnsFollows s₀ (execQueuedTriggerStart c u t s) := by
  unfold execQueuedTriggerStart
  refine AnsFollows.onUnit ?_
  extract_lets +onlyGivenNames t1
  have h2 : Follows s₀ t1 := hs.airTime
  clear_value t1
  split
  · exact h2.setUnit.sat
  · exact h2

theorem execTrackingIdleFree_follows {c : Nat} {l : Nat} {rnti : Nat} {t : Nat} (hs : Follows s₀ s) :
    AnsFollows s₀ (execTrackingIdleFree c l rnti t s) := by
  unfold execTrackingIdleFree
  refine AnsFollows.onUnit ?_
  extract_lets +onlyGivenNames t1
  have h2 : Follows s₀ t1 := hs.airTime
  clear_value t1
  extract_lets +onlyGivenNames t3 t4
  exact h2.setCluster

theorem execFapiParam_follows {k : Nat} {t : Nat} (hs : Follows s₀ s) : AnsFollows s₀ (execFapiParam k t s) := by
  unfold execFapiParam
  refine AnsFollows.onUnit ?_
  extract_lets +onlyGivenNames t1
  have h2 : Follows s₀ t1 := hs.airTime
  clear_value t1
  refine Follows.ite ?_ ?_
  · exact h2
  · exact h2.fapi

theorem execFapiConfig_follows {k : Nat} {mhz : Nat} {mu : Nat} {prbs : Nat} {dl : Nat} {ul : Nat} {t : Nat}
    (hs : Follows s₀ s) :
    AnsFollows s₀ (execFapiConfig k mhz mu prbs dl ul t s) := by
  unfold execFapiConfig
  refine AnsFollows.onUnit ?_
  extract_lets +onlyGivenNames t1
  have h2 : Follows s₀ t1 := hs.airTime
  clear_value t1
  extract_lets +onlyGivenNames t3
  refine Follows.ite ?_ ?_
  · exact h2
  · refine Follows.ite ?_ ?_
    · exact h2.fapi
    · extract_lets +onlyGivenNames t4
      exact h2.setCarrier.wr.showAir.fapi

theorem execFapiStart_follows {k : Nat} {t : Nat} (hs : Follows s₀ s) : AnsFollows s₀ (execFapiStart k t s) := by
  unfold execFapiStart
  refine AnsFollows.onUnit ?_
  extract_lets +onlyGivenNames t1
  have h2 : Follows s₀ t1 := hs.airTime
  clear_value t1
  extract_lets +onlyGivenNames t3
  refine Follows.ite ?_ ?_
  · exact h2
  · refine Follows.ite ?_ ?_
    · exact h2.fapi
    · extract_lets +onlyGivenNames t4
      exact h2.setCarrier

theorem execFapiStop_follows {k : Nat} {t : Nat} (hs : Follows s₀ s) : AnsFollows s₀ (execFapiStop k t s) := by
  unfold execFapiStop
  refine AnsFollows.onUnit ?_
  extract_lets +onlyGivenNames t1
  have h2 : Follows s₀ t1 := hs.airTime
  clear_value t1
  extract_lets +onlyGivenNames t3 t4
  refine Follows.ite ?_ ?_
  · exact h2
  · refine Follows.ite ?_ ?_
    · exact h2.fapi
    · split
      · exact h2.setCarrier
      · exact h2.carrierOff.fapi

theorem Follows.takePdus {k : Nat} {c : Nat} {n : Nat} {msg : Nat} {n_ : List FapiPdu} (hs : Follows s₀ s) :
    Follows s₀ (s.takePdus k c n msg n_) := by
  induction n_ generalizing s k c n msg with
  | nil => exact hs
  | cons a l ih =>
    rw [State.takePdus]
    split
    · exact hs
    · extract_lets +onlyGivenNames t1 t2
      refine Follows.ite ?_ ?_
      · extract_lets +onlyGivenNames t3
        apply ih
        exact hs.putTable
      · apply ih
        exact hs.fapi

theorem Follows.fapiRequest {k : Nat} {id : Nat} {msg : Nat} {go : State → Nat → State}
    (hs : Follows s₀ s) (hgo : ∀ t x1, Follows s₀ t → Follows s₀ (go t x1)) :
    Follows s₀ (s.fapiRequest k id msg go) := by
  unfold State.fapiRequest
  extract_lets +onlyGivenNames t1 t2 t3
  refine Follows.ite ?_ ?_
  · exact hs
  · refine Follows.ite ?_ ?_
    · exact hs.fapi
    · split
      · exact hs.fapi
      · refine Follows.ite ?_ ?_
        · exact hs.fapi
        · exact hgo _ _ hs

theorem execFapiDlTti_follows {k : Nat} {id : Nat} {pdus : List FapiPdu} {t : Nat} (hs : Follows s₀ s) :
    AnsFollows s₀ (execFapiDlTti k id pdus t s) := by
  unfold execFapiDlTti
  refine AnsFollows.onUnit ?_
  refine Follows.fapiRequest ?_ ?_
  · exact hs.airTime
  · intro _ _ h1
    exact h1.takePdus

theorem execFapiUlTti_follows {k : Nat} {id : Nat} {pdus : List FapiPdu} {t : Nat} (hs : Follows s₀ s) :
    AnsFollows s₀ (execFapiUlTti k id pdus t s) := by
  unfold execFapiUlTti
  refine AnsFollows.onUnit ?_
  refine Follows.fapiRequest ?_ ?_
  · exact hs.airTime
  · intro _ _ h1
    exact h1.takePdus

theorem execFapiUlDci_follows {k : Nat} {id : Nat} {pdus : List FapiPdu} {t : Nat} (hs : Follows s₀ s) :
    AnsFollows s₀ (execFapiUlDci k id pdus t s) := by
  unfold execFapiUlDci
  refine AnsFollows.onUnit ?_
  refine Follows.fapiRequest ?_ ?_
  · exact hs.airTime
  · intro _ _ h1
    exact h1.takePdus

theorem execFapiTxData_follows {k : Nat} {id : Nat} {data : List (BitVec 8)} {t : Nat} (hs : Follows s₀ s) :
    AnsFollows s₀ (execFapiTxData k id data t s) := by
  unfold execFapiTxData
  refine AnsFollows.onUnit ?_
  refine Follows.fapiRequest ?_ ?_
  · exact hs.airTime
  · intro _ _ h1
    extract_lets +onlyGivenNames t2 t3
    exact h1.setCarrier

theorem execSlotIndication_follows {c : Nat} {t : Nat} (hs : Follows s₀ s) :
    AnsFollows s₀ (execSlotIndication c t s) := by
  unfold execSlotIndication
  refine AnsFollows.onUnit ?_
  extract_lets +onlyGivenNames t1
  have h2 : Follows s₀ t1 := hs.airTime
  clear_value t1
  extract_lets +onlyGivenNames t3 t4
  refine Follows.each ?_ ?_
  · exact h2
  · intro _ _ h5
    exact h5.fapi

theorem Follows.setRx {r : RxSymbol} (hs : Follows s₀ s) : Follows s₀ (s.setRx r) := by
  unfold State.setRx
  extract_lets +onlyGivenNames t1
  exact hs.upd

theorem Follows.radioCount {c : Nat} {n : Nat} {inc : Nat} (hs : Follows s₀ s) :
    Follows s₀ (s.radioCount c n inc) := by
  unfold State.radioCount
  exact hs.bump

theorem execFhUlPacket_follows {port : Nat} {eaxc : Nat} {id : Nat} {sym : Nat} {prb : Nat} {total : Nat} {addr : Nat} {data : List (BitVec 8)} {ok : Bool} {t : Nat}
    (hs : Follows s₀ s) :
    AnsFollows s₀ (execFhUlPacket port eaxc id sym prb total addr data ok t s) := by
  unfold execFhUlPacket
  refine AnsFollows.onUnit ?_
  extract_lets +onlyGivenNames t1
  have h2 : Follows s₀ t1 := hs.airTime
  clear_value t1
  split
  · exact h2.sat
  · extract_lets +onlyGivenNames t3 t4 t5 t6
    refine Follows.ite ?_ ?_
    · exact h2.sat
    · extract_lets +onlyGivenNames t7 t8
      refine Follows.ite ?_ ?_
      · exact h2.sat
      · refine Follows.ite ?_ ?_
        · exact h2.sat
        · extract_lets +onlyGivenNames t9 t10 t11 t12
          have h13 : Follows s₀ t12 := h2.setBytes
          clear_value t12
          extract_lets +onlyGivenNames t14
          have h15 : Follows s₀ t14 := h13.setRx
          clear_value t14
          extract_lets +onlyGivenNames t16 t17
          have h18 : Follows s₀ t17 := h15.setCarrier
          clear_value t17
          refine Follows.ite ?_ ?_
          · exact h18.radioCount
          · exact h18

theorem execFhWindowClose_follows {e : Nat} {id : Nat} {sym : Nat} {total : Nat} {addr : Nat} {t : Nat}
    (hs : Follows s₀ s) :
    AnsFollows s₀ (execFhWindowClose e id sym total addr t s) := by
  unfold execFhWindowClose
  refine AnsFollows.onUnit ?_
  extract_lets +onlyGivenNames t1
  have h2 : Follows s₀ t1 := hs.airTime
  clear_value t1
  extract_lets +onlyGivenNames t3 t4 t5 t6 t7
  refine Follows.ite ?_ ?_
  · exact h2
  · extract_lets +onlyGivenNames t8 t9
    refine Follows.ite ?_ ?_
    · exact h2
    · extract_lets +onlyGivenNames t10
      have h11 : Follows s₀ t10 := by
        refine Follows.each ?_ ?_
        · exact h2
        · intro _ _ h12
          exact h12.setBytes
      clear_value t10
      extract_lets +onlyGivenNames t13
      have h14 : Follows s₀ t13 := h11.setRx.sat
      clear_value t13
      extract_lets +onlyGivenNames t15
      exact h14.upd.radioCount

theorem execRuCallHome_follows {r : Nat} {port : Nat} {mac : Nat} {t : Nat} (hs : Follows s₀ s) :
    AnsFollows s₀ (execRuCallHome r port mac t s) := by
  unfold execRuCallHome
  refine AnsFollows.onUnit ?_
  extract_lets +onlyGivenNames t1
  have h2 : Follows s₀ t1 := hs.airTime
  clear_value t1
  extract_lets +onlyGivenNames t3 t4
  refine Follows.ite ?_ ?_
  · exact h2
  · exact h2.wrs

theorem execRuSessionUp_follows {r : Nat} {t : Nat} (hs : Follows s₀ s) : AnsFollows s₀ (execRuSessionUp r t s) := by
  unfold execRuSessionUp
  refine AnsFollows.onUnit ?_
  extract_lets +onlyGivenNames t1
  have h2 : Follows s₀ t1 := hs.airTime
  clear_value t1
  refine Follows.ite ?_ ?_
  · exact h2
  · exact h2.wr.emit

theorem execRuConfigured_follows {r : Nat} {catB : Bool} {t : Nat} (hs : Follows s₀ s) :
    AnsFollows s₀ (execRuConfigured r catB t s) := by
  unfold execRuConfigured
  refine AnsFollows.onUnit ?_
  extract_lets +onlyGivenNames t1
  have h2 : Follows s₀ t1 := hs.airTime
  clear_value t1
  refine Follows.ite ?_ ?_
  · exact h2
  · extract_lets +onlyGivenNames t3 t4
    have h5 : Follows s₀ t4 := h2.upd
    clear_value t4
    exact h5.wrs.flag.showAir

theorem Follows.ruLost {r : Nat} (hs : Follows s₀ s) : Follows s₀ (s.ruLost r) := by
  unfold State.ruLost
  extract_lets +onlyGivenNames t1
  have h2 : Follows s₀ t1 := hs.wr.flag
  clear_value t1
  refine Follows.showAir ?_
  refine Follows.each ?_ ?_
  · exact h2
  · intro _ _ h3
    refine Follows.ite ?_ ?_
    · exact h3.wr
    · exact h3

theorem execRuSupervisionMiss_follows {r : Nat} {inRow : Nat} {t : Nat} (hs : Follows s₀ s) :
    AnsFollows s₀ (execRuSupervisionMiss r inRow t s) := by
  unfold execRuSupervisionMiss
  refine AnsFollows.onUnit ?_
  extract_lets +onlyGivenNames t1
  have h2 : Follows s₀ t1 := hs.airTime
  clear_value t1
  refine Follows.ite ?_ ?_
  · exact h2
  · extract_lets +onlyGivenNames t3
    have h4 : Follows s₀ t3 := h2.sat
    clear_value t3
    refine Follows.ite ?_ ?_
    · exact h4.ruLost
    · exact h4

theorem execRuUplaneSilence_follows {k : Nat} {t : Nat} (hs : Follows s₀ s) :
    AnsFollows s₀ (execRuUplaneSilence k t s) := by
  unfold execRuUplaneSilence
  refine AnsFollows.onUnit ?_
  extract_lets +onlyGivenNames t1
  have h2 : Follows s₀ t1 := hs.airTime
  clear_value t1
  extract_lets +onlyGivenNames t3
  refine Follows.ite ?_ ?_
  · exact h2
  · exact h2.ruLost

theorem Follows.shedCarrier {k : Nat} {on : Bool} (hs : Follows s₀ s) : Follows s₀ (s.shedCarrier k on) := by
  unfold State.shedCarrier
  extract_lets +onlyGivenNames t1 t2
  have h3 : Follows s₀ t2 := hs.setCarrier
  clear_value t2
  refine Follows.ite ?_ ?_
  · exact h3.wr
  · exact h3

theorem Follows.radioReset (hs : Follows s₀ s) : Follows s₀ (s.radioReset) := by
  unfold State.radioReset
  exact hs.upd

end Sys2Proof.Machine
end

