-- ==== Sys2Proof/Laws/Follows/Reset.lean ====
section
/-! SUPPORT. What the operations and meanings of Machine/Reset.lean do to the state as a whole (`Follows`). -/

namespace Sys2Proof.Machine

variable {s₀ s : State}

theorem Follows.spoilFlash (hs : Follows s₀ s) : Follows s₀ (s.spoilFlash) := by
  unfold State.spoilFlash
  split
  · exact hs
  · exact hs.scramble

theorem Follows.bare (hs : Follows s₀ s) : Follows s₀ s.bare := by
  have h := hs.spoilFlash
  exact ⟨h.now, h.pending, h.free, fun x => tblWf_filter _ _ _ (h.mem x), fun _ => rfl, fun _ => rfl⟩

theorem Follows.showFlash (hs : Follows s₀ s) : Follows s₀ (s.showFlash) := by
  unfold State.showFlash
  exact hs.wrs.showStrikes

theorem Follows.coldReset {cause : Nat} {straps : Nat} {trip : Bool} (hs : Follows s₀ s) :
    Follows s₀ (s.coldReset cause straps trip) := by
  unfold State.coldReset
  extract_lets +onlyGivenNames t1
  have h2 : Follows s₀ t1 := hs.bare
  clear_value t1
  extract_lets +onlyGivenNames t3 t4
  have h5 : Follows s₀ t4 := h2.upd
  clear_value t4
  exact h5.showFlash.wrs

theorem Follows.keepRegs {old : Tbl RegWord} (hs : Follows s₀ s) : Follows s₀ (s.keepRegs old) := by
  unfold State.keepRegs
  refine Follows.each ?_ ?_
  · exact hs
  · intro _ _ h1
    extract_lets +onlyGivenNames t2
    refine Follows.ite ?_ ?_
    · exact h1
    · exact h1.wrWord

theorem Follows.warmReset {cause : Nat} {trip : Bool} (hs : Follows s₀ s) : Follows s₀ (s.warmReset cause trip) := by
  unfold State.warmReset
  extract_lets +onlyGivenNames t1
  have h2 : Follows s₀ t1 := hs.bare
  clear_value t1
  extract_lets +onlyGivenNames t3 t4 t5
  have h6 : Follows s₀ t5 := h2.upd
  clear_value t5
  exact h6.keepRegs.showFlash.wrs

end Sys2Proof.Machine
end

