-- ==== Sys2Proof/Laws/Follows/Phase.lean ====
section
/-! SUPPORT. What the operations and meanings of Machine/Phase.lean do to the state as a whole (`Follows`). -/

namespace Sys2Proof.Machine

variable {s₀ s : State}

theorem Follows.log {core : Nat} {level : Nat} {trace : Nat} {args : List Nat} (hs : Follows s₀ s) :
    Follows s₀ (s.log core level trace args) := by
  unfold State.log
  refine Follows.ite ?_ ?_
  · exact hs
  · extract_lets +onlyGivenNames t1 t2 t3 t4
    have h5 : Follows s₀ t4 := hs.upd
    clear_value t4
    refine Follows.iff ?_ ?_
    · exact h5.bump
    · intro _ h6
      exact h6.emit

theorem Follows.showAdmit (hs : Follows s₀ s) : Follows s₀ (s.showAdmit) := by
  unfold State.showAdmit
  extract_lets +onlyGivenNames t1
  exact hs.wrs

theorem Follows.showDegraded (hs : Follows s₀ s) : Follows s₀ (s.showDegraded) := by
  unfold State.showDegraded
  extract_lets +onlyGivenNames t1
  exact hs.wr

theorem Follows.refreshCarriers (hs : Follows s₀ s) : Follows s₀ (s.refreshCarriers) := by
  unfold State.refreshCarriers
  refine Follows.each ?_ ?_
  · exact hs
  · intro _ _ h1
    extract_lets +onlyGivenNames t2
    refine Follows.ite ?_ ?_
    · exact h1.wr
    · exact h1

theorem Follows.enterPhase {p : Nat} (hs : Follows s₀ s) : Follows s₀ (s.enterPhase p) := by
  unfold State.enterPhase
  extract_lets +onlyGivenNames t1
  have h2 : Follows s₀ t1 := hs.wr
  clear_value t1
  refine Follows.ite ?_ ?_
  · exact h2.wr
  · exact h2

theorem Follows.failBoot {cause : Nat} {detail : Nat} (hs : Follows s₀ s) : Follows s₀ (s.failBoot cause detail) := by
  unfold State.failBoot
  exact hs.wr.enterPhase.log

end Sys2Proof.Machine
end

