-- ==== Sys2Proof/Laws/Follows/JobRun.lean ====
section
/-! SUPPORT. What the operations and meanings of Machine/JobRun.lean do to the state as a whole (`Follows`). -/

namespace Sys2Proof.Machine

variable {s₀ s : State}

theorem Follows.loadTiles {j : JobRec} {cyc : Nat} {tiles : List Nat} {table : List Byte} (hs : Follows s₀ s) :
    Follows s₀ (s.loadTiles j cyc tiles table) := by
  unfold State.loadTiles
  refine Follows.each ?_ ?_
  · exact hs
  · intro _ _ h1
    extract_lets +onlyGivenNames t2 t3
    exact h1.tileJobStart.wr

theorem Follows.freeTile {site : Nat} (hs : Follows s₀ s) : Follows s₀ (s.freeTile site) := by
  unfold State.freeTile
  extract_lets +onlyGivenNames t1
  have h2 : Follows s₀ t1 := hs.endStandIn
  clear_value t1
  extract_lets +onlyGivenNames t3
  exact h2.wr.showScrub

theorem Follows.endTiles {j : JobRec} {cyc : Nat} (hs : Follows s₀ s) : Follows s₀ (s.endTiles j cyc) := by
  unfold State.endTiles
  refine Follows.each ?_ ?_
  · exact hs
  · intro _ _ h1
    exact h1.jobEndScrub.freeTile

theorem Follows.abortTiles {j : JobRec} {cyc : Nat} (hs : Follows s₀ s) : Follows s₀ (s.abortTiles j cyc) := by
  unfold State.abortTiles
  refine Follows.each ?_ ?_
  · exact hs
  · intro _ _ h1
    exact h1.abortTile

theorem Follows.settle {j : JobRec} (hs : Follows s₀ s) : Follows s₀ (s.settle j).1 := by
  unfold State.settle
  extract_lets +onlyGivenNames t1 t2
  have h3 : Follows s₀ t2 := by
    refine Follows.iff ?_ ?_
    · exact hs
    · intro _ h4
      exact h4.addBalance.bump
  clear_value t2
  exact h3

theorem Follows.signalAbort {j : JobRec} (hs : Follows s₀ s) : Follows s₀ (s.signalAbort j) := by
  unfold State.signalAbort
  split
  · exact hs
  · split
    · exact hs
    · refine Follows.ite ?_ ?_
      · exact hs
      · exact hs.putTable

theorem Follows.giveWay {j : JobRec} (hs : Follows s₀ s) : Follows s₀ (s.giveWay j) := by
  unfold State.giveWay
  exact hs.putJob.sat.signalAbort.showTiles

theorem Follows.endUnstarted {j : JobRec} {status : Nat} (hs : Follows s₀ s) :
    Follows s₀ (s.endUnstarted j status) := by
  unfold State.endUnstarted
  refine Follows.ite ?_ ?_
  · refine Follows.giveWay ?_
    refine Follows.each ?_ ?_
    · exact hs.leaveTables
    · intro _ _ h1
      exact h1.wr
  · extract_lets +onlyGivenNames t2
    have h3 : Follows s₀ t2 := hs.addBalance
    clear_value t2
    extract_lets +onlyGivenNames t4
    have h5 : Follows s₀ t4 := by
      refine Follows.ite ?_ ?_
      · refine Follows.each ?_ ?_
        · exact h3
        · intro _ _ h6
          exact h6.freeTile
      · exact h3
    clear_value t4
    exact h5.endJob.showTiles

theorem Follows.endWaiting {f : JobRec → Bool} {status : Nat} (hs : Follows s₀ s) :
    Follows s₀ (s.endWaiting f status) := by
  unfold State.endWaiting
  refine Follows.each ?_ ?_
  · exact hs
  · intro _ _ h1
    refine Follows.ite ?_ ?_
    · exact h1.endUnstarted
    · exact h1.endJob

theorem Follows.reachStop {cause : Nat} (hs : Follows s₀ s) : Follows s₀ (s.reachStop cause) := by
  unfold State.reachStop
  extract_lets +onlyGivenNames t1 t2
  exact hs.upd

theorem Follows.enterStopping (hs : Follows s₀ s) : Follows s₀ (s.enterStopping) := by
  unfold State.enterStopping
  exact hs.wr.enterPhase

theorem Follows.passStop (hs : Follows s₀ s) : Follows s₀ (s.passStop) := by
  unfold State.passStop
  refine Follows.ite ?_ ?_
  · exact hs.reachStop.enterStopping.showAdmit.endWaiting.decision
  · exact hs

theorem Follows.toClassical {j : JobRec} {cyc : Nat} (hs : Follows s₀ s) : Follows s₀ (s.toClassical j cyc) := by
  unfold State.toClassical
  extract_lets +onlyGivenNames t1
  have h2 : Follows s₀ t1 := hs.abortTiles.endTiles
  clear_value t1
  split
  rename_i e4
  have h3 : Follows s₀ _ := Follows.of_pair1 e4 h2.settle
  exact h3.giveWay

theorem Follows.replacePrimary {j : JobRec} {cyc : Nat} (hs : Follows s₀ s) : Follows s₀ (s.replacePrimary j cyc) := by
  unfold State.replacePrimary
  refine Follows.ite ?_ ?_
  · exact hs.toClassical
  · extract_lets +onlyGivenNames t1
    have h2 : Follows s₀ t1 := hs.abortTiles
    clear_value t1
    extract_lets +onlyGivenNames t3
    have h4 : Follows s₀ t3 := by
      refine Follows.each ?_ ?_
      · exact h2
      · intro _ _ h5
        exact h5.jobEndScrub
    clear_value t3
    split
    rename_i e7
    have h6 : Follows s₀ _ := Follows.of_pair1 e7 h4.settle
    exact h6.putJob.sat

theorem Follows.startFallback {j : JobRec} {cyc : Nat} (hs : Follows s₀ s) : Follows s₀ (s.startFallback j cyc) := by
  unfold State.startFallback
  extract_lets +onlyGivenNames t1 t2 t3 t4
  exact hs.putJob.writePolicy.loadTiles

theorem Follows.startJob {j : JobRec} {cyc : Nat} (hs : Follows s₀ s) : Follows s₀ (s.startJob j cyc) := by
  unfold State.startJob
  extract_lets +onlyGivenNames t1 t2 t3
  refine Follows.ite ?_ ?_
  · refine Follows.ite ?_ ?_
    · exact hs.toClassical
    · exact hs.putJob.sat.startFallback
  · extract_lets +onlyGivenNames t4
    exact hs.putJob.loadTiles

theorem execJobStart_follows {job : Nat} {cyc : Nat} {t : Nat} {standIns : List (Nat × Nat)} (hs : Follows s₀ s) :
    AnsFollows s₀ (execJobStart job cyc t standIns s) := by
  unfold execJobStart
  refine AnsFollows.next ?_
  extract_lets +onlyGivenNames t1
  have h2 : Follows s₀ t1 := hs.atTime
  clear_value t1
  split
  · exact h2
  · refine Follows.ite ?_ ?_
    · exact h2
    · exact h2.standIns.startJob.showTiles

theorem execJobLaunch_follows {job : Nat} {cyc : Nat} {t : Nat} {standIns : List (Nat × Nat)} (hs : Follows s₀ s) :
    AnsFollows s₀ (execJobLaunch job cyc t s standIns) := by
  unfold execJobLaunch
  refine AnsFollows.next ?_
  extract_lets +onlyGivenNames t1
  have h2 : Follows s₀ t1 := hs.atTime
  clear_value t1
  split
  · exact h2
  · extract_lets +onlyGivenNames t3
    refine Follows.ite ?_ ?_
    · exact h2
    · refine Follows.ite ?_ ?_
      · exact h2.endUnstarted.decision
      · refine Follows.ite ?_ ?_
        · exact h2.endUnstarted.decision
        · refine Follows.ite ?_ ?_
          · exact h2
          · extract_lets +onlyGivenNames t4
            have h5 : Follows s₀ t4 := by
              refine Follows.each ?_ ?_
              · exact h2
              · intro _ _ h6
                exact h6.wr
            clear_value t4
            extract_lets +onlyGivenNames t7 t8
            have h9 : Follows s₀ t8 := h5.put
            clear_value t8
            extract_lets +onlyGivenNames t10
            have h11 : Follows s₀ t10 := h9.put
            clear_value t10
            exact h11.standIns.startJob.showTiles

theorem execLaunchPlanClose_follows {job : Nat} {t : Nat} (hs : Follows s₀ s) :
    AnsFollows s₀ (execLaunchPlanClose job t s) := by
  unfold execLaunchPlanClose
  refine AnsFollows.next ?_
  extract_lets +onlyGivenNames t1
  have h2 : Follows s₀ t1 := hs.atTime
  clear_value t1
  split
  · exact h2
  · refine Follows.ite ?_ ?_
    · exact h2.putJob
    · exact h2

theorem execLaunchSlackExpiry_follows {job : Nat} {t : Nat} (hs : Follows s₀ s) :
    AnsFollows s₀ (execLaunchSlackExpiry job t s) := by
  unfold execLaunchSlackExpiry
  refine AnsFollows.next ?_
  extract_lets +onlyGivenNames t1
  have h2 : Follows s₀ t1 := hs.atTime
  clear_value t1
  split
  · exact h2
  · refine Follows.ite ?_ ?_
    · exact h2.endUnstarted.decision
    · exact h2

theorem Follows.closeTileWindows {x : Nat} (hs : Follows s₀ s) : Follows s₀ (s.closeTileWindows x) := by
  unfold State.closeTileWindows
  refine Follows.ite ?_ ?_
  · refine Follows.each ?_ ?_
    · exact hs
    · intro _ _ h1
      exact h1.wr.wr
  · exact hs

theorem Follows.closeJob {j : JobRec} {cyc : Nat} {status : Nat} (hs : Follows s₀ s) :
    Follows s₀ (s.closeJob j cyc status) := by
  unfold State.closeJob
  extract_lets +onlyGivenNames t1
  refine Follows.ite ?_ ?_
  · exact hs.toClassical
  · extract_lets +onlyGivenNames t2
    have h3 : Follows s₀ t2 := hs.abortTiles.endTiles
    clear_value t2
    split
    rename_i e5
    have h4 : Follows s₀ _ := Follows.of_pair1 e5 h3.settle
    exact h4.endJob.showTiles.closeTileWindows

theorem Follows.checkJob {j : JobRec} (hs : Follows s₀ s) : Follows s₀ (s.checkJob j) := by
  unfold State.checkJob
  extract_lets +onlyGivenNames t1 t2
  have h3 : Follows s₀ t2 := by
    refine Follows.iff ?_ ?_
    · exact hs
    · intro _ h4
      exact h4.booksFault
  clear_value t2
  refine Follows.iff ?_ ?_
  · exact h3
  · intro _ h5
    exact h5.booksFault

theorem execJobEnd_follows {job : Nat} {cyc : Nat} {t : Nat} (hs : Follows s₀ s) :
    AnsFollows s₀ (execJobEnd job cyc t s) := by
  unfold execJobEnd
  refine AnsFollows.next ?_
  extract_lets +onlyGivenNames t1
  have h2 : Follows s₀ t1 := hs.atTime
  clear_value t1
  split
  · exact h2
  · refine Follows.ite ?_ ?_
    · exact h2
    · split
      · extract_lets +onlyGivenNames t3
        exact h2.closeJob.decision.passStop.checkJob
      · exact h2.closeJob.decision.passStop.checkJob
      · refine Follows.ite ?_ ?_
        · exact h2.closeJob.decision.passStop.checkJob
        · exact h2

theorem execJobBoundExpiry_follows {job : Nat} {cyc : Nat} {t : Nat} (hs : Follows s₀ s) :
    AnsFollows s₀ (execJobBoundExpiry job cyc t s) := by
  unfold execJobBoundExpiry
  refine AnsFollows.next ?_
  extract_lets +onlyGivenNames t1
  have h2 : Follows s₀ t1 := hs.atTime
  clear_value t1
  split
  · exact h2
  · refine Follows.ite ?_ ?_
    · exact h2
    · refine Follows.ite ?_ ?_
      · exact h2.replacePrimary
      · exact h2.abortTiles.putJob

theorem execCheckpointReached_follows {job : Nat} {i : Nat} {cyc : Nat} {t : Nat} (hs : Follows s₀ s) :
    AnsFollows s₀ (execCheckpointReached job i cyc t s) := by
  unfold execCheckpointReached
  refine AnsFollows.next ?_
  extract_lets +onlyGivenNames t1
  have h2 : Follows s₀ t1 := hs.atTime
  clear_value t1
  split
  · exact h2
  · refine Follows.ite ?_ ?_
    · exact h2
    · refine Follows.ite ?_ ?_
      · exact h2.replacePrimary
      · exact h2.putJob

theorem execCheckpointTimeout_follows {job : Nat} {i : Nat} {cyc : Nat} {t : Nat} (hs : Follows s₀ s) :
    AnsFollows s₀ (execCheckpointTimeout job i cyc t s) := by
  unfold execCheckpointTimeout
  refine AnsFollows.next ?_
  extract_lets +onlyGivenNames t1
  have h2 : Follows s₀ t1 := hs.atTime
  clear_value t1
  split
  · exact h2
  · refine Follows.ite ?_ ?_
    · exact h2
    · refine Follows.ite ?_ ?_
      · exact h2.putJob
      · exact h2.replacePrimary

theorem execFallbackStart_follows {job : Nat} {cyc : Nat} {t : Nat} (hs : Follows s₀ s) :
    AnsFollows s₀ (execFallbackStart job cyc t s) := by
  unfold execFallbackStart
  refine AnsFollows.next ?_
  extract_lets +onlyGivenNames t1
  have h2 : Follows s₀ t1 := hs.atTime
  clear_value t1
  split
  · exact h2
  · refine Follows.ite ?_ ?_
    · exact h2.startFallback
    · exact h2

theorem execClassicalDoneSignal_follows {job : Nat} {t : Nat} (hs : Follows s₀ s) :
    AnsFollows s₀ (execClassicalDoneSignal job t s) := by
  unfold execClassicalDoneSignal
  refine AnsFollows.next ?_
  extract_lets +onlyGivenNames t1
  have h2 : Follows s₀ t1 := hs.atTime
  clear_value t1
  split
  · exact h2
  · refine Follows.ite ?_ ?_
    · exact h2.endJob.passStop
    · exact h2

theorem execDeadlineExpiry_follows {job : Nat} {t : Nat} (hs : Follows s₀ s) :
    AnsFollows s₀ (execDeadlineExpiry job t s) := by
  unfold execDeadlineExpiry
  refine AnsFollows.next ?_
  extract_lets +onlyGivenNames t1
  have h2 : Follows s₀ t1 := hs.atTime
  clear_value t1
  split
  · exact h2
  · refine Follows.ite ?_ ?_
    · exact h2.endJob.passStop
    · exact h2

theorem execJqDoorbell_follows {x : Nat} {q : Nat} {tail : Nat} {t : Nat} (hs : Follows s₀ s) :
    AnsFollows s₀ (execJqDoorbell x q tail t s) := by
  unfold execJqDoorbell
  refine AnsFollows.onUnit ?_
  extract_lets +onlyGivenNames t1
  have h2 : Follows s₀ t1 := hs.atTime
  clear_value t1
  refine Follows.ite ?_ ?_
  · exact h2.windowErr
  · refine Follows.ite ?_ ?_
    · exact h2
    · exact h2.wr.decision

theorem Follows.showCq {x : Nat} {q : Nat} (hs : Follows s₀ s) : Follows s₀ (s.showCq x q) := by
  unfold State.showCq
  extract_lets +onlyGivenNames t1
  split
  · refine Follows.ite ?_ ?_
    · exact hs.wr
    · exact hs
  · refine Follows.ite ?_ ?_
    · exact hs
    · exact hs.wr
  · exact hs

theorem Follows.sendVector {v : Nat} (hs : Follows s₀ s) : Follows s₀ (s.sendVector v) := by
  unfold State.sendVector
  extract_lets +onlyGivenNames t1
  refine Follows.ite ?_ ?_
  · exact hs.upd
  · exact hs.upd.emit

theorem Follows.ringVector {x : Nat} {q : Nat} (hs : Follows s₀ s) : Follows s₀ (s.ringVector x q) := by
  unfold State.ringVector
  split
  · exact hs.sendVector
  · exact hs

theorem execCompletionWrite_follows {x : Nat} {q : Nat} {decode : Nat} {t : Nat} (hs : Follows s₀ s) :
    AnsFollows s₀ (execCompletionWrite x q decode t s) := by
  unfold execCompletionWrite
  refine AnsFollows.onUnit ?_
  extract_lets +onlyGivenNames t1
  have h2 : Follows s₀ t1 := hs.atTime
  clear_value t1
  split
  · exact h2
  · refine Follows.ite ?_ ?_
    · refine Follows.iff ?_ ?_
      · exact h2.dropJob.emit
      · intro _ h3
        exact h3.bump
    · refine Follows.ite ?_ ?_
      · exact h2.dropJob.staleDrop
      · extract_lets +onlyGivenNames t4 t5 t6
        refine Follows.ite ?_ ?_
        · exact h2.dropJob.sat
        · refine Follows.ite ?_ ?_
          · exact h2
          · extract_lets +onlyGivenNames t7 t8
            have h9 : Follows s₀ t8 := h2.dropJob.put
            clear_value t8
            exact h9.bump.showCq.emit.ringVector

theorem Follows.drainRing {x : Nat} {q : Nat} {status : Nat} {n_ : Nat} (hs : Follows s₀ s) :
    Follows s₀ (s.drainRing x q status n_) := by
  induction n_ generalizing s x q status with
  | zero => exact hs
  | succ n ih =>
    rw [State.drainRing]
    refine Follows.ite ?_ ?_
    · exact hs
    · extract_lets +onlyGivenNames t1 t2
      have h3 : Follows s₀ t2 := hs.submit.bump
      clear_value t2
      split
      · apply ih
        exact h3.endJob
      · exact h3

theorem execJqFlush_follows {x : Nat} {q : Nat} {t : Nat} (hs : Follows s₀ s) :
    AnsFollows s₀ (execJqFlush x q t s) := by
  unfold execJqFlush
  refine AnsFollows.onUnit ?_
  extract_lets +onlyGivenNames t1
  have h2 : Follows s₀ t1 := hs.atTime
  clear_value t1
  refine Follows.ite ?_ ?_
  · exact h2.windowErr
  · exact h2.endWaiting.drainRing.decision

theorem Follows.credit {g : Nat} {c : Nat} (hs : Follows s₀ s) : Follows s₀ (s.credit g c) := by
  unfold State.credit
  extract_lets +onlyGivenNames t1 t2 t3 t4
  have h5 : Follows s₀ t4 := hs.upd
  clear_value t4
  refine Follows.ite ?_ ?_
  · exact h5.wr.bump
  · exact h5.addBalance

theorem execAccountingPeriod_follows {t : Nat} (hs : Follows s₀ s) : AnsFollows s₀ (execAccountingPeriod t s) := by
  unfold execAccountingPeriod
  refine AnsFollows.next ?_
  extract_lets +onlyGivenNames t1
  have h2 : Follows s₀ t1 := hs.atTime.supplyMark
  clear_value t1
  extract_lets +onlyGivenNames t3
  refine Follows.ite ?_ ?_
  · exact h2
  · extract_lets +onlyGivenNames t4 t5
    have h6 : Follows s₀ t5 := h2.upd
    clear_value t5
    extract_lets +onlyGivenNames t7 t8 t9 t10 t11 t12
    have h13 : Follows s₀ t12 := by
      refine Follows.each ?_ ?_
      · exact h6
      · intro _ _ h14
        exact h14.credit
    clear_value t12
    exact h13.decision

theorem execSeqEntryWrite_follows {x : Nat} {i : Nat} {w : Nat} {v : Nat} {t : Nat} (hs : Follows s₀ s) :
    AnsFollows s₀ (execSeqEntryWrite x i w v t s) := by
  unfold execSeqEntryWrite
  refine AnsFollows.onUnit ?_
  extract_lets +onlyGivenNames t1
  have h2 : Follows s₀ t1 := hs.atTime
  clear_value t1
  refine Follows.ite ?_ ?_
  · exact h2.windowErr
  · refine Follows.ite ?_ ?_
    · refine Follows.ite ?_ ?_
      · exact h2.wr.freeDone
      · exact h2
    · split
      · exact h2.wr
      · exact h2.wr
      · exact h2.wr
      · extract_lets +onlyGivenNames t3
        exact h2.wr.wr.freeDone

theorem Follows.stepFails {x : Nat} {m : Nat} (hs : Follows s₀ s) : Follows s₀ (s.stepFails x m) := by
  unfold State.stepFails
  exact hs.wr.bump.wr

theorem Follows.withOps {ops : List (Nat × Nat × Nat)} (hs : Follows s₀ s) : Follows s₀ (s.withOps ops) := by
  unfold State.withOps
  split
  · exact hs.putJob
  · exact hs

theorem execStepBuild_follows {x : Nat} {m : Nat} {ops : List (Nat × Nat × Nat)} {t : Nat} (hs : Follows s₀ s) :
    AnsFollows s₀ (execStepBuild x m t s ops) := by
  unfold execStepBuild
  refine AnsFollows.onUnit ?_
  extract_lets +onlyGivenNames t1
  have h2 : Follows s₀ t1 := hs.atTime
  clear_value t1
  split
  extract_lets +onlyGivenNames t3
  refine Follows.ite ?_ ?_
  · exact h2
  · extract_lets +onlyGivenNames t4 t5 t6 t7 t8 t9 t10
    have h11 : Follows s₀ t10 := h2.upd
    clear_value t10
    refine Follows.ite ?_ ?_
    · exact h11.stepFails
    · extract_lets +onlyGivenNames t12
      have h13 : Follows s₀ t12 := h11.put
      clear_value t12
      extract_lets +onlyGivenNames t14
      have h15 : Follows s₀ t14 := h13.submit
      clear_value t14
      exact h15.withOps.decision

end Sys2Proof.Machine
end

