-- ==== Sys2Proof/Laws/Follows/Claim.lean ====
section
/-! SUPPORT. What the operations and meanings of Machine/Claim.lean do to the state as a whole (`Follows`). -/

namespace Sys2Proof.Machine

variable {s₀ s : State}

theorem Follows.putClaim {c : Claim} (hs : Follows s₀ s) : Follows s₀ (s.putClaim c) := by
  unfold State.putClaim
  exact hs.upd

theorem Follows.showClaimed (hs : Follows s₀ s) : Follows s₀ (s.showClaimed) := by
  unfold State.showClaimed
  exact hs.wr

theorem Follows.unplace {site : Nat} (hs : Follows s₀ s) : Follows s₀ (s.unplace site) := by
  unfold State.unplace
  split
  · exact hs
  · extract_lets +onlyGivenNames t1
    have h2 : Follows s₀ t1 := by
      refine Follows.each ?_ ?_
      · exact hs.addBalance.leaveTables
      · intro _ _ h3
        exact h3.wr
    clear_value t1
    extract_lets +onlyGivenNames t4 t5
    have h6 : Follows s₀ t5 := h2.wr
    clear_value t5
    exact h6.putJob

theorem execClaim_follows {site : Nat} {cluster : Nat} {t : Nat} (hs : Follows s₀ s) :
    AnsFollows s₀ (execClaim site cluster t s) := by
  unfold execClaim
  refine AnsFollows.onUnit ?_
  extract_lets +onlyGivenNames t1
  have h2 : Follows s₀ t1 := hs.atTime
  clear_value t1
  extract_lets +onlyGivenNames t3
  refine Follows.ite ?_ ?_
  · exact h2
  · extract_lets +onlyGivenNames t4
    have h5 : Follows s₀ t4 := h2.unplace
    clear_value t4
    extract_lets +onlyGivenNames t6
    exact h5.upd.sat.wr.showScrub

theorem Follows.returnTile {site : Nat} {cyc : Nat} (hs : Follows s₀ s) : Follows s₀ (s.returnTile site cyc) := by
  unfold State.returnTile
  extract_lets +onlyGivenNames t1
  have h2 : Follows s₀ t1 := hs.supplyMark
  clear_value t1
  extract_lets +onlyGivenNames t3
  have h4 : Follows s₀ t3 := h2.fullScrub.wrs
  clear_value t3
  extract_lets +onlyGivenNames t5 t6
  have h7 : Follows s₀ t6 := h4.upd
  clear_value t6
  exact h7.rebindTile.showClaimed

theorem execClaimComplete_follows {site : Nat} {cyc : Nat} {t : Nat} (hs : Follows s₀ s) :
    AnsFollows s₀ (execClaimComplete site cyc t s) := by
  unfold execClaimComplete
  refine AnsFollows.onUnit ?_
  extract_lets +onlyGivenNames t1
  have h2 : Follows s₀ t1 := hs.atTime
  clear_value t1
  split
  · exact h2
  · refine Follows.ite ?_ ?_
    · exact h2
    · extract_lets +onlyGivenNames t3 t4
      have h5 : Follows s₀ t4 := h2.supplyMark
      clear_value t4
      extract_lets +onlyGivenNames t6
      have h7 : Follows s₀ t6 := h5.fullScrub.wr
      clear_value t6
      extract_lets +onlyGivenNames t8 t9
      have h10 : Follows s₀ t9 := h7.upd
      clear_value t9
      extract_lets +onlyGivenNames t11
      have h12 : Follows s₀ t11 := h10.putClaim.unbindTile.showClaimed
      clear_value t11
      extract_lets +onlyGivenNames t13
      have h14 : Follows s₀ t13 := h12.wr
      clear_value t13
      refine Follows.ite ?_ ?_
      · exact h14.returnTile.decision
      · exact h14.placeRadio

theorem execClaimOverrun_follows {site : Nat} {t : Nat} (hs : Follows s₀ s) :
    AnsFollows s₀ (execClaimOverrun site t s) := by
  unfold execClaimOverrun
  refine AnsFollows.onUnit ?_
  extract_lets +onlyGivenNames t1
  have h2 : Follows s₀ t1 := hs.atTime
  clear_value t1
  split
  · exact h2
  · refine Follows.ite ?_ ?_
    · exact h2
    · exact h2.putClaim.sat

theorem Follows.moveHolder {site : Nat} (hs : Follows s₀ s) : Follows s₀ (s.moveHolder site) := by
  unfold State.moveHolder
  extract_lets +onlyGivenNames t1
  exact hs.wrs

theorem execClaimRelease_follows {site : Nat} {cyc : Nat} {t : Nat} (hs : Follows s₀ s) :
    AnsFollows s₀ (execClaimRelease site cyc t s) := by
  unfold execClaimRelease
  refine AnsFollows.onUnit ?_
  extract_lets +onlyGivenNames t1
  have h2 : Follows s₀ t1 := hs.atTime
  clear_value t1
  extract_lets +onlyGivenNames t3
  split
  · refine Follows.ite ?_ ?_
    · exact h2.supplyMark.fullScrub.moveHolder.decision
    · exact h2
  · refine Follows.ite ?_ ?_
    · exact h2.putClaim.showScrub
    · exact h2.returnTile.decision

theorem execFullScrub_follows {site : Nat} {cyc : Nat} {t : Nat} (hs : Follows s₀ s) :
    AnsFollows s₀ (execFullScrub site cyc t s) := by
  unfold execFullScrub
  refine AnsFollows.onUnit ?_
  extract_lets +onlyGivenNames t1
  have h2 : Follows s₀ t1 := hs.atTime
  clear_value t1
  extract_lets +onlyGivenNames t3
  refine Follows.ite ?_ ?_
  · exact h2
  · refine Follows.ite ?_ ?_
    · exact h2.returnTile.decision
    · refine Follows.ite ?_ ?_
      · exact h2
      · extract_lets +onlyGivenNames t4
        have h5 : Follows s₀ t4 := h2.supplyMark
        clear_value t4
        extract_lets +onlyGivenNames t6
        have h7 : Follows s₀ t6 := h5.fullScrub.moveHolder
        clear_value t6
        exact h7.upd.decision

end Sys2Proof.Machine
end

