-- ==== Sys2Proof/Laws/Follows/Measure.lean ====
section
/-! SUPPORT. What the operations and meanings of Machine/Measure.lean do to the state as a whole (`Follows`). -/

namespace Sys2Proof.Machine

variable {s₀ s : State}

theorem Follows.putWords {f : Nat → Fld} {n : Nat} {v : Nat} (hs : Follows s₀ s) : Follows s₀ (s.putWords f n v) := by
  unfold State.putWords
  refine Follows.each ?_ ?_
  · exact hs
  · intro _ _ h1
    exact h1.wr

theorem Follows.appendEvent {reg : Nat} {src : Nat} {d : BitVec 512} (hs : Follows s₀ s) :
    Follows s₀ (s.appendEvent reg src d) := by
  unfold State.appendEvent
  extract_lets +onlyGivenNames t1
  refine Follows.ite ?_ ?_
  · exact hs.flag
  · extract_lets +onlyGivenNames t2
    exact hs.upd.bump

theorem Follows.extendAt {f : Nat → Fld} {reg : Nat} {src : Nat} {d : BitVec 512} (hs : Follows s₀ s) :
    Follows s₀ (s.extendAt f reg src d) := by
  unfold State.extendAt
  extract_lets +onlyGivenNames t1
  exact hs.putWords.appendEvent

theorem Follows.extendMr {n : Nat} {src : Nat} {d : BitVec 512} (hs : Follows s₀ s) :
    Follows s₀ (s.extendMr n src d) := by
  unfold State.extendMr
  exact hs.extendAt

theorem Follows.extendSlice {x : Nat} {k : Nat} {src : Nat} {d : BitVec 512} (hs : Follows s₀ s) :
    Follows s₀ (s.extendSlice x k src d) := by
  unfold State.extendSlice
  exact hs.extendAt

theorem Follows.raise {n : Nat} {v : Nat} (hs : Follows s₀ s) : Follows s₀ (s.raise n v) := by
  unfold State.raise
  extract_lets +onlyGivenNames t1 t2
  exact hs.upd.wr

theorem Follows.showKeys (hs : Follows s₀ s) : Follows s₀ (s.showKeys) := by
  unfold State.showKeys
  extract_lets +onlyGivenNames t1
  have h2 : Follows s₀ t1 := by
    refine Follows.each ?_ ?_
    · exact hs
    · intro _ _ h3
      extract_lets +onlyGivenNames t4
      exact h3.wr.wr.putWords
  clear_value t1
  exact h2.wr

end Sys2Proof.Machine
end

