-- ==== Sys2Proof/Laws/Follows/Assay.lean ====
section
/-! SUPPORT. What the operations and meanings of Machine/Assay.lean do to the state as a whole (`Follows`). -/

namespace Sys2Proof.Machine

variable {s₀ s : State}

theorem Follows.setSamples {l : List Sample} (hs : Follows s₀ s) : Follows s₀ (s.setSamples l) := by
  unfold State.setSamples
  exact hs.upd.wr

theorem Follows.showChecker (hs : Follows s₀ s) : Follows s₀ (s.showChecker) := by
  unfold State.showChecker
  exact hs.wr

theorem execAssayCheck_follows {t : Nat} (hs : Follows s₀ s) : AnsFollows s₀ (execAssayCheck t s) := by
  unfold execAssayCheck
  refine AnsFollows.next ?_
  extract_lets +onlyGivenNames t1
  have h2 : Follows s₀ t1 := hs.atTime
  clear_value t1
  split
  · exact h2
  · refine Follows.ite ?_ ?_
    · exact h2
    · split
      · exact h2
      · extract_lets +onlyGivenNames t3
        exact h2.setSamples.wr

theorem Follows.freeChecker {cyc : Nat} {k : Nat} (hs : Follows s₀ s) : Follows s₀ (s.freeChecker cyc k) := by
  unfold State.freeChecker
  exact hs.fullScrub.wr

theorem Follows.thirdRun {x : Sample} {rows : List Nat} {third : List Nat} {cyc : Nat} (hs : Follows s₀ s) :
    Follows s₀ (s.thirdRun x rows third cyc) := by
  unfold State.thirdRun
  extract_lets +onlyGivenNames t1 t2
  have h3 : Follows s₀ t2 := hs.sat.flag
  clear_value t2
  extract_lets +onlyGivenNames t4 t5
  have h6 : Follows s₀ t5 := by
    unfold t5
    clear_value t4
    split
    · exact h3.freeChecker
    · exact h3
  clear_value t5
  refine Follows.ite ?_ ?_
  · exact h6.tileStrike
  · refine Follows.ite ?_ ?_
    · exact h6.tileStrike
    · exact h6.sat.strike

theorem execAssayCheckDone_follows {rows : List Nat} {third : List Nat} {cyc : Nat} {t : Nat} (hs : Follows s₀ s) :
    AnsFollows s₀ (execAssayCheckDone rows third cyc t s) := by
  unfold execAssayCheckDone
  refine AnsFollows.next ?_
  extract_lets +onlyGivenNames t1
  have h2 : Follows s₀ t1 := hs.atTime
  clear_value t1
  split
  · exact h2
  · extract_lets +onlyGivenNames t3
    have h4 : Follows s₀ t3 := h2.setSamples
    clear_value t3
    extract_lets +onlyGivenNames t5
    have h6 : Follows s₀ t5 := by
      refine Follows.ite ?_ ?_
      · exact h4.sat
      · exact h4.thirdRun
    clear_value t5
    exact h6.freeChecker

theorem execAssaySampleTimeout_follows {t : Nat} (hs : Follows s₀ s) : AnsFollows s₀ (execAssaySampleTimeout t s) := by
  unfold execAssaySampleTimeout
  refine AnsFollows.next ?_
  extract_lets +onlyGivenNames t1
  have h2 : Follows s₀ t1 := hs.atTime
  clear_value t1
  split
  · exact h2
  · refine Follows.ite ?_ ?_
    · exact h2
    · exact h2.setSamples.sat

theorem execStrikeLogHour_follows {t : Nat} (hs : Follows s₀ s) : AnsFollows s₀ (execStrikeLogHour t s) := by
  unfold execStrikeLogHour
  refine AnsFollows.next ?_
  extract_lets +onlyGivenNames t1
  have h2 : Follows s₀ t1 := hs.atTime
  clear_value t1
  refine Follows.ite ?_ ?_
  · exact h2
  · extract_lets +onlyGivenNames t3 t4 t5
    exact h2.upd.showStrikes.checkHealth

theorem execAssayLogSel_follows {i : Nat} {t : Nat} (hs : Follows s₀ s) : AnsFollows s₀ (execAssayLogSel i t s) := by
  unfold execAssayLogSel
  refine AnsFollows.next ?_
  extract_lets +onlyGivenNames t1
  have h2 : Follows s₀ t1 := hs.atTime.wr
  clear_value t1
  extract_lets +onlyGivenNames t3
  refine Follows.each ?_ ?_
  · exact h2
  · intro _ _ h4
    exact h4.wr

theorem Follows.showUnits (hs : Follows s₀ s) : Follows s₀ (s.showUnits) := by
  unfold State.showUnits
  exact hs.wrs

theorem Follows.keepDrivers (hs : Follows s₀ s) : Follows s₀ (s.keepDrivers) := by
  unfold State.keepDrivers
  refine Follows.each ?_ ?_
  · exact hs
  · intro _ _ h1
    extract_lets +onlyGivenNames t2
    have h3 : Follows s₀ t2 := by
      refine Follows.iff ?_ ?_
      · exact h1
      · intro _ h4
        exact h4.unbindTile
    clear_value t2
    refine Follows.iff ?_ ?_
    · exact h3
    · intro _ h5
      exact h5.setDriver

theorem Follows.replanJob {site : Nat} {j : JobRec} (hs : Follows s₀ s) : Follows s₀ (s.replanJob site j) := by
  unfold State.replanJob
  refine Follows.ite ?_ ?_
  · exact hs
  · extract_lets +onlyGivenNames t1 t2
    have h3 : Follows s₀ t2 := hs.wr
    clear_value t2
    split
    · exact h3
    · exact h3.putJob.flag

theorem Follows.retireSite {site : Nat} (hs : Follows s₀ s) : Follows s₀ (s.retireSite site) := by
  unfold State.retireSite
  extract_lets +onlyGivenNames t1 t2 t3 t4 t5
  have h6 : Follows s₀ t5 := hs.upd
  clear_value t5
  extract_lets +onlyGivenNames t7
  have h8 : Follows s₀ t7 := h6.wrs
  clear_value t7
  exact h8.drop

theorem execTileRetire_follows {beams : List Nat} {t : Nat} (hs : Follows s₀ s) :
    AnsFollows s₀ (execTileRetire beams t s) := by
  unfold execTileRetire
  refine AnsFollows.next ?_
  extract_lets +onlyGivenNames t1
  have h2 : Follows s₀ t1 := hs.atTime
  clear_value t1
  extract_lets +onlyGivenNames t3
  refine Follows.ite ?_ ?_
  · exact h2
  · extract_lets +onlyGivenNames t4
    have h5 : Follows s₀ t4 := by
      refine Follows.each ?_ ?_
      · exact h2.supplyMark
      · intro _ _ h6
        exact h6.retireSite
    clear_value t4
    extract_lets +onlyGivenNames t7
    have h8 : Follows s₀ t7 := h5.showUnits.extendMr
    clear_value t7
    extract_lets +onlyGivenNames t9
    have h10 : Follows s₀ t9 := h8.adopt.keepDrivers.showClaimed.showChecker
    clear_value t9
    extract_lets +onlyGivenNames t11
    have h12 : Follows s₀ t11 := by
      refine Follows.each ?_ ?_
      · exact h10
      · intro _ _ h13
        exact h13.wr
    clear_value t11
    extract_lets +onlyGivenNames t14
    have h15 : Follows s₀ t14 := by
      refine Follows.each ?_ ?_
      · exact h12
      · intro _ _ h16
        refine Follows.each ?_ ?_
        · exact h16
        · intro _ _ h17
          exact h17.replanJob
    clear_value t14
    extract_lets +onlyGivenNames t18
    have h19 : Follows s₀ t18 := h15.wr.flag
    clear_value t18
    extract_lets +onlyGivenNames t20
    have h21 : Follows s₀ t20 := by
      refine Follows.each ?_ ?_
      · exact h19
      · intro _ _ h22
        refine Follows.ite ?_ ?_
        · exact h22
        · exact h22.showTiles
    clear_value t20
    exact h21.checkHealth.decision

end Sys2Proof.Machine
end

