-- ==== Sys2Proof/Laws/Follows/Snap.lean ====
section
/-! SUPPORT. What the operations and meanings of Machine/Snap.lean do to the state as a whole (`Follows`). -/

namespace Sys2Proof.Machine

variable {s₀ s : State}

theorem Follows.putGroup {dst : Nat} {a : Nat} {w : RegWord} (hs : Follows s₀ s) :
    Follows s₀ (s.putGroup dst a w) := by
  unfold State.putGroup
  extract_lets +onlyGivenNames t1
  exact hs.wrWord

theorem Follows.applySnap {l : List (Nat × RegWord)} (hs : Follows s₀ s) : Follows s₀ (s.applySnap l) := by
  unfold State.applySnap
  refine Follows.each ?_ ?_
  · exact hs
  · intro _ _ h1
    exact h1.putGroup

theorem Follows.actSnap {l : List (Nat × RegWord)} (hs : Follows s₀ s) : Follows s₀ (s.actSnap l) := by
  unfold State.actSnap
  refine Follows.each ?_ ?_
  · exact hs
  · intro _ _ h1
    exact h1.putGroup.putGroup

theorem Follows.discardGroup {b : BlockDef} {inst : Nat} {g : Nat} (hs : Follows s₀ s) :
    Follows s₀ (s.discardGroup b inst g) := by
  unfold State.discardGroup
  refine Follows.each ?_ ?_
  · exact hs
  · intro _ _ h1
    exact h1.putGroup

theorem Follows.dropWaiting {slice : Option Nat} {btype : Nat} {inst : Nat} {g : Nat} (hs : Follows s₀ s) :
    Follows s₀ (s.dropWaiting slice btype inst g) := by
  unfold State.dropWaiting
  extract_lets +onlyGivenNames t1
  exact hs.upd

theorem Follows.showPending {slice : Option Nat} (hs : Follows s₀ s) : Follows s₀ (s.showPending slice) := by
  unfold State.showPending
  extract_lets +onlyGivenNames t1
  split
  · exact hs.wr
  · exact hs.wr

theorem Follows.actWaiting {slice : Option Nat} {btype : Nat} {inst : Nat} {g : Nat} (hs : Follows s₀ s) :
    Follows s₀ (s.actWaiting slice btype inst g) := by
  unfold State.actWaiting
  split
  · exact hs
  · exact hs.actSnap.dropWaiting.showPending

end Sys2Proof.Machine
end

