-- ==== Sys2Proof/Laws/Follows/Ethernet.lean ====
section
/-! SUPPORT. What the operations and meanings of Machine/Ethernet.lean do to the state as a whole (`Follows`). -/

namespace Sys2Proof.Machine

variable {s₀ s : State}

theorem Follows.setPort {p : Nat} {x : PortState} (hs : Follows s₀ s) : Follows s₀ (s.setPort p x) := by
  unfold State.setPort
  exact hs.upd

theorem Follows.armGate {p : Nat} {g : GateSet} {base : Nat} (hs : Follows s₀ s) :
    Follows s₀ (s.armGate p g base) := by
  unfold State.armGate
  extract_lets +onlyGivenNames t1 t2 t3 t4 t5 t6 t7
  exact hs.setPort.wrs

theorem Follows.dropLong {p : Nat} {q : Nat} {n_ : Nat} (hs : Follows s₀ s) : Follows s₀ (s.dropLong p q n_) := by
  induction n_ generalizing s p q with
  | zero => exact hs
  | succ n ih =>
    rw [State.dropLong]
    split
    · refine Follows.ite ?_ ?_
      · apply ih
        exact hs.setPort.sat
      · exact hs
    · exact hs

theorem Follows.dropLongAll {p : Nat} (hs : Follows s₀ s) : Follows s₀ (s.dropLongAll p) := by
  unfold State.dropLongAll
  refine Follows.each ?_ ?_
  · exact hs
  · intro _ _ h1
    exact h1.dropLong

theorem Follows.startFrame {p : Nat} {ps : Nat} {n_ : Nat} (hs : Follows s₀ s) :
    Follows s₀ (s.startFrame p ps n_) := by
  induction n_ generalizing s p ps with
  | zero => exact hs
  | succ n ih =>
    rw [State.startFrame]
    split
    · exact hs.dropLongAll
    · extract_lets +onlyGivenNames t1
      split
      · exact hs.dropLongAll
      · extract_lets +onlyGivenNames t2
        refine Follows.ite ?_ ?_
        · apply ih
          exact hs.dropLongAll.setPort.sat.flag
        · extract_lets +onlyGivenNames t3
          exact hs.dropLongAll.setPort

theorem Follows.flushPort {p : Nat} (hs : Follows s₀ s) : Follows s₀ (s.flushPort p) := by
  unfold State.flushPort
  extract_lets +onlyGivenNames t1 t2
  have h3 : Follows s₀ t2 := by
    unfold t2
    split
    · exact hs.sat
    · exact hs
  clear_value t2
  extract_lets +onlyGivenNames t4
  have h5 : Follows s₀ t4 := by
    refine Follows.each ?_ ?_
    · exact h3
    · intro _ _ h6
      exact h6.sat
  clear_value t4
  exact h5.setPort

theorem Follows.frameDone {p : Nat} (hs : Follows s₀ s) : Follows s₀ (s.frameDone p) := by
  unfold State.frameDone
  extract_lets +onlyGivenNames t1
  split
  · exact hs
  · extract_lets +onlyGivenNames t2
    have h3 : Follows s₀ t2 := hs.setPort.bump.bump.bump.emit
    clear_value t2
    refine Follows.iff ?_ ?_
    · exact h3
    · intro _ h4
      exact h4.wr.flushPort

theorem Follows.adminPort {p : Nat} (hs : Follows s₀ s) : Follows s₀ (s.adminPort p) := by
  unfold State.adminPort
  refine Follows.ite ?_ ?_
  · refine Follows.iff ?_ ?_
    · exact hs
    · intro _ h1
      exact h1.wr
  · refine Follows.ite ?_ ?_
    · exact hs
    · exact hs.wr.flushPort

theorem Follows.shapePort {old : State} {p : Nat} (hs : Follows s₀ s) : Follows s₀ (s.shapePort old p) := by
  unfold State.shapePort
  refine Follows.each ?_ ?_
  · exact hs
  · intro _ _ h1
    extract_lets +onlyGivenNames t2 t3 t4
    refine Follows.ite ?_ ?_
    · exact h1.setPort
    · exact h1

theorem Follows.policePort {old : State} {p : Nat} (hs : Follows s₀ s) : Follows s₀ (s.policePort old p) := by
  unfold State.policePort
  refine Follows.each ?_ ?_
  · exact hs
  · intro _ _ h1
    extract_lets +onlyGivenNames t2 t3
    refine Follows.ite ?_ ?_
    · exact h1.setPort
    · exact h1

theorem Follows.colour {p : Nat} {c : Nat} {b : Nat} {dei : Bool} (hs : Follows s₀ s) :
    Follows s₀ (s.colour p c b dei).2 := by
  unfold State.colour
  refine Follows.ite2 ?_ ?_
  · exact hs
  · extract_lets +onlyGivenNames t1 t2 t3 t4
    refine Follows.ite2 ?_ ?_
    · exact hs
    · refine Follows.ite2 ?_ ?_
      · exact hs.setPort
      · exact hs.setPort

theorem Follows.countColour {p : Nat} {c : Nat} {k : Nat} (hs : Follows s₀ s) : Follows s₀ (s.countColour p c k) := by
  unfold State.countColour
  exact hs.sat

theorem Follows.toService {p : Nat} {f : EthFrame} {dei : Nat} (hs : Follows s₀ s) :
    Follows s₀ (s.toService p f dei) := by
  unfold State.toService
  extract_lets +onlyGivenNames t1
  split
  · exact hs.sat
  · extract_lets +onlyGivenNames t2
    refine Follows.ite ?_ ?_
    · exact hs.sat
    · exact hs.emit

theorem Follows.deliver {p : Nat} {f : EthFrame} {dei : Nat} (hs : Follows s₀ s) : Follows s₀ (s.deliver p f dei) := by
  unfold State.deliver
  extract_lets +onlyGivenNames t1
  have h2 : Follows s₀ t1 := hs.bump.bump
  clear_value t1
  extract_lets +onlyGivenNames t3
  refine Follows.ite ?_ ?_
  · exact h2.sat
  · refine Follows.ite ?_ ?_
    · exact h2.toService
    · exact h2.emit

theorem execEthRxFrame_follows {port : Nat} {f : EthFrame} {t : Nat} (hs : Follows s₀ s) :
    AnsFollows s₀ (execEthRxFrame port f t s) := by
  unfold execEthRxFrame
  refine AnsFollows.onUnit ?_
  extract_lets +onlyGivenNames t1
  have h2 : Follows s₀ t1 := hs.atTime
  clear_value t1
  refine Follows.ite ?_ ?_
  · exact h2
  · refine Follows.ite ?_ ?_
    · exact h2.sat
    · refine Follows.ite ?_ ?_
      · exact h2.sat
      · refine Follows.ite ?_ ?_
        · exact h2.sat
        · extract_lets +onlyGivenNames t3 t4
          refine Follows.ite ?_ ?_
          · exact h2.deliver
          · extract_lets +onlyGivenNames t5
            split
            rename_i e7
            have h6 : Follows s₀ _ := Follows.of_pair2 e7 h2.colour
            extract_lets +onlyGivenNames t8
            have h9 : Follows s₀ t8 := h6.countColour
            clear_value t8
            refine Follows.ite ?_ ?_
            · exact h9
            · exact h9.deliver

theorem execTxFrameEnqueue_follows {port : Nat} {id : Nat} {len : Nat} {pcp : Option Nat} {latest : Option Nat} {t : Nat}
    (hs : Follows s₀ s) :
    AnsFollows s₀ (execTxFrameEnqueue port id len pcp latest t s) := by
  unfold execTxFrameEnqueue
  refine AnsFollows.onUnit ?_
  extract_lets +onlyGivenNames t1
  have h2 : Follows s₀ t1 := hs.atTime
  clear_value t1
  extract_lets +onlyGivenNames t3 t4 t5
  refine Follows.ite ?_ ?_
  · exact h2.sat
  · exact h2.setPort.dropLongAll

theorem execTxFrameStart_follows {port : Nat} {t : Nat} {ps : Nat} (hs : Follows s₀ s) :
    AnsFollows s₀ (execTxFrameStart port t ps s) := by
  unfold execTxFrameStart
  refine AnsFollows.onUnit ?_
  extract_lets +onlyGivenNames t1
  have h2 : Follows s₀ t1 := hs.atTime
  clear_value t1
  extract_lets +onlyGivenNames t3
  refine Follows.ite ?_ ?_
  · exact h2
  · extract_lets +onlyGivenNames t4
    have h5 : Follows s₀ t4 := h2.frameDone
    clear_value t4
    refine Follows.ite ?_ ?_
    · exact h5
    · exact h5.startFrame

theorem execShaperTick_follows {port : Nat} {t : Nat} (hs : Follows s₀ s) :
    AnsFollows s₀ (execShaperTick port t s) := by
  unfold execShaperTick
  refine AnsFollows.onUnit ?_
  extract_lets +onlyGivenNames t1
  have h2 : Follows s₀ t1 := hs.atTime
  clear_value t1
  extract_lets +onlyGivenNames t3 t4 t5
  exact h2.setPort

theorem execPolicerTick_follows {port : Nat} {t : Nat} (hs : Follows s₀ s) :
    AnsFollows s₀ (execPolicerTick port t s) := by
  unfold execPolicerTick
  refine AnsFollows.onUnit ?_
  extract_lets +onlyGivenNames t1
  have h2 : Follows s₀ t1 := hs.atTime
  clear_value t1
  extract_lets +onlyGivenNames t3 t4 t5 t6
  exact h2.setPort

theorem execGateEvent_follows {port : Nat} {t : Nat} (hs : Follows s₀ s) : AnsFollows s₀ (execGateEvent port t s) := by
  unfold execGateEvent
  refine AnsFollows.onUnit ?_
  extract_lets +onlyGivenNames t1
  have h2 : Follows s₀ t1 := hs.atTime
  clear_value t1
  extract_lets +onlyGivenNames t3
  exact h2.setPort

theorem execGateChange_follows {port : Nat} {t : Nat} (hs : Follows s₀ s) :
    AnsFollows s₀ (execGateChange port t s) := by
  unfold execGateChange
  refine AnsFollows.onUnit ?_
  extract_lets +onlyGivenNames t1
  have h2 : Follows s₀ t1 := hs.atTime
  clear_value t1
  extract_lets +onlyGivenNames t3
  split
  · exact h2
  · refine Follows.ite ?_ ?_
    · exact h2
    · extract_lets +onlyGivenNames t4
      have h5 : Follows s₀ t4 := h2.setPort
      clear_value t4
      extract_lets +onlyGivenNames t6
      have h7 : Follows s₀ t6 := h5.actWaiting
      clear_value t6
      extract_lets +onlyGivenNames t8
      have h9 : Follows s₀ t8 := h7.wrs
      clear_value t8
      exact h9.dropLongAll

theorem execPortLinkUp_follows {port : Nat} {since : Nat} {t : Nat} (hs : Follows s₀ s) :
    AnsFollows s₀ (execPortLinkUp port since t s) := by
  unfold execPortLinkUp
  refine AnsFollows.onUnit ?_
  extract_lets +onlyGivenNames t1
  have h2 : Follows s₀ t1 := hs.atTime
  clear_value t1
  refine Follows.ite ?_ ?_
  · exact h2
  · exact h2.wr.flag

theorem execPortLinkLoss_follows {port : Nat} {t : Nat} (hs : Follows s₀ s) :
    AnsFollows s₀ (execPortLinkLoss port t s) := by
  unfold execPortLinkLoss
  refine AnsFollows.onUnit ?_
  extract_lets +onlyGivenNames t1
  have h2 : Follows s₀ t1 := hs.atTime
  clear_value t1
  refine Follows.ite ?_ ?_
  · exact h2
  · extract_lets +onlyGivenNames t3
    have h4 : Follows s₀ t3 := h2.wr.sat.flag
    clear_value t3
    refine Follows.iff ?_ ?_
    · exact h4
    · intro _ h5
      exact h5.flushPort

end Sys2Proof.Machine
end

