-- ==== Sys2Proof/Laws/Follows/HostLink.lean ====
section
/-! SUPPORT. What the operations and meanings of Machine/HostLink.lean do to the state as a whole (`Follows`). -/

namespace Sys2Proof.Machine

variable {s₀ s : State}

theorem Follows.hostResult {code : Nat} (hs : Follows s₀ s) : Follows s₀ (s.hostResult code) := by
  unfold State.hostResult
  exact hs.wrs

theorem Follows.setSession {st : Nat} {cause : Nat} (hs : Follows s₀ s) : Follows s₀ (s.setSession st cause) := by
  unfold State.setSession
  extract_lets +onlyGivenNames t1 t2
  have h3 : Follows s₀ t2 := hs.wrs
  clear_value t2
  extract_lets +onlyGivenNames t4
  have h5 : Follows s₀ t4 := h3.log
  clear_value t4
  refine Follows.ite ?_ ?_
  · exact h5.sendVector
  · exact h5

theorem Follows.detachAll (hs : Follows s₀ s) : Follows s₀ (s.detachAll) := by
  unfold State.detachAll
  extract_lets +onlyGivenNames t1
  have h2 : Follows s₀ t1 := by
    refine Follows.each ?_ ?_
    · exact hs
    · intro _ _ h3
      exact h3.wrs
  clear_value t1
  exact h2.upd

theorem Follows.discardHost (hs : Follows s₀ s) : Follows s₀ (s.discardHost) := by
  unfold State.discardHost
  extract_lets +onlyGivenNames t1 t2 t3 t4
  have h5 : Follows s₀ t4 := hs.endWaiting
  clear_value t4
  extract_lets +onlyGivenNames t6
  have h7 : Follows s₀ t6 := by
    refine Follows.each ?_ ?_
    · exact h5
    · intro _ _ h8
      exact h8.drainRing
  clear_value t6
  refine Follows.ite ?_ ?_
  · exact h7
  · exact h7.log

theorem Follows.actOpen {level : Nat} (hs : Follows s₀ s) : Follows s₀ (s.actOpen level) := by
  unfold State.actOpen
  refine Follows.ite ?_ ?_
  · exact hs.hostResult
  · extract_lets +onlyGivenNames t1
    have h2 : Follows s₀ t1 := hs.discardHost.detachAll
    clear_value t1
    extract_lets +onlyGivenNames t3 t4
    have h5 : Follows s₀ t4 := h2.wrs
    clear_value t4
    extract_lets +onlyGivenNames t6 t7
    have h8 : Follows s₀ t7 := h5.upd
    clear_value t7
    exact h8.setSession.hostResult.decision

theorem Follows.actClose (hs : Follows s₀ s) : Follows s₀ (s.actClose) := by
  unfold State.actClose
  refine Follows.ite ?_ ?_
  · exact hs.hostResult
  · exact hs.discardHost.detachAll.setSession.hostResult.decision

theorem Follows.actAttach {x : Nat} {qmask : Nat} {base : Nat} (hs : Follows s₀ s) :
    Follows s₀ (s.actAttach x qmask base) := by
  unfold State.actAttach
  split
  · extract_lets +onlyGivenNames t1 t2 t3 t4
    have h5 : Follows s₀ t4 := hs.upd
    clear_value t4
    extract_lets +onlyGivenNames t6 t7
    have h8 : Follows s₀ t7 := h5.setJobs
    clear_value t7
    exact h8.wrs.hostResult
  · exact hs.hostResult

theorem Follows.actHost {n_ : HostAct} (hs : Follows s₀ s) : Follows s₀ (s.actHost n_) := by
  unfold State.actHost
  split
  · exact hs.actOpen
  · exact hs.actClose
  · exact hs.actAttach

theorem Follows.actWaitingHost (hs : Follows s₀ s) : Follows s₀ (s.actWaitingHost) := by
  unfold State.actWaitingHost
  refine Follows.ite ?_ ?_
  · exact hs
  · extract_lets +onlyGivenNames t1
    refine Follows.each ?_ ?_
    · exact hs.upd
    · intro _ _ h2
      exact h2.actHost

theorem Follows.hostAction {a : HostAct} (hs : Follows s₀ s) : Follows s₀ (s.hostAction a) := by
  unfold State.hostAction
  refine Follows.ite ?_ ?_
  · exact hs.sat
  · extract_lets +onlyGivenNames t1
    have h2 : Follows s₀ t1 := hs.wr
    clear_value t1
    exact h2.upd.actWaitingHost

theorem execHbSessionOpen_follows {level : Nat} {t : Nat} (hs : Follows s₀ s) :
    AnsFollows s₀ (execHbSessionOpen level t s) := by
  unfold execHbSessionOpen
  refine AnsFollows.next ?_
  extract_lets +onlyGivenNames t1
  have h2 : Follows s₀ t1 := hs.atTime
  clear_value t1
  refine Follows.ite ?_ ?_
  · exact h2
  · exact h2.wrs.hostAction

theorem execHbSessionClose_follows {t : Nat} (hs : Follows s₀ s) : AnsFollows s₀ (execHbSessionClose t s) := by
  unfold execHbSessionClose
  refine AnsFollows.next ?_
  extract_lets +onlyGivenNames t1
  have h2 : Follows s₀ t1 := hs.atTime
  clear_value t1
  refine Follows.ite ?_ ?_
  · exact h2
  · exact h2.wr.hostAction

theorem execHbAttach_follows {x : Nat} {base : Nat} {t : Nat} (hs : Follows s₀ s) :
    AnsFollows s₀ (execHbAttach x base t s) := by
  unfold execHbAttach
  refine AnsFollows.onUnit ?_
  extract_lets +onlyGivenNames t1
  have h2 : Follows s₀ t1 := hs.atTime
  clear_value t1
  refine Follows.ite ?_ ?_
  · exact h2
  · exact h2.wrs.hostAction

theorem execHbHeartbeat_follows {v : Nat} {t : Nat} (hs : Follows s₀ s) : AnsFollows s₀ (execHbHeartbeat v t s) := by
  unfold execHbHeartbeat
  refine AnsFollows.next ?_
  extract_lets +onlyGivenNames t1
  have h2 : Follows s₀ t1 := hs.atTime
  refine Follows.ite ?_ ?_
  · exact h2
  · refine Follows.ite ?_ ?_
    · exact h2.sat
    · extract_lets +onlyGivenNames t3 t4
      have h5 : Follows s₀ t4 := h2.upd
      refine Follows.ite ?_ ?_
      · exact h5.setSession.decision
      · exact h5

theorem Follows.loseSession {cause : Nat} (hs : Follows s₀ s) : Follows s₀ (s.loseSession cause) := by
  unfold State.loseSession
  refine Follows.ite ?_ ?_
  · exact hs
  · exact hs.upd.setSession

theorem execHeartbeatTimeout_follows {t : Nat} (hs : Follows s₀ s) : AnsFollows s₀ (execHeartbeatTimeout t s) := by
  unfold execHeartbeatTimeout
  refine AnsFollows.next ?_
  extract_lets +onlyGivenNames t1
  have h2 : Follows s₀ t1 := hs.atTime
  clear_value t1
  refine Follows.ite ?_ ?_
  · exact h2
  · exact h2.loseSession

theorem execSessionLostExpiry_follows {t : Nat} (hs : Follows s₀ s) : AnsFollows s₀ (execSessionLostExpiry t s) := by
  unfold execSessionLostExpiry
  refine AnsFollows.next ?_
  extract_lets +onlyGivenNames t1
  have h2 : Follows s₀ t1 := hs.atTime
  clear_value t1
  refine Follows.ite ?_ ?_
  · exact h2
  · exact h2.discardHost.detachAll.setSession.decision

theorem Follows.linkLost (hs : Follows s₀ s) : Follows s₀ (s.linkLost) := by
  unfold State.linkLost
  extract_lets +onlyGivenNames t1 t2
  have h3 : Follows s₀ t2 := hs.upd
  clear_value t2
  exact h3.wrs.loseSession

theorem execPcieLinkDown_follows {t : Nat} (hs : Follows s₀ s) : AnsFollows s₀ (execPcieLinkDown t s) := by
  unfold execPcieLinkDown
  exact .next hs.atTime.linkLost

theorem execPcieFunctionReset_follows {kind : Nat} {t : Nat} (hs : Follows s₀ s) :
    AnsFollows s₀ (execPcieFunctionReset kind t s) := by
  unfold execPcieFunctionReset
  refine AnsFollows.next ?_
  extract_lets +onlyGivenNames t1
  have h2 : Follows s₀ t1 := hs.atTime
  clear_value t1
  refine Follows.ite ?_ ?_
  · exact h2
  · extract_lets +onlyGivenNames t3 t4
    have h5 : Follows s₀ t4 := h2.upd
    clear_value t4
    refine Follows.ite ?_ ?_
    · exact h5.loseSession
    · exact h5.linkLost.wr

theorem execPcieLinkUp_follows {width : Nat} {rate : Nat} {t : Nat} (hs : Follows s₀ s) :
    AnsFollows s₀ (execPcieLinkUp width rate t s) := by
  unfold execPcieLinkUp
  refine AnsFollows.next ?_
  extract_lets +onlyGivenNames t1
  have h2 : Follows s₀ t1 := hs.atTime
  clear_value t1
  refine Follows.ite ?_ ?_
  · exact h2
  · extract_lets +onlyGivenNames t3 t4 t5
    have h6 : Follows s₀ t5 := h2.upd
    clear_value t5
    exact h6.wrs

theorem execPcieConfigRequest_follows {id : Nat} {t : Nat} (hs : Follows s₀ s) :
    AnsFollows s₀ (execPcieConfigRequest id t s) := by
  unfold execPcieConfigRequest
  refine AnsFollows.next ?_
  extract_lets +onlyGivenNames t1
  have h2 : Follows s₀ t1 := hs.atTime
  clear_value t1
  refine Follows.ite ?_ ?_
  · exact h2
  · exact h2.emit

theorem execAtsInvalidation_follows {entries : List (Nat × Nat)} {t : Nat} (hs : Follows s₀ s) :
    AnsFollows s₀ (execAtsInvalidation entries t s) := by
  unfold execAtsInvalidation
  refine AnsFollows.next ?_
  extract_lets +onlyGivenNames t1
  have h2 : Follows s₀ t1 := hs.atTime
  clear_value t1
  extract_lets +onlyGivenNames t3
  exact h2.upd.emit

end Sys2Proof.Machine
end

