-- ==== Sys2Proof/Laws/Follows/Memory.lean ====
section
/-! SUPPORT. What the operations and meanings of Machine/Memory.lean do to the state as a whole (`Follows`). -/

namespace Sys2Proof.Machine

variable {s₀ s : State}

theorem Follows.setUsed {x : Nat} {u : Nat} {t3 : Nat} (hs : Follows s₀ s) : Follows s₀ (s.setUsed x u t3) := by
  unfold State.setUsed
  exact hs.wrs

theorem Follows.showQuota {x : Nat} (hs : Follows s₀ s) : Follows s₀ (s.showQuota x) := by
  unfold State.showQuota
  exact hs.wrs

theorem Follows.setRegion {v : Nat} {i : Nat} {g : Region} (hs : Follows s₀ s) : Follows s₀ (s.setRegion v i g) := by
  unfold State.setRegion
  exact hs.upd

theorem Follows.takeFree {v : Nat} {i : Nat} {g : Region} (hs : Follows s₀ s) : Follows s₀ (s.takeFree v i g) := by
  unfold State.takeFree
  exact hs.setRegion.drop.drop

theorem Follows.holdRegion {v : Nat} {i : Nat} {moved : Bool} (hs : Follows s₀ s) :
    Follows s₀ (s.holdRegion v i moved) := by
  unfold State.holdRegion
  extract_lets +onlyGivenNames t1
  have h2 : Follows s₀ t1 := hs.setRegion.bump
  clear_value t1
  exact h2.upd

theorem Follows.setLends {l : List LendIn} (hs : Follows s₀ s) : Follows s₀ (s.setLends l) := by
  unfold State.setLends
  exact hs.upd.wr

theorem Follows.useLend {d : Nat} {i : Nat} {take : Bool} (hs : Follows s₀ s) : Follows s₀ (s.useLend d i take) := by
  unfold State.useLend
  exact hs.setLends

theorem Follows.clearMarks {h : HomeEntry} (hs : Follows s₀ s) : Follows s₀ (s.clearMarks h) := by
  unfold State.clearMarks
  exact hs.upd

theorem Follows.freeLend {d : Nat} {i : Nat} (hs : Follows s₀ s) : Follows s₀ (s.freeLend d i) := by
  unfold State.freeLend
  extract_lets +onlyGivenNames t1
  exact hs.zeroKeys.clearMarks.useLend

theorem Follows.showMoves {n : Nat} (hs : Follows s₀ s) : Follows s₀ (s.showMoves n) := by
  unfold State.showMoves
  extract_lets +onlyGivenNames t1
  exact hs.wrs

theorem Follows.queueMove {m : Move} (hs : Follows s₀ s) : Follows s₀ (s.queueMove m) := by
  unfold State.queueMove
  exact hs.upd.showMoves

theorem Follows.evict {f : Nat → Bool} {n_ : Nat} (hs : Follows s₀ s) : Follows s₀ (s.evict f n_).1 := by
  induction n_ generalizing s f with
  | zero => exact hs
  | succ n ih =>
    rw [State.evict]
    refine Follows.ite1 ?_ ?_
    · exact hs
    · split
      · apply ih
        exact hs.queueMove
      · exact hs

theorem Follows.evictExcess {x : Nat} (hs : Follows s₀ s) : Follows s₀ (s.evictExcess x) := by
  unfold State.evictExcess
  exact hs.evict

theorem Follows.evictOver (hs : Follows s₀ s) : Follows s₀ (s.evictOver) := by
  unfold State.evictOver
  refine Follows.each ?_ ?_
  · exact hs
  · intro _ _ h1
    exact h1.evictExcess

theorem Follows.endReq {x : Nat} {n : Nat} {code : Nat} {done : Nat} (hs : Follows s₀ s) :
    Follows s₀ (s.endReq x n code done) := by
  unfold State.endReq
  exact hs.wrs

theorem Follows.slabDone {x : Nat} {n : Nat} {ok : Bool} {code : Nat} (hs : Follows s₀ s) :
    Follows s₀ (s.slabDone x n ok code) := by
  unfold State.slabDone
  extract_lets +onlyGivenNames t1 t2
  split
  · exact hs
  · refine Follows.ite ?_ ?_
    · exact hs.upd.endReq
    · exact hs.upd

theorem Follows.endMove {m : Move} {ok : Bool} {code : Nat} (hs : Follows s₀ s) :
    Follows s₀ (s.endMove m ok code) := by
  unfold State.endMove
  extract_lets +onlyGivenNames t1 t2
  have h3 : Follows s₀ t2 := hs.upd.showMoves
  clear_value t2
  refine Follows.ite ?_ ?_
  · exact h3
  · exact h3.slabDone

theorem Follows.writeAt {k : Nat} {l : List (Nat × Byte)} (hs : Follows s₀ s) : Follows s₀ (s.writeAt k l) := by
  unfold State.writeAt
  refine Follows.each ?_ ?_
  · exact hs
  · intro _ _ h1
    exact h1.setByte

theorem Follows.copySlab {src : Nat} {dst : Nat} (hs : Follows s₀ s) : Follows s₀ (s.copySlab src dst) := by
  unfold State.copySlab
  extract_lets +onlyGivenNames t1
  refine Follows.each ?_ ?_
  · exact hs.zeroKeys
  · intro _ _ h2
    exact h2.setByte

theorem Follows.copyMarks {h : HomeEntry} {h' : HomeEntry} (hs : Follows s₀ s) : Follows s₀ (s.copyMarks h h') := by
  unfold State.copyMarks
  extract_lets +onlyGivenNames t1
  refine Follows.each ?_ ?_
  · exact hs.clearMarks
  · intro _ _ h2
    extract_lets +onlyGivenNames t3
    have h4 : Follows s₀ t3 := h2.vaultBad
    clear_value t3
    extract_lets +onlyGivenNames t5
    exact h4.setMark.setMark

theorem Follows.writeHeld {h : HomeEntry} {m : Move} (hs : Follows s₀ s) : Follows s₀ (s.writeHeld h m) := by
  unfold State.writeHeld
  extract_lets +onlyGivenNames t1
  have h2 : Follows s₀ t1 := hs.writeAt.writeAt
  clear_value t1
  extract_lets +onlyGivenNames t3 t4
  refine Follows.each ?_ ?_
  · exact h2
  · intro _ _ h5
    exact h5.setMark

theorem Follows.queueSlab {h : HomeEntry} {extra : Nat} (hs : Follows s₀ s) : Follows s₀ (s.queueSlab h extra) := by
  unfold State.queueSlab
  refine Follows.ite ?_ ?_
  · exact hs
  · exact hs.queueLines

theorem Follows.dropNew {m : Move} (hs : Follows s₀ s) : Follows s₀ (s.dropNew m) := by
  unfold State.dropNew
  refine Follows.ite ?_ ?_
  · exact hs
  · refine Follows.ite ?_ ?_
    · exact hs.freeLend
    · exact hs.upd

theorem Follows.abortMove {m : Move} {c : MoveCause} (hs : Follows s₀ s) : Follows s₀ (s.abortMove m c) := by
  unfold State.abortMove
  extract_lets +onlyGivenNames t1 t2
  have h3 : Follows s₀ t2 := hs.dropNew
  clear_value t2
  split
  · exact h3.setHome.flag.endMove
  · exact h3.endMove
  · refine Follows.ite ?_ ?_
    · exact h3.endMove
    · exact h3.writeHeld.setHome.endMove

theorem Follows.abortMoves {l : List Move} {c : MoveCause} (hs : Follows s₀ s) : Follows s₀ (s.abortMoves l c) := by
  unfold State.abortMoves
  refine Follows.each ?_ ?_
  · exact hs
  · intro _ _ h1
    exact h1.abortMove

theorem Follows.dropSlab {x : Nat} {slab : Nat} (hs : Follows s₀ s) : Follows s₀ (s.dropSlab x slab) := by
  unfold State.dropSlab
  extract_lets +onlyGivenNames t1
  have h2 : Follows s₀ t1 := hs.abortMoves
  clear_value t1
  extract_lets +onlyGivenNames t3 t4
  have h5 : Follows s₀ t4 := h2.setHome.emit
  clear_value t4
  split
  · exact h2
  · exact h5.setUsed
  · refine Follows.ite ?_ ?_
    · exact h5.freeLend.setUsed
    · exact h5.holdRegion.setUsed

theorem Follows.setObject {x : Nat} {i : Nat} {o : ObjRec} (hs : Follows s₀ s) : Follows s₀ (s.setObject x i o) := by
  unfold State.setObject
  exact hs.upd

theorem Follows.freeObject {x : Nat} {i : Nat} (hs : Follows s₀ s) : Follows s₀ (s.freeObject x i) := by
  unfold State.freeObject
  extract_lets +onlyGivenNames t1 t2
  have h3 : Follows s₀ t2 := by
    refine Follows.each ?_ ?_
    · exact hs
    · intro _ _ h4
      exact h4.dropSlab
  clear_value t2
  exact h3.setObject

theorem Follows.mapSlab {x : Nat} {slab : Nat} {hint : Nat} {target : Nat} {k : Nat} (hs : Follows s₀ s) :
    Follows s₀ (s.mapSlab x slab hint target k) := by
  unfold State.mapSlab
  split
  · exact hs
  · split
    · exact hs
    · extract_lets +onlyGivenNames t1
      have h2 : Follows s₀ t1 := hs.takeFree.setHome
      clear_value t1
      exact h2.setUsed

theorem Follows.mapPeer {x : Nat} {slab : Nat} {d : Nat} (hs : Follows s₀ s) : Follows s₀ (s.mapPeer x slab d) := by
  unfold State.mapPeer
  split
  · exact hs
  · extract_lets +onlyGivenNames t1
    have h2 : Follows s₀ t1 := hs.useLend.setHome
    clear_value t1
    exact h2.setUsed

theorem Follows.grant {x : Nat} {n : Nat} (hs : Follows s₀ s) : Follows s₀ (s.grant x n) := by
  unfold State.grant
  extract_lets +onlyGivenNames t1
  split
  · exact hs.endReq
  · extract_lets +onlyGivenNames t2 t3 t4
    have h5 : Follows s₀ t4 := hs.setObject
    clear_value t4
    extract_lets +onlyGivenNames t6
    have h7 : Follows s₀ t6 := by
      refine Follows.each ?_ ?_
      · exact h5
      · intro _ _ h8
        refine Follows.ite ?_ ?_
        · exact h8.mapPeer
        · exact h8.mapSlab
    clear_value t6
    exact h7.wr.endReq

theorem Follows.migrateSlab {x : Nat} {n : Nat} {f : ReqFields} {slab : Nat} {k : Nat} (hs : Follows s₀ s) :
    Follows s₀ (s.migrateSlab x n f slab k).1 := by
  unfold State.migrateSlab
  extract_lets +onlyGivenNames t1
  refine Follows.ite1 ?_ ?_
  · refine Follows.ite1 ?_ ?_
    · exact hs
    · refine Follows.ite1 ?_ ?_
      · exact hs
      · exact hs.queueMove
  · refine Follows.ite1 ?_ ?_
    · exact hs
    · split
      · exact hs
      · exact hs.queueMove

theorem Follows.migrate {x n : Nat} (hs : Follows s₀ s) : Follows s₀ (s.migrate x n) := by
  unfold State.migrate
  extract_lets f r
  have h : Follows s₀ r.1 := by
    refine Follows.foldl1 hs ?_
    intro p j k
    obtain ⟨t, q, d, c⟩ := p
    exact k.migrateSlab
  clear_value r
  obtain ⟨t, q, d, c⟩ := r
  exact Follows.ite h.endReq h.upd

theorem Follows.serve {q : MemReq} (hs : Follows s₀ s) : Follows s₀ (s.serve q).1 := by
  unfold State.serve
  extract_lets +onlyGivenNames t1 t2 t3 t4 t5
  refine Follows.ite1 ?_ ?_
  · extract_lets +onlyGivenNames t6
    split
    rename_i e8
    have h7 : Follows s₀ _ := Follows.of_pair1 e8 hs.evict
    extract_lets +onlyGivenNames t9
    have h10 : Follows s₀ t9 := by
      refine Follows.ite ?_ ?_
      · exact h7
      · exact hs
    clear_value t9
    refine Follows.ite1 ?_ ?_
    · refine Follows.endReq ?_
      refine Follows.iff ?_ ?_
      · exact h10.flag
      · intro _ h11
        exact h11.flag
    · refine Follows.ite1 ?_ ?_
      · exact h10.endReq
      · exact h10
  · refine Follows.ite1 ?_ ?_
    · exact hs.endReq
    · split
      · dsimp only
        exact hs.grant
      · dsimp only
        exact hs.freeObject.endReq
      · extract_lets +onlyGivenNames t12
        exact hs.setObject.endReq
      · dsimp only
        exact hs.migrate

theorem Follows.serveReqs {n_ : Nat} (hs : Follows s₀ s) : Follows s₀ (s.serveReqs n_) := by
  induction n_ generalizing s with
  | zero => exact hs
  | succ n ih =>
    rw [State.serveReqs]
    split
    · exact hs
    · extract_lets +onlyGivenNames t1
      split
      rename_i e3
      have h2 : Follows s₀ _ := Follows.of_pair1 e3 hs.upd.serve
      refine Follows.ite ?_ ?_
      · apply ih
        exact h2
      · exact h2.upd

theorem Follows.serveAll (hs : Follows s₀ s) : Follows s₀ (s.serveAll) := by
  unfold State.serveAll
  extract_lets +onlyGivenNames t1
  have h2 : Follows s₀ t1 := hs.evictOver
  clear_value t1
  exact h2.serveReqs

theorem Follows.memGo {x : Nat} {n : Nat} {op : Nat} {ticket : Nat} {hint : Nat} (hs : Follows s₀ s) :
    Follows s₀ (s.memGo x n op ticket hint) := by
  unfold State.memGo
  refine Follows.ite ?_ ?_
  · exact hs.windowErr
  · refine Follows.ite ?_ ?_
    · exact hs
    · extract_lets +onlyGivenNames t1
      have h2 : Follows s₀ t1 := hs.wrs
      clear_value t1
      exact h2.upd.serveAll

theorem execMemAlloc_follows {x : Nat} {n : Nat} {ticket : Nat} {hint : Nat} {t : Nat} (hs : Follows s₀ s) :
    AnsFollows s₀ (execMemAlloc x n ticket hint t s) := by
  unfold execMemAlloc
  exact AnsFollows.onUnit hs.atTime.memGo

theorem execMemFree_follows {x : Nat} {n : Nat} {ticket : Nat} {hint : Nat} {t : Nat} (hs : Follows s₀ s) :
    AnsFollows s₀ (execMemFree x n ticket hint t s) := by
  unfold execMemFree
  exact AnsFollows.onUnit hs.atTime.memGo

theorem execMemHint_follows {x : Nat} {n : Nat} {ticket : Nat} {hint : Nat} {t : Nat} (hs : Follows s₀ s) :
    AnsFollows s₀ (execMemHint x n ticket hint t s) := by
  unfold execMemHint
  exact AnsFollows.onUnit hs.atTime.memGo

theorem execMemMigrate_follows {x : Nat} {n : Nat} {ticket : Nat} {hint : Nat} {t : Nat} (hs : Follows s₀ s) :
    AnsFollows s₀ (execMemMigrate x n ticket hint t s) := by
  unfold execMemMigrate
  exact AnsFollows.onUnit hs.atTime.memGo

theorem execMemQuery_follows {x : Nat} {slab : Nat} {t : Nat} (hs : Follows s₀ s) :
    AnsFollows s₀ (execMemQuery x slab t s) := by
  unfold execMemQuery
  extract_lets +onlyGivenNames t1
  have h2 : Follows s₀ t1 := hs.atTime
  clear_value t1
  exact AnsFollows.onUnit h2.wrs.wr

theorem Follows.putMove {m : Move} {n : Move} (hs : Follows s₀ s) : Follows s₀ (s.putMove m n) := by
  unfold State.putMove
  extract_lets +onlyGivenNames t1 t2
  exact hs.upd.showMoves.showMoves

theorem Follows.startMove {m : Move} (hs : Follows s₀ s) : Follows s₀ (s.startMove m) := by
  unfold State.startMove
  extract_lets +onlyGivenNames t1
  refine Follows.ite ?_ ?_
  · exact hs.endMove
  · refine Follows.ite ?_ ?_
    · extract_lets +onlyGivenNames t2
      split
      · exact hs.endMove
      · exact hs.useLend.setHome.putMove
    · extract_lets +onlyGivenNames t3
      split
      · exact hs.endMove
      · refine Follows.ite ?_ ?_
        · exact hs.putMove
        · exact hs.takeFree.bump.setHome.putMove

theorem execMoveStart_follows {sector : Nat} {t : Nat} (hs : Follows s₀ s) :
    AnsFollows s₀ (execMoveStart sector t s) := by
  unfold execMoveStart
  extract_lets +onlyGivenNames t1
  have h2 : Follows s₀ t1 := hs.atTime
  clear_value t1
  refine AnsFollows.onUnit ?_
  refine Follows.ite ?_ ?_
  · split
    · exact h2.startMove.serveAll
    · exact h2
  · exact h2

theorem Follows.mapOld {v : Nat} {i : Nat} {g : OldRegion → OldRegion} (hs : Follows s₀ s) :
    Follows s₀ (s.mapOld v i g) := by
  unfold State.mapOld
  extract_lets +onlyGivenNames t1
  exact hs.upd

theorem Follows.switchMove {m : Move} (hs : Follows s₀ s) : Follows s₀ (s.switchMove m) := by
  unfold State.switchMove
  extract_lets +onlyGivenNames t1 t2 t3
  have h4 : Follows s₀ t3 := hs.copySlab.copyMarks.queueSlab.writeHeld
  clear_value t3
  extract_lets +onlyGivenNames t5 t6
  have h7 : Follows s₀ t6 := h4.setHome.emit
  clear_value t6
  extract_lets +onlyGivenNames t8
  have h9 : Follows s₀ t8 := by
    refine Follows.ite ?_ ?_
    · exact h7
    · exact h7.setRegion.drop
  clear_value t8
  extract_lets +onlyGivenNames t10
  have h11 : Follows s₀ t10 := by
    refine Follows.ite ?_ ?_
    · exact h9.freeLend
    · exact h9.holdRegion.mapOld
  clear_value t10
  extract_lets +onlyGivenNames t12 t13 t14
  have h15 : Follows s₀ t14 := h11.setUsed
  clear_value t14
  extract_lets +onlyGivenNames t16
  have h17 : Follows s₀ t16 := by
    refine Follows.ite ?_ ?_
    · exact h15.sat
    · exact h15
  clear_value t16
  exact h17.endMove

theorem execMigrationSwitch_follows {x : Nat} {slab : Nat} {freeze : Bool} {t : Nat} (hs : Follows s₀ s) :
    AnsFollows s₀ (execMigrationSwitch x slab t s freeze) := by
  unfold execMigrationSwitch
  extract_lets +onlyGivenNames t1
  have h2 : Follows s₀ t1 := hs.atTime
  clear_value t1
  refine AnsFollows.onUnit ?_
  split
  · exact h2
  · refine Follows.ite ?_ ?_
    · exact h2
    · refine Follows.ite ?_ ?_
      · exact h2.mapMove
      · exact h2.switchMove.serveAll

theorem execOldRegionRelease_follows {v : Nat} {i : Nat} {t : Nat} (hs : Follows s₀ s) :
    AnsFollows s₀ (execOldRegionRelease v i t s) := by
  unfold execOldRegionRelease
  extract_lets +onlyGivenNames t1
  have h2 : Follows s₀ t1 := hs.atTime
  clear_value t1
  exact AnsFollows.onUnit h2.mapOld

theorem execRegionZeroed_follows {v : Nat} {i : Nat} {t : Nat} (hs : Follows s₀ s) :
    AnsFollows s₀ (execRegionZeroed v i t s) := by
  unfold execRegionZeroed
  extract_lets +onlyGivenNames t1
  have h2 : Follows s₀ t1 := hs.atTime
  clear_value t1
  refine AnsFollows.onUnit ?_
  refine Follows.ite ?_ ?_
  · extract_lets +onlyGivenNames t3 t4
    have h5 : Follows s₀ t4 := h2.zeroKeys.clearMarks.queueSlab.setRegion
    clear_value t4
    extract_lets +onlyGivenNames t6 t7
    have h8 : Follows s₀ t7 := h5.upd
    clear_value t7
    exact h8.drop.bump.bump.serveAll
  · exact h2

theorem execReleaseStall_follows {v : Nat} {i : Nat} {t : Nat} (hs : Follows s₀ s) :
    AnsFollows s₀ (execReleaseStall v i t s) := by
  unfold execReleaseStall
  extract_lets +onlyGivenNames t1
  have h2 : Follows s₀ t1 := hs.atTime
  clear_value t1
  refine AnsFollows.onUnit ?_
  refine Follows.ite ?_ ?_
  · exact h2.mapOld.flag
  · exact h2

theorem Follows.lendRegions {k : Nat} {n_ : Nat} (hs : Follows s₀ s) : Follows s₀ (s.lendRegions k n_) := by
  induction n_ generalizing s k with
  | zero => exact hs
  | succ n ih =>
    rw [State.lendRegions]
    split
    · exact hs
    · split
      · exact hs
      · apply ih
        exact hs.takeFree.bump

theorem Follows.unlend {k : Nat} {n_ : Nat} (hs : Follows s₀ s) : Follows s₀ (s.unlend k n_) := by
  induction n_ generalizing s k with
  | zero => exact hs
  | succ n ih =>
    rw [State.unlend]
    split
    · exact hs
    · apply ih
      exact hs.holdRegion.drop

theorem Follows.lendResize {k : Nat} {old : Nat} {new : Nat} (hs : Follows s₀ s) :
    Follows s₀ (s.lendResize k old new) := by
  unfold State.lendResize
  refine Follows.ite ?_ ?_
  · exact hs.lendRegions
  · exact hs.unlend

theorem Follows.lendHeard {d : Nat} {n : Nat} (hs : Follows s₀ s) : Follows s₀ (s.lendHeard d n) := by
  unfold State.lendHeard
  refine Follows.ite ?_ ?_
  · exact hs.setLends
  · exact hs.setLends

theorem Follows.homedHeard {d : Nat} {r : Nat × Nat} (hs : Follows s₀ s) : Follows s₀ (s.homedHeard d r) := by
  unfold State.homedHeard
  refine Follows.ite ?_ ?_
  · exact hs.upd
  · exact hs

theorem execLendMessageRx_follows {d : Nat} {n : Option Nat} {homed : List (Nat × Nat)} {t : Nat}
    (hs : Follows s₀ s) :
    AnsFollows s₀ (execLendMessageRx d n t s homed) := by
  unfold execLendMessageRx
  refine AnsFollows.onUnit ?_
  extract_lets +onlyGivenNames t1
  have h2 : Follows s₀ t1 := by
    refine Follows.each ?_ ?_
    · exact hs.atTime
    · intro _ _ h3
      exact h3.homedHeard
  clear_value t1
  split
  · exact h2
  · exact h2.lendHeard.serveAll

theorem Follows.lenderFenced {d : Nat} (hs : Follows s₀ s) : Follows s₀ (s.lenderFenced d) := by
  unfold State.lenderFenced
  extract_lets +onlyGivenNames t1 t2
  have h3 : Follows s₀ t2 := hs.abortMoves
  clear_value t2
  extract_lets +onlyGivenNames t4 t5
  have h6 : Follows s₀ t5 := h3.abortMoves
  clear_value t5
  extract_lets +onlyGivenNames t7
  have h8 : Follows s₀ t7 := by
    refine Follows.each ?_ ?_
    · exact h6
    · intro _ _ h9
      refine Follows.ite ?_ ?_
      · exact h9.setHome.flag
      · exact h9
  clear_value t7
  extract_lets +onlyGivenNames t10 t11
  have h12 : Follows s₀ t11 := h8.upd
  clear_value t11
  exact h12.zeroKeys.setLends

theorem Follows.borrowerFenced {d : Nat} (hs : Follows s₀ s) : Follows s₀ (s.borrowerFenced d) := by
  unfold State.borrowerFenced
  refine Follows.each ?_ ?_
  · exact hs
  · intro _ _ h1
    refine Follows.ite ?_ ?_
    · extract_lets +onlyGivenNames t2
      have h3 : Follows s₀ t2 := h1.unlend
      clear_value t2
      exact h3.upd
    · exact h1

theorem Follows.freeSlice {x : Nat} (hs : Follows s₀ s) : Follows s₀ (s.freeSlice x) := by
  unfold State.freeSlice
  extract_lets +onlyGivenNames t1
  have h2 : Follows s₀ t1 := by
    refine Follows.each ?_ ?_
    · exact hs
    · intro _ _ h3
      refine Follows.ite ?_ ?_
      · exact h3.freeObject
      · exact h3
  clear_value t1
  exact h2.upd

theorem Follows.stopMoves (hs : Follows s₀ s) : Follows s₀ (s.stopMoves) := by
  unfold State.stopMoves
  exact hs.abortMoves

end Sys2Proof.Machine
end

