-- ==== Sys2Proof/Laws/Follows/Stop.lean ====
section
/-! SUPPORT. What the operations and meanings of Machine/Stop.lean do to the state as a whole (`Follows`). -/

namespace Sys2Proof.Machine

variable {s₀ s : State}

theorem Follows.lowerCause {cause : Nat} (hs : Follows s₀ s) : Follows s₀ (s.lowerCause cause) := by
  unfold State.lowerCause
  refine Follows.ite ?_ ?_
  · extract_lets +onlyGivenNames t1
    have h2 : Follows s₀ t1 := hs.reachStop
    clear_value t1
    exact h2.wr
  · exact hs

theorem Follows.enterStop {cause : Nat} {st : StopState} {radioEnd : Option Nat} (hs : Follows s₀ s) :
    Follows s₀ (s.enterStop cause st radioEnd) := by
  unfold State.enterStop
  extract_lets +onlyGivenNames t1
  have h2 : Follows s₀ t1 := by
    refine Follows.ite ?_ ?_
    · exact hs.lowerCause
    · exact hs.reachStop.enterStopping
  clear_value t1
  exact h2.upd.showAdmit

theorem Follows.boundJob {cyc : Nat} {j : JobRec} (hs : Follows s₀ s) : Follows s₀ (s.boundJob cyc j) := by
  unfold State.boundJob
  split
  · refine Follows.ite ?_ ?_
    · exact hs.toClassical
    · extract_lets +onlyGivenNames t1
      have h2 : Follows s₀ t1 := hs.abortTiles.endTiles
      clear_value t1
      split
      rename_i e4
      have h3 : Follows s₀ _ := Follows.of_pair1 e4 h2.settle
      exact h3.endJob.showTiles.closeTileWindows
  · exact hs.abortTiles.endTiles.endJob.showTiles.closeTileWindows
  · exact hs
  · exact hs
  · exact hs.endUnstarted

theorem Follows.orderlyStop {cause : Nat} {cyc : Nat} (hs : Follows s₀ s) : Follows s₀ (s.orderlyStop cause cyc) := by
  unfold State.orderlyStop
  extract_lets +onlyGivenNames t1
  refine Follows.ite ?_ ?_
  · exact hs
  · refine Follows.ite ?_ ?_
    · exact hs.lowerCause
    · extract_lets +onlyGivenNames t2 t3
      have h4 : Follows s₀ t3 := by
        refine Follows.each ?_ ?_
        · exact hs
        · intro _ _ h5
          exact h5.boundJob
      clear_value t3
      exact h4.stopMoves.enterStop

theorem Follows.ownerStopNow (hs : Follows s₀ s) : Follows s₀ (s.ownerStopNow) := by
  unfold State.ownerStopNow
  extract_lets +onlyGivenNames t1 t2
  have h3 : Follows s₀ t2 := hs.reachStop
  clear_value t2
  exact h3.upd.showAdmit.passStop

theorem execOwnerStop_follows {t : Nat} (hs : Follows s₀ s) : AnsFollows s₀ (execOwnerStop t s) := by
  unfold execOwnerStop
  refine AnsFollows.next ?_
  extract_lets +onlyGivenNames t1
  have h2 : Follows s₀ t1 := hs.atTime
  clear_value t1
  extract_lets +onlyGivenNames t3
  refine Follows.ite ?_ ?_
  · exact h2.ownerStopNow
  · refine Follows.ite ?_ ?_
    · exact h2.upd
    · refine Follows.ite ?_ ?_
      · exact h2.lowerCause
      · exact h2

theorem execStopComplete_follows {t : Nat} (hs : Follows s₀ s) : AnsFollows s₀ (execStopComplete t s) := by
  unfold execStopComplete
  refine AnsFollows.next ?_
  extract_lets +onlyGivenNames t1
  have h2 : Follows s₀ t1 := hs.atTime.settleStop.passStop
  clear_value t1
  refine Follows.ite ?_ ?_
  · exact h2
  · extract_lets +onlyGivenNames t3
    have h4 : Follows s₀ t3 := by
      refine Follows.each ?_ ?_
      · exact h2
      · intro _ _ h5
        exact h5.wr
    clear_value t3
    exact h4.enterPhase.showAdmit

end Sys2Proof.Machine
end

