-- ==== Sys2Proof/Laws/Follows/Power.lean ====
section
/-! SUPPORT. What the operations and meanings of Machine/Power.lean do to the state as a whole (`Follows`). -/

namespace Sys2Proof.Machine

variable {s₀ s : State}

theorem Follows.setStep {n : Nat} {v : Nat} (hs : Follows s₀ s) : Follows s₀ (s.setStep n v) := by
  unfold State.setStep
  refine Follows.ite ?_ ?_
  · exact hs.upd
  · exact hs.wr

theorem Follows.runMode {m : Nat} {held : Bool} (hs : Follows s₀ s) : Follows s₀ (s.runMode m held) := by
  unfold State.runMode
  extract_lets +onlyGivenNames t1 t2
  have h3 : Follows s₀ t2 := hs.aclkMark.wrs
  clear_value t2
  extract_lets +onlyGivenNames t4
  have h5 : Follows s₀ t4 := by
    refine Follows.each ?_ ?_
    · exact h3
    · intro _ _ h6
      extract_lets +onlyGivenNames t7
      exact h6.setStep
  clear_value t4
  refine Follows.each ?_ ?_
  · exact h5
  · intro _ _ h8
    exact h8.setVault

theorem Follows.modeCommit (hs : Follows s₀ s) : Follows s₀ (s.modeCommit) := by
  unfold State.modeCommit
  extract_lets +onlyGivenNames t1
  refine Follows.ite ?_ ?_
  · exact hs.runMode
  · exact hs.runMode

theorem Follows.closeSector (hs : Follows s₀ s) : Follows s₀ (s.closeSector) := by
  unfold State.closeSector
  split
  · exact hs
  · exact hs.upd

theorem Follows.governSlow (hs : Follows s₀ s) : Follows s₀ (s.governSlow) := by
  unfold State.governSlow
  extract_lets +onlyGivenNames t1
  split
  · extract_lets +onlyGivenNames t2 t3
    have h4 : Follows s₀ t3 := hs.upd
    clear_value t3
    refine Follows.ite ?_ ?_
    · extract_lets +onlyGivenNames t5
      have h6 : Follows s₀ t5 := h4.setStep
      clear_value t5
      exact h6.upd
    · exact h4
  · split
    · exact hs.upd
    · refine Follows.ite ?_ ?_
      · exact hs
      · extract_lets +onlyGivenNames t7
        have h8 : Follows s₀ t7 := hs.closeSector
        clear_value t7
        exact h8.upd

theorem Follows.governFast (hs : Follows s₀ s) : Follows s₀ (s.governFast) := by
  unfold State.governFast
  extract_lets +onlyGivenNames t1 t2 t3 t4 t5
  have h6 : Follows s₀ t5 := hs.upd
  clear_value t5
  extract_lets +onlyGivenNames t7
  have h8 : Follows s₀ t7 := by
    unfold t7
    clear_value t2
    split
    · exact h6
    · extract_lets +onlyGivenNames t9
      exact h6.setStep
  clear_value t7
  extract_lets +onlyGivenNames t10 t11
  have h12 : Follows s₀ t11 := by
    refine Follows.ite ?_ ?_
    · exact h8.upd
    · exact h8
  clear_value t11
  extract_lets +onlyGivenNames t13
  have h14 : Follows s₀ t13 := by
    refine Follows.iff ?_ ?_
    · exact h12
    · intro _ h15
      exact h15.wr
  clear_value t13
  refine Follows.ite ?_ ?_
  · exact h14.decision
  · exact h14

theorem Follows.governPeak (hs : Follows s₀ s) : Follows s₀ (s.governPeak) := by
  unfold State.governPeak
  extract_lets +onlyGivenNames t1
  have h2 : Follows s₀ t1 := by
    refine Follows.ite ?_ ?_
    · exact hs.closeSector
    · exact hs
  clear_value t1
  extract_lets +onlyGivenNames t3 t4 t5
  have h6 : Follows s₀ t5 := h2.upd
  clear_value t5
  refine Follows.ite ?_ ?_
  · exact h6
  · exact h6.wr.flag.governSlow

theorem Follows.takeSample {mw : Nat} {sectors : List Nat} {vdd : Nat} (hs : Follows s₀ s) :
    Follows s₀ (s.takeSample mw sectors vdd) := by
  unfold State.takeSample
  extract_lets +onlyGivenNames t1 t2 t3
  have h4 : Follows s₀ t3 := hs.upd
  clear_value t3
  extract_lets +onlyGivenNames t5 t6
  have h7 : Follows s₀ t6 := h4.wrs
  clear_value t6
  refine Follows.each ?_ ?_
  · exact h7.bump
  · intro _ _ h8
    exact h8.wr

theorem Follows.govern {p : Nat} (hs : Follows s₀ s) : Follows s₀ (s.govern p) := by
  unfold State.govern
  extract_lets +onlyGivenNames t1 t2
  have h3 : Follows s₀ t2 := by
    refine Follows.ite ?_ ?_
    · split
      · exact hs.upd
      · refine Follows.ite ?_ ?_
        · exact hs
        · exact hs.governFast
    · exact hs.upd
  clear_value t2
  refine Follows.ite ?_ ?_
  · refine Follows.ite ?_ ?_
    · exact h3.governPeak
    · exact h3.governSlow
  · exact h3.upd

theorem execPowerSample_follows {mw : Nat} {sectors : List Nat} {vdd : Nat} {t : Nat} (hs : Follows s₀ s) :
    AnsFollows s₀ (execPowerSample mw sectors vdd t s) := by
  unfold execPowerSample
  refine AnsFollows.next ?_
  extract_lets +onlyGivenNames t1
  have h2 : Follows s₀ t1 := hs.atTime.takeSample
  clear_value t1
  exact h2.govern

theorem Follows.thermStep {n : Nat} (hs : Follows s₀ s) : Follows s₀ (s.thermStep n) := by
  unfold State.thermStep
  extract_lets +onlyGivenNames t1
  refine Follows.ite ?_ ?_
  · exact hs
  · extract_lets +onlyGivenNames t2
    have h3 : Follows s₀ t2 := hs.setStep
    clear_value t2
    exact h3.upd.flag

theorem Follows.topTemp {f : Fld} {v : Int} (hs : Follows s₀ s) : Follows s₀ (s.topTemp f v) := by
  unfold State.topTemp
  refine Follows.ite ?_ ?_
  · exact hs.wr
  · exact hs

theorem execJunctionTempSample_follows {n : Nat} {temp : Option Int} {cyc : Nat} {t : Nat} (hs : Follows s₀ s) :
    AnsFollows s₀ (execJunctionTempSample n temp cyc t s) := by
  unfold execJunctionTempSample
  refine AnsFollows.onUnit ?_
  extract_lets +onlyGivenNames t1
  have h2 : Follows s₀ t1 := hs.atTime
  clear_value t1
  extract_lets +onlyGivenNames t3 t4 t5 t6
  have h7 : Follows s₀ t6 := h2.upd
  clear_value t6
  extract_lets +onlyGivenNames t8
  have h9 : Follows s₀ t8 := by
    unfold t8
    split
    · exact h7.wrs.topTemp
    · exact h7.wr
  clear_value t8
  refine Follows.ite ?_ ?_
  · exact h9
  · extract_lets +onlyGivenNames t10
    have h11 : Follows s₀ t10 := by
      refine Follows.iff ?_ ?_
      · exact h9
      · intro _ h12
        exact h12.flag
    clear_value t10
    extract_lets +onlyGivenNames t13 t14 t15 t16
    have h17 : Follows s₀ t16 := h11.upd
    clear_value t16
    extract_lets +onlyGivenNames t18
    have h19 : Follows s₀ t18 := by
      refine Follows.iff ?_ ?_
      · exact h17
      · intro _ h20
        exact h20.thermStep
    clear_value t18
    extract_lets +onlyGivenNames t21 t22
    have h23 : Follows s₀ t22 := by
      refine Follows.ite ?_ ?_
      · refine Follows.iff ?_ ?_
        · exact h19.wr
        · intro _ h24
          exact h24.flag
      · refine Follows.ite ?_ ?_
        · exact h19.wr
        · exact h19
    clear_value t22
    refine Follows.ite ?_ ?_
    · exact h23.orderlyStop
    · refine Follows.ite ?_ ?_
      · exact h23.decision
      · exact h23

theorem execDramTempSample_follows {n : Nat} {temp : Option Int} {cyc : Nat} {t : Nat} (hs : Follows s₀ s) :
    AnsFollows s₀ (execDramTempSample n temp cyc t s) := by
  unfold execDramTempSample
  refine AnsFollows.onUnit ?_
  extract_lets +onlyGivenNames t1
  have h2 : Follows s₀ t1 := hs.atTime
  clear_value t1
  extract_lets +onlyGivenNames t3 t4 t5
  have h6 : Follows s₀ t5 := h2.upd
  clear_value t5
  extract_lets +onlyGivenNames t7
  have h8 : Follows s₀ t7 := by
    unfold t7
    split
    · exact h6.wrs.topTemp
    · exact h6.wr
  clear_value t7
  refine Follows.ite ?_ ?_
  · exact h8
  · extract_lets +onlyGivenNames t9 t10 t11 t12 t13
    have h14 : Follows s₀ t13 := h8.upd
    clear_value t13
    extract_lets +onlyGivenNames t15
    have h16 : Follows s₀ t15 := h14.wr
    clear_value t15
    extract_lets +onlyGivenNames t17
    have h18 : Follows s₀ t17 := by
      refine Follows.each ?_ ?_
      · exact h16
      · intro _ _ h19
        exact h19.wr
    clear_value t17
    extract_lets +onlyGivenNames t20
    have h21 : Follows s₀ t20 := by
      refine Follows.iff ?_ ?_
      · exact h18
      · intro _ h22
        exact h22.thermStep
    clear_value t20
    refine Follows.ite ?_ ?_
    · exact h21.orderlyStop
    · exact h21

theorem Follows.shedLevel {p : Nat} {on : Bool} (hs : Follows s₀ s) : Follows s₀ (s.shedLevel p on) := by
  unfold State.shedLevel
  refine Follows.each ?_ ?_
  · exact hs
  · intro _ _ h1
    exact h1.shedCarrier

theorem Follows.showStep {n : Nat} (hs : Follows s₀ s) : Follows s₀ (s.showStep n) := by
  unfold State.showStep
  exact hs.wrs.showAdmit.showDegraded

theorem Follows.enterShed {n : Nat} {cyc : Nat} (hs : Follows s₀ s) : Follows s₀ (s.enterShed n cyc) := by
  unfold State.enterShed
  extract_lets +onlyGivenNames t1 t2
  have h3 : Follows s₀ t2 := by
    unfold t2
    split
    · exact hs.upd
    · exact hs.upd
    · exact hs
  clear_value t2
  extract_lets +onlyGivenNames t4
  have h5 : Follows s₀ t4 := h3.showStep.flag
  clear_value t4
  split
  · refine Follows.each ?_ ?_
    · exact h5
    · intro _ _ h6
      exact h6.wr
  · refine Follows.ite ?_ ?_
    · exact h5.runMode
    · exact h5
  · refine Follows.each ?_ ?_
    · exact h5
    · intro _ _ h7
      exact h7.adminPort
  · refine Follows.ite ?_ ?_
    · exact h5.wr
    · exact h5
  · exact h5.upd.shedLevel
  · exact h5.orderlyStop
  · exact h5

theorem execShedStepEntry_follows {cyc : Nat} {t : Nat} (hs : Follows s₀ s) :
    AnsFollows s₀ (execShedStepEntry cyc t s) := by
  unfold execShedStepEntry
  refine AnsFollows.next ?_
  extract_lets +onlyGivenNames t1
  have h2 : Follows s₀ t1 := hs.atTime
  clear_value t1
  extract_lets +onlyGivenNames t3
  refine Follows.ite ?_ ?_
  · exact h2
  · refine Follows.ite ?_ ?_
    · refine Follows.ite ?_ ?_
      · exact h2
      · extract_lets +onlyGivenNames t4
        exact h2.upd.shedLevel
    · refine Follows.ite ?_ ?_
      · exact h2
      · exact h2.enterShed

theorem Follows.undoShed {n : Nat} (hs : Follows s₀ s) : Follows s₀ (s.undoShed n) := by
  unfold State.undoShed
  extract_lets +onlyGivenNames t1
  have h2 : Follows s₀ t1 := hs.showStep
  clear_value t1
  split
  · extract_lets +onlyGivenNames t3 t4
    have h5 : Follows s₀ t4 := by
      refine Follows.each ?_ ?_
      · exact h2
      · intro _ _ h6
        exact h6.wr
    clear_value t4
    exact h5.upd.flag
  · refine Follows.ite ?_ ?_
    · exact h2.runMode
    · exact h2
  · exact h2.decision
  · refine Follows.each ?_ ?_
    · exact h2
    · intro _ _ h7
      exact h7.adminPort
  · refine Follows.ite ?_ ?_
    · exact h2.wr
    · exact h2
  · exact h2

theorem Follows.recover (hs : Follows s₀ s) : Follows s₀ (s.recover) := by
  unfold State.recover
  extract_lets +onlyGivenNames t1 t2
  refine Follows.ite ?_ ?_
  · exact hs
  · extract_lets +onlyGivenNames t3 t4
    have h5 : Follows s₀ t4 := hs.upd
    refine Follows.ite ?_ ?_
    · extract_lets +onlyGivenNames t6 t7 t8
      have h9 : Follows s₀ t8 := h5.upd.shedLevel
      refine Follows.ite ?_ ?_
      · exact h9
      · exact h9.undoShed
    · exact h5.undoShed

theorem execRecoveryStep_follows {t : Nat} (hs : Follows s₀ s) : AnsFollows s₀ (execRecoveryStep t s) := by
  unfold execRecoveryStep
  exact .next hs.atTime.recover

theorem Follows.sagSource {n : Nat} (hs : Follows s₀ s) : Follows s₀ (s.sagSource n) := by
  unfold State.sagSource
  extract_lets +onlyGivenNames t1 t2
  have h3 : Follows s₀ t2 := hs.upd
  clear_value t2
  refine Follows.ite ?_ ?_
  · exact h3
  · extract_lets +onlyGivenNames t4 t5
    have h6 : Follows s₀ t5 := h3.upd.wr
    clear_value t5
    refine Follows.ite ?_ ?_
    · exact h6
    · exact h6.upd.flag

theorem execPwrWarn_follows {ns : Nat} {t : Nat} (hs : Follows s₀ s) : AnsFollows s₀ (execPwrWarn ns t s) := by
  unfold execPwrWarn
  refine AnsFollows.next ?_
  extract_lets +onlyGivenNames t1
  have h2 : Follows s₀ t1 := hs.atTime
  clear_value t1
  refine Follows.ite ?_ ?_
  · exact h2
  · exact h2.sagSource

theorem execRailSag_follows {n : Nat} {uv : Nat} {ns : Nat} {cyc : Nat} {t : Nat} (hs : Follows s₀ s) :
    AnsFollows s₀ (execRailSag n uv ns cyc t s) := by
  unfold execRailSag
  refine AnsFollows.onUnit ?_
  extract_lets +onlyGivenNames t1
  have h2 : Follows s₀ t1 := hs.atTime
  clear_value t1
  extract_lets +onlyGivenNames t3
  refine Follows.ite ?_ ?_
  · exact h2
  · extract_lets +onlyGivenNames t4
    have h5 : Follows s₀ t4 := h2.sagSource
    clear_value t4
    refine Follows.ite ?_ ?_
    · exact h5.enterShed
    · exact h5

theorem execSagCleared_follows {n : Nat} {t : Nat} (hs : Follows s₀ s) : AnsFollows s₀ (execSagCleared n t s) := by
  unfold execSagCleared
  refine AnsFollows.next ?_
  extract_lets +onlyGivenNames t1
  have h2 : Follows s₀ t1 := hs.atTime
  clear_value t1
  extract_lets +onlyGivenNames t3 t4 t5
  have h6 : Follows s₀ t5 := h2.upd
  clear_value t5
  refine Follows.ite ?_ ?_
  · exact h6
  · exact h6.upd.wr

end Sys2Proof.Machine
end

