-- ==== Sys2Proof/Laws/Follows/Board.lean ====
section
/-! SUPPORT. What the operations and meanings of Machine/Board.lean do to the state as a whole (`Follows`). -/

namespace Sys2Proof.Machine

variable {s₀ s : State}

theorem execThermtrip_follows {t : Nat} (hs : Follows s₀ s) : AnsFollows s₀ (execThermtrip t s) := by
  unfold execThermtrip
  refine AnsFollows.next ?_
  extract_lets +onlyGivenNames t1
  have h2 : Follows s₀ t1 := hs.atTime
  clear_value t1
  refine Follows.ite ?_ ?_
  · exact h2
  · exact h2.upd.emit

theorem execAvsTimeout_follows {t : Nat} (hs : Follows s₀ s) : AnsFollows s₀ (execAvsTimeout t s) := by
  unfold execAvsTimeout
  refine AnsFollows.next ?_
  extract_lets +onlyGivenNames t1
  have h2 : Follows s₀ t1 := hs.atTime
  clear_value t1
  refine Follows.ite ?_ ?_
  · exact h2.upd
  · extract_lets +onlyGivenNames t3 t4
    have h5 : Follows s₀ t4 := h2.upd
    clear_value t4
    exact h5.wr.log

theorem Follows.flashResult {code : Nat} (hs : Follows s₀ s) : Follows s₀ (s.flashResult code) := by
  unfold State.flashResult
  exact hs.wrs

theorem execFlashWrite_follows {len : Nat} {mapped : Bool} {t : Nat} (hs : Follows s₀ s) :
    AnsFollows s₀ (execFlashWrite len mapped t s) := by
  unfold execFlashWrite
  refine AnsFollows.next ?_
  extract_lets +onlyGivenNames t1
  have h2 : Follows s₀ t1 := hs.atTime
  clear_value t1
  extract_lets +onlyGivenNames t3 t4 t5
  refine Follows.ite ?_ ?_
  · exact h2.wr
  · extract_lets +onlyGivenNames t6
    have h7 : Follows s₀ t6 := h2.wr
    clear_value t6
    refine Follows.ite ?_ ?_
    · exact h7.flashResult
    · refine Follows.ite ?_ ?_
      · exact h7.flashResult
      · refine Follows.ite ?_ ?_
        · exact h7.flashResult
        · exact h7.upd.wrs

theorem Follows.copyToFlash {src : Nat} {off : Nat} {n : Nat} (hs : Follows s₀ s) :
    Follows s₀ (s.copyToFlash src off n) := by
  unfold State.copyToFlash
  extract_lets +onlyGivenNames t1
  refine Follows.each ?_ ?_
  · exact hs.zeroKeys
  · intro _ _ h2
    exact h2.setByte

theorem execFlashWriteDone_follows {ok : Bool} {t : Nat} (hs : Follows s₀ s) :
    AnsFollows s₀ (execFlashWriteDone ok t s) := by
  unfold execFlashWriteDone
  refine AnsFollows.next ?_
  extract_lets +onlyGivenNames t1
  have h2 : Follows s₀ t1 := hs.atTime
  clear_value t1
  split
  · exact h2
  · extract_lets +onlyGivenNames t3 t4
    have h5 : Follows s₀ t4 := h2.upd
    clear_value t4
    refine Follows.ite ?_ ?_
    · exact h5.copyToFlash.flashResult
    · exact h5.scramble.flashResult

theorem execPowerLoss_follows {t : Nat} (hs : Follows s₀ s) : AnsFollows s₀ (execPowerLoss t s) := by
  unfold execPowerLoss
  refine AnsFollows.next ?_
  extract_lets +onlyGivenNames t1
  have h2 : Follows s₀ t1 := hs.atTime.bare
  clear_value t1
  exact h2.upd

end Sys2Proof.Machine
end

