-- ==== Sys2Proof/Laws/Follows/Time.lean ====
section
/-! SUPPORT. What the operations and meanings of Machine/Time.lean do to the state as a whole (`Follows`). -/

namespace Sys2Proof.Machine

variable {s₀ s : State}

theorem Follows.setDom {d : Nat} {x : DomState} (hs : Follows s₀ s) : Follows s₀ (s.setDom d x) := by
  unfold State.setDom
  refine Follows.ite ?_ ?_
  · exact hs.upd
  · exact hs.upd

theorem Follows.pulse {sec : Nat} (hs : Follows s₀ s) : Follows s₀ (s.pulse sec) := by
  unfold State.pulse
  refine Follows.ite ?_ ?_
  · extract_lets +onlyGivenNames t1
    have h2 : Follows s₀ t1 := hs.emit
    clear_value t1
    exact h2.upd
  · exact hs

theorem Follows.stepClock {d : Nat} (hs : Follows s₀ s) : Follows s₀ (s.stepClock d) := by
  unfold State.stepClock
  extract_lets +onlyGivenNames t1 t2 t3 t4
  have h5 : Follows s₀ t4 := hs.upd
  clear_value t4
  extract_lets +onlyGivenNames t6
  refine Follows.flag ?_
  refine Follows.iff ?_ ?_
  · exact h5
  · intro _ h7
    exact h7.pulse

theorem Follows.steer (hs : Follows s₀ s) : Follows s₀ (s.steer) := by
  unfold State.steer
  extract_lets +onlyGivenNames t1 t2 t3 t4
  refine Follows.ite ?_ ?_
  · exact hs.stepClock.wr
  · refine Follows.ite ?_ ?_
    · extract_lets +onlyGivenNames t5
      exact hs.upd.wr
    · extract_lets +onlyGivenNames t6 t7
      exact hs.upd.wr

theorem Follows.lockRule (hs : Follows s₀ s) : Follows s₀ (s.lockRule) := by
  unfold State.lockRule
  extract_lets +onlyGivenNames t1 t2 t3 t4 t5
  have h6 : Follows s₀ t5 := hs.upd
  clear_value t5
  extract_lets +onlyGivenNames t7
  have h8 : Follows s₀ t7 := h6.wrs
  clear_value t7
  extract_lets +onlyGivenNames t9
  have h10 : Follows s₀ t9 := by
    refine Follows.iff ?_ ?_
    · refine Follows.iff ?_ ?_
      · exact h8
      · intro _ h11
        exact h11.flag
    · intro _ h12
      exact h12.flag
  clear_value t9
  refine Follows.iff ?_ ?_
  · exact h10
  · intro _ h13
    exact h13.wr

theorem Follows.holdTime (hs : Follows s₀ s) : Follows s₀ (s.holdTime) := by
  unfold State.holdTime
  extract_lets +onlyGivenNames t1 t2 t3 t4 t5
  have h6 : Follows s₀ t5 := hs.upd
  clear_value t5
  clear_value t4
  split
  · exact h6.wr
  · refine Follows.ite ?_ ?_
    · exact h6.wr
    · exact h6

theorem Follows.timeNow (hs : Follows s₀ s) : Follows s₀ (s.timeNow) := by
  unfold State.timeNow
  exact hs.steer.lockRule.holdTime

theorem Follows.switchDom {d : Nat} (hs : Follows s₀ s) : Follows s₀ (s.switchDom d) := by
  unfold State.switchDom
  extract_lets +onlyGivenNames t1 t2
  have h3 : Follows s₀ t2 := hs.upd
  clear_value t2
  exact h3.wr.flag

theorem Follows.selectDom (hs : Follows s₀ s) : Follows s₀ (s.selectDom) := by
  unfold State.selectDom
  refine Follows.ite ?_ ?_
  · exact hs
  · extract_lets +onlyGivenNames t1 t2 t3 t4 t5 t6
    refine Follows.ite ?_ ?_
    · refine Follows.ite ?_ ?_
      · exact hs.switchDom
      · extract_lets +onlyGivenNames t7
        have h8 : Follows s₀ t7 := hs.upd
        clear_value t7
        refine Follows.iff ?_ ?_
        · exact h8
        · intro _ h9
          exact h9.flag
    · extract_lets +onlyGivenNames t10
      have h11 : Follows s₀ t10 := hs.upd
      clear_value t10
      refine Follows.ite ?_ ?_
      · exact h11.switchDom
      · exact h11

theorem Follows.timeStep (hs : Follows s₀ s) : Follows s₀ (s.timeStep) := by
  unfold State.timeStep
  exact hs.selectDom.timeNow

theorem Follows.holdDom {d : Nat} (hs : Follows s₀ s) : Follows s₀ (s.holdDom d) := by
  unfold State.holdDom
  extract_lets +onlyGivenNames t1
  exact hs.setDom.wr

theorem Follows.freeDom {d : Nat} (hs : Follows s₀ s) : Follows s₀ (s.freeDom d) := by
  unfold State.freeDom
  extract_lets +onlyGivenNames t1
  exact hs.setDom.wr

theorem Follows.domUpdate {d : Nat} {o : Int} {k : Nat} (hs : Follows s₀ s) : Follows s₀ (s.domUpdate d o k) := by
  unfold State.domUpdate
  extract_lets +onlyGivenNames t1 t2 t3 t4 t5
  have h6 : Follows s₀ t5 := hs.wr.bump
  clear_value t5
  refine Follows.ite ?_ ?_
  · extract_lets +onlyGivenNames t7
    exact h6.setDom.wr
  · extract_lets +onlyGivenNames t8 t9 t10 t11 t12 t13 t14 t15
    have h16 : Follows s₀ t15 := h6.setDom.wr.wr
    clear_value t15
    refine Follows.iff ?_ ?_
    · exact h16
    · intro _ h17
      exact h17.holdDom

theorem execPtpSyncRx_follows {d : Nat} {port : Nat} {origin : Nat} {t : Nat} (hs : Follows s₀ s) :
    AnsFollows s₀ (execPtpSyncRx d port origin t s) := by
  unfold execPtpSyncRx
  refine AnsFollows.onUnit ?_
  extract_lets +onlyGivenNames t1
  have h2 : Follows s₀ t1 := hs.atTime.timeNow
  clear_value t1
  refine Follows.ite ?_ ?_
  · exact h2
  · extract_lets +onlyGivenNames t3 t4
    have h5 : Follows s₀ t4 := h2.setDom
    clear_value t4
    split
    · exact h5
    · extract_lets +onlyGivenNames t6
      exact h5.domUpdate.timeStep

theorem execPtpDelayResult_follows {d : Nat} {port : Nat} {delay : Int} {t : Nat} (hs : Follows s₀ s) :
    AnsFollows s₀ (execPtpDelayResult d port delay t s) := by
  unfold execPtpDelayResult
  refine AnsFollows.onUnit ?_
  extract_lets +onlyGivenNames t1
  have h2 : Follows s₀ t1 := hs.atTime
  clear_value t1
  refine Follows.ite ?_ ?_
  · exact h2
  · extract_lets +onlyGivenNames t3 t4 t5
    have h6 : Follows s₀ t5 := h2.setDom
    clear_value t5
    split
    · refine Follows.ite ?_ ?_
      · exact h6.wr
      · exact h6
    · exact h6

theorem execPtpAnnounceRx_follows {d : Nat} {port : Nat} {num : Nat} {identity : Nat} {cls : Nat} {accuracy : Nat} {chosen : Bool} {t : Nat}
    (hs : Follows s₀ s) :
    AnsFollows s₀ (execPtpAnnounceRx d port num identity cls accuracy chosen t s) := by
  unfold execPtpAnnounceRx
  refine AnsFollows.onUnit ?_
  extract_lets +onlyGivenNames t1
  have h2 : Follows s₀ t1 := hs.atTime.timeNow
  clear_value t1
  refine Follows.ite ?_ ?_
  · exact h2
  · extract_lets +onlyGivenNames t3 t4
    have h5 : Follows s₀ t4 := h2.setDom
    clear_value t4
    refine Follows.ite ?_ ?_
    · exact h5
    · extract_lets +onlyGivenNames t6 t7
      have h8 : Follows s₀ t7 := h5.setDom
      clear_value t7
      extract_lets +onlyGivenNames t9
      have h10 : Follows s₀ t9 := h8.wrs
      clear_value t9
      split
      · exact h10.wr
      · exact h10.wr

theorem execAnnounceTimeout_follows {d : Nat} {t : Nat} (hs : Follows s₀ s) :
    AnsFollows s₀ (execAnnounceTimeout d t s) := by
  unfold execAnnounceTimeout
  refine AnsFollows.onUnit ?_
  extract_lets +onlyGivenNames t1
  have h2 : Follows s₀ t1 := hs.atTime.timeNow
  clear_value t1
  extract_lets +onlyGivenNames t3
  refine Follows.ite ?_ ?_
  · exact h2
  · exact h2.holdDom.timeStep

theorem execSyncTimeout_follows {d : Nat} {t : Nat} (hs : Follows s₀ s) : AnsFollows s₀ (execSyncTimeout d t s) := by
  unfold execSyncTimeout
  refine AnsFollows.onUnit ?_
  extract_lets +onlyGivenNames t1
  have h2 : Follows s₀ t1 := hs.atTime.timeNow
  clear_value t1
  refine Follows.ite ?_ ?_
  · exact h2
  · exact h2.holdDom.timeStep

theorem execPpsTimeout_follows {d : Nat} {t : Nat} (hs : Follows s₀ s) : AnsFollows s₀ (execPpsTimeout d t s) := by
  unfold execPpsTimeout
  refine AnsFollows.onUnit ?_
  extract_lets +onlyGivenNames t1
  have h2 : Follows s₀ t1 := hs.atTime.timeNow
  clear_value t1
  refine Follows.ite ?_ ?_
  · exact h2
  · exact h2.holdDom.timeStep

theorem Follows.edgeFor {d : Nat} {pin : Nat} {prev : Nat} (hs : Follows s₀ s) :
    Follows s₀ (s.edgeFor d pin prev) := by
  unfold State.edgeFor
  refine Follows.ite ?_ ?_
  · exact hs
  · extract_lets +onlyGivenNames t1 t2
    split
    · refine Follows.ite ?_ ?_
      · extract_lets +onlyGivenNames t3 t4
        exact hs.domUpdate
      · exact hs.flag
    · exact hs.flag

theorem execPpsEdge_follows {pin : Nat} {t : Nat} (hs : Follows s₀ s) : AnsFollows s₀ (execPpsEdge pin t s) := by
  unfold execPpsEdge
  refine AnsFollows.onUnit ?_
  extract_lets +onlyGivenNames t1
  have h2 : Follows s₀ t1 := hs.atTime.timeNow
  clear_value t1
  refine Follows.ite ?_ ?_
  · exact h2
  · extract_lets +onlyGivenNames t3 t4
    have h5 : Follows s₀ t4 := h2.edgeFor.edgeFor
    clear_value t4
    extract_lets +onlyGivenNames t6 t7
    have h8 : Follows s₀ t7 := h5.upd
    clear_value t7
    exact h8.timeStep

theorem execTodFrameRx_follows {frame : List (BitVec 8)} {rate : Bool} {t : Nat} (hs : Follows s₀ s) :
    AnsFollows s₀ (execTodFrameRx frame rate t s) := by
  unfold execTodFrameRx
  extract_lets +onlyGivenNames t1
  have h2 : Follows s₀ t1 := hs.atTime
  clear_value t1
  extract_lets +onlyGivenNames t3 t4
  refine AnsFollows.ite ?_ ?_
  · exact .next h2
  · refine AnsFollows.ite ?_ ?_
    · extract_lets +onlyGivenNames t5 t6
      have h7 : Follows s₀ t6 := h2.upd
      clear_value t6
      exact .next h7.sat
    · exact .next h2.sat

theorem execTodPpsOutput_follows {t : Nat} (hs : Follows s₀ s) : AnsFollows s₀ (execTodPpsOutput t s) := by
  unfold execTodPpsOutput
  extract_lets +onlyGivenNames t1
  have h2 : Follows s₀ t1 := hs.atTime.timeNow
  clear_value t1
  extract_lets +onlyGivenNames t3
  exact .next h2.pulse

theorem execHoldoverBudgetExpiry_follows {t : Nat} (hs : Follows s₀ s) :
    AnsFollows s₀ (execHoldoverBudgetExpiry t s) := by
  unfold execHoldoverBudgetExpiry
  extract_lets +onlyGivenNames t1
  have h2 : Follows s₀ t1 := hs.atTime.timeNow
  clear_value t1
  extract_lets +onlyGivenNames t3
  refine AnsFollows.ite ?_ ?_
  · exact .next h2
  · extract_lets +onlyGivenNames t4
    have h5 : Follows s₀ t4 := h2.flag.flag
    clear_value t4
    refine AnsFollows.ite ?_ ?_
    · exact .next h5
    · refine AnsFollows.next ?_
      refine Follows.each ?_ ?_
      · exact h5
      · intro _ _ h6
        refine Follows.ite ?_ ?_
        · exact h6.wr
        · exact h6

theorem execSlewGapClosed_follows {t : Nat} (hs : Follows s₀ s) : AnsFollows s₀ (execSlewGapClosed t s) := by
  unfold execSlewGapClosed
  exact .next hs.atTime.timeNow

theorem execTimeCapture_follows {t : Nat} (hs : Follows s₀ s) : AnsFollows s₀ (execTimeCapture t s) := by
  unfold execTimeCapture
  extract_lets +onlyGivenNames t1
  have h2 : Follows s₀ t1 := hs.atTime.timeNow
  clear_value t1
  extract_lets +onlyGivenNames t3
  exact .next h2.wrs

theorem Follows.synceSelect (hs : Follows s₀ s) : Follows s₀ (s.synceSelect) := by
  unfold State.synceSelect
  extract_lets +onlyGivenNames t1 t2
  split
  · refine Follows.wr ?_
    refine Follows.iff ?_ ?_
    · exact hs
    · intro _ h3
      exact h3.flag
  · extract_lets +onlyGivenNames t4 t5
    have h6 : Follows s₀ t5 := hs.wrs
    clear_value t5
    refine Follows.ite ?_ ?_
    · exact h6
    · exact h6.flag.wr

theorem execEsmcRx_follows {port : Nat} {ql : Nat} {t : Nat} (hs : Follows s₀ s) :
    AnsFollows s₀ (execEsmcRx port ql t s) := by
  unfold execEsmcRx
  refine AnsFollows.onUnit ?_
  extract_lets +onlyGivenNames t1
  have h2 : Follows s₀ t1 := hs.atTime
  clear_value t1
  extract_lets +onlyGivenNames t3
  exact h2.upd.synceSelect

theorem execSynceRefFail_follows {n : Nat} {since : Nat} {t : Nat} (hs : Follows s₀ s) :
    AnsFollows s₀ (execSynceRefFail n since t s) := by
  unfold execSynceRefFail
  refine AnsFollows.onUnit ?_
  extract_lets +onlyGivenNames t1
  have h2 : Follows s₀ t1 := hs.atTime
  clear_value t1
  extract_lets +onlyGivenNames t3
  refine Follows.ite ?_ ?_
  · exact h2
  · exact h2.upd.synceSelect

theorem execSynceWtrExpiry_follows {n : Nat} {since : Nat} {t : Nat} (hs : Follows s₀ s) :
    AnsFollows s₀ (execSynceWtrExpiry n since t s) := by
  unfold execSynceWtrExpiry
  refine AnsFollows.onUnit ?_
  extract_lets +onlyGivenNames t1
  have h2 : Follows s₀ t1 := hs.atTime
  clear_value t1
  extract_lets +onlyGivenNames t3
  refine Follows.ite ?_ ?_
  · exact h2
  · exact h2.upd.synceSelect

theorem execEecLocked_follows {t : Nat} (hs : Follows s₀ s) : AnsFollows s₀ (execEecLocked t s) := by
  unfold execEecLocked
  extract_lets +onlyGivenNames t1
  have h2 : Follows s₀ t1 := hs.atTime
  clear_value t1
  split
  · exact .next h2
  · extract_lets +onlyGivenNames t3 t4
    have h5 : Follows s₀ t4 := h2.upd
    clear_value t4
    exact .next h5.wrs

theorem execPtpTransmit_follows {t : Nat} (hs : Follows s₀ s) : AnsFollows s₀ (execPtpTransmit t s) := by
  unfold execPtpTransmit
  extract_lets +onlyGivenNames t1
  have h2 : Follows s₀ t1 := hs.atTime.timeNow
  clear_value t1
  extract_lets +onlyGivenNames t3 t4 t5 t6 t7
  have h8 : Follows s₀ t7 := by
    refine Follows.each ?_ ?_
    · exact h2
    · intro _ _ h9
      extract_lets +onlyGivenNames t10
      have h11 : Follows s₀ t10 := h9.emit
      clear_value t10
      extract_lets +onlyGivenNames t12
      have h13 : Follows s₀ t12 := by
        refine Follows.iff ?_ ?_
        · exact h11
        · intro _ h14
          exact h14.emit
      clear_value t12
      refine Follows.iff ?_ ?_
      · exact h13
      · intro _ h15
        exact h15.emit
  clear_value t7
  extract_lets +onlyGivenNames t16
  have h17 : Follows s₀ t16 := by
    refine Follows.each ?_ ?_
    · exact h8
    · intro _ _ h18
      refine Follows.each ?_ ?_
      · exact h18
      · intro _ _ h19
        exact h19.emit
  clear_value t16
  extract_lets +onlyGivenNames t20
  exact .next h17.upd

theorem execEsmcTransmit_follows {t : Nat} (hs : Follows s₀ s) : AnsFollows s₀ (execEsmcTransmit t s) := by
  unfold execEsmcTransmit
  extract_lets +onlyGivenNames t1
  have h2 : Follows s₀ t1 := hs.atTime
  clear_value t1
  extract_lets +onlyGivenNames t3 t4 t5
  have h6 : Follows s₀ t5 := by
    refine Follows.each ?_ ?_
    · exact h2
    · intro _ _ h7
      exact h7.emit
  clear_value t5
  refine AnsFollows.next ?_
  refine Follows.iff ?_ ?_
  · exact h6
  · intro _ h8
    exact h8.emit

end Sys2Proof.Machine
end

