-- ==== Sys2Proof/Laws/Follows/Fab.lean ====
section
/-! SUPPORT. What the operations and meanings of Machine/Fab.lean do to the state as a whole (`Follows`). -/

namespace Sys2Proof.Machine

variable {s₀ s : State}

theorem Follows.setFab {f : FabState} (hs : Follows s₀ s) : Follows s₀ (s.setFab f) := by
  unfold State.setFab
  exact hs.upd

theorem Follows.setLink {l : Nat} {x : LinkState} (hs : Follows s₀ s) : Follows s₀ (s.setLink l x) := by
  unfold State.setLink
  extract_lets +onlyGivenNames t1
  exact hs.setFab

theorem Follows.setPeer {d : Nat} {x : PeerState} (hs : Follows s₀ s) : Follows s₀ (s.setPeer d x) := by
  unfold State.setPeer
  extract_lets +onlyGivenNames t1
  exact hs.setFab

theorem Follows.putFlit {l : Nat} {seq : Nat} {idle : Bool} {nak : Bool} {f : Flit} (hs : Follows s₀ s) :
    Follows s₀ (s.putFlit l seq idle nak f) := by
  unfold State.putFlit
  extract_lets +onlyGivenNames t1 t2 t3 t4 t5
  exact hs.setLink.emit

theorem Follows.putIdle {l : Nat} {nak : Bool} (hs : Follows s₀ s) : Follows s₀ (s.putIdle l nak) := by
  unfold State.putIdle
  exact hs.putFlit

theorem Follows.pump {l : Nat} {n_ : Nat} (hs : Follows s₀ s) : Follows s₀ (s.pump l n_) := by
  induction n_ generalizing s l with
  | zero => exact hs
  | succ n ih =>
    rw [State.pump]
    refine Follows.ite ?_ ?_
    · exact hs
    · split
      · exact hs
      · extract_lets +onlyGivenNames t1
        have h2 : Follows s₀ t1 := hs.setLink
        clear_value t1
        apply ih
        exact h2.drop.putFlit

theorem Follows.sendOn {l : Nat} {f : Flit} (hs : Follows s₀ s) : Follows s₀ (s.sendOn l f) := by
  unfold State.sendOn
  extract_lets +onlyGivenNames t1
  refine Follows.ite ?_ ?_
  · exact hs
  · exact hs.setLink.pump

theorem Follows.send {f : Flit} (hs : Follows s₀ s) : Follows s₀ (s.send f) := by
  unfold State.send
  split
  · exact hs.sendOn
  · exact hs

theorem Follows.showRoutes (hs : Follows s₀ s) : Follows s₀ (s.showRoutes) := by
  unfold State.showRoutes
  refine Follows.each ?_ ?_
  · exact hs
  · intro _ _ h1
    exact h1.wr

theorem Follows.manage {l : Nat} {kind : Nat} {pod : Nat} {dev : Nat} {tag : Nat} {window : Nat} {offset : Nat} {data : List Byte}
    (hs : Follows s₀ s) :
    Follows s₀ (s.manage l kind pod dev tag window offset data) := by
  unfold State.manage
  exact hs.sendOn

theorem Follows.showCharges {l : Nat} (hs : Follows s₀ s) : Follows s₀ (s.showCharges l) := by
  unfold State.showCharges
  refine Follows.each ?_ ?_
  · exact hs
  · intro _ _ h1
    exact h1.wr

theorem Follows.chargeLane {l : Nat} {lane : Option Nat} (hs : Follows s₀ s) : Follows s₀ (s.chargeLane l lane) := by
  unfold State.chargeLane
  split
  · exact hs
  · extract_lets +onlyGivenNames t1 t2
    have h3 : Follows s₀ t2 := hs.setLink.showCharges
    clear_value t2
    refine Follows.ite ?_ ?_
    · exact h3
    · refine Follows.ite ?_ ?_
      · exact h3.wrs
      · refine Follows.ite ?_ ?_
        · exact h3
        · exact h3.wrs

theorem Follows.linkDrop {l : Nat} {lane : Option Nat} (hs : Follows s₀ s) : Follows s₀ (s.linkDrop l lane) := by
  unfold State.linkDrop
  extract_lets +onlyGivenNames t1 t2
  have h3 : Follows s₀ t2 := hs.setLink
  clear_value t2
  extract_lets +onlyGivenNames t4
  have h5 : Follows s₀ t4 := h3.wrs
  clear_value t4
  extract_lets +onlyGivenNames t6
  have h7 : Follows s₀ t6 := h5.sat.chargeLane
  clear_value t6
  extract_lets +onlyGivenNames t8
  have h9 : Follows s₀ t8 := by
    refine Follows.each ?_ ?_
    · exact h7
    · intro _ _ h10
      refine Follows.each ?_ ?_
      · exact h10
      · intro _ _ h11
        exact h11.manage
  clear_value t8
  refine Follows.each ?_ ?_
  · exact h9
  · intro _ _ h12
    exact h12.send

theorem Follows.replayAll {l : Nat} (hs : Follows s₀ s) : Follows s₀ (s.replayAll l) := by
  unfold State.replayAll
  extract_lets +onlyGivenNames t1
  refine Follows.ite ?_ ?_
  · exact hs
  · extract_lets +onlyGivenNames t2
    have h3 : Follows s₀ t2 := hs.setLink
    clear_value t2
    refine Follows.sat ?_
    refine Follows.each ?_ ?_
    · exact h3
    · intro _ _ h4
      exact h4.putFlit

theorem Follows.acked {l : Nat} {seq : Nat} (hs : Follows s₀ s) : Follows s₀ (s.acked l seq) := by
  unfold State.acked
  extract_lets +onlyGivenNames t1
  split
  · exact hs
  · extract_lets +onlyGivenNames t2
    have h3 : Follows s₀ t2 := hs.setLink
    clear_value t2
    exact h3.pump

theorem Follows.freeBuf {l : Nat} {vc : Nat} (hs : Follows s₀ s) : Follows s₀ (s.freeBuf l vc) := by
  unfold State.freeBuf
  extract_lets +onlyGivenNames t1 t2
  refine Follows.ite ?_ ?_
  · exact hs
  · extract_lets +onlyGivenNames t3
    have h4 : Follows s₀ t3 := hs.setLink
    clear_value t3
    refine Follows.iff ?_ ?_
    · exact h4
    · intro _ h5
      exact h5.putIdle

theorem Follows.checkMemCredits (hs : Follows s₀ s) : Follows s₀ (s.checkMemCredits) := by
  unfold State.checkMemCredits
  refine Follows.each ?_ ?_
  · exact hs
  · intro _ _ h1
    exact h1.booksFault

theorem execFlitRx_follows {l : Nat} {f : FlitTail} {fec : Nat × Nat} {sym : List Nat} {t : Nat} (hs : Follows s₀ s) :
    AnsFollows s₀ (execFlitRx l f fec sym t s) := by
  unfold execFlitRx
  refine AnsFollows.onUnit ?_
  extract_lets +onlyGivenNames t1
  have h2 : Follows s₀ t1 := hs.atTime
  clear_value t1
  refine Follows.ite ?_ ?_
  · exact h2
  · extract_lets +onlyGivenNames t3
    have h4 : Follows s₀ t3 := h2.bump.sat
    clear_value t3
    extract_lets +onlyGivenNames t5 t6 t7
    have h8 : Follows s₀ t7 := by
      refine Follows.iff ?_ ?_
      · exact h4.wr
      · intro _ h9
        exact h9.flag
    clear_value t7
    extract_lets +onlyGivenNames t10
    refine Follows.ite ?_ ?_
    · extract_lets +onlyGivenNames t11
      have h12 : Follows s₀ t11 := h8.sat
      clear_value t11
      refine Follows.ite ?_ ?_
      · exact h12
      · exact h12.putIdle
    · refine Follows.ite ?_ ?_
      · refine Follows.ite ?_ ?_
        · exact h8
        · exact h8.putIdle
      · extract_lets +onlyGivenNames t13
        have h14 : Follows s₀ t13 := by
          unfold t13
          split
          · exact h8.acked
          · exact h8
        clear_value t13
        extract_lets +onlyGivenNames t15
        have h16 : Follows s₀ t15 := by
          refine Follows.each ?_ ?_
          · exact h14
          · intro _ _ h17
            exact h17.wr
        clear_value t15
        extract_lets +onlyGivenNames t18
        have h19 : Follows s₀ t18 := h16.pump
        clear_value t18
        refine Follows.ite ?_ ?_
        · exact h19.checkMemCredits
        · extract_lets +onlyGivenNames t20 t21
          have h22 : Follows s₀ t21 := h19.setLink
          clear_value t21
          extract_lets +onlyGivenNames t23
          have h24 : Follows s₀ t23 := by
            refine Follows.ite ?_ ?_
            · exact h22.sat.freeBuf
            · exact h22.putIdle
          clear_value t23
          exact h24.checkMemCredits

theorem execNakRx_follows {l : Nat} {ack : Nat} {t : Nat} (hs : Follows s₀ s) :
    AnsFollows s₀ (execNakRx l ack t s) := by
  unfold execNakRx
  refine AnsFollows.onUnit ?_
  extract_lets +onlyGivenNames t1
  have h2 : Follows s₀ t1 := hs.atTime
  clear_value t1
  refine Follows.ite ?_ ?_
  · exact h2.acked.replayAll
  · exact h2

theorem execReplayTimeout_follows {l : Nat} {t : Nat} (hs : Follows s₀ s) :
    AnsFollows s₀ (execReplayTimeout l t s) := by
  unfold execReplayTimeout
  refine AnsFollows.onUnit ?_
  extract_lets +onlyGivenNames t1
  have h2 : Follows s₀ t1 := hs.atTime
  clear_value t1
  refine Follows.ite ?_ ?_
  · exact h2.replayAll
  · exact h2

theorem execDeliveryTimeout_follows {l : Nat} {sym : List Nat} {t : Nat} (hs : Follows s₀ s) :
    AnsFollows s₀ (execDeliveryTimeout l sym t s) := by
  unfold execDeliveryTimeout
  refine AnsFollows.onUnit ?_
  extract_lets +onlyGivenNames t1
  have h2 : Follows s₀ t1 := hs.atTime
  clear_value t1
  refine Follows.ite ?_ ?_
  · exact h2.linkDrop
  · exact h2

theorem execFabLinkUp_follows {l : Nat} {p : Partner} {since : Nat} {t : Nat} (hs : Follows s₀ s) :
    AnsFollows s₀ (execFabLinkUp l p since t s) := by
  unfold execFabLinkUp
  refine AnsFollows.onUnit ?_
  extract_lets +onlyGivenNames t1
  have h2 : Follows s₀ t1 := hs.atTime
  clear_value t1
  refine Follows.ite ?_ ?_
  · exact h2
  · extract_lets +onlyGivenNames t3 t4
    refine Follows.ite ?_ ?_
    · exact h2.flag
    · extract_lets +onlyGivenNames t5 t6
      have h7 : Follows s₀ t6 := h2.setLink
      clear_value t6
      extract_lets +onlyGivenNames t8
      have h9 : Follows s₀ t8 := h7.wrs
      clear_value t8
      extract_lets +onlyGivenNames t10 t11
      have h12 : Follows s₀ t11 := by
        refine Follows.iff ?_ ?_
        · refine Follows.each ?_ ?_
          · exact h9
          · intro _ _ h13
            exact h13.linkDrop
        · intro _ h14
          exact h14.flag
      clear_value t11
      extract_lets +onlyGivenNames t15
      exact h12.wrs.manage

theorem execFabLinkDown_follows {l : Nat} {started : Bool} {lost : List Nat} {sym : List Nat} {t : Nat}
    (hs : Follows s₀ s) :
    AnsFollows s₀ (execFabLinkDown l started lost sym t s) := by
  unfold execFabLinkDown
  refine AnsFollows.onUnit ?_
  extract_lets +onlyGivenNames t1
  have h2 : Follows s₀ t1 := hs.atTime
  clear_value t1
  refine Follows.ite ?_ ?_
  · exact h2
  · refine Follows.ite ?_ ?_
    · exact h2.linkDrop
    · split
      · exact h2.linkDrop
      · exact h2.linkDrop

theorem execUnpark_follows {l : Nat} {t : Nat} (hs : Follows s₀ s) : AnsFollows s₀ (execUnpark l t s) := by
  unfold execUnpark
  refine AnsFollows.onUnit ?_
  extract_lets +onlyGivenNames t1
  have h2 : Follows s₀ t1 := hs.atTime
  clear_value t1
  refine Follows.ite ?_ ?_
  · exact h2
  · extract_lets +onlyGivenNames t3
    have h4 : Follows s₀ t3 := h2.wrs
    clear_value t3
    extract_lets +onlyGivenNames t5 t6
    have h7 : Follows s₀ t6 := h4.setLink.showCharges
    clear_value t6
    refine Follows.ite ?_ ?_
    · exact h7.linkDrop.setLink
    · exact h7.wr

theorem execLaneChargeLapse_follows {l : Nat} {t : Nat} (hs : Follows s₀ s) :
    AnsFollows s₀ (execLaneChargeLapse l t s) := by
  unfold execLaneChargeLapse
  refine AnsFollows.onUnit ?_
  extract_lets +onlyGivenNames t1
  have h2 : Follows s₀ t1 := hs.atTime
  clear_value t1
  extract_lets +onlyGivenNames t3
  exact h2.setLink.showCharges

theorem execCreditLeak_follows {l : Nat} {t : Nat} (hs : Follows s₀ s) : AnsFollows s₀ (execCreditLeak l t s) := by
  unfold execCreditLeak
  refine AnsFollows.onUnit ?_
  extract_lets +onlyGivenNames t1
  have h2 : Follows s₀ t1 := hs.atTime
  clear_value t1
  extract_lets +onlyGivenNames t3 t4
  refine Follows.ite ?_ ?_
  · exact h2.flag.linkDrop
  · exact h2

theorem execHelloSend_follows {t : Nat} (hs : Follows s₀ s) : AnsFollows s₀ (execHelloSend t s) := by
  unfold execHelloSend
  extract_lets +onlyGivenNames t1
  have h2 : Follows s₀ t1 := hs.atTime
  clear_value t1
  refine AnsFollows.ite ?_ ?_
  · exact .next h2
  · extract_lets +onlyGivenNames t3 t4
    refine AnsFollows.next ?_
    refine Follows.each ?_ ?_
    · exact h2
    · intro _ _ h5
      refine Follows.each ?_ ?_
      · exact h5
      · intro _ _ h6
        exact h6.manage

theorem execLinkStateRx_follows {l : Nat} {dev : Nat} {named : Nat} {t : Nat} (hs : Follows s₀ s) :
    AnsFollows s₀ (execLinkStateRx l dev named t s) := by
  unfold execLinkStateRx
  refine AnsFollows.onUnit ?_
  extract_lets +onlyGivenNames t1
  have h2 : Follows s₀ t1 := hs.atTime.freeBuf
  clear_value t1
  extract_lets +onlyGivenNames t3
  exact h2.setPeer

end Sys2Proof.Machine
end

