-- ==== Sys2Proof/Laws/Follows/FabOps.lean ====
section
/-! SUPPORT. What the operations and meanings of Machine/FabOps.lean do to the state as a whole (`Follows`). -/

namespace Sys2Proof.Machine

variable {s₀ s : State}

theorem Follows.opqStore {q : Nat} {a : Nat} {l : List Byte} (hs : Follows s₀ s) : Follows s₀ (s.opqStore q a l) := by
  unfold State.opqStore
  refine Follows.ite ?_ ?_
  · exact hs.setBytes
  · exact hs.vsets

theorem Follows.putOp {o : FabOp} (hs : Follows s₀ s) : Follows s₀ (s.putOp o) := by
  unfold State.putOp
  extract_lets +onlyGivenNames t1
  exact hs.setFab

theorem Follows.writeDone {q : Nat} {index : Nat} {d : List Byte} {result : Nat} {code : Nat} {tag : Nat}
    (hs : Follows s₀ s) :
    Follows s₀ (s.writeDone q index d result code tag) := by
  unfold State.writeDone
  refine Follows.ite ?_ ?_
  · extract_lets +onlyGivenNames t1 t2
    exact hs.setFab
  · extract_lets +onlyGivenNames t3
    exact hs.opqStore.opqStore

theorem Follows.completeOp {o : FabOp} (hs : Follows s₀ s) : Follows s₀ (s.completeOp o) := by
  unfold State.completeOp
  extract_lets +onlyGivenNames t1 t2
  have h3 : Follows s₀ t2 := hs.setFab
  clear_value t2
  refine Follows.ite ?_ ?_
  · exact h3.staleDrop
  · exact h3.writeDone

theorem Follows.checkOp {id : Nat} (hs : Follows s₀ s) : Follows s₀ (s.checkOp id) := by
  unfold State.checkOp
  split
  · exact hs
  · refine Follows.ite ?_ ?_
    · exact hs
    · exact hs.completeOp

theorem Follows.endFabReq {r : FabReq} {code : Nat} (hs : Follows s₀ s) : Follows s₀ (s.endFabReq r code) := by
  unfold State.endFabReq
  extract_lets +onlyGivenNames t1 t2
  have h3 : Follows s₀ t2 := hs.setFab
  clear_value t2
  extract_lets +onlyGivenNames t4 t5
  have h6 : Follows s₀ t5 := by
    refine Follows.ite ?_ ?_
    · exact h3.setPeer
    · exact h3
  clear_value t5
  extract_lets +onlyGivenNames t7
  have h8 : Follows s₀ t7 := by
    unfold t7
    split
    · refine Follows.ite ?_ ?_
      · exact h6
      · exact h6.putOp
    · exact h6
  clear_value t7
  exact h8.checkOp

theorem Follows.takeTag (hs : Follows s₀ s) : Follows s₀ (s.takeTag).2 := by
  unfold State.takeTag
  extract_lets +onlyGivenNames t1 t2
  exact hs.setFab

theorem Follows.request {o : FabOp} {fl : Flit} {line : Nat} {lines : Nat} {homeEpoch : Nat} (hs : Follows s₀ s) :
    Follows s₀ (s.request o fl line lines homeEpoch) := by
  unfold State.request
  split
  rename_i e2
  have h1 : Follows s₀ _ := Follows.of_pair2 e2 hs.takeTag
  extract_lets +onlyGivenNames t3 t4 t5 t6
  have h7 : Follows s₀ t6 := h1.setFab
  clear_value t6
  extract_lets +onlyGivenNames t8 t9
  have h10 : Follows s₀ t9 := by
    refine Follows.ite ?_ ?_
    · exact h7.setPeer
    · exact h7
  clear_value t9
  extract_lets +onlyGivenNames t11
  have h12 : Follows s₀ t11 := by
    unfold t11
    split
    · exact h10.putOp
    · exact h10
  clear_value t11
  exact h12.send

theorem Follows.uncache {g : CacheLine → Bool} (hs : Follows s₀ s) : Follows s₀ (s.uncache g) := by
  unfold State.uncache
  extract_lets +onlyGivenNames t1
  exact hs.setFab

theorem Follows.invLines {window : Nat} {offset : Nat} {lines : Nat} (hs : Follows s₀ s) :
    Follows s₀ (s.invLines window offset lines) := by
  unfold State.invLines
  exact hs.uncache

theorem Follows.ownWrite {d : List Byte} {bytes : Nat} (hs : Follows s₀ s) : Follows s₀ (s.ownWrite d bytes) := by
  unfold State.ownWrite
  exact hs.uncache

theorem Follows.sendLines {id : Nat} {n_ : Nat} (hs : Follows s₀ s) : Follows s₀ (s.sendLines id n_) := by
  induction n_ generalizing s id with
  | zero => exact hs
  | succ n ih =>
    rw [State.sendLines]
    split
    · exact hs
    · extract_lets +onlyGivenNames t1 t2
      refine Follows.ite ?_ ?_
      · exact hs
      · extract_lets +onlyGivenNames t3 t4 t5 t6
        have h7 : Follows s₀ t6 := hs.putOp
        clear_value t6
        refine Follows.ite ?_ ?_
        · extract_lets +onlyGivenNames t8
          refine Follows.ite ?_ ?_
          · extract_lets +onlyGivenNames t9
            have h10 : Follows s₀ t9 := h7.opqStore
            clear_value t9
            apply ih
            exact h10.bump
          · extract_lets +onlyGivenNames t11
            apply ih
            exact h7.bump.request
        · extract_lets +onlyGivenNames t12 t13 t14 t15 t16
          apply ih
          exact h7.request

theorem Follows.pumpOps (hs : Follows s₀ s) : Follows s₀ (s.pumpOps) := by
  unfold State.pumpOps
  refine Follows.each ?_ ?_
  · exact hs
  · intro _ _ h1
    exact h1.sendLines

theorem Follows.setSpent {pod : Nat} {dev : Nat} {window : Nat} {g : List Nat → List Nat} (hs : Follows s₀ s) :
    Follows s₀ (s.setSpent pod dev window g) := by
  unfold State.setSpent
  extract_lets +onlyGivenNames t1 t2 t3 t4
  exact hs.setFab

theorem Follows.startOp {o : FabOp} (hs : Follows s₀ s) : Follows s₀ (s.startOp o) := by
  unfold State.startOp
  extract_lets +onlyGivenNames t1 t2 t3 t4
  have h5 : Follows s₀ t4 := hs.setFab
  clear_value t4
  refine Follows.ite ?_ ?_
  · exact h5.invLines.putOp.checkOp
  · refine Follows.ite ?_ ?_
    · exact h5.putOp.checkOp
    · refine Follows.ite ?_ ?_
      · exact h5.sendLines.checkOp
      · refine Follows.ite ?_ ?_
        · exact h5.ownWrite.sendLines.checkOp
        · extract_lets +onlyGivenNames t6
          have h7 : Follows s₀ t6 := h5.putOp
          clear_value t6
          extract_lets +onlyGivenNames t8
          have h9 : Follows s₀ t8 := by
            refine Follows.ite ?_ ?_
            · exact h7.ownWrite
            · exact h7
          clear_value t8
          extract_lets +onlyGivenNames t10
          have h11 : Follows s₀ t10 := by
            refine Follows.ite ?_ ?_
            · exact h9.setSpent
            · exact h9
          clear_value t10
          extract_lets +onlyGivenNames t12 t13
          have h14 : Follows s₀ t13 := by
            refine Follows.each ?_ ?_
            · exact h11
            · intro _ _ h15
              exact h15.request
          clear_value t13
          exact h14.checkOp

theorem Follows.issueOp {op : Nat} {q : Nat} (hs : Follows s₀ s) : Follows s₀ (s.issueOp op q) := by
  unfold State.issueOp
  split
  · exact hs
  · extract_lets +onlyGivenNames t1
    refine Follows.ite ?_ ?_
    · exact hs
    · extract_lets +onlyGivenNames t2
      refine Follows.ite ?_ ?_
      · exact hs
      · extract_lets +onlyGivenNames t3
        have h4 : Follows s₀ t3 := hs.bump
        clear_value t3
        refine Follows.ite ?_ ?_
        · exact h4.writeDone
        · extract_lets +onlyGivenNames t5 t6
          exact h4.setFab.startOp

theorem execFabLoad_follows {q : Nat} {t : Nat} (hs : Follows s₀ s) : AnsFollows s₀ (execFabLoad q t s) := by
  unfold execFabLoad
  exact AnsFollows.onUnit hs.atTime.issueOp

theorem execFabStore_follows {q : Nat} {t : Nat} (hs : Follows s₀ s) : AnsFollows s₀ (execFabStore q t s) := by
  unfold execFabStore
  exact AnsFollows.onUnit hs.atTime.issueOp

theorem execFabStoreWord_follows {q : Nat} {t : Nat} (hs : Follows s₀ s) : AnsFollows s₀ (execFabStoreWord q t s) := by
  unfold execFabStoreWord
  exact AnsFollows.onUnit hs.atTime.issueOp

theorem execFabGet_follows {q : Nat} {t : Nat} (hs : Follows s₀ s) : AnsFollows s₀ (execFabGet q t s) := by
  unfold execFabGet
  exact AnsFollows.onUnit hs.atTime.issueOp

theorem execFabPut_follows {q : Nat} {t : Nat} (hs : Follows s₀ s) : AnsFollows s₀ (execFabPut q t s) := by
  unfold execFabPut
  exact AnsFollows.onUnit hs.atTime.issueOp

theorem execFabFetchAdd_follows {q : Nat} {t : Nat} (hs : Follows s₀ s) : AnsFollows s₀ (execFabFetchAdd q t s) := by
  unfold execFabFetchAdd
  exact AnsFollows.onUnit hs.atTime.issueOp

theorem execFabSwap_follows {q : Nat} {t : Nat} (hs : Follows s₀ s) : AnsFollows s₀ (execFabSwap q t s) := by
  unfold execFabSwap
  exact AnsFollows.onUnit hs.atTime.issueOp

theorem execFabCswap_follows {q : Nat} {t : Nat} (hs : Follows s₀ s) : AnsFollows s₀ (execFabCswap q t s) := by
  unfold execFabCswap
  exact AnsFollows.onUnit hs.atTime.issueOp

theorem execFabMin_follows {q : Nat} {t : Nat} (hs : Follows s₀ s) : AnsFollows s₀ (execFabMin q t s) := by
  unfold execFabMin
  exact AnsFollows.onUnit hs.atTime.issueOp

theorem execFabMax_follows {q : Nat} {t : Nat} (hs : Follows s₀ s) : AnsFollows s₀ (execFabMax q t s) := by
  unfold execFabMax
  exact AnsFollows.onUnit hs.atTime.issueOp

theorem execFabInv_follows {q : Nat} {t : Nat} (hs : Follows s₀ s) : AnsFollows s₀ (execFabInv q t s) := by
  unfold execFabInv
  exact AnsFollows.onUnit hs.atTime.issueOp

theorem execFabInvPod_follows {q : Nat} {t : Nat} (hs : Follows s₀ s) : AnsFollows s₀ (execFabInvPod q t s) := by
  unfold execFabInvPod
  exact AnsFollows.onUnit hs.atTime.issueOp

theorem execFabInvLocal_follows {q : Nat} {t : Nat} (hs : Follows s₀ s) : AnsFollows s₀ (execFabInvLocal q t s) := by
  unfold execFabInvLocal
  exact AnsFollows.onUnit hs.atTime.issueOp

theorem execFabMsg_follows {q : Nat} {t : Nat} (hs : Follows s₀ s) : AnsFollows s₀ (execFabMsg q t s) := by
  unfold execFabMsg
  exact AnsFollows.onUnit hs.atTime.issueOp

theorem execFabFenceOp_follows {q : Nat} {t : Nat} (hs : Follows s₀ s) : AnsFollows s₀ (execFabFenceOp q t s) := by
  unfold execFabFenceOp
  exact AnsFollows.onUnit hs.atTime.issueOp

theorem Follows.fillCache {r : FabReq} {epoch : Nat} {data : List Byte} (hs : Follows s₀ s) :
    Follows s₀ (s.fillCache r epoch data) := by
  unfold State.fillCache
  extract_lets +onlyGivenNames t1 t2 t3
  exact hs.setFab

theorem execFabResponseRx_follows {h : FabHdr} {code : Nat} {data : List (BitVec 8)} {cacheOk : Bool} {evict : List Nat} {t : Nat}
    (hs : Follows s₀ s) :
    AnsFollows s₀ (execFabResponseRx h code data cacheOk evict t s) := by
  unfold execFabResponseRx
  refine AnsFollows.onUnit ?_
  extract_lets +onlyGivenNames t1
  have h2 : Follows s₀ t1 := hs.atTime.freeBuf
  clear_value t1
  split
  · exact h2
  · refine Follows.ite ?_ ?_
    · exact h2
    · split
      · exact h2.endFabReq
      · extract_lets +onlyGivenNames t3 t4
        have h5 : Follows s₀ t4 := h2.opqStore
        clear_value t4
        extract_lets +onlyGivenNames t6 t7 t8
        have h9 : Follows s₀ t8 := by
          refine Follows.ite ?_ ?_
          · refine Follows.ite ?_ ?_
            · exact h5.setFab.fillCache
            · exact h5
          · refine Follows.ite ?_ ?_
            · exact h2.putOp
            · exact h2
        clear_value t8
        extract_lets +onlyGivenNames t10
        have h11 : Follows s₀ t10 := by
          refine Follows.ite ?_ ?_
          · exact h9.setSpent
          · exact h9
        clear_value t10
        exact h11.endFabReq.pumpOps

theorem execLoadRetryTimeout_follows {tag : Nat} {t : Nat} (hs : Follows s₀ s) :
    AnsFollows s₀ (execLoadRetryTimeout tag t s) := by
  unfold execLoadRetryTimeout
  extract_lets +onlyGivenNames t1
  have h2 : Follows s₀ t1 := hs.atTime
  clear_value t1
  split
  · exact .next h2
  · refine AnsFollows.ite ?_ ?_
    · exact .next h2
    · split
      rename_i e4
      have h3 : Follows s₀ _ := Follows.of_pair2 e4 h2.takeTag
      extract_lets +onlyGivenNames t5 t6 t7 t8
      have h9 : Follows s₀ t8 := h3.setFab
      clear_value t8
      extract_lets +onlyGivenNames t10
      have h11 : Follows s₀ t10 := by
        unfold t10
        split
        · exact h9.putOp
        · exact h9
      clear_value t10
      exact .next h11.send

theorem execRequestTimeout_follows {tag : Nat} {t : Nat} (hs : Follows s₀ s) :
    AnsFollows s₀ (execRequestTimeout tag t s) := by
  unfold execRequestTimeout
  extract_lets +onlyGivenNames t1
  have h2 : Follows s₀ t1 := hs.atTime
  clear_value t1
  split
  · exact .next h2
  · extract_lets +onlyGivenNames t3
    refine AnsFollows.ite ?_ ?_
    · exact .next h2.endFabReq.pumpOps
    · exact .next h2

theorem execAtomicRetry_follows {tag : Nat} {t : Nat} (hs : Follows s₀ s) :
    AnsFollows s₀ (execAtomicRetry tag t s) := by
  unfold execAtomicRetry
  extract_lets +onlyGivenNames t1
  have h2 : Follows s₀ t1 := hs.atTime
  clear_value t1
  split
  · exact .next h2
  · refine AnsFollows.ite ?_ ?_
    · exact .next h2
    · extract_lets +onlyGivenNames t3 t4 t5
      exact .next h2.setFab.send

theorem execAtomicUnknown_follows {tag : Nat} {t : Nat} (hs : Follows s₀ s) :
    AnsFollows s₀ (execAtomicUnknown tag t s) := by
  unfold execAtomicUnknown
  extract_lets +onlyGivenNames t1
  have h2 : Follows s₀ t1 := hs.atTime
  clear_value t1
  split
  · exact .next h2
  · refine AnsFollows.ite ?_ ?_
    · exact .next h2
    · exact .next h2.flag.endFabReq

theorem Follows.endReqsTo {d : Nat} {code : Nat} {all : Bool} (hs : Follows s₀ s) :
    Follows s₀ (s.endReqsTo d code all) := by
  unfold State.endReqsTo
  refine Follows.each ?_ ?_
  · exact hs
  · intro _ _ h1
    extract_lets +onlyGivenNames t2
    have h3 : Follows s₀ t2 := by
      refine Follows.ite ?_ ?_
      · exact h1.flag
      · exact h1
    clear_value t2
    exact h3.endFabReq

theorem Follows.endOps {g : Nat → Bool} {code : Nat} (hs : Follows s₀ s) : Follows s₀ (s.endOps g code) := by
  unfold State.endOps
  extract_lets +onlyGivenNames t1 t2 t3 t4
  have h5 : Follows s₀ t4 := hs.setFab
  clear_value t4
  extract_lets +onlyGivenNames t6
  have h7 : Follows s₀ t6 := by
    refine Follows.each ?_ ?_
    · exact h5
    · intro _ _ h8
      extract_lets +onlyGivenNames t9
      exact h8.setPeer
  clear_value t6
  refine Follows.each ?_ ?_
  · exact h7
  · intro _ _ h10
    exact h10.completeOp

theorem execHomeCreditRx_follows {h : FabHdr} {n : Nat} {t : Nat} (hs : Follows s₀ s) :
    AnsFollows s₀ (execHomeCreditRx h n t s) := by
  unfold execHomeCreditRx
  exact AnsFollows.onUnit hs.atTime.freeBuf.setSpent

theorem execMsgCreditResync_follows {pod : Nat} {dev : Nat} {window : Nat} {count : Nat} {t : Nat}
    (hs : Follows s₀ s) :
    AnsFollows s₀ (execMsgCreditResync pod dev window count t s) := by
  unfold execMsgCreditResync
  refine AnsFollows.onUnit ?_
  extract_lets +onlyGivenNames t1
  have h2 : Follows s₀ t1 := hs.atTime
  clear_value t1
  split
  · exact h2
  · refine Follows.ite ?_ ?_
    · exact h2
    · extract_lets +onlyGivenNames t3
      have h4 : Follows s₀ t3 := by
        unfold t3
        split
        · exact h2.manage
        · exact h2
      clear_value t3
      extract_lets +onlyGivenNames t5
      have h6 : Follows s₀ t5 := h4.setSpent
      clear_value t5
      extract_lets +onlyGivenNames t7
      exact h6.setFab

theorem execRlcInvAll_follows {t : Nat} (hs : Follows s₀ s) : AnsFollows s₀ (execRlcInvAll t s) := by
  unfold execRlcInvAll
  exact .next hs.atTime.uncache.wr

theorem execRlcInvAllDone_follows {t : Nat} (hs : Follows s₀ s) : AnsFollows s₀ (execRlcInvAllDone t s) := by
  unfold execRlcInvAllDone
  exact .next hs.atTime.wr

end Sys2Proof.Machine
end

