-- ==== Sys2Proof/Laws/Follows/FabHome.lean ====
section
/-! SUPPORT. What the operations and meanings of Machine/FabHome.lean do to the state as a whole (`Follows`). -/

namespace Sys2Proof.Machine

variable {s₀ s : State}

theorem Follows.respond {h : FabHdr} {kind : Nat} {lines : Nat} {code : Nat} {data : List Byte} (hs : Follows s₀ s) :
    Follows s₀ (s.respond h kind lines code data) := by
  unfold State.respond
  exact hs.send

theorem Follows.turnAway {h : FabHdr} {kind : Nat} {code : Nat} (hs : Follows s₀ s) :
    Follows s₀ (s.turnAway h kind code) := by
  unfold State.turnAway
  extract_lets +onlyGivenNames t1
  have h2 : Follows s₀ t1 := by
    refine Follows.ite ?_ ?_
    · exact hs.sat.flag
    · exact hs
  clear_value t1
  exact h2.respond

theorem Follows.atHome {h : FabHdr} {kind : Nat} {len : Nat} {formOk : Bool} {g : State → State}
    (hs : Follows s₀ s) (hg : ∀ t, Follows s₀ t → Follows s₀ (g t)) :
    Follows s₀ (s.atHome h kind len formOk g) := by
  unfold State.atHome
  extract_lets +onlyGivenNames t1
  have h2 : Follows s₀ t1 := hs.freeBuf
  clear_value t1
  refine Follows.ite ?_ ?_
  · exact h2.sat
  · extract_lets +onlyGivenNames t3
    refine Follows.ite ?_ ?_
    · exact h2.turnAway
    · exact hg _ h2

theorem Follows.showCairn {extra : Nat} (hs : Follows s₀ s) : Follows s₀ (s.showCairn extra) := by
  unfold State.showCairn
  extract_lets +onlyGivenNames t1
  exact hs.wrs

theorem Follows.writeLine {v : Nat} {a : Nat} {data : List Byte} {mask : Nat} (hs : Follows s₀ s) :
    Follows s₀ (s.writeLine v a data mask) := by
  unfold State.writeLine
  extract_lets +onlyGivenNames t1 t2
  have h3 : Follows s₀ t2 := by
    refine Follows.each ?_ ?_
    · exact hs
    · intro _ _ h4
      exact h4.setByte
  clear_value t2
  extract_lets +onlyGivenNames t5
  have h6 : Follows s₀ t5 := by
    refine Follows.each ?_ ?_
    · exact h3
    · intro _ _ h7
      refine Follows.ite ?_ ?_
      · exact h7.markBad
      · exact h7
  clear_value t5
  extract_lets +onlyGivenNames t8
  have h9 : Follows s₀ t8 := by
    refine Follows.each ?_ ?_
    · exact h6
    · intro _ _ h10
      exact h10.vaultBad
  clear_value t8
  refine Follows.queueLine ?_
  refine Follows.iff ?_ ?_
  · exact h9
  · intro _ h11
    exact h11.markBad.markBad

theorem Follows.ackStore {e : CairnEntry} (hs : Follows s₀ s) : Follows s₀ (s.ackStore e) := by
  unfold State.ackStore
  refine Follows.ite ?_ ?_
  · exact hs
  · extract_lets +onlyGivenNames t1 t2
    exact hs.setFab.respond

theorem Follows.landLine {h : FabHdr} {copy : Nat} {n : Nat} {cyc : Nat} {sig : Option (Nat × Nat × Nat)}
    (hs : Follows s₀ s) :
    Follows s₀ (s.landLine h copy n cyc sig) := by
  unfold State.landLine
  extract_lets +onlyGivenNames t1 t2 t3 t4 t5
  split
  · refine Follows.ite ?_ ?_
    · exact hs.setFab
    · extract_lets +onlyGivenNames t6
      have h7 : Follows s₀ t6 := hs.setFab
      clear_value t6
      extract_lets +onlyGivenNames t8
      split
      · exact h7.land
      · exact h7
  · exact hs.setFab

theorem Follows.applyEntry {i : Nat} (hs : Follows s₀ s) : Follows s₀ (s.applyEntry i) := by
  unfold State.applyEntry
  extract_lets +onlyGivenNames t1
  split
  · exact hs
  · refine Follows.ite ?_ ?_
    · exact hs
    · extract_lets +onlyGivenNames t2 t3
      have h4 : Follows s₀ t3 := hs.setFab
      clear_value t3
      exact h4.writeLine.ackStore.showCairn

theorem Follows.settleLine {v : Nat} {a : Nat} {n_ : Nat} (hs : Follows s₀ s) : Follows s₀ (s.settleLine v a n_) := by
  induction n_ generalizing s v a with
  | zero => exact hs
  | succ n ih =>
    rw [State.settleLine]
    split
    · exact hs
    · apply ih
      exact hs.applyEntry

theorem Follows.settleLines {l : List (Nat × Nat)} (hs : Follows s₀ s) : Follows s₀ (s.settleLines l) := by
  unfold State.settleLines
  refine Follows.each ?_ ?_
  · exact hs
  · intro _ _ h1
    exact h1.settleLine

theorem Follows.enterCairn {e : CairnEntry} (hs : Follows s₀ s) : Follows s₀ (s.enterCairn e) := by
  unfold State.enterCairn
  extract_lets +onlyGivenNames t1 t2 t3 t4
  clear_value t3
  clear_value t4
  split
  · extract_lets +onlyGivenNames t5
    have h6 : Follows s₀ t5 := hs.setFab
    clear_value t5
    exact h6.bump.ackStore.showCairn
  · exact hs.setFab.showCairn

theorem Follows.enterLines {h : FabHdr} {kind : Nat} {data : List Byte} {masks : List Nat} (hs : Follows s₀ s) :
    Follows s₀ (s.enterLines h kind data masks) := by
  unfold State.enterLines
  extract_lets +onlyGivenNames t1 t2 t3
  have h4 : Follows s₀ t3 := hs.setFab
  clear_value t3
  refine Follows.each ?_ ?_
  · exact h4
  · intro _ _ h5
    split
    · exact h5
    · exact h5.enterCairn

theorem Follows.corrAt {p : Option (Nat × Nat)} {corr : Nat} (hs : Follows s₀ s) : Follows s₀ (s.corrAt p corr) := by
  unfold State.corrAt
  split
  · exact hs.sat
  · exact hs

theorem execHomeLoad_follows {h : FabHdr} {lines : Nat} {corr : Nat} {t : Nat} (hs : Follows s₀ s) :
    AnsFollows s₀ (execHomeLoad h lines t s corr) := by
  unfold execHomeLoad
  refine AnsFollows.onUnit ?_
  refine Follows.atHome ?_ ?_
  · exact hs.atTime
  · intro _ h1
    extract_lets +onlyGivenNames t2 t3
    have h4 : Follows s₀ t3 := h1.settleLines.corrAt
    clear_value t3
    extract_lets +onlyGivenNames t5
    clear_value t5
    split
    · exact h4.vaultBad.respond
    · extract_lets +onlyGivenNames t6 t7
      exact h4.respond

theorem execHomeStore_follows {h : FabHdr} {data : List (BitVec 8)} {masks : List Nat} {t : Nat} (hs : Follows s₀ s) :
    AnsFollows s₀ (execHomeStore h data masks t s) := by
  unfold execHomeStore
  refine AnsFollows.onUnit ?_
  extract_lets +onlyGivenNames t1
  refine Follows.atHome ?_ ?_
  · exact hs.atTime
  · intro _ h2
    exact h2.enterLines

theorem execHomeStoreWord_follows {h : FabHdr} {size8 : Bool} {v : Nat} {t : Nat} (hs : Follows s₀ s) :
    AnsFollows s₀ (execHomeStoreWord h size8 v t s) := by
  unfold execHomeStoreWord
  refine AnsFollows.onUnit ?_
  extract_lets +onlyGivenNames t1
  refine Follows.atHome ?_ ?_
  · exact hs.atTime
  · intro _ h2
    extract_lets +onlyGivenNames t3
    exact h2.enterLines

theorem execCairnApply_follows {i : Nat} {corr : Nat} {t : Nat} (hs : Follows s₀ s) :
    AnsFollows s₀ (execCairnApply i t s corr) := by
  unfold execCairnApply
  extract_lets +onlyGivenNames t1
  have h2 : Follows s₀ t1 := hs.atTime
  clear_value t1
  extract_lets +onlyGivenNames t3
  exact .next h2.corrAt.applyEntry

theorem Follows.setWatch {n : Nat} {x : BarState} (hs : Follows s₀ s) : Follows s₀ (s.setWatch n x) := by
  unfold State.setWatch
  extract_lets +onlyGivenNames t1
  exact hs.setFab

theorem Follows.shiftHistory {d : Nat} {bit : Nat} (hs : Follows s₀ s) : Follows s₀ (s.shiftHistory d bit) := by
  unfold State.shiftHistory
  extract_lets +onlyGivenNames t1 t2 t3 t4
  have h5 : Follows s₀ t4 := hs.setPeer.wr
  clear_value t4
  extract_lets +onlyGivenNames t6
  refine Follows.ite ?_ ?_
  · refine Follows.iff ?_ ?_
    · exact h5.wr
    · intro _ h7
      exact h7.flag
  · refine Follows.ite ?_ ?_
    · exact h5.wr
    · exact h5

theorem Follows.arrive {n : Nat} {d : Nat} {old : Nat} (hs : Follows s₀ s) : Follows s₀ (s.arrive n d old) := by
  unfold State.arrive
  extract_lets +onlyGivenNames t1 t2 t3 t4
  refine Follows.ite ?_ ?_
  · extract_lets +onlyGivenNames t5 t6
    have h7 : Follows s₀ t6 := hs.setWatch
    clear_value t6
    extract_lets +onlyGivenNames t8
    have h9 : Follows s₀ t8 := h7.wrs
    clear_value t8
    extract_lets +onlyGivenNames t10
    refine Follows.each ?_ ?_
    · exact h9
    · intro _ _ h11
      exact h11.shiftHistory
  · exact hs.setWatch

theorem Follows.watchAtomic {h : FabHdr} {o : AtomicOp} {old : Nat} (hs : Follows s₀ s) :
    Follows s₀ (s.watchAtomic h o old) := by
  unfold State.watchAtomic
  refine Follows.ite ?_ ?_
  · exact hs
  · refine Follows.each ?_ ?_
    · exact hs
    · intro _ _ h1
      exact h1.arrive

theorem Follows.showReplays {l : Nat} (hs : Follows s₀ s) : Follows s₀ (s.showReplays l) := by
  unfold State.showReplays
  exact hs.wr

theorem Follows.applyAtomic {h : FabHdr} {o : AtomicOp} (hs : Follows s₀ s) : Follows s₀ (s.applyAtomic h o) := by
  unfold State.applyAtomic
  extract_lets +onlyGivenNames t1
  split
  · exact hs
  · extract_lets +onlyGivenNames t2
    have h3 : Follows s₀ t2 := hs.settleLine.showCairn
    clear_value t2
    refine Follows.ite ?_ ?_
    · exact h3.vaultBad.respond
    · extract_lets +onlyGivenNames t4 t5
      have h6 : Follows s₀ t5 := by
        unfold t5
        split
        · exact h3.setNum.queueLine
        · exact h3
      clear_value t5
      extract_lets +onlyGivenNames t7 t8
      have h9 : Follows s₀ t8 := h6.setFab
      clear_value t8
      exact h9.showReplays.watchAtomic.respond

theorem execHomeAtomic_follows {h : FabHdr} {o : AtomicOp} {corr : Nat} {t : Nat} (hs : Follows s₀ s) :
    AnsFollows s₀ (execHomeAtomic h o t s corr) := by
  unfold execHomeAtomic
  refine AnsFollows.onUnit ?_
  extract_lets +onlyGivenNames t1
  refine Follows.atHome ?_ ?_
  · exact hs.atTime
  · intro _ h2
    extract_lets +onlyGivenNames t3
    refine Follows.ite ?_ ?_
    · refine Follows.ite ?_ ?_
      · exact h2.sat.respond
      · exact h2.respond
    · clear_value t3
      split
      · exact h2.sat.respond
      · refine Follows.ite ?_ ?_
        · exact h2.sat.respond
        · exact h2.corrAt.applyAtomic

theorem execReplayEntryExpiry_follows {l : Nat} {t : Nat} (hs : Follows s₀ s) :
    AnsFollows s₀ (execReplayEntryExpiry l t s) := by
  unfold execReplayEntryExpiry
  refine AnsFollows.onUnit ?_
  extract_lets +onlyGivenNames t1
  have h2 : Follows s₀ t1 := hs.atTime
  clear_value t1
  extract_lets +onlyGivenNames t3
  exact h2.setFab.showReplays

theorem execHomePut_follows {h : FabHdr} {data : List (BitVec 8)} {masks : List Nat} {copy : Nat} {sig : Option (Nat × Nat × Nat)} {cyc : Nat} {t : Nat}
    (hs : Follows s₀ s) :
    AnsFollows s₀ (execHomePut h data masks copy sig cyc t s) := by
  unfold execHomePut
  refine AnsFollows.onUnit ?_
  extract_lets +onlyGivenNames t1
  have h2 : Follows s₀ t1 := hs.atTime
  clear_value t1
  extract_lets +onlyGivenNames t3 t4
  refine Follows.ite ?_ ?_
  · exact h2
  · refine Follows.atHome ?_ ?_
    · exact h2
    · intro _ h5
      refine Follows.ite ?_ ?_
      · exact h5.enterLines
      · split
        · exact h5.respond
        · refine Follows.ite ?_ ?_
          · exact h5.respond
          · extract_lets +onlyGivenNames t6
            have h7 : Follows s₀ t6 := by
              refine Follows.each ?_ ?_
              · exact h5
              · intro _ _ h8
                exact h8.setByte
            clear_value t6
            exact h7.landLine.respond

theorem execHomeInv_follows {h : FabHdr} {lines : Nat} {t : Nat} (hs : Follows s₀ s) :
    AnsFollows s₀ (execHomeInv h lines t s) := by
  unfold execHomeInv
  refine AnsFollows.onUnit ?_
  extract_lets +onlyGivenNames t1
  have h2 : Follows s₀ t1 := hs.atTime.freeBuf
  clear_value t1
  refine Follows.ite ?_ ?_
  · exact h2.sat
  · refine Follows.ite ?_ ?_
    · exact h2.turnAway
    · exact h2.invLines.respond

theorem Follows.setRing {w : Nat} {l : List Nat} (hs : Follows s₀ s) : Follows s₀ (s.setRing w l) := by
  unfold State.setRing
  extract_lets +onlyGivenNames t1
  exact hs.setFab

theorem Follows.writeSlot {w : Nat} {pod : Nat} {dev : Nat} {epoch : Nat} {pkey : Nat} {msg : List Byte}
    (hs : Follows s₀ s) :
    Follows s₀ (s.writeSlot w pod dev epoch pkey msg) := by
  unfold State.writeSlot
  extract_lets +onlyGivenNames t1 t2 t3 t4 t5 t6
  have h7 : Follows s₀ t6 := by
    refine Follows.ite ?_ ?_
    · exact hs.setBytes
    · exact hs.vsets
  clear_value t6
  exact h7.setRing.bump

theorem execHomeMsg_follows {h : FabHdr} {msg : List (BitVec 8)} {t : Nat} (hs : Follows s₀ s) :
    AnsFollows s₀ (execHomeMsg h msg t s) := by
  unfold execHomeMsg
  refine AnsFollows.onUnit ?_
  refine Follows.atHome ?_ ?_
  · exact hs.atTime
  · intro _ h1
    exact h1.writeSlot.respond

theorem Follows.oweCredit {sender : Nat} {w : Nat} (hs : Follows s₀ s) : Follows s₀ (s.oweCredit sender w) := by
  unfold State.oweCredit
  extract_lets +onlyGivenNames t1
  split
  · exact hs.setFab
  · exact hs.setFab

theorem execRecvSlotConsume_follows {w : Nat} {head : Nat} {t : Nat} (hs : Follows s₀ s) :
    AnsFollows s₀ (execRecvSlotConsume w head t s) := by
  unfold execRecvSlotConsume
  refine AnsFollows.onUnit ?_
  extract_lets +onlyGivenNames t1
  have h2 : Follows s₀ t1 := hs.atTime
  clear_value t1
  extract_lets +onlyGivenNames t3 t4 t5
  have h6 : Follows s₀ t5 := h2.wr.setRing
  clear_value t5
  refine Follows.each ?_ ?_
  · exact h6
  · intro _ _ h7
    exact h7.oweCredit

theorem Follows.returnCredit {sender : Nat} {w : Nat} (hs : Follows s₀ s) : Follows s₀ (s.returnCredit sender w) := by
  unfold State.returnCredit
  extract_lets +onlyGivenNames t1
  split
  · exact hs
  · extract_lets +onlyGivenNames t2
    have h3 : Follows s₀ t2 := hs.setFab
    clear_value t2
    exact h3.send

theorem execCreditReturnSend_follows {pod : Nat} {dev : Nat} {t : Nat} (hs : Follows s₀ s) :
    AnsFollows s₀ (execCreditReturnSend pod dev t s) := by
  unfold execCreditReturnSend
  refine AnsFollows.onUnit ?_
  extract_lets +onlyGivenNames t1
  have h2 : Follows s₀ t1 := hs.atTime
  clear_value t1
  extract_lets +onlyGivenNames t3
  refine Follows.each ?_ ?_
  · exact h2
  · intro _ _ h4
    exact h4.returnCredit

theorem execResyncQueryRx_follows {h : FabHdr} {t : Nat} (hs : Follows s₀ s) :
    AnsFollows s₀ (execResyncQueryRx h t s) := by
  unfold execResyncQueryRx
  refine AnsFollows.onUnit ?_
  extract_lets +onlyGivenNames t1
  have h2 : Follows s₀ t1 := hs.atTime.freeBuf
  clear_value t1
  extract_lets +onlyGivenNames t3 t4
  have h5 : Follows s₀ t4 := h2.returnCredit
  clear_value t4
  exact h5.manage

theorem execFenceNotice_follows {w : Nat} {dev : Nat} {t : Nat} (hs : Follows s₀ s) :
    AnsFollows s₀ (execFenceNotice w dev t s) := by
  unfold execFenceNotice
  refine AnsFollows.onUnit ?_
  extract_lets +onlyGivenNames t1
  have h2 : Follows s₀ t1 := hs.atTime
  clear_value t1
  extract_lets +onlyGivenNames t3
  split
  · exact h2
  · refine Follows.ite ?_ ?_
    · exact h2
    · exact h2.setFab.writeSlot

end Sys2Proof.Machine
end

