-- ==== Sys2Proof/Laws/Follows/Fence.lean ====
section
/-! SUPPORT. What the operations and meanings of Machine/Fence.lean do to the state as a whole (`Follows`). -/

namespace Sys2Proof.Machine

variable {s₀ s : State}

theorem Follows.fenceMemory {d : Nat} (hs : Follows s₀ s) : Follows s₀ (s.fenceMemory d) := by
  unfold State.fenceMemory
  exact hs.lenderFenced.borrowerFenced.serveAll

theorem Follows.oweNotices {d : Nat} {epoch : Nat} (hs : Follows s₀ s) : Follows s₀ (s.oweNotices d epoch) := by
  unfold State.oweNotices
  extract_lets +onlyGivenNames t1 t2 t3
  exact hs.setFab

theorem Follows.fencePeer {d : Nat} (hs : Follows s₀ s) : Follows s₀ (s.fencePeer d) := by
  unfold State.fencePeer
  refine Follows.ite ?_ ?_
  · exact hs
  · extract_lets +onlyGivenNames t1 t2 t3
    have h4 : Follows s₀ t3 := hs.setPeer.wrs
    clear_value t3
    extract_lets +onlyGivenNames t5 t6
    have h7 : Follows s₀ t6 := h4.setFab.sat
    clear_value t6
    extract_lets +onlyGivenNames t8
    have h9 : Follows s₀ t8 := h7.endReqsTo
    clear_value t8
    extract_lets +onlyGivenNames t10
    have h11 : Follows s₀ t10 := h9.uncache
    clear_value t10
    extract_lets +onlyGivenNames t12
    have h13 : Follows s₀ t12 := h11.fenceMemory.oweNotices
    clear_value t12
    refine Follows.each ?_ ?_
    · exact h13
    · intro _ _ h14
      refine Follows.each ?_ ?_
      · exact h14
      · intro _ _ h15
        exact h15.manage

theorem Follows.fenceJob {j : JobRec} {cyc : Nat} (hs : Follows s₀ s) : Follows s₀ (s.fenceJob j cyc) := by
  unfold State.fenceJob
  refine Follows.ite ?_ ?_
  · exact hs
  · split
    · refine Follows.ite ?_ ?_
      · exact hs.abortTiles.putJob
      · exact hs
    · exact hs.endTiles.endJob.showTiles
    · exact hs.endUnstarted
    · exact hs.endUnstarted
    · exact hs

theorem Follows.selfFence {cyc : Nat} (hs : Follows s₀ s) : Follows s₀ (s.selfFence cyc) := by
  unfold State.selfFence
  refine Follows.ite ?_ ?_
  · exact hs
  · extract_lets +onlyGivenNames t1
    have h2 : Follows s₀ t1 := hs.wrs
    clear_value t1
    extract_lets +onlyGivenNames t3
    have h4 : Follows s₀ t3 := h2.endOps
    clear_value t3
    refine Follows.each ?_ ?_
    · exact h4
    · intro _ _ h5
      exact h5.fenceJob

theorem Follows.fenceNamed {src : Nat} {dev : Nat} {epoch : Nat} {cyc : Nat} (hs : Follows s₀ s) :
    Follows s₀ (s.fenceNamed src dev epoch cyc) := by
  unfold State.fenceNamed
  refine Follows.ite ?_ ?_
  · refine Follows.ite ?_ ?_
    · exact hs
    · refine Follows.ite ?_ ?_
      · exact hs.flag
      · exact hs.selfFence
  · refine Follows.ite ?_ ?_
    · exact hs.fencePeer
    · exact hs

theorem Follows.peerJoins {d : Nat} {epoch : Nat} (hs : Follows s₀ s) : Follows s₀ (s.peerJoins d epoch) := by
  unfold State.peerJoins
  extract_lets +onlyGivenNames t1 t2 t3
  have h4 : Follows s₀ t3 := by
    refine Follows.ite ?_ ?_
    · exact hs.endReqsTo.uncache
    · exact hs
  clear_value t3
  refine Follows.iff ?_ ?_
  · exact h4.wrs
  · intro _ h5
    exact h5.flag

theorem execHelloRx_follows {l : Nat} {dev : Nat} {epoch : Nat} {windows : List (Nat × Nat)} {pairs : List (Nat × Nat)} {cyc : Nat} {t : Nat}
    (hs : Follows s₀ s) :
    AnsFollows s₀ (execHelloRx l dev epoch windows pairs cyc t s) := by
  unfold execHelloRx
  refine AnsFollows.onUnit ?_
  extract_lets +onlyGivenNames t1
  have h2 : Follows s₀ t1 := hs.atTime.freeBuf
  clear_value t1
  extract_lets +onlyGivenNames t3 t4
  have h5 : Follows s₀ t4 := h2.setFab
  clear_value t4
  refine Follows.ite ?_ ?_
  · exact h5.manage
  · extract_lets +onlyGivenNames t6
    have h7 : Follows s₀ t6 := h5.peerJoins
    clear_value t6
    extract_lets +onlyGivenNames t8 t9
    have h10 : Follows s₀ t9 := h7.setPeer
    clear_value t9
    refine Follows.each ?_ ?_
    · exact h10
    · intro _ _ h11
      exact h11.fenceNamed

theorem execDetectorTick_follows {t : Nat} (hs : Follows s₀ s) : AnsFollows s₀ (execDetectorTick t s) := by
  unfold execDetectorTick
  extract_lets +onlyGivenNames t1
  have h2 : Follows s₀ t1 := hs.atTime
  clear_value t1
  refine AnsFollows.next ?_
  refine Follows.each ?_ ?_
  · exact h2
  · intro _ _ h3
    exact h3.fencePeer

theorem execFenceCtrlFence_follows {dev : Nat} {t : Nat} (hs : Follows s₀ s) :
    AnsFollows s₀ (execFenceCtrlFence dev t s) := by
  unfold execFenceCtrlFence
  exact AnsFollows.onUnit hs.atTime.fencePeer

theorem execFenceMsgRx_follows {l : Nat} {src : Nat} {dev : Nat} {epoch : Nat} {cyc : Nat} {t : Nat}
    (hs : Follows s₀ s) :
    AnsFollows s₀ (execFenceMsgRx l src dev epoch cyc t s) := by
  unfold execFenceMsgRx
  exact AnsFollows.onUnit hs.atTime.freeBuf.fenceNamed

theorem execHelloSilenceSelfFence_follows {cyc : Nat} {t : Nat} (hs : Follows s₀ s) :
    AnsFollows s₀ (execHelloSilenceSelfFence cyc t s) := by
  unfold execHelloSilenceSelfFence
  extract_lets +onlyGivenNames t1
  have h2 : Follows s₀ t1 := hs.atTime
  clear_value t1
  refine AnsFollows.ite ?_ ?_
  · exact .next h2.selfFence
  · exact .next h2

theorem Follows.nextEpoch (hs : Follows s₀ s) : Follows s₀ (s.nextEpoch) := by
  unfold State.nextEpoch
  extract_lets +onlyGivenNames t1 t2
  exact hs.upd.wr

theorem execRejoin_follows {t : Nat} (hs : Follows s₀ s) : AnsFollows s₀ (execRejoin t s) := by
  unfold execRejoin
  extract_lets +onlyGivenNames t1
  have h2 : Follows s₀ t1 := hs.atTime
  clear_value t1
  refine AnsFollows.ite ?_ ?_
  · exact .next h2
  · extract_lets +onlyGivenNames t3 t4
    have h5 : Follows s₀ t4 := h2.setFab
    clear_value t4
    extract_lets +onlyGivenNames t6
    have h7 : Follows s₀ t6 := by
      refine Follows.each ?_ ?_
      · exact h5
      · intro _ _ h8
        exact h8.showReplays
    clear_value t6
    exact .next h7.nextEpoch.wrs

theorem execFabBooksSnap_follows {qty : Nat} {index : Nat} {t : Nat} (hs : Follows s₀ s) :
    AnsFollows s₀ (execFabBooksSnap qty index t s) := by
  unfold execFabBooksSnap
  extract_lets +onlyGivenNames t1
  have h2 : Follows s₀ t1 := hs.atTime
  clear_value t1
  split
  · exact .next h2.wr
  · extract_lets +onlyGivenNames t3
    have h4 : Follows s₀ t3 := by
      refine Follows.ite ?_ ?_
      · exact h2.drawUpd
      · exact h2
    clear_value t3
    exact .next h4.wrs

end Sys2Proof.Machine
end

