-- ==== Sys2Proof/Laws/Follows/Firmware.lean ====
section
/-! SUPPORT. What the operations and meanings of Machine/Firmware.lean do to the state as a whole (`Follows`). -/

namespace Sys2Proof.Machine

variable {s₀ s : State}

theorem Follows.setCores {c : Nat} {st : Nat} (hs : Follows s₀ s) : Follows s₀ (s.setCores c st) := by
  unfold State.setCores
  refine Follows.each ?_ ?_
  · exact hs
  · intro _ _ h1
    exact h1.wr

theorem Follows.showStandby (hs : Follows s₀ s) : Follows s₀ (s.showStandby) := by
  unfold State.showStandby
  exact hs.wr

theorem Follows.activate {c : Nat} {took : Nat} {slot : Nat} (hs : Follows s₀ s) :
    Follows s₀ (s.activate c took slot) := by
  unfold State.activate
  extract_lets +onlyGivenNames t1
  have h2 : Follows s₀ t1 := hs.wr
  clear_value t1
  refine Follows.ite ?_ ?_
  · exact h2
  · exact h2.wr.flag.log

theorem Follows.coreStopped {c : Nat} {took : Nat} {slot : Nat} (hs : Follows s₀ s) :
    Follows s₀ (s.coreStopped c took slot) := by
  unfold State.coreStopped
  extract_lets +onlyGivenNames t1 t2
  have h3 : Follows s₀ t2 := by
    refine Follows.ite ?_ ?_
    · exact hs.upd.wrs
    · exact hs
  clear_value t2
  extract_lets +onlyGivenNames t4
  have h5 : Follows s₀ t4 := by
    refine Follows.iff ?_ ?_
    · exact h3
    · intro _ h6
      exact h6.wr
  clear_value t4
  extract_lets +onlyGivenNames t7 t8
  have h9 : Follows s₀ t8 := by
    refine Follows.iff ?_ ?_
    · exact h5
    · intro _ h10
      exact h10.activate
  clear_value t8
  exact h9.showStandby.showAdmit.showDegraded.refreshCarriers

theorem Follows.holdCore {c : Nat} {reason : Nat} (hs : Follows s₀ s) : Follows s₀ (s.holdCore c reason) := by
  unfold State.holdCore
  extract_lets +onlyGivenNames t1
  have h2 : Follows s₀ t1 := hs.setCores.flag
  clear_value t1
  refine Follows.log ?_
  refine Follows.iff ?_ ?_
  · exact h2
  · intro _ h3
    exact h3.flag

theorem Follows.restartCore {c : Nat} {imageOk : Bool} (hs : Follows s₀ s) : Follows s₀ (s.restartCore c imageOk) := by
  unfold State.restartCore
  extract_lets +onlyGivenNames t1 t2
  have h3 : Follows s₀ t2 := hs.upd
  clear_value t2
  refine Follows.ite ?_ ?_
  · exact h3.setCores
  · exact h3.holdCore

theorem Follows.countCrash {c : Nat} (hs : Follows s₀ s) : Follows s₀ (s.countCrash c) := by
  unfold State.countCrash
  extract_lets +onlyGivenNames t1 t2 t3 t4 t5
  have h6 : Follows s₀ t5 := hs.upd
  clear_value t5
  refine Follows.each ?_ ?_
  · exact h6
  · intro _ _ h7
    exact h7.wr

theorem Follows.crash {c : Nat} {cause : Nat} {mcause : Nat} {mepc : Nat} {mtval : Nat} {imageOk : Bool} {took : Nat} {slot : Nat}
    (hs : Follows s₀ s) :
    Follows s₀ (s.crash c cause mcause mepc mtval imageOk took slot) := by
  unfold State.crash
  extract_lets +onlyGivenNames t1
  have h2 : Follows s₀ t1 := hs.sat.log
  clear_value t1
  refine Follows.ite ?_ ?_
  · exact h2.sat.warmReset
  · extract_lets +onlyGivenNames t3
    have h4 : Follows s₀ t3 := h2.wr.flag.countCrash
    clear_value t3
    extract_lets +onlyGivenNames t5 t6
    have h7 : Follows s₀ t6 := by
      refine Follows.ite ?_ ?_
      · exact h4.holdCore
      · exact h4.restartCore
    clear_value t6
    exact h7.coreStopped

theorem execWatchdogExpiry_follows {c : Nat} {mcause : Nat} {mepc : Nat} {mtval : Nat} {imageOk : Bool} {took : Nat} {slot : Nat} {t : Nat}
    (hs : Follows s₀ s) :
    AnsFollows s₀ (execWatchdogExpiry c mcause mepc mtval imageOk took slot t s) := by
  unfold execWatchdogExpiry
  refine AnsFollows.onUnit ?_
  extract_lets +onlyGivenNames t1
  have h2 : Follows s₀ t1 := hs.atTime
  clear_value t1
  refine Follows.ite ?_ ?_
  · exact h2
  · exact h2.crash

theorem execFwCoreKick_follows {c : Nat} {t : Nat} (hs : Follows s₀ s) : AnsFollows s₀ (execFwCoreKick c t s) := by
  unfold execFwCoreKick
  refine AnsFollows.onUnit ?_
  extract_lets +onlyGivenNames t1
  have h2 : Follows s₀ t1 := hs.atTime
  clear_value t1
  refine Follows.ite ?_ ?_
  · exact h2
  · extract_lets +onlyGivenNames t3
    exact h2.upd

theorem execCoreCrash_follows {c : Nat} {cause : Nat} {mcause : Nat} {mepc : Nat} {mtval : Nat} {imageOk : Bool} {took : Nat} {slot : Nat} {t : Nat}
    (hs : Follows s₀ s) :
    AnsFollows s₀ (execCoreCrash c cause mcause mepc mtval imageOk took slot t s) := by
  unfold execCoreCrash
  refine AnsFollows.onUnit ?_
  extract_lets +onlyGivenNames t1
  have h2 : Follows s₀ t1 := hs.atTime
  clear_value t1
  refine Follows.ite ?_ ?_
  · exact h2
  · exact h2.crash

theorem Follows.kickAll {c : Nat} (hs : Follows s₀ s) : Follows s₀ (s.kickAll c) := by
  unfold State.kickAll
  refine Follows.each ?_ ?_
  · exact hs
  · intro _ _ h1
    extract_lets +onlyGivenNames t2
    exact h1.upd

theorem execCoreRestartDone_follows {c : Nat} {slot : Nat} {t : Nat} (hs : Follows s₀ s) :
    AnsFollows s₀ (execCoreRestartDone c slot t s) := by
  unfold execCoreRestartDone
  refine AnsFollows.onUnit ?_
  extract_lets +onlyGivenNames t1
  have h2 : Follows s₀ t1 := hs.atTime
  clear_value t1
  refine Follows.ite ?_ ?_
  · exact h2
  · extract_lets +onlyGivenNames t3 t4 t5
    have h6 : Follows s₀ t5 := h2.log.kickAll
    clear_value t5
    extract_lets +onlyGivenNames t7
    have h8 : Follows s₀ t7 := by
      refine Follows.ite ?_ ?_
      · refine Follows.ite ?_ ?_
        · exact h6.wr
        · exact h6.activate
      · exact h6.setCores
    clear_value t7
    extract_lets +onlyGivenNames t9
    have h10 : Follows s₀ t9 := by
      refine Follows.iff ?_ ?_
      · exact h8
      · intro _ h11
        exact h11.wr
    clear_value t9
    extract_lets +onlyGivenNames t12
    have h13 : Follows s₀ t12 := h10.showStandby.showAdmit.showDegraded.refreshCarriers
    clear_value t12
    refine Follows.ite ?_ ?_
    · exact h13.serveAll.actWaitingHost.decision
    · exact h13

theorem execFwCoreRestart_follows {c : Nat} {imageOk : Bool} {took : Nat} {slot : Nat} {t : Nat} (hs : Follows s₀ s) :
    AnsFollows s₀ (execFwCoreRestart c imageOk took slot t s) := by
  unfold execFwCoreRestart
  refine AnsFollows.next ?_
  extract_lets +onlyGivenNames t1
  have h2 : Follows s₀ t1 := hs.atTime
  clear_value t1
  extract_lets +onlyGivenNames t3
  refine Follows.ite ?_ ?_
  · exact h2
  · extract_lets +onlyGivenNames t4 t5
    have h6 : Follows s₀ t5 := by
      refine Follows.ite ?_ ?_
      · exact h2.upd
      · exact h2
    clear_value t5
    exact h6.restartCore.coreStopped

theorem execLogAppend_follows {c : Nat} {level : Nat} {trace : Nat} {args : List Nat} {t : Nat} (hs : Follows s₀ s) :
    AnsFollows s₀ (execLogAppend c level trace args t s) := by
  unfold execLogAppend
  refine AnsFollows.onUnit ?_
  extract_lets +onlyGivenNames t1
  have h2 : Follows s₀ t1 := hs.atTime
  clear_value t1
  refine Follows.ite ?_ ?_
  · exact h2
  · exact h2.log

theorem execFwLogSel_follows {n : Nat} {t : Nat} (hs : Follows s₀ s) : AnsFollows s₀ (execFwLogSel n t s) := by
  unfold execFwLogSel
  refine AnsFollows.next ?_
  extract_lets +onlyGivenNames t1
  have h2 : Follows s₀ t1 := hs.atTime.wr
  clear_value t1
  extract_lets +onlyGivenNames t3 t4
  refine Follows.each ?_ ?_
  · exact h2
  · intro _ _ h5
    exact h5.wr

theorem execNotifySend_follows {t : Nat} (hs : Follows s₀ s) : AnsFollows s₀ (execNotifySend t s) := by
  unfold execNotifySend
  refine AnsFollows.next ?_
  extract_lets +onlyGivenNames t1
  have h2 : Follows s₀ t1 := hs.atTime
  clear_value t1
  extract_lets +onlyGivenNames t3 t4
  have h5 : Follows s₀ t4 := h2.wr
  clear_value t4
  extract_lets +onlyGivenNames t6 t7 t8 t9
  refine Follows.ite ?_ ?_
  · exact h5.upd
  · exact h5.upd.emit

end Sys2Proof.Machine
end

