-- ==== Sys2Proof/Laws/Follows/Security.lean ====
section
/-! SUPPORT. What the operations and meanings of Machine/Security.lean do to the state as a whole (`Follows`). -/

namespace Sys2Proof.Machine

variable {s₀ s : State}

theorem Follows.enrol {op : Nat} {r : EnrolRec} (hs : Follows s₀ s) : Follows s₀ (s.enrol op r) := by
  unfold State.enrol
  extract_lets +onlyGivenNames t1 t2 t3
  have h4 : Follows s₀ t3 := hs.upd.raise
  clear_value t3
  exact h4.extendMr.showKeys

theorem Follows.enrolResult {code : Nat} (hs : Follows s₀ s) : Follows s₀ (s.enrolResult code) := by
  unfold State.enrolResult
  exact hs.wrs

theorem Follows.enrolGo {op : Nat} {r : EnrolRec} {took : Nat} (hs : Follows s₀ s) :
    Follows s₀ (s.enrolGo op r took) := by
  unfold State.enrolGo
  refine Follows.ite ?_ ?_
  · exact hs
  · refine Follows.ite ?_ ?_
    · exact hs.enrolResult
    · refine Follows.ite ?_ ?_
      · exact hs.enrolResult
      · extract_lets +onlyGivenNames t1 t2
        have h3 : Follows s₀ t2 := hs.upd
        refine Follows.ite ?_ ?_
        · exact h3.enrolResult
        · extract_lets +onlyGivenNames t4
          refine Follows.ite ?_ ?_
          · exact h3.enrol.enrolResult
          · exact h3.enrolResult

theorem execEnrolClaim_follows {r : EnrolRec} {took : Nat} {t : Nat} (hs : Follows s₀ s) :
    AnsFollows s₀ (execEnrolClaim r took t s) := by
  unfold execEnrolClaim
  exact .next hs.atTime.enrolGo

theorem execEnrolAdd_follows {r : EnrolRec} {took : Nat} {t : Nat} (hs : Follows s₀ s) :
    AnsFollows s₀ (execEnrolAdd r took t s) := by
  unfold execEnrolAdd
  exact .next hs.atTime.enrolGo

theorem execEnrolRevoke_follows {r : EnrolRec} {took : Nat} {t : Nat} (hs : Follows s₀ s) :
    AnsFollows s₀ (execEnrolRevoke r took t s) := by
  unfold execEnrolRevoke
  exact .next hs.atTime.enrolGo

theorem execEnrolRelease_follows {r : EnrolRec} {took : Nat} {t : Nat} (hs : Follows s₀ s) :
    AnsFollows s₀ (execEnrolRelease r took t s) := by
  unfold execEnrolRelease
  exact .next hs.atTime.enrolGo

theorem execSecExtend_follows {mr : Nat} {t : Nat} (hs : Follows s₀ s) : AnsFollows s₀ (execSecExtend mr t s) := by
  unfold execSecExtend
  refine AnsFollows.next ?_
  extract_lets +onlyGivenNames t1
  have h2 : Follows s₀ t1 := hs.atTime
  clear_value t1
  refine Follows.ite ?_ ?_
  · exact h2.extendMr
  · exact h2

theorem execSliceExtend_follows {x : Nat} {t : Nat} (hs : Follows s₀ s) : AnsFollows s₀ (execSliceExtend x t s) := by
  unfold execSliceExtend
  refine AnsFollows.onUnit ?_
  extract_lets +onlyGivenNames t1
  have h2 : Follows s₀ t1 := hs.atTime
  clear_value t1
  refine Follows.ite ?_ ?_
  · exact h2.windowErr
  · exact h2.extendSlice

theorem execSecEvlogSel_follows {i : Nat} {t : Nat} (hs : Follows s₀ s) : AnsFollows s₀ (execSecEvlogSel i t s) := by
  unfold execSecEvlogSel
  refine AnsFollows.next ?_
  extract_lets +onlyGivenNames t1
  have h2 : Follows s₀ t1 := hs.atTime.wr
  clear_value t1
  extract_lets +onlyGivenNames t3
  refine Follows.each ?_ ?_
  · exact h2
  · intro _ _ h4
    exact h4.wr

theorem execCustomerImageLoad_follows {core : Nat} {x : Nat} {sigOk : Bool} {reqMin : Nat} {reqMax : Nat} {digest : BitVec 512} {t : Nat}
    (hs : Follows s₀ s) :
    AnsFollows s₀ (execCustomerImageLoad core x sigOk reqMin reqMax digest t s) := by
  unfold execCustomerImageLoad
  refine AnsFollows.onUnit ?_
  extract_lets +onlyGivenNames t1
  have h2 : Follows s₀ t1 := hs.atTime
  clear_value t1
  refine Follows.ite ?_ ?_
  · exact h2
  · refine Follows.ite ?_ ?_
    · exact h2.extendSlice
    · exact h2.log

theorem Follows.reqStatus {who : Nat} {k : Nat} {code : Nat} {n : Nat} (hs : Follows s₀ s) :
    Follows s₀ (s.reqStatus who k code n) := by
  unfold State.reqStatus
  exact hs.wrs

theorem Follows.reqEnd {who : Nat} {k : Nat} {code : Nat} {n : Nat} (hs : Follows s₀ s) :
    Follows s₀ (s.reqEnd who k code n) := by
  unfold State.reqEnd
  exact hs.reqStatus.wr

theorem Follows.reqGo {who : Nat} {k : Nat} {op : Nat} {ticket : Nat} (hs : Follows s₀ s) :
    Follows s₀ (s.reqGo who k op ticket) := by
  unfold State.reqGo
  refine Follows.ite ?_ ?_
  · exact hs.windowErr
  · refine Follows.ite ?_ ?_
    · exact hs.wr
    · extract_lets +onlyGivenNames t1
      have h2 : Follows s₀ t1 := hs.wrs
      clear_value t1
      refine Follows.ite ?_ ?_
      · exact h2.reqEnd
      · extract_lets +onlyGivenNames t3 t4
        exact h2.upd.wr

theorem execReqQuote_follows {who : Nat} {k : Nat} {ticket : Nat} {t : Nat} (hs : Follows s₀ s) :
    AnsFollows s₀ (execReqQuote who k ticket t s) := by
  unfold execReqQuote
  exact AnsFollows.onUnit hs.atTime.reqGo

theorem execReqChain_follows {who : Nat} {k : Nat} {ticket : Nat} {t : Nat} (hs : Follows s₀ s) :
    AnsFollows s₀ (execReqChain who k ticket t s) := by
  unfold execReqChain
  exact AnsFollows.onUnit hs.atTime.reqGo

theorem Follows.reqServed {r : SecReq} (hs : Follows s₀ s) : Follows s₀ (s.reqServed r) := by
  unfold State.reqServed
  extract_lets +onlyGivenNames t1
  exact hs.upd

theorem Follows.serveReq {r : SecReq} {mapped : Bool} (hs : Follows s₀ s) : Follows s₀ (s.serveReq r mapped) := by
  unfold State.serveReq
  extract_lets +onlyGivenNames t1 t2 t3 t4 t5 t6 t7 t8 t9
  have h10 : Follows s₀ t9 := hs.reqServed
  clear_value t9
  refine Follows.ite ?_ ?_
  · exact h10.staleDrop.reqEnd
  · refine Follows.ite ?_ ?_
    · exact h10.reqEnd
    · extract_lets +onlyGivenNames t11
      refine Follows.ite ?_ ?_
      · exact h10.reqEnd
      · extract_lets +onlyGivenNames t12 t13
        refine Follows.ite ?_ ?_
        · exact h10.reqEnd
        · extract_lets +onlyGivenNames t14
          have h15 : Follows s₀ t14 := by
            refine Follows.ite ?_ ?_
            · exact h10.setBytes
            · exact h10.vstore
          clear_value t14
          exact h15.drawUpd.reqEnd

theorem execQuoteService_follows {mapped : Bool} {t : Nat} (hs : Follows s₀ s) :
    AnsFollows s₀ (execQuoteService mapped t s) := by
  unfold execQuoteService
  refine AnsFollows.next ?_
  extract_lets +onlyGivenNames t1
  have h2 : Follows s₀ t1 := hs.atTime
  clear_value t1
  refine Follows.ite ?_ ?_
  · exact h2
  · split
    · exact h2
    · exact h2.serveReq

end Sys2Proof.Machine
end

