-- ==== Sys2Proof/Laws/Follows/Slices.lean ====
section
/-! SUPPORT. What the operations and meanings of Machine/Slices.lean do to the state as a whole (`Follows`). -/

namespace Sys2Proof.Machine

variable {s₀ s : State}

theorem Follows.showSlices (hs : Follows s₀ s) : Follows s₀ (s.showSlices) := by
  unfold State.showSlices
  extract_lets +onlyGivenNames t1
  exact hs.wrs

theorem Follows.setSliceState {x : Nat} {st : Nat} (hs : Follows s₀ s) : Follows s₀ (s.setSliceState x st) := by
  unfold State.setSliceState
  exact hs.wr.showSlices

theorem Follows.showLimits {x : Nat} (hs : Follows s₀ s) : Follows s₀ (s.showLimits x) := by
  unfold State.showLimits
  exact hs.wrs

theorem Follows.showGroups {x : Nat} (hs : Follows s₀ s) : Follows s₀ (s.showGroups x) := by
  unfold State.showGroups
  refine Follows.each ?_ ?_
  · exact hs
  · intro _ _ h1
    exact h1.wr

theorem Follows.wrBoth {f : Fld} {v : Nat} (hs : Follows s₀ s) : Follows s₀ (s.wrBoth f v) := by
  unfold State.wrBoth
  exact hs.wr.wr

theorem Follows.bumpGen {x : Nat} (hs : Follows s₀ s) : Follows s₀ (s.bumpGen x) := by
  unfold State.bumpGen
  extract_lets +onlyGivenNames t1
  exact hs.wr.resetRegs

theorem Follows.createSlice {x : Nat} {k : Nat} (hs : Follows s₀ s) : Follows s₀ (s.createSlice x k) := by
  unfold State.createSlice
  extract_lets +onlyGivenNames t1
  have h2 : Follows s₀ t1 := hs.bumpGen
  clear_value t1
  extract_lets +onlyGivenNames t3
  have h4 : Follows s₀ t3 := by
    refine Follows.foldl ?_ ?_
    · exact h2
    · intro _ _ h5
      exact h5.wrBoth
  clear_value t3
  exact h4.wr.showLimits.showQuota.setSliceState

theorem Follows.sliceResult {x : Nat} {code : Nat} (hs : Follows s₀ s) : Follows s₀ (s.sliceResult x code) := by
  unfold State.sliceResult
  exact hs.wrs

theorem execSliceCreate_follows {x : Nat} {k : Nat} {t : Nat} (hs : Follows s₀ s) :
    AnsFollows s₀ (execSliceCreate x k t s) := by
  unfold execSliceCreate
  refine AnsFollows.onUnit ?_
  extract_lets +onlyGivenNames t1
  have h2 : Follows s₀ t1 := hs.atTime
  clear_value t1
  extract_lets +onlyGivenNames t3 t4
  refine Follows.ite ?_ ?_
  · exact h2.createSlice.sliceResult
  · exact h2.sliceResult

theorem execSliceOpened_follows {x : Nat} {t : Nat} (hs : Follows s₀ s) : AnsFollows s₀ (execSliceOpened x t s) := by
  unfold execSliceOpened
  refine AnsFollows.onUnit ?_
  extract_lets +onlyGivenNames t1
  have h2 : Follows s₀ t1 := hs.atTime
  clear_value t1
  refine Follows.ite ?_ ?_
  · exact h2
  · extract_lets +onlyGivenNames t3 t4
    have h5 : Follows s₀ t4 := h2.upd
    clear_value t4
    exact h5.setSliceState.showGroups.showTiles.showAdmit.decision

theorem Follows.killJob {cyc : Nat} {j : JobRec} (hs : Follows s₀ s) : Follows s₀ (s.killJob cyc j) := by
  unfold State.killJob
  extract_lets +onlyGivenNames t1
  have h2 : Follows s₀ t1 := hs.leaveTables
  clear_value t1
  refine Follows.ite ?_ ?_
  · extract_lets +onlyGivenNames t3
    have h4 : Follows s₀ t3 := by
      refine Follows.ite ?_ ?_
      · exact h2.abortTiles.settle
      · exact h2.addBalance
    clear_value t3
    extract_lets +onlyGivenNames t5
    have h6 : Follows s₀ t5 := h4.endTiles
    clear_value t5
    refine Follows.each ?_ ?_
    · exact h6.dropJob
    · intro _ _ h7
      exact h7.wr
  · extract_lets +onlyGivenNames t8
    have h9 : Follows s₀ t8 := h2.addBalance
    clear_value t8
    refine Follows.each ?_ ?_
    · exact h9.dropJob
    · intro _ _ h10
      exact h10.wr

theorem Follows.killJobs {x : Nat} {cyc : Nat} (hs : Follows s₀ s) : Follows s₀ (s.killJobs x cyc) := by
  unfold State.killJobs
  extract_lets +onlyGivenNames t1 t2 t3 t4
  have h5 : Follows s₀ t4 := by
    refine Follows.each ?_ ?_
    · exact hs
    · intro _ _ h6
      exact h6.killJob
  clear_value t4
  extract_lets +onlyGivenNames t7 t8
  have h9 : Follows s₀ t8 := h5.upd
  clear_value t8
  refine Follows.each ?_ ?_
  · exact h9.setSlice
  · intro _ _ h10
    exact h10.showScrub

theorem Follows.killFabric {x : Nat} (hs : Follows s₀ s) : Follows s₀ (s.killFabric x) := by
  unfold State.killFabric
  extract_lets +onlyGivenNames t1
  have h2 : Follows s₀ t1 := hs.endOps
  clear_value t1
  extract_lets +onlyGivenNames t3
  have h4 : Follows s₀ t3 := by
    refine Follows.each ?_ ?_
    · exact h2
    · intro _ _ h5
      exact h5.wrBoth
  clear_value t3
  extract_lets +onlyGivenNames t6
  exact h4.uncache

theorem Follows.killMemory {x : Nat} (hs : Follows s₀ s) : Follows s₀ (s.killMemory x) := by
  unfold State.killMemory
  extract_lets +onlyGivenNames t1 t2
  have h3 : Follows s₀ t2 := hs.freeSlice
  clear_value t2
  extract_lets +onlyGivenNames t4 t5 t6
  have h7 : Follows s₀ t6 := h3.upd
  clear_value t6
  exact h7.setSlice

theorem Follows.clearWindow {x : Nat} (hs : Follows s₀ s) : Follows s₀ (s.clearWindow x) := by
  unfold State.clearWindow
  extract_lets +onlyGivenNames t1 t2
  have h3 : Follows s₀ t2 := by
    refine Follows.each ?_ ?_
    · exact hs
    · intro _ _ h4
      exact h4.resetRegs
  clear_value t2
  extract_lets +onlyGivenNames t5 t6 t7
  have h8 : Follows s₀ t7 := h3.upd
  clear_value t7
  exact h8.showPending.showGroups

theorem Follows.endSlice {x : Nat} {st : Nat} {cyc : Nat} (hs : Follows s₀ s) : Follows s₀ (s.endSlice x st cyc) := by
  unfold State.endSlice
  extract_lets +onlyGivenNames t1
  have h2 : Follows s₀ t1 := hs.bumpGen.setSliceState
  clear_value t1
  extract_lets +onlyGivenNames t3 t4
  have h5 : Follows s₀ t4 := h2.setSlice
  clear_value t4
  exact h5.killJobs.killFabric.killMemory.clearWindow.showTiles

theorem Follows.unbind {x : Nat} (hs : Follows s₀ s) : Follows s₀ (s.unbind x) := by
  unfold State.unbind
  extract_lets +onlyGivenNames t1
  have h2 : Follows s₀ t1 := by
    refine Follows.foldl ?_ ?_
    · exact hs
    · intro _ _ h3
      exact h3.wrBoth
  clear_value t1
  extract_lets +onlyGivenNames t4
  have h5 : Follows s₀ t4 := by
    refine Follows.each ?_ ?_
    · exact h2
    · intro _ _ h6
      extract_lets +onlyGivenNames t7
      have h8 : Follows s₀ t7 := by
        refine Follows.ite ?_ ?_
        · exact h6.wr
        · exact h6
      clear_value t7
      refine Follows.ite ?_ ?_
      · exact h8.wr
      · exact h8
  clear_value t4
  extract_lets +onlyGivenNames t9
  have h10 : Follows s₀ t9 := by
    refine Follows.each ?_ ?_
    · exact h5
    · intro _ _ h11
      extract_lets +onlyGivenNames t12
      have h13 : Follows s₀ t12 := by
        refine Follows.ite ?_ ?_
        · exact h11.wr
        · exact h11
      clear_value t12
      refine Follows.ite ?_ ?_
      · exact h13.wr
      · exact h13
  clear_value t9
  exact h10.showLimits.showQuota

theorem execSliceReset_follows {x : Nat} {cyc : Nat} {t : Nat} (hs : Follows s₀ s) :
    AnsFollows s₀ (execSliceReset x cyc t s) := by
  unfold execSliceReset
  refine AnsFollows.onUnit ?_
  extract_lets +onlyGivenNames t1
  have h2 : Follows s₀ t1 := hs.atTime
  clear_value t1
  extract_lets +onlyGivenNames t3
  refine Follows.ite ?_ ?_
  · exact h2.endSlice.sliceResult.decision
  · exact h2.sliceResult

theorem execSliceRemove_follows {x : Nat} {cyc : Nat} {t : Nat} (hs : Follows s₀ s) :
    AnsFollows s₀ (execSliceRemove x cyc t s) := by
  unfold execSliceRemove
  refine AnsFollows.onUnit ?_
  extract_lets +onlyGivenNames t1
  have h2 : Follows s₀ t1 := hs.atTime
  clear_value t1
  extract_lets +onlyGivenNames t3
  refine Follows.ite ?_ ?_
  · exact h2.endSlice.unbind.sliceResult.decision
  · exact h2.sliceResult

theorem execSliceResetDone_follows {x : Nat} {t : Nat} (hs : Follows s₀ s) :
    AnsFollows s₀ (execSliceResetDone x t s) := by
  unfold execSliceResetDone
  refine AnsFollows.onUnit ?_
  extract_lets +onlyGivenNames t1
  have h2 : Follows s₀ t1 := hs.atTime
  clear_value t1
  extract_lets +onlyGivenNames t3
  refine Follows.ite ?_ ?_
  · exact h2
  · extract_lets +onlyGivenNames t4 t5
    have h6 : Follows s₀ t5 := h2.setSliceState.wrs
    clear_value t5
    extract_lets +onlyGivenNames t7
    have h8 : Follows s₀ t7 := h6.setSlice
    clear_value t7
    refine Follows.ite ?_ ?_
    · exact h8.actWaiting.showQuota.evictExcess.serveAll.decision
    · exact h8

end Sys2Proof.Machine
end

