-- ==== Sys2Proof/Laws/Follows/Commit.lean ====
section
/-! SUPPORT. What the operations and meanings of Machine/Commit.lean do to the state as a whole (`Follows`). -/

namespace Sys2Proof.Machine

variable {s₀ s : State}

theorem Follows.ringActed {old : State} {x : Nat} {q : Nat} (hs : Follows s₀ s) :
    Follows s₀ (s.ringActed old x q) := by
  unfold State.ringActed
  extract_lets +onlyGivenNames t1 t2 t3
  have h4 : Follows s₀ t3 := by
    refine Follows.ite ?_ ?_
    · exact hs.upd
    · exact hs
  clear_value t3
  extract_lets +onlyGivenNames t5 t6
  have h7 : Follows s₀ t6 := by
    refine Follows.ite ?_ ?_
    · refine Follows.ite ?_ ?_
      · exact h4
      · exact h4.wr
    · refine Follows.ite ?_ ?_
      · refine Follows.ite ?_ ?_
        · exact h4.drainRing.wr
        · exact h4
      · refine Follows.ite ?_ ?_
        · exact h4.wr
        · exact h4
  clear_value t6
  exact h7.showCq.decision

theorem Follows.domActed {old : State} {d : Nat} (hs : Follows s₀ s) : Follows s₀ (s.domActed old d) := by
  unfold State.domActed
  extract_lets +onlyGivenNames t1 t2
  have h3 : Follows s₀ t2 := by
    refine Follows.ite ?_ ?_
    · exact hs.freeDom
    · exact hs
  clear_value t2
  exact h3.timeNow

theorem Follows.timeActed {old : State} {g : Nat} (hs : Follows s₀ s) : Follows s₀ (s.timeActed old g) := by
  unfold State.timeActed
  split
  · extract_lets +onlyGivenNames t1 t2
    have h3 : Follows s₀ t2 := by
      refine Follows.ite ?_ ?_
      · exact hs.switchDom
      · exact hs
    clear_value t2
    exact h3.timeNow
  · exact hs.domActed
  · exact hs.domActed
  · exact hs.timeNow
  · exact hs.synceSelect
  · exact hs

theorem Follows.rxActed {old : State} {c : Nat} {l : Nat} (hs : Follows s₀ s) : Follows s₀ (s.rxActed old c l) := by
  unfold State.rxActed
  refine Follows.ite ?_ ?_
  · exact hs
  · split
    · exact hs
    · extract_lets +onlyGivenNames t1
      exact hs.upd

theorem Follows.portActed {old : State} {p : Nat} {g : Nat} (hs : Follows s₀ s) :
    Follows s₀ (s.portActed old p g) := by
  unfold State.portActed
  split
  · exact hs.adminPort
  · exact hs.shapePort
  · exact hs.policePort
  · exact hs

theorem Follows.tellLend {k : Nat} (hs : Follows s₀ s) : Follows s₀ (s.tellLend k) := by
  unfold State.tellLend
  exact hs.send

theorem Follows.memActed {old : State} {g : Nat} (hs : Follows s₀ s) : Follows s₀ (s.memActed old g) := by
  unfold State.memActed
  refine Follows.ite ?_ ?_
  · exact hs.showQuota.evictExcess.serveAll.decision
  · exact hs.lendResize.tellLend

theorem Follows.groupActed {old : State} {btype : Nat} {inst : Nat} {g : Nat} (hs : Follows s₀ s) :
    Follows s₀ (s.groupActed old btype inst g) := by
  unfold State.groupActed
  split
  · exact hs.timeActed
  · refine Follows.ite ?_ ?_
    · exact hs.modeCommit
    · exact hs
  · exact hs.rxActed
  · refine Follows.ite ?_ ?_
    · refine Follows.decision ?_
      refine Follows.each ?_ ?_
      · exact hs
      · intro _ _ h1
        exact h1.showGroups
    · exact hs
  · exact hs.memActed
  · refine Follows.ite ?_ ?_
    · exact hs.showLimits.decision
    · exact hs
  · exact hs.portActed
  · exact hs.portActed
  · exact hs

theorem Follows.actCommit {c : Commit} (hs : Follows s₀ s) : Follows s₀ (s.actCommit c) := by
  unfold State.actCommit
  extract_lets +onlyGivenNames t1
  have h2 : Follows s₀ t1 := hs.actSnap
  clear_value t1
  split
  · exact h2.ringActed
  · exact h2.groupActed

theorem Follows.cgReport {who : Nat} {reason : Nat} {detail : Nat} {ticket : Nat} (hs : Follows s₀ s) :
    Follows s₀ (s.cgReport who reason detail ticket) := by
  unfold State.cgReport
  exact hs.wrs

theorem Follows.supersede {who : Nat} {c : Commit} (hs : Follows s₀ s) : Follows s₀ (s.supersede who c) := by
  unfold State.supersede
  split
  · exact hs
  · extract_lets +onlyGivenNames t1 t2
    have h3 : Follows s₀ t2 := by
      refine Follows.iff ?_ ?_
      · exact hs
      · intro _ h4
        exact h4.flag
    clear_value t2
    exact h3.flag.wr.dropWaiting

theorem Follows.waitCommit {c : Commit} (hs : Follows s₀ s) : Follows s₀ (s.waitCommit c) := by
  unfold State.waitCommit
  extract_lets +onlyGivenNames t1 t2
  have h3 : Follows s₀ t2 := hs.upd
  clear_value t2
  refine Follows.ite ?_ ?_
  · extract_lets +onlyGivenNames t4 t5
    have h6 : Follows s₀ t5 := hs.applySnap
    clear_value t5
    exact h3.armGate
  · exact h3

theorem execCgCommit_follows {who : Nat} {group : Nat} {btype : Nat} {inst : Nat} {ticket : Nat} {t : Nat}
    (hs : Follows s₀ s) :
    AnsFollows s₀ (execCgCommit who group btype inst ticket t s) := by
  unfold execCgCommit
  refine AnsFollows.onUnit ?_
  extract_lets +onlyGivenNames t1
  have h2 : Follows s₀ t1 := hs.atTime
  clear_value t1
  refine Follows.ite ?_ ?_
  · exact h2.windowErr
  · refine Follows.ite ?_ ?_
    · exact h2.cgReport
    · extract_lets +onlyGivenNames t3 t4 t5
      exact h2.upd.flag

theorem execCgCheckDone_follows {who : Nat} {t : Nat} (hs : Follows s₀ s) :
    AnsFollows s₀ (execCgCheckDone who t s) := by
  unfold execCgCheckDone
  refine AnsFollows.onUnit ?_
  extract_lets +onlyGivenNames t1
  have h2 : Follows s₀ t1 := hs.atTime
  clear_value t1
  split
  · exact h2
  · split
    extract_lets +onlyGivenNames t3 t4
    have h5 : Follows s₀ t4 := h2.upd.wr
    clear_value t4
    extract_lets +onlyGivenNames t6
    have h7 : Follows s₀ t6 := h5.cgReport
    clear_value t6
    refine Follows.ite ?_ ?_
    · exact h7
    · extract_lets +onlyGivenNames t8
      have h9 : Follows s₀ t8 := h7.supersede
      clear_value t8
      extract_lets +onlyGivenNames t10
      have h11 : Follows s₀ t10 := by
        refine Follows.ite ?_ ?_
        · exact h9.waitCommit
        · exact h9.actCommit
      clear_value t10
      exact h11.showPending

theorem execCgAct_follows {btype : Nat} {inst : Nat} {group : Nat} {t : Nat} (hs : Follows s₀ s) :
    AnsFollows s₀ (execCgAct btype inst group t s) := by
  unfold execCgAct
  refine AnsFollows.next ?_
  extract_lets +onlyGivenNames t1
  have h2 : Follows s₀ t1 := hs.atTime
  clear_value t1
  split
  · exact h2
  · refine Follows.ite ?_ ?_
    · exact h2
    · exact h2.dropWaiting.actCommit.showPending

theorem execCgDiscard_follows {who : Nat} {group : Nat} {btype : Nat} {inst : Nat} {t : Nat} (hs : Follows s₀ s) :
    AnsFollows s₀ (execCgDiscard who group btype inst t s) := by
  unfold execCgDiscard
  refine AnsFollows.onUnit ?_
  extract_lets +onlyGivenNames t1
  have h2 : Follows s₀ t1 := hs.atTime
  clear_value t1
  refine Follows.ite ?_ ?_
  · exact h2.windowErr
  · extract_lets +onlyGivenNames t3
    refine Follows.ite ?_ ?_
    · exact h2.cgReport
    · split
      · exact h2.cgReport
      · refine Follows.ite ?_ ?_
        · exact h2.cgReport
        · refine Follows.ite ?_ ?_
          · exact h2.cgReport
          · exact h2.discardGroup.cgReport

end Sys2Proof.Machine
end

