-- ==== Sys2Proof/Laws/Follows/Strata.lean ====
section
/-! SUPPORT. What the operations and meanings of Machine/Strata.lean do to the state as a whole (`Follows`). -/

namespace Sys2Proof.Machine

variable {s₀ s : State}

theorem Follows.actSection {x : Section} (hs : Follows s₀ s) : Follows s₀ (s.actSection x) := by
  unfold State.actSection
  exact hs.actSnap

theorem Follows.putSection {x : Section} (hs : Follows s₀ s) : Follows s₀ (s.putSection x) := by
  unfold State.putSection
  refine Follows.each ?_ ?_
  · exact hs
  · intro _ _ h1
    exact h1.putGroup

theorem Follows.putLanes {l : List Section} (hs : Follows s₀ s) : Follows s₀ (s.putLanes l) := by
  unfold State.putLanes
  refine Follows.each ?_ ?_
  · exact hs
  · intro _ _ h1
    extract_lets +onlyGivenNames t2
    exact h1.upd

theorem Follows.withSections {l : List Section} (hs : Follows s₀ s) : Follows s₀ (s.withSections l) := by
  unfold State.withSections
  extract_lets +onlyGivenNames t1
  have h2 : Follows s₀ t1 := by
    refine Follows.each ?_ ?_
    · exact hs.putLanes
    · intro _ _ h3
      extract_lets +onlyGivenNames t4
      have h5 : Follows s₀ t4 := h3.putSection
      clear_value t4
      split
      · exact h5
      · extract_lets +onlyGivenNames t6 t7
        exact h5.setTable
  clear_value t1
  exact h2

theorem Follows.reloadResult {reason : Nat} {sec : Nat} {detail : Nat} (hs : Follows s₀ s) :
    Follows s₀ (s.reloadResult reason sec detail) := by
  unfold State.reloadResult
  exact hs.wrs

theorem Follows.rejectStrata {reason : Nat} {sec : Nat} {detail : Nat} (hs : Follows s₀ s) :
    Follows s₀ (s.rejectStrata reason sec detail) := by
  unfold State.rejectStrata
  exact hs.reloadResult.flag

theorem Follows.unstage (hs : Follows s₀ s) : Follows s₀ (s.unstage) := by
  unfold State.unstage
  extract_lets +onlyGivenNames t1
  have h2 : Follows s₀ t1 := by
    refine Follows.each ?_ ?_
    · exact hs
    · intro _ _ h3
      refine Follows.each ?_ ?_
      · exact h3
      · intro _ _ h4
        exact h4.putGroup
  clear_value t1
  extract_lets +onlyGivenNames t5
  exact h2.upd.wr

theorem Follows.abortReload (hs : Follows s₀ s) : Follows s₀ (s.abortReload) := by
  unfold State.abortReload
  extract_lets +onlyGivenNames t1
  refine Follows.ite ?_ ?_
  · exact hs
  · exact hs.unstage

theorem execStrataReloadGo_follows {sigOk : Bool} {abort : Bool} {t : Nat} (hs : Follows s₀ s) :
    AnsFollows s₀ (execStrataReloadGo sigOk abort t s) := by
  unfold execStrataReloadGo
  refine AnsFollows.next ?_
  extract_lets +onlyGivenNames t1
  have h2 : Follows s₀ t1 := hs.atTime
  clear_value t1
  extract_lets +onlyGivenNames t3
  have h4 : Follows s₀ t3 := by
    refine Follows.iff ?_ ?_
    · exact h2
    · intro _ h5
      exact h5.abortReload
  clear_value t3
  refine Follows.ite ?_ ?_
  · exact h4.rejectStrata
  · refine Follows.ite ?_ ?_
    · exact h4.rejectStrata
    · extract_lets +onlyGivenNames t6
      split
      refine Follows.ite ?_ ?_
      · exact h4.rejectStrata
      · extract_lets +onlyGivenNames t7
        exact h4.upd.wr.reloadResult

theorem execStrataReloadAbort_follows {t : Nat} (hs : Follows s₀ s) : AnsFollows s₀ (execStrataReloadAbort t s) := by
  unfold execStrataReloadAbort
  exact .next hs.atTime.abortReload

theorem Follows.stageSection {l : List Section} {x : Section} (hs : Follows s₀ s) :
    Follows s₀ (s.stageSection l x) := by
  unfold State.stageSection
  extract_lets +onlyGivenNames t1
  have h2 : Follows s₀ t1 := by
    refine Follows.each ?_ ?_
    · exact hs
    · intro _ _ h3
      exact h3.putGroup
  clear_value t1
  split
  · exact h2
  · extract_lets +onlyGivenNames t4 t5
    exact h2.setTable

theorem execStrataStaged_follows {t : Nat} (hs : Follows s₀ s) : AnsFollows s₀ (execStrataStaged t s) := by
  unfold execStrataStaged
  refine AnsFollows.next ?_
  extract_lets +onlyGivenNames t1
  have h2 : Follows s₀ t1 := hs.atTime
  clear_value t1
  split
  · exact h2
  · refine Follows.ite ?_ ?_
    · exact h2
    · extract_lets +onlyGivenNames t3
      have h4 : Follows s₀ t3 := by
        refine Follows.each ?_ ?_
        · exact h2
        · intro _ _ h5
          exact h5.stageSection
      clear_value t3
      extract_lets +onlyGivenNames t6
      exact h4.upd.wr.flag

theorem Follows.flipTable {id : Nat} (hs : Follows s₀ s) : Follows s₀ (s.flipTable id) := by
  unfold State.flipTable
  extract_lets +onlyGivenNames t1 t2 t3
  refine Follows.iff ?_ ?_
  · exact hs.setTable
  · intro _ h4
    exact h4.flag

theorem Follows.showSwing (hs : Follows s₀ s) : Follows s₀ (s.showSwing) := by
  unfold State.showSwing
  extract_lets +onlyGivenNames t1 t2
  have h3 : Follows s₀ t2 := by
    refine Follows.each ?_ ?_
    · exact hs
    · intro _ _ h4
      exact h4.wr
  clear_value t2
  exact h3.wr

theorem Follows.showPlan (hs : Follows s₀ s) : Follows s₀ (s.showPlan) := by
  unfold State.showPlan
  extract_lets +onlyGivenNames t1
  have h2 : Follows s₀ t1 := hs.wr
  clear_value t1
  refine Follows.each ?_ ?_
  · refine Follows.showChecker ?_
    refine Follows.each ?_ ?_
    · exact h2
    · intro _ _ h3
      exact h3.showTiles
  · intro _ _ h4
    exact h4.showScrub

theorem Follows.showMesh {plane : Nat} (hs : Follows s₀ s) : Follows s₀ (s.showMesh plane) := by
  unfold State.showMesh
  refine Follows.each ?_ ?_
  · exact hs
  · intro _ _ h1
    exact h1.wr

theorem Follows.showLanes {g : Nat} (hs : Follows s₀ s) : Follows s₀ (s.showLanes g) := by
  unfold State.showLanes
  refine Follows.ite ?_ ?_
  · refine Follows.each ?_ ?_
    · exact hs
    · intro _ _ h1
      exact h1.wr
  · exact hs

theorem Follows.tableActed {id : Nat} (hs : Follows s₀ s) : Follows s₀ (s.tableActed id) := by
  unfold State.tableActed
  split
  · exact hs.showMesh
  · exact hs.showMesh
  · exact hs.showMesh
  · exact hs.showSwing
  · exact hs.showPlan.decision
  · exact hs.showCarriers
  · exact hs.showCarriers
  · exact hs.showRoutes
  · exact hs

theorem Follows.switchNow (hs : Follows s₀ s) : Follows s₀ (s.switchNow) := by
  unfold State.switchNow
  extract_lets +onlyGivenNames t1 t2 t3
  have h4 : Follows s₀ t3 := by
    refine Follows.each ?_ ?_
    · exact hs.supplyMark
    · intro _ _ h5
      exact h5.flipTable
  clear_value t3
  extract_lets +onlyGivenNames t6 t7
  have h8 : Follows s₀ t7 := h4.upd
  clear_value t7
  extract_lets +onlyGivenNames t9
  have h10 : Follows s₀ t9 := by
    refine Follows.each ?_ ?_
    · exact h8.putLanes
    · intro _ _ h11
      extract_lets +onlyGivenNames t12
      have h13 : Follows s₀ t12 := h11.actSection
      clear_value t12
      refine Follows.each ?_ ?_
      · exact h13
      · intro _ _ h14
        exact h14.groupActed
  clear_value t9
  extract_lets +onlyGivenNames t15
  have h16 : Follows s₀ t15 := by
    refine Follows.each ?_ ?_
    · refine Follows.each ?_ ?_
      · exact h10
      · intro _ _ h17
        exact h17.tableActed
    · intro _ _ h18
      exact h18.showLanes
  clear_value t15
  extract_lets +onlyGivenNames t19
  have h20 : Follows s₀ t19 := by
    unfold t19
    split
    · exact h16.extendMr.raise
    · exact h16
  clear_value t19
  extract_lets +onlyGivenNames t21
  exact h20.upd.wr.flag.showDraining

theorem Follows.pendSwitch {instant : Nat} (hs : Follows s₀ s) : Follows s₀ (s.pendSwitch instant) := by
  unfold State.pendSwitch
  extract_lets +onlyGivenNames t1
  exact hs.upd.wr.reloadResult

theorem Follows.switchFields {kind : Nat} {sfn : Nat} {slot : Nat} (hs : Follows s₀ s) :
    Follows s₀ (s.switchFields kind sfn slot) := by
  unfold State.switchFields
  exact hs.wrs

theorem execStrataSwitchRequest_follows {kind : Nat} {sfn : Nat} {slot : Nat} {t : Nat} (hs : Follows s₀ s) :
    AnsFollows s₀ (execStrataSwitchRequest kind sfn slot t s) := by
  unfold execStrataSwitchRequest
  refine AnsFollows.next ?_
  extract_lets +onlyGivenNames t1
  have h2 : Follows s₀ t1 := hs.atTime.switchFields
  clear_value t1
  extract_lets +onlyGivenNames t3 t4 t5 t6
  refine Follows.ite ?_ ?_
  · exact h2.rejectStrata
  · refine Follows.ite ?_ ?_
    · exact h2.rejectStrata
    · refine Follows.ite ?_ ?_
      · exact h2.rejectStrata
      · refine Follows.ite ?_ ?_
        · exact h2.rejectStrata
        · split
          extract_lets +onlyGivenNames t7 t8
          refine Follows.ite ?_ ?_
          · exact h2.rejectStrata
          · refine Follows.ite ?_ ?_
            · exact h2.reloadResult.switchNow
            · refine Follows.ite ?_ ?_
              · refine Follows.ite ?_ ?_
                · exact h2.rejectStrata
                · exact h2.pendSwitch
              · refine Follows.ite ?_ ?_
                · exact h2.rejectStrata
                · exact h2.pendSwitch

theorem execStrataSwitch_follows {t : Nat} (hs : Follows s₀ s) : AnsFollows s₀ (execStrataSwitch t s) := by
  unfold execStrataSwitch
  refine AnsFollows.next ?_
  extract_lets +onlyGivenNames t1
  have h2 : Follows s₀ t1 := hs.atTime
  clear_value t1
  refine Follows.ite ?_ ?_
  · exact h2.switchNow
  · exact h2

theorem execTableBankReleased_follows {id : Nat} {t : Nat} (hs : Follows s₀ s) :
    AnsFollows s₀ (execTableBankReleased id t s) := by
  unfold execTableBankReleased
  refine AnsFollows.onUnit ?_
  extract_lets +onlyGivenNames t1
  have h2 : Follows s₀ t1 := hs.atTime
  clear_value t1
  extract_lets +onlyGivenNames t3
  refine Follows.ite ?_ ?_
  · exact h2
  · exact h2.setTable.flag.showDraining

theorem execDrainStall_follows {id : Nat} {t : Nat} (hs : Follows s₀ s) : AnsFollows s₀ (execDrainStall id t s) := by
  unfold execDrainStall
  refine AnsFollows.onUnit ?_
  extract_lets +onlyGivenNames t1
  have h2 : Follows s₀ t1 := hs.atTime
  clear_value t1
  extract_lets +onlyGivenNames t3
  refine Follows.ite ?_ ?_
  · exact h2
  · exact h2.setTable.flag

end Sys2Proof.Machine
end

