-- ==== Sys2Proof/Laws/Follows/Boot.lean ====
section
/-! SUPPORT. What the operations and meanings of Machine/Boot.lean do to the state as a whole (`Follows`). -/

namespace Sys2Proof.Machine

variable {s₀ s : State}

theorem execColdReset_follows {cause : Nat} {lowNs : Nat} {straps : Nat} {trip : Bool} {t : Nat} (hs : Follows s₀ s) :
    AnsFollows s₀ (execColdReset cause lowNs straps trip t s) := by
  unfold execColdReset
  refine AnsFollows.next ?_
  extract_lets +onlyGivenNames t1
  have h2 : Follows s₀ t1 := hs.atTime
  clear_value t1
  refine Follows.ite ?_ ?_
  · exact h2.coldReset
  · refine Follows.ite ?_ ?_
    · exact h2
    · exact h2.coldReset

theorem execWarmReset_follows {cause : Nat} {lowNs : Nat} {trip : Bool} {t : Nat} (hs : Follows s₀ s) :
    AnsFollows s₀ (execWarmReset cause lowNs trip t s) := by
  unfold execWarmReset
  refine AnsFollows.next ?_
  extract_lets +onlyGivenNames t1
  have h2 : Follows s₀ t1 := hs.atTime
  clear_value t1
  refine Follows.ite ?_ ?_
  · exact h2
  · exact h2.warmReset

theorem execBrownOut_follows {mV : Nat} {ns : Nat} {straps : Nat} {trip : Bool} {t : Nat} (hs : Follows s₀ s) :
    AnsFollows s₀ (execBrownOut mV ns straps trip t s) := by
  unfold execBrownOut
  refine AnsFollows.next ?_
  extract_lets +onlyGivenNames t1
  have h2 : Follows s₀ t1 := hs.atTime
  clear_value t1
  refine Follows.ite ?_ ?_
  · exact h2
  · exact h2.coldReset

theorem execDevResetWarm_follows {word : Nat} {trip : Bool} {t : Nat} (hs : Follows s₀ s) :
    AnsFollows s₀ (execDevResetWarm word trip t s) := by
  unfold execDevResetWarm
  refine AnsFollows.next ?_
  extract_lets +onlyGivenNames t1
  have h2 : Follows s₀ t1 := hs.atTime
  clear_value t1
  refine Follows.ite ?_ ?_
  · exact h2.warmReset
  · exact h2

theorem execDevResetCold_follows {word : Nat} {straps : Nat} {trip : Bool} {t : Nat} (hs : Follows s₀ s) :
    AnsFollows s₀ (execDevResetCold word straps trip t s) := by
  unfold execDevResetCold
  refine AnsFollows.next ?_
  extract_lets +onlyGivenNames t1
  have h2 : Follows s₀ t1 := hs.atTime
  clear_value t1
  refine Follows.ite ?_ ?_
  · exact h2.coldReset
  · exact h2

theorem Follows.nextPhase {p : Nat} (hs : Follows s₀ s) : Follows s₀ (s.nextPhase p) := by
  unfold State.nextPhase
  refine Follows.ite ?_ ?_
  · exact hs.enterStop
  · exact hs.enterPhase

theorem Follows.showImage {k : Nat} {c : ImageCopy × Bool} (hs : Follows s₀ s) : Follows s₀ (s.showImage k c) := by
  unfold State.showImage
  exact hs.wrs

theorem execRomDone_follows {udsOk : Bool} {keysOk : Bool} {first : ImageCopy} {second : ImageCopy} {t : Nat}
    (hs : Follows s₀ s) :
    AnsFollows s₀ (execRomDone udsOk keysOk first second t s) := by
  unfold execRomDone
  refine AnsFollows.next ?_
  extract_lets +onlyGivenNames t1
  have h2 : Follows s₀ t1 := hs.atTime
  clear_value t1
  refine Follows.ite ?_ ?_
  · exact h2
  · refine Follows.ite ?_ ?_
    · exact h2.failBoot
    · split
      · exact h2.failBoot
      · extract_lets +onlyGivenNames t3
        have h4 : Follows s₀ t3 := by
          refine Follows.showKeys ?_
          refine Follows.each ?_ ?_
          · exact h2
          · intro _ _ h5
            exact h5.wr
        clear_value t3
        extract_lets +onlyGivenNames t6
        have h7 : Follows s₀ t6 := h4.extendMr.showImage
        clear_value t6
        extract_lets +onlyGivenNames t8 t9
        have h10 : Follows s₀ t9 := h7.upd
        clear_value t9
        exact h10.wr.kickAll.nextPhase

theorem Follows.applyEnrolments {recs : List (Nat × EnrolRec)} (hs : Follows s₀ s) :
    Follows s₀ (s.applyEnrolments recs) := by
  unfold State.applyEnrolments
  split
  rename_i e3
  have h2 : Follows s₀ _ := Follows.of_pair1 e3 (by
    refine Follows.foldl1 ?_ ?_
    · exact hs
    · intro _ _ h1
      refine Follows.ite1 ?_ ?_
      · exact h1.enrol
      · exact h1)
  refine Follows.ite ?_ ?_
  · exact h2
  · exact h2.extendMr.showKeys

theorem Follows.readMap {map : PartMap} (hs : Follows s₀ s) : Follows s₀ (s.readMap map) := by
  unfold State.readMap
  extract_lets +onlyGivenNames t1 t2
  have h3 : Follows s₀ t2 := hs.upd.showUnits
  clear_value t2
  extract_lets +onlyGivenNames t4 t5
  have h6 : Follows s₀ t5 := h3.wrs
  clear_value t5
  refine Follows.each ?_ ?_
  · exact h6.putWords
  · intro _ _ h7
    exact h7.wr

theorem Follows.startCores (hs : Follows s₀ s) : Follows s₀ (s.startCores) := by
  unfold State.startCores
  extract_lets +onlyGivenNames t1
  have h2 : Follows s₀ t1 := by
    refine Follows.each ?_ ?_
    · exact hs
    · intro _ _ h3
      exact h3.wr
  clear_value t1
  extract_lets +onlyGivenNames t4
  have h5 : Follows s₀ t4 := by
    refine Follows.wr ?_
    refine Follows.each ?_ ?_
    · exact h2
    · intro _ _ h6
      exact h6.kickAll
  clear_value t4
  exact h5.upd.showStandby

theorem Follows.bootWith {b : BootSet} {listed : Bool} {tried : BitVec 512} {recs : List (Nat × EnrolRec)}
    (hs : Follows s₀ s) :
    Follows s₀ (s.bootWith b listed tried recs) := by
  unfold State.bootWith
  extract_lets +onlyGivenNames t1
  split
  extract_lets +onlyGivenNames t2
  have h3 : Follows s₀ t2 := hs.showImage.showImage.showImage
  clear_value t2
  extract_lets +onlyGivenNames t4
  have h5 : Follows s₀ t4 := h3.extendMr.extendMr.extendMr
  clear_value t4
  extract_lets +onlyGivenNames t6
  have h7 : Follows s₀ t6 := h5.putWords
  clear_value t6
  extract_lets +onlyGivenNames t8 t9 t10 t11
  have h12 : Follows s₀ t11 := h7.extendMr.extendMr
  clear_value t11
  extract_lets +onlyGivenNames t13
  have h14 : Follows s₀ t13 := h12.extendMr.extendMr.log
  clear_value t13
  clear_value t8
  split
  · exact h14.failBoot
  · extract_lets +onlyGivenNames t15
    have h16 : Follows s₀ t15 := by
      refine Follows.each ?_ ?_
      · exact h14.wrs
      · intro _ _ h17
        exact h17.wr
    clear_value t15
    split
    extract_lets +onlyGivenNames t18
    have h19 : Follows s₀ t18 := h16.wrs
    clear_value t18
    extract_lets +onlyGivenNames t20 t21 t22 t23
    split
    extract_lets +onlyGivenNames t24
    have h25 : Follows s₀ t24 := h19.upd
    clear_value t24
    extract_lets +onlyGivenNames t26
    have h27 : Follows s₀ t26 := h25.applyEnrolments.startCores
    clear_value t26
    refine Follows.nextPhase ?_
    refine Follows.each ?_ ?_
    · exact h27
    · intro _ _ h28
      exact h28.wr

theorem execBootDone_follows {map : PartMap} {mapOk : Bool} {jasper1 : ImageCopy} {jasper2 : ImageCopy} {flint1 : ImageCopy} {flint2 : ImageCopy} {svc1 : ImageCopy} {svc2 : ImageCopy} {manifest1 : ImageCopy} {manifest2 : ImageCopy} {listed : Bool} {recs : List (Nat × EnrolRec)} {t : Nat}
    (hs : Follows s₀ s) :
    AnsFollows s₀ (execBootDone map mapOk jasper1 jasper2 flint1 flint2 svc1 svc2 manifest1 manifest2 listed recs t s) := by
  unfold execBootDone
  refine AnsFollows.next ?_
  extract_lets +onlyGivenNames t1
  have h2 : Follows s₀ t1 := hs.atTime
  clear_value t1
  refine Follows.ite ?_ ?_
  · exact h2
  · refine Follows.ite ?_ ?_
    · exact h2.failBoot
    · extract_lets +onlyGivenNames t3
      have h4 : Follows s₀ t3 := h2.readMap
      clear_value t3
      split
      · exact h4.failBoot
      · split
        · exact h4.failBoot
        · split
          · exact h4.failBoot
          · extract_lets +onlyGivenNames t5 t6
            refine Follows.ite ?_ ?_
            · exact h4.failBoot
            · exact h4.bootWith

theorem Follows.putRoles {l : List Section} (hs : Follows s₀ s) : Follows s₀ (s.putRoles l) := by
  unfold State.putRoles
  refine Follows.each ?_ ?_
  · exact hs
  · intro _ _ h1
    exact h1.wr

theorem Follows.loadTables {l : List Section} (hs : Follows s₀ s) : Follows s₀ (s.loadTables l) := by
  unfold State.loadTables
  refine Follows.each ?_ ?_
  · exact hs
  · intro _ _ h1
    extract_lets +onlyGivenNames t2
    exact h1.setTable

theorem Follows.loadRegs {x : Section} (hs : Follows s₀ s) : Follows s₀ (s.loadRegs x) := by
  unfold State.loadRegs
  refine Follows.each ?_ ?_
  · exact hs
  · intro _ _ h1
    extract_lets +onlyGivenNames t2
    refine Follows.ite ?_ ?_
    · exact h1.wr
    · exact h1.putGroup.putGroup

theorem Follows.loadPins {l : List Section} (hs : Follows s₀ s) : Follows s₀ (s.loadPins l) := by
  unfold State.loadPins
  extract_lets +onlyGivenNames t1 t2 t3
  have h4 : Follows s₀ t3 := hs.upd.wr
  clear_value t3
  refine Follows.each ?_ ?_
  · exact h4
  · intro _ _ h5
    exact h5.wr

theorem Follows.showPlanTiles (hs : Follows s₀ s) : Follows s₀ (s.showPlanTiles) := by
  unfold State.showPlanTiles
  refine Follows.each ?_ ?_
  · exact hs
  · intro _ _ h1
    refine Follows.ite ?_ ?_
    · exact h1.wrs
    · extract_lets +onlyGivenNames t2
      exact h1.wrs

theorem Follows.initVaults {slabs : List (Nat × Nat)} (hs : Follows s₀ s) : Follows s₀ (s.initVaults slabs) := by
  unfold State.initVaults
  extract_lets +onlyGivenNames t1 t2 t3
  have h4 : Follows s₀ t3 := hs.upd
  clear_value t3
  extract_lets +onlyGivenNames t5
  have h6 : Follows s₀ t5 := h4.zeroKeys
  clear_value t5
  extract_lets +onlyGivenNames t7
  have h8 : Follows s₀ t7 := by
    refine Follows.each ?_ ?_
    · exact h6
    · intro _ _ h9
      extract_lets +onlyGivenNames t10
      exact h9.wrs
  clear_value t7
  extract_lets +onlyGivenNames t11
  exact h8.wrs

theorem Follows.bringUp (hs : Follows s₀ s) : Follows s₀ (s.bringUp) := by
  unfold State.bringUp
  extract_lets +onlyGivenNames t1
  have h2 : Follows s₀ t1 := by
    refine Follows.each ?_ ?_
    · exact hs
    · intro _ _ h3
      exact h3.showLimits.showQuota.showGroups
  clear_value t1
  extract_lets +onlyGivenNames t4
  have h5 : Follows s₀ t4 := by
    refine Follows.each ?_ ?_
    · exact h2
    · intro _ _ h6
      exact h6.lendResize
  clear_value t4
  extract_lets +onlyGivenNames t7
  have h8 : Follows s₀ t7 := by
    refine Follows.each ?_ ?_
    · exact h5
    · intro _ _ h9
      extract_lets +onlyGivenNames t10
      have h11 : Follows s₀ t10 := h9.adminPort
      clear_value t10
      refine Follows.iff ?_ ?_
      · exact h11
      · intro _ h12
        exact h12.armGate
  clear_value t7
  extract_lets +onlyGivenNames t13
  have h14 : Follows s₀ t13 := by
    refine Follows.each ?_ ?_
    · exact h8
    · intro _ _ h15
      exact h15.wr
  clear_value t13
  extract_lets +onlyGivenNames t16
  have h17 : Follows s₀ t16 := h14.wr
  clear_value t16
  exact h17.modeCommit.synceSelect.timeNow

theorem Follows.loadImage {f : StrataFile} {second : Bool} (hs : Follows s₀ s) :
    Follows s₀ (s.loadImage f second) := by
  unfold State.loadImage
  extract_lets +onlyGivenNames t1 t2
  have h3 : Follows s₀ t2 := hs.extendMr.putWords
  clear_value t2
  extract_lets +onlyGivenNames t4 t5
  have h6 : Follows s₀ t5 := h3.upd
  clear_value t5
  extract_lets +onlyGivenNames t7 t8
  have h9 : Follows s₀ t8 := h6.putRoles.putLanes.loadTables
  clear_value t8
  extract_lets +onlyGivenNames t10 t11
  have h12 : Follows s₀ t11 := h9.upd
  clear_value t11
  extract_lets +onlyGivenNames t13
  have h14 : Follows s₀ t13 := by
    refine Follows.loadPins ?_
    refine Follows.each ?_ ?_
    · exact h12
    · intro _ _ h15
      exact h15.loadRegs
  clear_value t13
  extract_lets +onlyGivenNames t16
  have h17 : Follows s₀ t16 := h14.wrs
  clear_value t16
  extract_lets +onlyGivenNames t18
  have h19 : Follows s₀ t18 := by
    refine Follows.each ?_ ?_
    · refine Follows.each ?_ ?_
      · exact h17
      · intro _ _ h20
        exact h20.showMesh
    · intro _ _ h21
      exact h21.showLanes
  clear_value t18
  exact h19.showSwing.showPlanTiles.showPlan.showCarriers.showRoutes.adopt

theorem Follows.enterRun (hs : Follows s₀ s) : Follows s₀ (s.enterRun) := by
  unfold State.enterRun
  extract_lets +onlyGivenNames t1
  have h2 : Follows s₀ t1 := by
    refine Follows.wr ?_
    refine Follows.each ?_ ?_
    · exact hs
    · intro _ _ h3
      exact h3.raise
  clear_value t1
  extract_lets +onlyGivenNames t4
  have h5 : Follows s₀ t4 := h2.enterPhase
  clear_value t4
  extract_lets +onlyGivenNames t6 t7
  have h8 : Follows s₀ t7 := h5.upd
  clear_value t7
  extract_lets +onlyGivenNames t9 t10
  have h11 : Follows s₀ t10 := by
    refine Follows.each ?_ ?_
    · exact h8
    · intro _ _ h12
      refine Follows.ite ?_ ?_
      · exact h12.createSlice
      · exact h12
  clear_value t10
  exact h11.showAdmit

theorem execBuildDone_follows {sig1 : Bool} {sig2 : Bool} {slabs : List (Nat × Nat)}
    {tilesAgree vaultsAgree trained initialised : Bool} {t : Nat}
    (hs : Follows s₀ s) :
    AnsFollows s₀ (execBuildDone sig1 sig2 slabs tilesAgree vaultsAgree trained initialised t s) := by
  unfold execBuildDone
  refine AnsFollows.next ?_
  extract_lets +onlyGivenNames t1 t2
  have h3 : Follows s₀ t2 := hs.atTime
  clear_value t2
  refine Follows.ite ?_ ?_
  · exact h3
  · extract_lets +onlyGivenNames t4
    have h5 : Follows s₀ t4 := h3.nextEpoch
    clear_value t4
    refine Follows.ite ?_ ?_
    · exact h5.failBoot
    · extract_lets +onlyGivenNames t6 t7
      split
      · refine Follows.ite ?_ ?_
        · exact h5.failBoot
        · exact h5.failBoot
      · refine Follows.ite ?_ ?_
        · exact h5.failBoot
        · extract_lets +onlyGivenNames t8
          have h9 : Follows s₀ t8 := h5.loadImage
          clear_value t8
          refine Follows.ite ?_ ?_
          · exact h9.failBoot
          · refine Follows.ite ?_ ?_
            · exact h9.failBoot
            · extract_lets +onlyGivenNames t10
              have h11 : Follows s₀ t10 := h9.initVaults.bringUp
              clear_value t10
              refine Follows.ite ?_ ?_
              · exact h11.nextPhase
              · exact h11.enterRun

theorem execRadioReadySet_follows {t : Nat} (hs : Follows s₀ s) : AnsFollows s₀ (execRadioReadySet t s) := by
  unfold execRadioReadySet
  exact .next hs.airTime.makeReady

end Sys2Proof.Machine
end

