-- ==== Sys2Proof/Laws/Follows/Mica.lean ====
section
/-! SUPPORT. What the operations and meanings of Machine/Mica.lean do to the state as a whole (`Follows`). -/

namespace Sys2Proof.Machine

variable {s₀ s : State}

/-- A result of a Mica command whose state, if it has one, follows `s₀`. -/
def MicaFollows (s₀ : State) : MicaRes → Prop
  | .waits => True
  | .fails _ => True
  | .done t _ => Follows s₀ t
  | .ends t => Follows s₀ t

theorem MicaFollows.ite {c : Prop} [Decidable c] {a b : MicaRes} (ha : MicaFollows s₀ a) (hb : MicaFollows s₀ b) :
    MicaFollows s₀ (if c then a else b) := by
  split <;> assumption

theorem MicaFollows.waits : MicaFollows s₀ .waits := trivial

theorem MicaFollows.fails {code : Nat} : MicaFollows s₀ (.fails code) := trivial

theorem MicaFollows.done {t : State} {l : List Span} (h : Follows s₀ t) : MicaFollows s₀ (.done t l) := h

theorem MicaFollows.ends {t : State} (h : Follows s₀ t) : MicaFollows s₀ (.ends t) := h

theorem MicaFollows.of_done {r : MicaRes} {t : State} {l : List Span} (e : r = .done t l) (h : MicaFollows s₀ r) :
    Follows s₀ t := by
  subst e
  exact h

theorem MicaFollows.of_ends {r : MicaRes} {t : State} (e : r = .ends t) (h : MicaFollows s₀ r) : Follows s₀ t := by
  subst e
  exact h

theorem Follows.setMica {c : Nat} {u : Nat} {x : MicaState} (hs : Follows s₀ s) : Follows s₀ (s.setMica c u x) := by
  unfold State.setMica
  extract_lets +onlyGivenNames t1
  exact hs.setCluster

theorem Follows.micaBegin {c : Nat} {u : Nat} {r : StreamRun} {e : BitVec 128} {corr : Nat} (hs : Follows s₀ s) :
    Follows s₀ (s.micaBegin c u r e corr) := by
  unfold State.micaBegin
  extract_lets +onlyGivenNames t1 t2
  have h3 : Follows s₀ t2 := by
    refine Follows.sat ?_
    refine Follows.ite ?_ ?_
    · exact hs.setMica
    · exact hs
  clear_value t2
  extract_lets +onlyGivenNames t4
  refine Follows.ite ?_ ?_
  · exact h3
  · exact h3.setMica

theorem Follows.micaNext {c : Nat} {u : Nat} {r : StreamRun} {outs : List Span} (hs : Follows s₀ s) :
    Follows s₀ (s.micaNext c u r outs) := by
  unfold State.micaNext
  split
  exact hs.setMica.setUnit

theorem Follows.streamDone {c : Nat} {u : Nat} (hs : Follows s₀ s) : Follows s₀ (s.streamDone c u) := by
  unfold State.streamDone
  exact hs.endRun.bump

theorem Follows.streamWaits {c : Nat} {u : Nat} {r : StreamRun} (hs : Follows s₀ s) :
    Follows s₀ (s.streamWaits c u r) := by
  unfold State.streamWaits
  exact hs.setUnit

theorem Follows.micaStep {c : Nat} {u : Nat} {op : Nat} {corr : Nat} {bad : Nat} {t : Nat} {f : State → BitVec 128 → StreamRun → MicaRes}
    (hs : Follows s₀ s) (hf : ∀ t x1 x2, Follows s₀ t → MicaFollows s₀ (f t x1 x2)) :
    AnsFollows s₀ (s.micaStep c u op corr bad t f) := by
  unfold State.micaStep
  refine AnsFollows.onUnit ?_
  extract_lets +onlyGivenNames t1
  have h2 : Follows s₀ t1 := hs.airTime
  clear_value t1
  split
  · exact h2
  · extract_lets +onlyGivenNames t3
    refine Follows.ite ?_ ?_
    · exact h2.failStream
    · refine Follows.ite ?_ ?_
      · exact h2.failStream
      · split
        · exact h2.failStream
        · extract_lets +onlyGivenNames t4
          refine Follows.ite ?_ ?_
          · exact h2
          · refine Follows.ite ?_ ?_
            · extract_lets +onlyGivenNames t5 t6
              have h7 : Follows s₀ t6 := by
                refine Follows.sat ?_
                refine Follows.ite ?_ ?_
                · exact h2.setMica
                · exact h2
              clear_value t6
              extract_lets +onlyGivenNames t8
              have h9 : Follows s₀ t8 := h7.sat.wr.flag
              clear_value t8
              exact h9.strike.failStream
            · extract_lets +onlyGivenNames t10
              have h11 : Follows s₀ t10 := h2.micaBegin
              clear_value t10
              refine Follows.ite ?_ ?_
              · exact h11.failStream
              · split
                · exact h11.failStream
                · exact h11.streamWaits
                · exact (MicaFollows.of_ends (by assumption) (hf _ _ _ h11)).streamDone
                · exact (MicaFollows.of_done (by assumption) (hf _ _ _ h11)).micaNext

theorem Follows.micaDone {c : Nat} {u : Nat} {m : MicaState} {sat : Nat} (hs : Follows s₀ s) :
    MicaFollows s₀ (s.micaDone c u m sat) := by
  unfold State.micaDone
  exact MicaFollows.done hs.setMica.sat

theorem Follows.vectorOut {c : Nat} {u : Nat} {e : BitVec 128} {f : MicaState → Nat → Int × Int} (hs : Follows s₀ s) :
    MicaFollows s₀ (s.vectorOut c u e f) := by
  unfold State.vectorOut
  extract_lets +onlyGivenNames t1 t2
  exact hs.micaDone

theorem execVld_follows {c : Nat} {u : Nat} {corr : Nat} {bad : Nat} {t : Nat} (hs : Follows s₀ s) :
    AnsFollows s₀ (execVld c u corr bad t s) := by
  unfold execVld
  refine Follows.micaStep ?_ ?_
  · exact hs
  · intro _ _ _ h1
    extract_lets +onlyGivenNames t2
    refine MicaFollows.ite ?_ ?_
    · exact MicaFollows.fails
    · split
      · exact MicaFollows.fails
      · exact h1.micaDone

theorem execVst_follows {c : Nat} {u : Nat} {corr : Nat} {bad : Nat} {t : Nat} (hs : Follows s₀ s) :
    AnsFollows s₀ (execVst c u corr bad t s) := by
  unfold execVst
  refine Follows.micaStep ?_ ?_
  · exact hs
  · intro _ _ _ h1
    extract_lets +onlyGivenNames t2
    refine MicaFollows.ite ?_ ?_
    · exact MicaFollows.fails
    · split
      · exact MicaFollows.fails
      · extract_lets +onlyGivenNames t3
        have h4 : Follows s₀ t3 := by
          refine Follows.each ?_ ?_
          · exact h1.setMica
          · intro _ _ h5
            exact h5.setNum
        clear_value t3
        exact MicaFollows.done h4

theorem execVadd_follows {c : Nat} {u : Nat} {corr : Nat} {bad : Nat} {t : Nat} (hs : Follows s₀ s) :
    AnsFollows s₀ (execVadd c u corr bad t s) := by
  unfold execVadd
  refine Follows.micaStep ?_ ?_
  · exact hs
  · intro _ _ _ h1
    refine MicaFollows.ite ?_ ?_
    · exact MicaFollows.fails
    · exact h1.vectorOut

theorem execVsub_follows {c : Nat} {u : Nat} {corr : Nat} {bad : Nat} {t : Nat} (hs : Follows s₀ s) :
    AnsFollows s₀ (execVsub c u corr bad t s) := by
  unfold execVsub
  refine Follows.micaStep ?_ ?_
  · exact hs
  · intro _ _ _ h1
    refine MicaFollows.ite ?_ ?_
    · exact MicaFollows.fails
    · exact h1.vectorOut

theorem execCmul_follows {c : Nat} {u : Nat} {corr : Nat} {bad : Nat} {t : Nat} (hs : Follows s₀ s) :
    AnsFollows s₀ (execCmul c u corr bad t s) := by
  unfold execCmul
  refine Follows.micaStep ?_ ?_
  · exact hs
  · intro _ _ _ h1
    refine MicaFollows.ite ?_ ?_
    · exact MicaFollows.fails
    · exact h1.vectorOut

theorem execCmac_follows {c : Nat} {u : Nat} {corr : Nat} {bad : Nat} {t : Nat} (hs : Follows s₀ s) :
    AnsFollows s₀ (execCmac c u corr bad t s) := by
  unfold execCmac
  refine Follows.micaStep ?_ ?_
  · exact hs
  · intro _ _ _ h1
    extract_lets +onlyGivenNames t2 t3
    refine MicaFollows.ite ?_ ?_
    · exact MicaFollows.fails
    · exact h1.micaDone

theorem execAccout_follows {c u corr bad t : Nat} (hs : Follows s₀ s) : AnsFollows s₀ (execAccout c u corr bad t s) := by
  unfold execAccout
  refine hs.micaStep fun s e r h => ?_
  extract_lets a
  refine MicaFollows.ite (.fails) ?_
  split
  · have k : Follows s₀ _ := MicaFollows.of_done (by assumption) h.vectorOut
    exact .done (Follows.ite k.setMica k)
  · exact h.vectorOut

theorem execAccclr_follows {c : Nat} {u : Nat} {corr : Nat} {bad : Nat} {t : Nat} (hs : Follows s₀ s) :
    AnsFollows s₀ (execAccclr c u corr bad t s) := by
  unfold execAccclr
  refine Follows.micaStep ?_ ?_
  · exact hs
  · intro _ _ _ h1
    refine MicaFollows.ite ?_ ?_
    · exact MicaFollows.fails
    · exact h1.micaDone

theorem execMag2_follows {c : Nat} {u : Nat} {corr : Nat} {bad : Nat} {t : Nat} (hs : Follows s₀ s) :
    AnsFollows s₀ (execMag2 c u corr bad t s) := by
  unfold execMag2
  refine Follows.micaStep ?_ ?_
  · exact hs
  · intro _ _ _ h1
    extract_lets +onlyGivenNames t2
    refine MicaFollows.ite ?_ ?_
    · exact MicaFollows.fails
    · exact h1.micaDone

theorem execMinmax_follows {c : Nat} {u : Nat} {corr : Nat} {bad : Nat} {t : Nat} (hs : Follows s₀ s) :
    AnsFollows s₀ (execMinmax c u corr bad t s) := by
  unfold execMinmax
  refine Follows.micaStep ?_ ?_
  · exact hs
  · intro _ _ _ h1
    extract_lets +onlyGivenNames t2 t3 t4
    refine MicaFollows.ite ?_ ?_
    · exact MicaFollows.fails
    · refine MicaFollows.ite ?_ ?_
      · exact MicaFollows.fails
      · split
        · exact MicaFollows.fails
        · exact MicaFollows.done h1.setMica.setNum.setNum

theorem execAgset_follows {c : Nat} {u : Nat} {corr : Nat} {bad : Nat} {t : Nat} (hs : Follows s₀ s) :
    AnsFollows s₀ (execAgset c u corr bad t s) := by
  unfold execAgset
  refine Follows.micaStep ?_ ?_
  · exact hs
  · intro _ _ _ h1
    extract_lets +onlyGivenNames t2 t3 t4 t5 t6 t7
    refine MicaFollows.ite ?_ ?_
    · exact MicaFollows.fails
    · exact h1.micaDone

theorem execRepeatBody_follows {c : Nat} {u : Nat} {corr : Nat} {bad : Nat} {t : Nat} (hs : Follows s₀ s) :
    AnsFollows s₀ (execRepeatBody c u corr bad t s) := by
  unfold execRepeatBody
  refine Follows.micaStep ?_ ?_
  · exact hs
  · intro _ _ _ h1
    extract_lets +onlyGivenNames t2 t3 t4 t5 t6
    refine MicaFollows.ite ?_ ?_
    · exact MicaFollows.fails
    · refine MicaFollows.ite ?_ ?_
      · exact MicaFollows.fails
      · extract_lets +onlyGivenNames t7
        exact h1.micaDone

theorem execWaitCounter_follows {c : Nat} {u : Nat} {corr : Nat} {bad : Nat} {t : Nat} (hs : Follows s₀ s) :
    AnsFollows s₀ (execWaitCounter c u corr bad t s) := by
  unfold execWaitCounter
  refine Follows.micaStep ?_ ?_
  · exact hs
  · intro _ _ _ h1
    refine MicaFollows.ite ?_ ?_
    · exact MicaFollows.fails
    · refine MicaFollows.ite ?_ ?_
      · exact MicaFollows.done h1
      · exact MicaFollows.waits

theorem execSignalCounter_follows {c : Nat} {u : Nat} {corr : Nat} {bad : Nat} {t : Nat} (hs : Follows s₀ s) :
    AnsFollows s₀ (execSignalCounter c u corr bad t s) := by
  unfold execSignalCounter
  refine Follows.micaStep ?_ ?_
  · exact hs
  · intro _ _ _ h1
    refine MicaFollows.ite ?_ ?_
    · exact MicaFollows.fails
    · exact MicaFollows.done h1.radioCount

theorem execEndStream_follows {c : Nat} {u : Nat} {corr : Nat} {bad : Nat} {t : Nat} (hs : Follows s₀ s) :
    AnsFollows s₀ (execEndStream c u corr bad t s) := by
  unfold execEndStream
  refine Follows.micaStep ?_ ?_
  · exact hs
  · intro _ _ _ h1
    refine MicaFollows.ite ?_ ?_
    · exact MicaFollows.fails
    · exact MicaFollows.ends h1

end Sys2Proof.Machine
end

