-- ==== Sys2Proof/Laws/Follows/Engines.lean ====
section
/-! SUPPORT. What the operations and meanings of Machine/Engines.lean do to the state as a whole (`Follows`). -/

namespace Sys2Proof.Machine

variable {s₀ s : State}

/-- A result of an engine's descriptor whose state, if it has one, follows `s₀`. -/
def EngFollows (s₀ : State) : EngineRes → Prop
  | .error _ => True
  | .ok p => Follows s₀ p.1

theorem EngFollows.ite {c : Prop} [Decidable c] {a b : EngineRes} (ha : EngFollows s₀ a) (hb : EngFollows s₀ b) :
    EngFollows s₀ (if c then a else b) := by
  split <;> assumption

theorem EngFollows.error {code : Nat} : EngFollows s₀ (.error code) := trivial

theorem EngFollows.ok {p : State × List Span} (h : Follows s₀ p.1) : EngFollows s₀ (.ok p) := h

theorem EngFollows.of_ok {r : EngineRes} {t : State} {l : List Span} (e : r = .ok (t, l)) (h : EngFollows s₀ r) :
    Follows s₀ t := by
  subst e
  exact h

theorem Follows.engineNext {c : Nat} {u : Nat} {d : Desc} {r : StreamRun} {outs : List Span} (hs : Follows s₀ s) :
    Follows s₀ (s.engineNext c u d r outs) := by
  unfold State.engineNext
  extract_lets +onlyGivenNames t1
  have h2 : Follows s₀ t1 := by
    refine Follows.ite ?_ ?_
    · exact hs.radioCount
    · exact hs
  clear_value t1
  refine Follows.ite ?_ ?_
  · exact h2.streamDone
  · exact h2.setUnit

theorem Follows.dmaFault {c : Nat} {code : Nat} {d : Desc} (hs : Follows s₀ s) : Follows s₀ (s.dmaFault c code d) := by
  unfold State.dmaFault
  refine Follows.ite ?_ ?_
  · exact hs
  · split
    · exact hs.vaultBad
    · exact hs

theorem Follows.engineStep {c : Nat} {u : Nat} {kind : Nat} {kinds : Nat} {corr : Nat} {bad : Nat} {t : Nat} {f : State → Desc → StreamRun → EngineRes}
    (hs : Follows s₀ s) (hf : ∀ t x1 x2, Follows s₀ t → EngFollows s₀ (f t x1 x2)) :
    AnsFollows s₀ (s.engineStep c u kind kinds corr bad t f) := by
  unfold State.engineStep
  refine AnsFollows.onUnit ?_
  extract_lets +onlyGivenNames t1
  have h2 : Follows s₀ t1 := hs.airTime
  clear_value t1
  split
  · exact h2
  · extract_lets +onlyGivenNames t3
    refine Follows.ite ?_ ?_
    · exact h2.failStream
    · refine Follows.ite ?_ ?_
      · exact h2.failStream
      · refine Follows.ite ?_ ?_
        · exact h2.failStream
        · extract_lets +onlyGivenNames t4 t5 t6
          refine Follows.ite ?_ ?_
          · exact h2
          · refine Follows.ite ?_ ?_
            · exact h2.streamWaits
            · extract_lets +onlyGivenNames t7
              have h8 : Follows s₀ t7 := h2.sat
              clear_value t7
              refine Follows.ite ?_ ?_
              · extract_lets +onlyGivenNames t9
                have h10 : Follows s₀ t9 := h8.sat.wr.flag
                clear_value t9
                exact h10.strike.failStream
              · refine Follows.ite ?_ ?_
                · exact h8.failStream
                · refine Follows.ite ?_ ?_
                  · exact h8.failStream
                  · split
                    · exact h8.sat
                    · exact h8.dmaFault.failStream
                    · exact (EngFollows.of_ok (by assumption) (hf _ _ _ h8)).engineNext

theorem Follows.ldpcBlock {c : Nat} {b : LdpcBody} {i : Nat} (hs : Follows s₀ s) : Follows s₀ (s.ldpcBlock c b i) := by
  unfold State.ldpcBlock
  extract_lets +onlyGivenNames t1
  split
  extract_lets +onlyGivenNames t2 t3 t4
  have h5 : Follows s₀ t4 := hs.setNum
  clear_value t4
  extract_lets +onlyGivenNames t6
  have h7 : Follows s₀ t6 := h5.setNum.setNum
  clear_value t6
  extract_lets +onlyGivenNames t8
  have h9 : Follows s₀ t8 := h7.bump.bump
  clear_value t8
  refine Follows.iff ?_ ?_
  · refine Follows.iff ?_ ?_
    · exact h9
    · intro _ h10
      exact h10.sat
  · intro _ h11
    exact h11.sat

theorem execLdpcDecode_follows {c : Nat} {corr : Nat} {bad : Nat} {t : Nat} (hs : Follows s₀ s) :
    AnsFollows s₀ (execLdpcDecode c corr bad t s) := by
  unfold execLdpcDecode
  refine Follows.engineStep ?_ ?_
  · exact hs
  · intro _ _ _ h1
    extract_lets +onlyGivenNames t2 t3
    split
    · exact EngFollows.error
    · refine EngFollows.ok ?_
      refine Follows.each ?_ ?_
      · exact h1
      · intro _ _ h4
        exact h4.ldpcBlock

theorem execLdpcEncode_follows {c : Nat} {corr : Nat} {bad : Nat} {t : Nat} (hs : Follows s₀ s) :
    AnsFollows s₀ (execLdpcEncode c corr bad t s) := by
  unfold execLdpcEncode
  refine Follows.engineStep ?_ ?_
  · exact hs
  · intro _ _ _ h1
    extract_lets +onlyGivenNames t2 t3 t4
    split
    · exact EngFollows.error
    · refine EngFollows.ok ?_
      refine Follows.each ?_ ?_
      · exact h1
      · intro _ _ h5
        exact h5.setNum

theorem execPolarDecode_follows {c : Nat} {corr : Nat} {bad : Nat} {t : Nat} (hs : Follows s₀ s) :
    AnsFollows s₀ (execPolarDecode c corr bad t s) := by
  unfold execPolarDecode
  refine Follows.engineStep ?_ ?_
  · exact hs
  · intro _ _ _ h1
    extract_lets +onlyGivenNames t2 t3 t4 t5
    split
    · exact EngFollows.error
    · split
      extract_lets +onlyGivenNames t6 t7
      exact EngFollows.ok h1.setNum.setNum

theorem execPolarEncode_follows {c : Nat} {corr : Nat} {bad : Nat} {t : Nat} (hs : Follows s₀ s) :
    AnsFollows s₀ (execPolarEncode c corr bad t s) := by
  unfold execPolarEncode
  refine Follows.engineStep ?_ ?_
  · exact hs
  · intro _ _ _ h1
    extract_lets +onlyGivenNames t2 t3 t4 t5
    split
    · exact EngFollows.error
    · exact EngFollows.ok h1.setNum

theorem Follows.fftDesc {c : Nat} {inverse : Bool} {d : Desc} {r : StreamRun} (hs : Follows s₀ s) :
    EngFollows s₀ (s.fftDesc c inverse d r) := by
  unfold State.fftDesc
  extract_lets +onlyGivenNames t1 t2 t3 t4 t5 t6 t7 t8 t9 t10
  split
  · exact EngFollows.error
  · refine EngFollows.ok ?_
    refine Follows.each ?_ ?_
    · exact hs
    · intro _ _ h11
      split
      exact h11.setNum.setNum

theorem execFftForward_follows {c : Nat} {corr : Nat} {bad : Nat} {t : Nat} (hs : Follows s₀ s) :
    AnsFollows s₀ (execFftForward c corr bad t s) := by
  unfold execFftForward
  refine Follows.engineStep ?_ ?_
  · exact hs
  · intro _ _ _ h1
    exact h1.fftDesc

theorem execFftInverse_follows {c : Nat} {corr : Nat} {bad : Nat} {t : Nat} (hs : Follows s₀ s) :
    AnsFollows s₀ (execFftInverse c corr bad t s) := by
  unfold execFftInverse
  refine Follows.engineStep ?_ ?_
  · exact hs
  · intro _ _ _ h1
    exact h1.fftDesc

theorem execPrachCorrelate_follows {c : Nat} {corr : Nat} {bad : Nat} {t : Nat} (hs : Follows s₀ s) :
    AnsFollows s₀ (execPrachCorrelate c corr bad t s) := by
  unfold execPrachCorrelate
  refine Follows.engineStep ?_ ?_
  · exact hs
  · intro _ _ _ h1
    split
    extract_lets +onlyGivenNames t2 t3 t4 t5 t6 t7 t8 t9 t10
    split
    · exact EngFollows.error
    · extract_lets +onlyGivenNames t11
      refine EngFollows.ok ?_
      refine Follows.each ?_ ?_
      · exact h1
      · intro _ _ h12
        exact h12.setNum

theorem Follows.peakDelta {a : Nat} {pk : Nat} {b : Nat} (hs : Follows s₀ s) : Follows s₀ (s.peakDelta a pk b).1 := by
  unfold State.peakDelta
  split
  · exact hs
  · split
    rename_i e2
    have h1 : Follows s₀ _ := Follows.of_pair2 e2 hs.drawWord
    exact h1

theorem Follows.tellPreamble {c : Nat} {l : Nat} {args : List Nat} (hs : Follows s₀ s) :
    Follows s₀ (s.tellPreamble c l args) := by
  unfold State.tellPreamble
  split
  · exact hs.fapi
  · exact hs

theorem Follows.prachZone {c : Nat} {g : PrachRun} {n : Nat} {z : Nat × Nat} (hs : Follows s₀ s) :
    Follows s₀ (s.prachZone c g n z).1 := by
  unfold State.prachZone
  extract_lets +onlyGivenNames t1 t2 t3
  refine Follows.ite1 ?_ ?_
  · exact hs
  · split
    · exact hs
    · exact hs.sat
    · exact hs.sat
    · extract_lets +onlyGivenNames t4
      split
      rename_i e6
      have h5 : Follows s₀ _ := Follows.of_pair1 e6 hs.peakDelta
      extract_lets +onlyGivenNames t7 t8 t9
      have h10 : Follows s₀ t9 := h5.setBytes.sat
      clear_value t9
      exact h10.tellPreamble

theorem execPrachDetect_follows {c corr bad t : Nat} (hs : Follows s₀ s) :
    AnsFollows s₀ (execPrachDetect c corr bad t s) := by
  unfold execPrachDetect
  refine hs.engineStep fun s d r h => ?_
  split
  extract_lets
  split
  · exact EngFollows.error
  · split
    rename_i e
    refine EngFollows.ok (Follows.setBytes (Follows.of_pair1 e (Follows.foldl1 h fun p z k => k.prachZone)))

theorem Follows.dmaVault {c : Nat} {toSram : Bool} {d : Desc} {r : StreamRun} (hs : Follows s₀ s) :
    EngFollows s₀ (s.dmaVault c toSram d r) := by
  unfold State.dmaVault
  extract_lets +onlyGivenNames t1 t2 t3
  split
  · exact EngFollows.error
  · refine EngFollows.ite ?_ ?_
    · exact EngFollows.error
    · refine EngFollows.ite ?_ ?_
      · refine EngFollows.ite ?_ ?_
        · exact EngFollows.error
        · exact EngFollows.ok hs.setBytes
      · exact EngFollows.ok hs.hStore

theorem Follows.dmaTile {c : Nat} {toSram : Bool} {d : Desc} {r : StreamRun} (hs : Follows s₀ s) :
    EngFollows s₀ (s.dmaTile c toSram d r) := by
  unfold State.dmaTile
  extract_lets +onlyGivenNames t1 t2 t3 t4
  clear_value t4
  split
  · exact EngFollows.error
  · refine EngFollows.ite ?_ ?_
    · exact EngFollows.error
    · refine EngFollows.ite ?_ ?_
      · exact EngFollows.ok hs.setBytes
      · exact EngFollows.ok hs.setBytes
  · exact EngFollows.error

theorem Follows.dmaCounts {c : Nat} {vcorr : Nat} {d : Desc} (hs : Follows s₀ s) :
    Follows s₀ (s.dmaCounts c vcorr d) := by
  unfold State.dmaCounts
  split
  · exact hs.sat
  · exact hs

theorem execDmaVaultToSram_follows {c corr bad vcorr t : Nat} (hs : Follows s₀ s) :
    AnsFollows s₀ (execDmaVaultToSram c corr bad t s vcorr) := by
  unfold execDmaVaultToSram
  refine hs.engineStep fun s d r h => ?_
  have k := h.dmaVault (c := c) (toSram := true) (d := d) (r := r)
  cases e : s.dmaVault c true d r with
  | error _ => exact EngFollows.error
  | ok p => exact EngFollows.ok (Follows.dmaCounts (by rw [e] at k; exact k))

theorem execDmaSramToVault_follows {c : Nat} {corr : Nat} {bad : Nat} {t : Nat} (hs : Follows s₀ s) :
    AnsFollows s₀ (execDmaSramToVault c corr bad t s) := by
  unfold execDmaSramToVault
  refine Follows.engineStep ?_ ?_
  · exact hs
  · intro _ _ _ h1
    exact h1.dmaVault

theorem execDmaTileToCluster_follows {c : Nat} {corr : Nat} {bad : Nat} {t : Nat} (hs : Follows s₀ s) :
    AnsFollows s₀ (execDmaTileToCluster c corr bad t s) := by
  unfold execDmaTileToCluster
  refine Follows.engineStep ?_ ?_
  · exact hs
  · intro _ _ _ h1
    exact h1.dmaTile

theorem execDmaClusterToTile_follows {c : Nat} {corr : Nat} {bad : Nat} {t : Nat} (hs : Follows s₀ s) :
    AnsFollows s₀ (execDmaClusterToTile c corr bad t s) := by
  unfold execDmaClusterToTile
  refine Follows.engineStep ?_ ?_
  · exact hs
  · intro _ _ _ h1
    exact h1.dmaTile

end Sys2Proof.Machine
end

