-- ==== Sys2Proof/Laws/Follows/RegAccess.lean ====
section
/-! SUPPORT. What the operations and meanings of Machine/RegAccess.lean do to the state as a whole (`Follows`). -/

namespace Sys2Proof.Machine

variable {s₀ s : State}

theorem Follows.turnedAway {who : Sender} {a : Nat} (hs : Follows s₀ s) : Follows s₀ (s.turnedAway who a) := by
  unfold State.turnedAway
  refine Follows.ite ?_ ?_
  · exact hs
  · exact hs.windowErr

theorem Follows.putReg {x : RegAt} {a : Nat} {value : Nat} (hs : Follows s₀ s) : Follows s₀ (s.putReg x a value) := by
  unfold State.putReg
  exact hs.wrWord

theorem Follows.drivePins (hs : Follows s₀ s) : Follows s₀ (s.drivePins) := by
  unfold State.drivePins
  extract_lets +onlyGivenNames t1
  exact hs.emit

theorem Follows.oddRequest {x : RegAt} {value : Nat} {t : State} (h : s.oddRequest x value = some t) (hs : Follows s₀ s) :
    Follows s₀ t := by
  unfold State.oddRequest at h
  extract_lets at h
  repeat' split at h
  all_goals cases h
  all_goals first | exact hs | exact hs.memGo | exact hs.reqGo | exact hs.sliceResult

theorem Follows.liveActed {x : RegAt} {value : Nat} (hs : Follows s₀ s) : Follows s₀ (s.liveActed x value) := by
  unfold State.liveActed
  extract_lets +onlyGivenNames t1
  refine Follows.ite ?_ ?_
  · exact hs.showCq
  · refine Follows.ite ?_ ?_
    · refine Follows.iff ?_ ?_
      · exact hs
      · intro _ h2
        exact h2.flag
    · refine Follows.ite ?_ ?_
      · refine Follows.iff ?_ ?_
        · exact hs
        · intro _ h3
          exact h3.rejectStrata
      · refine Follows.ite ?_ ?_
        · exact hs.drivePins
        · exact hs

theorem Follows.regWrite {x : RegAt} {a value : Nat} (hs : Follows s₀ s) : Follows s₀ (s.regWrite x a value) := by
  unfold State.regWrite
  extract_lets
  refine Follows.ite hs (Follows.ite hs.windowErr ?_)
  split
  · exact Follows.oddRequest (by assumption) hs
  · exact Follows.ite hs.wr hs.putReg.liveActed

theorem execRegisterWrite_follows {who : Sender} {a : Nat} {width : Nat} {value : Nat} {t : Nat} (hs : Follows s₀ s) :
    AnsFollows s₀ (execRegisterWrite who a width value t s) := by
  unfold execRegisterWrite
  refine AnsFollows.next ?_
  extract_lets +onlyGivenNames t1
  have h2 : Follows s₀ t1 := hs.atTime
  clear_value t1
  split
  · exact h2.turnedAway
  · exact h2.regWrite

theorem Follows.regRead {x : RegAt} {a : Nat} (hs : Follows s₀ s) : Follows s₀ (s.regRead x a) := by
  unfold State.regRead
  extract_lets +onlyGivenNames t1 t2
  have h3 : Follows s₀ t2 := hs.emit
  clear_value t2
  refine Follows.ite ?_ ?_
  · exact h3.wrWord
  · exact h3

theorem execRcRead_follows {who : Sender} {a : Nat} {width : Nat} {t : Nat} (hs : Follows s₀ s) :
    AnsFollows s₀ (execRcRead who a width t s) := by
  unfold execRcRead
  refine AnsFollows.next ?_
  extract_lets +onlyGivenNames t1
  have h2 : Follows s₀ t1 := hs.atTime.settleStop.passStop
  clear_value t1
  split
  · exact h2.turnedAway.emit
  · exact h2.regRead

theorem execWindowAccessError_follows {who : Sender} {a : Nat} {width : Nat} {write : Bool} {t : Nat}
    (hs : Follows s₀ s) :
    AnsFollows s₀ (execWindowAccessError who a width write t s) := by
  unfold execWindowAccessError
  refine AnsFollows.next ?_
  extract_lets +onlyGivenNames t1
  have h2 : Follows s₀ t1 := hs.atTime
  clear_value t1
  extract_lets +onlyGivenNames t3
  have h4 : Follows s₀ t3 := by
    refine Follows.ite ?_ ?_
    · exact h2
    · exact h2.emit
  clear_value t3
  split
  · exact h4.turnedAway
  · refine Follows.ite ?_ ?_
    · exact h2.windowErr
    · exact h2

theorem execPlaneViolationDrop_follows {plane : Nat} {stop : Nat} {t : Nat} (hs : Follows s₀ s) :
    AnsFollows s₀ (execPlaneViolationDrop plane stop t s) := by
  unfold execPlaneViolationDrop
  refine AnsFollows.onUnit ?_
  extract_lets +onlyGivenNames t1
  have h2 : Follows s₀ t1 := hs.atTime
  clear_value t1
  refine Follows.ite ?_ ?_
  · exact h2
  · exact h2.sat

theorem Follows.stateOf {r : Ans} (hs : Follows s₀ s) (hr : AnsFollows s₀ r) : Follows s₀ (stateOf s r) := by
  unfold Machine.stateOf
  split
  · exact hr _ rfl
  · exact hs

theorem Follows.sliceCommand {x off value n : Nat} {r : RegAt} {t : State} (h : s.sliceCommand x r off value n = some t)
    (hs : Follows s₀ s) : Follows s₀ t := by
  unfold State.sliceCommand at h
  extract_lets at h
  repeat' split at h
  all_goals cases h
  all_goals first
    | exact hs.memGo
    | exact hs.reqGo
    | exact hs.stateOf (execJqDoorbell_follows hs)
    | exact hs.stateOf (execJqFlush_follows hs)
    | exact hs.stateOf (execCgCommit_follows hs)
    | exact hs.stateOf (execCgDiscard_follows hs)
    | exact hs.stateOf (execSliceExtend_follows hs)
    | exact hs.stateOf (execSeqEntryWrite_follows hs)

theorem execBar2Access_follows {pasid off width : Nat} {w : Option Nat} {t : Nat} (hs : Follows s₀ s) :
    AnsFollows s₀ (execBar2Access pasid off width w t s) := by
  unfold execBar2Access
  refine AnsFollows.next ?_
  extract_lets +onlyGivenNames u
  have h : Follows s₀ u := hs.atTime
  clear_value u
  extract_lets a away
  have ha : Follows s₀ (away u) := Follows.ite h.windowErr.emit h.windowErr
  refine Follows.ite h ?_
  split
  · exact ha
  · split
    · exact ha
    · split
      · exact h.regRead
      · cases hc : u.sliceCommand _ _ _ _ _ with
        | none => exact h.regWrite
        | some t => exact Follows.sliceCommand hc h

end Sys2Proof.Machine
end

