-- ==== Sys2Proof/Laws/Follows/TileArray.lean ====
section
/-! SUPPORT. What the operations and meanings of Machine/TileArray.lean do to the state as a whole (`Follows`). -/

namespace Sys2Proof.Machine

variable {s₀ s : State}

theorem Follows.capture {site : Nat} {e : QEntry} {seam : Bool} {compat : Bool} {inputs : List Byte} {rows : List Nat}
    (hs : Follows s₀ s) :
    Follows s₀ (s.capture site e seam compat inputs rows) := by
  unfold State.capture
  refine Follows.ite ?_ ?_
  · exact hs
  · refine Follows.ite ?_ ?_
    · exact hs.sat
    · extract_lets +onlyGivenNames t1 t2 t3
      have h4 : Follows s₀ t3 := hs.upd
      clear_value t3
      exact h4.sat.wr

theorem Follows.putMat {site : Nat} {o : MatOp} {l : List Nat} (hs : Follows s₀ s) :
    Follows s₀ (s.putMat site o l) := by
  unfold State.putMat
  refine Follows.each ?_ ?_
  · exact hs
  · intro _ _ h1
    exact h1.setAcc

theorem Follows.beginRows {site : Nat} {r : RowRun} (hs : Follows s₀ s) : Follows s₀ (s.beginRows site r) := by
  unfold State.beginRows
  extract_lets +onlyGivenNames t1
  have h2 : Follows s₀ t1 := hs.tallyGap
  clear_value t1
  extract_lets +onlyGivenNames t3
  exact h2.setTile.wr

theorem Follows.fillBanks {site : Nat} {o : MatOp} {k : Nat} (hs : Follows s₀ s) :
    Follows s₀ (s.fillBanks site o k) := by
  unfold State.fillBanks
  extract_lets +onlyGivenNames t1 t2 t3
  split
  refine Follows.iff ?_ ?_
  · exact hs.setTile
  · intro _ h4
    exact h4.wr

theorem matmulPlan_follows {site q cyc par : Nat} {sampled : Bool} {j : TileJob} {i : Inst} :
    (s.matmulPlan site q cyc par sampled j i).follows :=
  fun _ _ h => ⟨(h.putMat.fillBanks.beginRows).iff fun _ k => k.capture, h.iff fun _ k => k.setTile⟩

theorem execMatmul_follows {site q cyc par : Nat} {sampled : Bool} (hs : Follows s₀ s) : AnsFollows s₀ (execMatmul site q cyc par sampled s) :=
  AnsFollows.onUnit (hs.issue fun _ _ => .ite (.some matmulPlan_follows) .none)

theorem accReadPlan_follows {site q cyc : Nat} {j : TileJob} {i : Inst} : (s.accReadPlan site q cyc j i).follows := fun _ _ h => ⟨h, h⟩

theorem accLoadPlan_follows {site q cyc : Nat} {j : TileJob} {i : Inst} : (s.accLoadPlan site q cyc j i).follows := fun _ _ h => ⟨h.each fun _ _ k => k.setAcc, h⟩

theorem meets_follows {p : Plan} {par : Nat} (h : p.follows) : (p.meets par).follows := h

theorem portPlan_follows {site q cyc par : Nat} {j : TileJob} {i : Inst} : PlanFollows (s.portPlan site q cyc par j i) := by
  unfold State.portPlan
  split
  · exact .some (meets_follows accReadPlan_follows)
  · exact .some accLoadPlan_follows
  · exact .none

theorem execAccRead_follows {site q cyc par : Nat} (hs : Follows s₀ s) : AnsFollows s₀ (execAccRead site q cyc par s) :=
  AnsFollows.onUnit (hs.issue fun _ _ => portPlan_follows)

theorem execAccLoad_follows {site q cyc : Nat} (hs : Follows s₀ s) : AnsFollows s₀ (execAccLoad site q cyc s) :=
  AnsFollows.onUnit (hs.issue fun _ _ => portPlan_follows)

theorem execShapingInterval_follows {site : Nat} {cyc : Nat} (hs : Follows s₀ s) :
    AnsFollows s₀ (execShapingInterval site cyc s) := by
  unfold execShapingInterval
  refine AnsFollows.onUnit ?_
  extract_lets +onlyGivenNames t1
  have h2 : Follows s₀ t1 := hs.showEngines
  clear_value t1
  extract_lets +onlyGivenNames t3
  refine Follows.ite ?_ ?_
  · exact h2.tallyRows
  · refine Follows.ite ?_ ?_
    · exact h2
    · extract_lets +onlyGivenNames t4 t5
      have h6 : Follows s₀ t5 := by
        refine Follows.iff ?_ ?_
        · exact h2.tallyGap
        · intro _ h7
          exact h7.sampleShaping
      clear_value t5
      extract_lets +onlyGivenNames t8 t9 t10 t11
      have h12 : Follows s₀ t11 := h6.setTile
      clear_value t11
      extract_lets +onlyGivenNames t13 t14
      have h15 : Follows s₀ t14 := h12.wr
      clear_value t14
      extract_lets +onlyGivenNames t16
      have h17 : Follows s₀ t16 := by
        refine Follows.ite ?_ ?_
        · exact h15
        · exact h15.wr
      clear_value t16
      extract_lets +onlyGivenNames t18
      refine Follows.iff ?_ ?_
      · refine Follows.showScrub ?_
        refine Follows.iff ?_ ?_
        · exact h17
        · intro _ h19
          exact h19.wr
      · intro _ h20
        exact h20.decision

end Sys2Proof.Machine
end

