-- ==== Sys2Proof/Laws/Follows/TileMove.lean ====
section
/-! SUPPORT. What the operations and meanings of Machine/TileMove.lean do to the state as a whole (`Follows`). -/

namespace Sys2Proof.Machine

variable {s₀ s : State}

theorem xferPlan_follows {site q : Nat} {out : Bool} {j : TileJob} {i : Inst} : (s.xferPlan site q out j i).follows :=
  fun _ _ h => ⟨h.offer.setTile, h⟩

theorem Follows.xfer {site q cyc : Nat} {out : Bool} (hs : Follows s₀ s) : Follows s₀ (s.xfer site q cyc out) :=
  hs.issue fun _ _ => .some xferPlan_follows

theorem execXferToSram_follows {site : Nat} {q : Nat} {cyc : Nat} (hs : Follows s₀ s) :
    AnsFollows s₀ (execXferToSram site q cyc s) := by
  unfold execXferToSram
  exact AnsFollows.onUnit hs.xfer

theorem execXferToMemory_follows {site : Nat} {q : Nat} {cyc : Nat} (hs : Follows s₀ s) :
    AnsFollows s₀ (execXferToMemory site q cyc s) := by
  unfold execXferToMemory
  exact AnsFollows.onUnit hs.xfer

theorem Follows.leaveXfer {site : Nat} {cyc : Nat} {r : XferRec} {gone : Bool} (hs : Follows s₀ s) :
    Follows s₀ (s.leaveXfer site cyc r gone) := by
  unfold State.leaveXfer
  refine Follows.ite ?_ ?_
  · exact hs
  · extract_lets +onlyGivenNames t1
    exact hs.setTile.landPackets

theorem Follows.dmaBytes {eng : Nat} {n : Nat} (hs : Follows s₀ s) : Follows s₀ (s.dmaBytes eng n) := by
  unfold State.dmaBytes
  refine Follows.ite ?_ ?_
  · exact hs
  · refine Follows.ite ?_ ?_
    · exact hs.bump
    · exact hs.bump

theorem Follows.moveXfer {site : Nat} {h : Nat} {r : XferRec} (hs : Follows s₀ s) :
    Follows s₀ (s.moveXfer site h r) := by
  unfold State.moveXfer
  extract_lets +onlyGivenNames t1
  have h2 : Follows s₀ t1 := hs.dmaBytes
  clear_value t1
  refine Follows.ite ?_ ?_
  · exact h2.hStore
  · refine Follows.iff ?_ ?_
    · exact h2.setBytes
    · intro _ h3
      exact h3.touch

theorem Follows.xferCorr {site : Nat} {h : Nat} {r : XferRec} {corr : Nat} (hs : Follows s₀ s) :
    Follows s₀ (s.xferCorr site h r corr) := by
  unfold State.xferCorr
  refine Follows.ite ?_ ?_
  · exact hs.sat
  · split
    · exact hs.sat
    · exact hs

theorem execXferArrival_follows {site : Nat} {q : Nat} {index : Nat} {cyc : Nat} {corr : Nat} (hs : Follows s₀ s) :
    AnsFollows s₀ (execXferArrival site q index cyc s corr) := by
  unfold execXferArrival
  refine AnsFollows.onUnit ?_
  split
  · refine Follows.ite ?_ ?_
    · exact hs.leaveXfer.staleDrop
    · refine Follows.ite ?_ ?_
      · exact hs
      · extract_lets +onlyGivenNames t1
        have h2 : Follows s₀ t1 := hs.xferCorr.moveXfer.leaveXfer
        clear_value t1
        exact h2.signal.checkStop
  · exact hs

theorem execXferFaultReport_follows {site : Nat} {q : Nat} {index : Nat} {cyc : Nat} {sram : Bool} {addr : Nat} {fab : Nat} {corr : Nat}
    (hs : Follows s₀ s) :
    AnsFollows s₀ (execXferFaultReport site q index cyc sram addr fab s corr) := by
  unfold execXferFaultReport
  refine AnsFollows.onUnit ?_
  split
  · refine Follows.ite ?_ ?_
    · exact hs.leaveXfer.staleDrop
    · extract_lets +onlyGivenNames t1 t2
      have h3 : Follows s₀ t2 := hs.xferCorr
      clear_value t2
      extract_lets +onlyGivenNames t4
      have h5 : Follows s₀ t4 := by
        refine Follows.ite ?_ ?_
        · exact h3.sramUncorr
        · split
          · refine Follows.ite ?_ ?_
            · exact h3
            · exact h3.vaultBad
          · exact h3
      clear_value t4
      extract_lets +onlyGivenNames t6
      have h7 : Follows s₀ t6 := by
        refine Follows.ite ?_ ?_
        · exact h5
        · exact h5.wr
      clear_value t6
      extract_lets +onlyGivenNames t8
      have h9 : Follows s₀ t8 := by
        refine Follows.ite ?_ ?_
        · exact h7
        · exact h7.leaveXfer.cancelXfer
      clear_value t8
      exact h9.failCmd
  · exact hs

theorem seamPlan_follows {site q cyc yields : Nat} {sampled : Bool} {j : TileJob} {i : Inst} :
    (s.seamPlan site q cyc yields sampled j i).follows :=
  fun _ _ h => ⟨(h.touch.upd.setVault.wrs).iff fun _ k => k.capture, h⟩

theorem execSeam_follows {site q cyc yields : Nat} {sampled : Bool} (hs : Follows s₀ s) : AnsFollows s₀ (execSeam site q cyc yields sampled s) :=
  AnsFollows.onUnit (hs.issue fun _ _ => .some seamPlan_follows)

end Sys2Proof.Machine
end

