-- ==== Sys2Proof/Laws/Follows/TileVec.lean ====
section
/-! SUPPORT. What the operations and meanings of Machine/TileVec.lean do to the state as a whole (`Follows`). -/

namespace Sys2Proof.Machine

variable {s₀ s : State}

theorem scaleLoadPlan_follows {site q cyc : Nat} {j : TileJob} {i : Inst} : (s.scaleLoadPlan site q cyc j i).follows := fun _ _ h => ⟨h, h⟩

theorem quantPlan_follows {site q cyc : Nat} {j : TileJob} {i : Inst} : (s.quantPlan site q cyc j i).follows := fun _ _ h => ⟨h, h⟩

theorem quantiserPlan_follows {site q cyc : Nat} {j : TileJob} {i : Inst} : PlanFollows (s.quantiserPlan site q cyc j i) := by
  unfold State.quantiserPlan
  split
  · exact .some scaleLoadPlan_follows
  · exact .some quantPlan_follows
  · exact .none

theorem execScaleLoad_follows {site q cyc : Nat} (hs : Follows s₀ s) : AnsFollows s₀ (execScaleLoad site q cyc s) :=
  AnsFollows.onUnit (hs.issue fun _ _ => quantiserPlan_follows)

theorem execQuant_follows {site q cyc : Nat} (hs : Follows s₀ s) : AnsFollows s₀ (execQuant site q cyc s) :=
  AnsFollows.onUnit (hs.issue fun _ _ => quantiserPlan_follows)

theorem vecPlan_follows {site q cyc op : Nat} {j : TileJob} {i : Inst} : (s.vecPlan site q cyc op j i).follows := fun _ _ h => ⟨h, h⟩

theorem sfuPlan_follows {site q cyc fn : Nat} {j : TileJob} {i : Inst} : (s.sfuPlan site q cyc fn j i).follows := fun _ _ h => ⟨h.wrs, h⟩

theorem Follows.sfu {site q cyc fn : Nat} (hs : Follows s₀ s) : Follows s₀ (s.sfu site q cyc fn) :=
  hs.issue fun _ _ => .ite (.some sfuPlan_follows) .none

theorem execSfuExp2_follows {site : Nat} {q : Nat} {cyc : Nat} (hs : Follows s₀ s) :
    AnsFollows s₀ (execSfuExp2 site q cyc s) := by
  unfold execSfuExp2
  exact AnsFollows.onUnit hs.sfu

theorem execSfuLog2_follows {site : Nat} {q : Nat} {cyc : Nat} (hs : Follows s₀ s) :
    AnsFollows s₀ (execSfuLog2 site q cyc s) := by
  unfold execSfuLog2
  exact AnsFollows.onUnit hs.sfu

theorem execSfuErf_follows {site : Nat} {q : Nat} {cyc : Nat} (hs : Follows s₀ s) :
    AnsFollows s₀ (execSfuErf site q cyc s) := by
  unfold execSfuErf
  exact AnsFollows.onUnit hs.sfu

theorem execSfuExp_follows {site : Nat} {q : Nat} {cyc : Nat} (hs : Follows s₀ s) :
    AnsFollows s₀ (execSfuExp site q cyc s) := by
  unfold execSfuExp
  exact AnsFollows.onUnit hs.sfu

theorem execSfuRecip_follows {site : Nat} {q : Nat} {cyc : Nat} (hs : Follows s₀ s) :
    AnsFollows s₀ (execSfuRecip site q cyc s) := by
  unfold execSfuRecip
  exact AnsFollows.onUnit hs.sfu

theorem execSfuRsqrt_follows {site : Nat} {q : Nat} {cyc : Nat} (hs : Follows s₀ s) :
    AnsFollows s₀ (execSfuRsqrt site q cyc s) := by
  unfold execSfuRsqrt
  exact AnsFollows.onUnit hs.sfu

theorem execSfuSigmoid_follows {site : Nat} {q : Nat} {cyc : Nat} (hs : Follows s₀ s) :
    AnsFollows s₀ (execSfuSigmoid site q cyc s) := by
  unfold execSfuSigmoid
  exact AnsFollows.onUnit hs.sfu

theorem execSfuSilu_follows {site : Nat} {q : Nat} {cyc : Nat} (hs : Follows s₀ s) :
    AnsFollows s₀ (execSfuSilu site q cyc s) := by
  unfold execSfuSilu
  exact AnsFollows.onUnit hs.sfu

theorem execSfuGeluErf_follows {site : Nat} {q : Nat} {cyc : Nat} (hs : Follows s₀ s) :
    AnsFollows s₀ (execSfuGeluErf site q cyc s) := by
  unfold execSfuGeluErf
  exact AnsFollows.onUnit hs.sfu

theorem execSfuGeluTanh_follows {site : Nat} {q : Nat} {cyc : Nat} (hs : Follows s₀ s) :
    AnsFollows s₀ (execSfuGeluTanh site q cyc s) := by
  unfold execSfuGeluTanh
  exact AnsFollows.onUnit hs.sfu

theorem execSoftmax_follows {site : Nat} {q : Nat} {cyc : Nat} (hs : Follows s₀ s) :
    AnsFollows s₀ (execSoftmax site q cyc s) := by
  unfold execSoftmax
  exact AnsFollows.onUnit hs.sfu

theorem normPlan_follows {site q cyc : Nat} {j : TileJob} {i : Inst} : (s.normPlan site q cyc j i).follows := fun _ _ h => ⟨h.flag, h⟩

theorem vectorPlan_follows {site q cyc : Nat} {j : TileJob} {i : Inst} : PlanFollows (s.vectorPlan site q cyc j i) := by
  unfold State.vectorPlan
  split
  · exact .some vecPlan_follows
  · exact .some normPlan_follows
  · exact .none

theorem execNorm_follows {site q cyc : Nat} (hs : Follows s₀ s) : AnsFollows s₀ (execNorm site q cyc s) :=
  AnsFollows.onUnit (hs.issue fun _ _ => vectorPlan_follows)

theorem Follows.vec {site q cyc op : Nat} (hs : Follows s₀ s) : Follows s₀ (s.vec site q cyc op) :=
  hs.issue fun _ _ => vectorPlan_follows

theorem execVecAdd_follows {site : Nat} {q : Nat} {cyc : Nat} (hs : Follows s₀ s) :
    AnsFollows s₀ (execVecAdd site q cyc s) := by
  unfold execVecAdd
  exact AnsFollows.onUnit hs.vec

theorem execVecSub_follows {site : Nat} {q : Nat} {cyc : Nat} (hs : Follows s₀ s) :
    AnsFollows s₀ (execVecSub site q cyc s) := by
  unfold execVecSub
  exact AnsFollows.onUnit hs.vec

theorem execVecMul_follows {site : Nat} {q : Nat} {cyc : Nat} (hs : Follows s₀ s) :
    AnsFollows s₀ (execVecMul site q cyc s) := by
  unfold execVecMul
  exact AnsFollows.onUnit hs.vec

theorem execVecFma_follows {site : Nat} {q : Nat} {cyc : Nat} (hs : Follows s₀ s) :
    AnsFollows s₀ (execVecFma site q cyc s) := by
  unfold execVecFma
  exact AnsFollows.onUnit hs.vec

theorem execVecMax_follows {site : Nat} {q : Nat} {cyc : Nat} (hs : Follows s₀ s) :
    AnsFollows s₀ (execVecMax site q cyc s) := by
  unfold execVecMax
  exact AnsFollows.onUnit hs.vec

theorem execVecMin_follows {site : Nat} {q : Nat} {cyc : Nat} (hs : Follows s₀ s) :
    AnsFollows s₀ (execVecMin site q cyc s) := by
  unfold execVecMin
  exact AnsFollows.onUnit hs.vec

theorem execVecAbs_follows {site : Nat} {q : Nat} {cyc : Nat} (hs : Follows s₀ s) :
    AnsFollows s₀ (execVecAbs site q cyc s) := by
  unfold execVecAbs
  exact AnsFollows.onUnit hs.vec

theorem execVecNeg_follows {site : Nat} {q : Nat} {cyc : Nat} (hs : Follows s₀ s) :
    AnsFollows s₀ (execVecNeg site q cyc s) := by
  unfold execVecNeg
  exact AnsFollows.onUnit hs.vec

theorem execVecScale2_follows {site : Nat} {q : Nat} {cyc : Nat} (hs : Follows s₀ s) :
    AnsFollows s₀ (execVecScale2 site q cyc s) := by
  unfold execVecScale2
  exact AnsFollows.onUnit hs.vec

theorem execVecCvt_follows {site : Nat} {q : Nat} {cyc : Nat} (hs : Follows s₀ s) :
    AnsFollows s₀ (execVecCvt site q cyc s) := by
  unfold execVecCvt
  exact AnsFollows.onUnit hs.vec

theorem copyPlan_follows {site q cyc : Nat} {j : TileJob} {i : Inst} : (s.copyPlan site q cyc j i).follows := fun _ _ h => ⟨h, h⟩

theorem execCopy_follows {site q cyc : Nat} (hs : Follows s₀ s) : AnsFollows s₀ (execCopy site q cyc s) :=
  AnsFollows.onUnit (hs.issue fun _ _ => .ite (.some copyPlan_follows) .none)

end Sys2Proof.Machine
end

