-- ==== Sys2Proof/Laws/Follows/Vault.lean ====
section
/-! SUPPORT. What the operations and meanings of Machine/Vault.lean do to the state as a whole (`Follows`). -/

namespace Sys2Proof.Machine

variable {s₀ s : State}

theorem Follows.relock {v : Nat} (hs : Follows s₀ s) : Follows s₀ (s.relock v) := by
  unfold State.relock
  exact hs.setVault.wr

theorem execSeamWriteWindow_follows {v : Nat} {t : Nat} (hs : Follows s₀ s) :
    AnsFollows s₀ (execSeamWriteWindow v t s) := by
  unfold execSeamWriteWindow
  refine AnsFollows.onUnit ?_
  extract_lets +onlyGivenNames t1
  have h2 : Follows s₀ t1 := hs.atTime
  clear_value t1
  extract_lets +onlyGivenNames t3 t4
  refine Follows.ite ?_ ?_
  · refine Follows.ite ?_ ?_
    · exact h2.setVault.relock.wr
    · exact h2
  · refine Follows.ite ?_ ?_
    · refine Follows.ite ?_ ?_
      · exact h2
      · exact h2.wrs
    · exact h2.setWq.relock

theorem execPortRateChange_follows {v : Nat} {t : Nat} (hs : Follows s₀ s) :
    AnsFollows s₀ (execPortRateChange v t s) := by
  unfold execPortRateChange
  refine AnsFollows.onUnit ?_
  extract_lets +onlyGivenNames t1
  have h2 : Follows s₀ t1 := hs.atTime
  clear_value t1
  extract_lets +onlyGivenNames t3 t4
  refine Follows.ite ?_ ?_
  · exact h2
  · refine Follows.ite ?_ ?_
    · refine Follows.ite ?_ ?_
      · exact h2.wrs
      · exact h2
    · refine Follows.ite ?_ ?_
      · exact h2
      · exact h2.relock

theorem execVaultRefresh_follows {v : Nat} {t : Nat} (hs : Follows s₀ s) : AnsFollows s₀ (execVaultRefresh v t s) := by
  unfold execVaultRefresh
  refine AnsFollows.onUnit ?_
  extract_lets +onlyGivenNames t1
  have h2 : Follows s₀ t1 := hs.atTime
  clear_value t1
  extract_lets +onlyGivenNames t3 t4 t5
  have h6 : Follows s₀ t5 := h2.setVault.wr
  clear_value t5
  refine Follows.iff ?_ ?_
  · exact h6
  · intro _ h7
    exact h7.bump

theorem execPatrolScrub_follows {v : Nat} {found : Nat} {t : Nat} (hs : Follows s₀ s) :
    AnsFollows s₀ (execPatrolScrub v found t s) := by
  unfold execPatrolScrub
  refine AnsFollows.onUnit ?_
  extract_lets +onlyGivenNames t1
  have h2 : Follows s₀ t1 := hs.atTime
  clear_value t1
  extract_lets +onlyGivenNames t3 t4
  have h5 : Follows s₀ t4 := by
    refine Follows.iff ?_ ?_
    · exact h2
    · intro _ h6
      exact h6.markBad
  clear_value t4
  extract_lets +onlyGivenNames t7
  have h8 : Follows s₀ t7 := by
    refine Follows.ite ?_ ?_
    · exact h5.vaultBad
    · refine Follows.iff ?_ ?_
      · exact h5
      · intro _ h9
        exact h9.sat
  clear_value t7
  extract_lets +onlyGivenNames t10
  refine Follows.iff ?_ ?_
  · exact h8.setVault
  · intro _ h11
    exact h11.bump

end Sys2Proof.Machine
end

