-- ==== Sys2Proof/Laws/Follows/Dispatch.lean ====
section
/-! SUPPORT. What the operations and meanings of Machine/Dispatch.lean do to the state as a whole (`Follows`). -/

namespace Sys2Proof.Machine

variable {s₀ s : State}

theorem exec_follows {i : Instr} (hs : Follows s₀ s) : AnsFollows s₀ (exec i s) := by
  unfold exec
  split
  · exact execColdReset_follows hs
  · exact execWarmReset_follows hs
  · exact execBrownOut_follows hs
  · exact execDevResetWarm_follows hs
  · exact execDevResetCold_follows hs
  · exact execRomDone_follows hs
  · exact execBootDone_follows hs
  · exact execBuildDone_follows hs
  · exact execRadioReadySet_follows hs
  · exact execOwnerStop_follows hs
  · exact execStopComplete_follows hs
  · exact execRegisterWrite_follows hs
  · exact execRcRead_follows hs
  · exact execWindowAccessError_follows hs
  · exact execPlaneViolationDrop_follows hs
  · exact execStrataReloadGo_follows hs
  · exact execStrataReloadAbort_follows hs
  · exact execStrataStaged_follows hs
  · exact execStrataSwitchRequest_follows hs
  · exact execStrataSwitch_follows hs
  · exact execTableBankReleased_follows hs
  · exact execDrainStall_follows hs
  · exact execCgCommit_follows hs
  · exact execCgCheckDone_follows hs
  · exact execCgAct_follows hs
  · exact execCgDiscard_follows hs
  · exact execCmdFetch_follows hs
  · exact execMatmul_follows hs
  · exact execAccRead_follows hs
  · exact execAccLoad_follows hs
  · exact execScaleLoad_follows hs
  · exact execQuant_follows hs
  · exact execVecAdd_follows hs
  · exact execVecSub_follows hs
  · exact execVecMul_follows hs
  · exact execVecFma_follows hs
  · exact execVecMax_follows hs
  · exact execVecMin_follows hs
  · exact execVecAbs_follows hs
  · exact execVecNeg_follows hs
  · exact execVecScale2_follows hs
  · exact execVecCvt_follows hs
  · exact execSfuExp2_follows hs
  · exact execSfuLog2_follows hs
  · exact execSfuErf_follows hs
  · exact execSfuExp_follows hs
  · exact execSfuRecip_follows hs
  · exact execSfuRsqrt_follows hs
  · exact execSfuSigmoid_follows hs
  · exact execSfuSilu_follows hs
  · exact execSfuGeluErf_follows hs
  · exact execSfuGeluTanh_follows hs
  · exact execSoftmax_follows hs
  · exact execNorm_follows hs
  · exact execCopy_follows hs
  · exact execXferToSram_follows hs
  · exact execXferToMemory_follows hs
  · exact execSeam_follows hs
  · exact execSync_follows hs
  · exact execLoopBody_follows hs
  · exact execStopQueue_follows hs
  · exact execBanksOn_follows hs
  · exact execBanksRetain_follows hs
  · exact execBanksOff_follows hs
  · exact execBankTransitionDone_follows hs
  · exact execCommandComplete_follows hs
  · exact execXferArrival_follows hs
  · exact execXferFaultReport_follows hs
  · exact execRemoteSignalArrival_follows hs
  · exact execShapingInterval_follows hs
  · exact execSeamWriteWindow_follows hs
  · exact execPortRateChange_follows hs
  · exact execVaultRefresh_follows hs
  · exact execPatrolScrub_follows hs
  · exact execDramTempSample_follows hs
  · exact execMemAlloc_follows hs
  · exact execMemFree_follows hs
  · exact execMemHint_follows hs
  · exact execMemMigrate_follows hs
  · exact execMemQuery_follows hs
  · exact execMoveStart_follows hs
  · exact execMigrationSwitch_follows hs
  · exact execOldRegionRelease_follows hs
  · exact execRegionZeroed_follows hs
  · exact execReleaseStall_follows hs
  · exact execJqDoorbell_follows hs
  · exact execJobStart_follows hs
  · exact execJobLaunch_follows hs
  · exact execLaunchPlanClose_follows hs
  · exact execJobBoundExpiry_follows hs
  · exact execJobEnd_follows hs
  · exact execFullScrub_follows hs
  · exact execCompletionWrite_follows hs
  · exact execJqFlush_follows hs
  · exact execAccountingPeriod_follows hs
  · exact execSeqEntryWrite_follows hs
  · exact execStepBuild_follows hs
  · exact execCheckpointReached_follows hs
  · exact execCheckpointTimeout_follows hs
  · exact execFallbackStart_follows hs
  · exact execClassicalDoneSignal_follows hs
  · exact execDeadlineExpiry_follows hs
  · exact execClaim_follows hs
  · exact execClaimComplete_follows hs
  · exact execClaimOverrun_follows hs
  · exact execClaimRelease_follows hs
  · exact execTableSeal_follows hs
  · exact execPatchWrite_follows hs
  · exact execPatchCutoff_follows hs
  · exact execTableFire_follows hs
  · exact execSlotMissed_follows hs
  · exact execEntryTrigger_follows hs
  · exact execCondAbortFire_follows hs
  · exact execTableRelease_follows hs
  · exact execFapiParam_follows hs
  · exact execFapiConfig_follows hs
  · exact execFapiStart_follows hs
  · exact execFapiStop_follows hs
  · exact execFapiDlTti_follows hs
  · exact execFapiUlTti_follows hs
  · exact execFapiUlDci_follows hs
  · exact execFapiTxData_follows hs
  · exact execFhUlPacket_follows hs
  · exact execFhWindowClose_follows hs
  · exact execRuCallHome_follows hs
  · exact execRuConfigured_follows hs
  · exact execRuSupervisionMiss_follows hs
  · exact execRuUplaneSilence_follows hs
  · exact execQueuedTriggerStart_follows hs
  · exact execVld_follows hs
  · exact execVst_follows hs
  · exact execVadd_follows hs
  · exact execVsub_follows hs
  · exact execCmul_follows hs
  · exact execCmac_follows hs
  · exact execAccout_follows hs
  · exact execAccclr_follows hs
  · exact execMag2_follows hs
  · exact execMinmax_follows hs
  · exact execAgset_follows hs
  · exact execRepeatBody_follows hs
  · exact execWaitCounter_follows hs
  · exact execSignalCounter_follows hs
  · exact execEndStream_follows hs
  · exact execLdpcDecode_follows hs
  · exact execLdpcEncode_follows hs
  · exact execPolarDecode_follows hs
  · exact execPolarEncode_follows hs
  · exact execFftForward_follows hs
  · exact execFftInverse_follows hs
  · exact execPrachCorrelate_follows hs
  · exact execPrachDetect_follows hs
  · exact execDmaVaultToSram_follows hs
  · exact execDmaSramToVault_follows hs
  · exact execDmaTileToCluster_follows hs
  · exact execDmaClusterToTile_follows hs
  · exact execTrackingIdleFree_follows hs
  · exact execPtpSyncRx_follows hs
  · exact execPtpDelayResult_follows hs
  · exact execPtpAnnounceRx_follows hs
  · exact execAnnounceTimeout_follows hs
  · exact execSyncTimeout_follows hs
  · exact execPpsEdge_follows hs
  · exact execPpsTimeout_follows hs
  · exact execTodFrameRx_follows hs
  · exact execTodPpsOutput_follows hs
  · exact execHoldoverBudgetExpiry_follows hs
  · exact execTimeCapture_follows hs
  · exact execEsmcRx_follows hs
  · exact execSynceRefFail_follows hs
  · exact execSynceWtrExpiry_follows hs
  · exact execEthRxFrame_follows hs
  · exact execTxFrameEnqueue_follows hs
  · exact execTxFrameStart_follows hs
  · exact execShaperTick_follows hs
  · exact execPolicerTick_follows hs
  · exact execGateEvent_follows hs
  · exact execGateChange_follows hs
  · exact execPortLinkUp_follows hs
  · exact execPortLinkLoss_follows hs
  · exact execFlitRx_follows hs
  · exact execNakRx_follows hs
  · exact execReplayTimeout_follows hs
  · exact execDeliveryTimeout_follows hs
  · exact execFabLinkUp_follows hs
  · exact execFabLinkDown_follows hs
  · exact execUnpark_follows hs
  · exact execHelloSend_follows hs
  · exact execHelloRx_follows hs
  · exact execLinkStateRx_follows hs
  · exact execFabLoad_follows hs
  · exact execFabStore_follows hs
  · exact execFabStoreWord_follows hs
  · exact execFabGet_follows hs
  · exact execFabPut_follows hs
  · exact execFabFetchAdd_follows hs
  · exact execFabSwap_follows hs
  · exact execFabCswap_follows hs
  · exact execFabMin_follows hs
  · exact execFabMax_follows hs
  · exact execFabInv_follows hs
  · exact execFabInvPod_follows hs
  · exact execFabInvLocal_follows hs
  · exact execFabMsg_follows hs
  · exact execFabFenceOp_follows hs
  · exact execHomeLoad_follows hs
  · exact execHomeStore_follows hs
  · exact execHomeStoreWord_follows hs
  · exact execHomeAtomic_follows hs
  · exact execHomePut_follows hs
  · exact execHomeInv_follows hs
  · exact execHomeMsg_follows hs
  · exact execHomeCreditRx_follows hs
  · exact execCairnApply_follows hs
  · exact execFabResponseRx_follows hs
  · exact execLoadRetryTimeout_follows hs
  · exact execRequestTimeout_follows hs
  · exact execAtomicRetry_follows hs
  · exact execAtomicUnknown_follows hs
  · exact execRecvSlotConsume_follows hs
  · exact execCreditReturnSend_follows hs
  · exact execMsgCreditResync_follows hs
  · exact execRlcInvAll_follows hs
  · exact execRlcInvAllDone_follows hs
  · exact execDetectorTick_follows hs
  · exact execFenceCtrlFence_follows hs
  · exact execFenceMsgRx_follows hs
  · exact execHelloSilenceSelfFence_follows hs
  · exact execRejoin_follows hs
  · exact execFenceNotice_follows hs
  · exact execFabBooksSnap_follows hs
  · exact execCreditLeak_follows hs
  · exact execSliceCreate_follows hs
  · exact execSliceOpened_follows hs
  · exact execSliceReset_follows hs
  · exact execSliceRemove_follows hs
  · exact execSliceResetDone_follows hs
  · exact execBar2Access_follows hs
  · exact execWatchdogExpiry_follows hs
  · exact execFwCoreKick_follows hs
  · exact execCoreCrash_follows hs
  · exact execCoreRestartDone_follows hs
  · exact execFwCoreRestart_follows hs
  · exact execLogAppend_follows hs
  · exact execFwLogSel_follows hs
  · exact execNotifySend_follows hs
  · exact execHbSessionOpen_follows hs
  · exact execHbSessionClose_follows hs
  · exact execHbAttach_follows hs
  · exact execHbHeartbeat_follows hs
  · exact execHeartbeatTimeout_follows hs
  · exact execSessionLostExpiry_follows hs
  · exact execPcieLinkDown_follows hs
  · exact execPcieFunctionReset_follows hs
  · exact execEnrolClaim_follows hs
  · exact execEnrolAdd_follows hs
  · exact execEnrolRevoke_follows hs
  · exact execEnrolRelease_follows hs
  · exact execSecExtend_follows hs
  · exact execSliceExtend_follows hs
  · exact execSecEvlogSel_follows hs
  · exact execReqQuote_follows hs
  · exact execReqChain_follows hs
  · exact execQuoteService_follows hs
  · exact execPowerSample_follows hs
  · exact execJunctionTempSample_follows hs
  · exact execPwrWarn_follows hs
  · exact execRailSag_follows hs
  · exact execShedStepEntry_follows hs
  · exact execRecoveryStep_follows hs
  · exact execAssayCheck_follows hs
  · exact execAssayCheckDone_follows hs
  · exact execAssaySampleTimeout_follows hs
  · exact execStrikeLogHour_follows hs
  · exact execTileRetire_follows hs
  · exact execAssayLogSel_follows hs
  · exact execThermtrip_follows hs
  · exact execAvsTimeout_follows hs
  · exact execFlashWrite_follows hs
  · exact execFlashWriteDone_follows hs
  · exact execPowerLoss_follows hs
  · exact execSagCleared_follows hs
  · exact execSlewGapClosed_follows hs
  · exact execEecLocked_follows hs
  · exact execPtpTransmit_follows hs
  · exact execEsmcTransmit_follows hs
  · exact execReplayEntryExpiry_follows hs
  · exact execLaneChargeLapse_follows hs
  · exact execLendMessageRx_follows hs
  · exact execResyncQueryRx_follows hs
  · exact execPcieLinkUp_follows hs
  · exact execPcieConfigRequest_follows hs
  · exact execAtsInvalidation_follows hs
  · exact execSlotIndication_follows hs
  · exact execRuSessionUp_follows hs
  · exact execCustomerImageLoad_follows hs
  · exact execLaunchSlackExpiry_follows hs

end Sys2Proof.Machine
end

