-- ==== Sys2Proof/Laws/State.lean ====
section
/-! SUPPORT. What each update of the state leaves in each field (by `rfl`), and reading after writing: register fields,
memory bytes, and the states of tiles, vaults, slices and tables. -/

namespace Sys2Proof.Machine

variable (s : State)

/-! Fields after an update -/

@[simp] theorem State.wr_now (f : Fld) (v : Nat) : (s.wr f v).now = s.now := rfl
@[simp] theorem State.wr_mem (f : Fld) (v : Nat) : (s.wr f v).mem = s.mem := rfl
@[simp] theorem State.wr_acc (f : Fld) (v : Nat) : (s.wr f v).acc = s.acc := rfl
@[simp] theorem State.wr_dev (f : Fld) (v : Nat) : (s.wr f v).dev = s.dev := rfl
@[simp] theorem State.wr_strata (f : Fld) (v : Nat) : (s.wr f v).strata = s.strata := rfl
@[simp] theorem State.wr_tiles (f : Fld) (v : Nat) : (s.wr f v).tiles = s.tiles := rfl
@[simp] theorem State.wr_vaults (f : Fld) (v : Nat) : (s.wr f v).vaults = s.vaults := rfl
@[simp] theorem State.wr_mm (f : Fld) (v : Nat) : (s.wr f v).mm = s.mm := rfl
@[simp] theorem State.wr_slices (f : Fld) (v : Nat) : (s.wr f v).slices = s.slices := rfl
@[simp] theorem State.wr_sched (f : Fld) (v : Nat) : (s.wr f v).sched = s.sched := rfl
@[simp] theorem State.wr_host (f : Fld) (v : Nat) : (s.wr f v).host = s.host := rfl
@[simp] theorem State.wr_fw (f : Fld) (v : Nat) : (s.wr f v).fw = s.fw := rfl
@[simp] theorem State.wr_flash (f : Fld) (v : Nat) : (s.wr f v).flash = s.flash := rfl
@[simp] theorem State.wr_sec (f : Fld) (v : Nat) : (s.wr f v).sec = s.sec := rfl
@[simp] theorem State.wr_pow (f : Fld) (v : Nat) : (s.wr f v).pow = s.pow := rfl
@[simp] theorem State.wr_assay (f : Fld) (v : Nat) : (s.wr f v).assay = s.assay := rfl
@[simp] theorem State.wr_clk (f : Fld) (v : Nat) : (s.wr f v).clk = s.clk := rfl
@[simp] theorem State.wr_air (f : Fld) (v : Nat) : (s.wr f v).air = s.air := rfl
@[simp] theorem State.wr_clusters (f : Fld) (v : Nat) : (s.wr f v).clusters = s.clusters := rfl
@[simp] theorem State.wr_ports (f : Fld) (v : Nat) : (s.wr f v).ports = s.ports := rfl
@[simp] theorem State.wr_fab (f : Fld) (v : Nat) : (s.wr f v).fab = s.fab := rfl
@[simp] theorem State.wr_out (f : Fld) (v : Nat) : (s.wr f v).out = s.out := rfl
@[simp] theorem State.wr_freeCtr (f : Fld) (v : Nat) : (s.wr f v).freeCtr = s.freeCtr := rfl
@[simp] theorem State.wr_pending (f : Fld) (v : Nat) : (s.wr f v).pending = s.pending := rfl

@[simp] theorem State.wrWord_now (a : Nat) (w : RegWord) : (s.wrWord a w).now = s.now := rfl
@[simp] theorem State.wrWord_mem (a : Nat) (w : RegWord) : (s.wrWord a w).mem = s.mem := rfl
@[simp] theorem State.wrWord_acc (a : Nat) (w : RegWord) : (s.wrWord a w).acc = s.acc := rfl
@[simp] theorem State.wrWord_dev (a : Nat) (w : RegWord) : (s.wrWord a w).dev = s.dev := rfl
@[simp] theorem State.wrWord_strata (a : Nat) (w : RegWord) : (s.wrWord a w).strata = s.strata := rfl
@[simp] theorem State.wrWord_tiles (a : Nat) (w : RegWord) : (s.wrWord a w).tiles = s.tiles := rfl
@[simp] theorem State.wrWord_vaults (a : Nat) (w : RegWord) : (s.wrWord a w).vaults = s.vaults := rfl
@[simp] theorem State.wrWord_mm (a : Nat) (w : RegWord) : (s.wrWord a w).mm = s.mm := rfl
@[simp] theorem State.wrWord_slices (a : Nat) (w : RegWord) : (s.wrWord a w).slices = s.slices := rfl
@[simp] theorem State.wrWord_sched (a : Nat) (w : RegWord) : (s.wrWord a w).sched = s.sched := rfl
@[simp] theorem State.wrWord_host (a : Nat) (w : RegWord) : (s.wrWord a w).host = s.host := rfl
@[simp] theorem State.wrWord_fw (a : Nat) (w : RegWord) : (s.wrWord a w).fw = s.fw := rfl
@[simp] theorem State.wrWord_flash (a : Nat) (w : RegWord) : (s.wrWord a w).flash = s.flash := rfl
@[simp] theorem State.wrWord_sec (a : Nat) (w : RegWord) : (s.wrWord a w).sec = s.sec := rfl
@[simp] theorem State.wrWord_pow (a : Nat) (w : RegWord) : (s.wrWord a w).pow = s.pow := rfl
@[simp] theorem State.wrWord_assay (a : Nat) (w : RegWord) : (s.wrWord a w).assay = s.assay := rfl
@[simp] theorem State.wrWord_clk (a : Nat) (w : RegWord) : (s.wrWord a w).clk = s.clk := rfl
@[simp] theorem State.wrWord_air (a : Nat) (w : RegWord) : (s.wrWord a w).air = s.air := rfl
@[simp] theorem State.wrWord_clusters (a : Nat) (w : RegWord) : (s.wrWord a w).clusters = s.clusters := rfl
@[simp] theorem State.wrWord_ports (a : Nat) (w : RegWord) : (s.wrWord a w).ports = s.ports := rfl
@[simp] theorem State.wrWord_fab (a : Nat) (w : RegWord) : (s.wrWord a w).fab = s.fab := rfl
@[simp] theorem State.wrWord_out (a : Nat) (w : RegWord) : (s.wrWord a w).out = s.out := rfl
@[simp] theorem State.wrWord_freeCtr (a : Nat) (w : RegWord) : (s.wrWord a w).freeCtr = s.freeCtr := rfl
@[simp] theorem State.wrWord_pending (a : Nat) (w : RegWord) : (s.wrWord a w).pending = s.pending := rfl

@[simp] theorem State.resetRegs_now (lo hi : Nat) : (s.resetRegs lo hi).now = s.now := rfl
@[simp] theorem State.resetRegs_mem (lo hi : Nat) : (s.resetRegs lo hi).mem = s.mem := rfl
@[simp] theorem State.resetRegs_acc (lo hi : Nat) : (s.resetRegs lo hi).acc = s.acc := rfl
@[simp] theorem State.resetRegs_dev (lo hi : Nat) : (s.resetRegs lo hi).dev = s.dev := rfl
@[simp] theorem State.resetRegs_strata (lo hi : Nat) : (s.resetRegs lo hi).strata = s.strata := rfl
@[simp] theorem State.resetRegs_tiles (lo hi : Nat) : (s.resetRegs lo hi).tiles = s.tiles := rfl
@[simp] theorem State.resetRegs_vaults (lo hi : Nat) : (s.resetRegs lo hi).vaults = s.vaults := rfl
@[simp] theorem State.resetRegs_mm (lo hi : Nat) : (s.resetRegs lo hi).mm = s.mm := rfl
@[simp] theorem State.resetRegs_slices (lo hi : Nat) : (s.resetRegs lo hi).slices = s.slices := rfl
@[simp] theorem State.resetRegs_sched (lo hi : Nat) : (s.resetRegs lo hi).sched = s.sched := rfl
@[simp] theorem State.resetRegs_host (lo hi : Nat) : (s.resetRegs lo hi).host = s.host := rfl
@[simp] theorem State.resetRegs_fw (lo hi : Nat) : (s.resetRegs lo hi).fw = s.fw := rfl
@[simp] theorem State.resetRegs_flash (lo hi : Nat) : (s.resetRegs lo hi).flash = s.flash := rfl
@[simp] theorem State.resetRegs_sec (lo hi : Nat) : (s.resetRegs lo hi).sec = s.sec := rfl
@[simp] theorem State.resetRegs_pow (lo hi : Nat) : (s.resetRegs lo hi).pow = s.pow := rfl
@[simp] theorem State.resetRegs_assay (lo hi : Nat) : (s.resetRegs lo hi).assay = s.assay := rfl
@[simp] theorem State.resetRegs_clk (lo hi : Nat) : (s.resetRegs lo hi).clk = s.clk := rfl
@[simp] theorem State.resetRegs_air (lo hi : Nat) : (s.resetRegs lo hi).air = s.air := rfl
@[simp] theorem State.resetRegs_clusters (lo hi : Nat) : (s.resetRegs lo hi).clusters = s.clusters := rfl
@[simp] theorem State.resetRegs_ports (lo hi : Nat) : (s.resetRegs lo hi).ports = s.ports := rfl
@[simp] theorem State.resetRegs_fab (lo hi : Nat) : (s.resetRegs lo hi).fab = s.fab := rfl
@[simp] theorem State.resetRegs_out (lo hi : Nat) : (s.resetRegs lo hi).out = s.out := rfl
@[simp] theorem State.resetRegs_freeCtr (lo hi : Nat) : (s.resetRegs lo hi).freeCtr = s.freeCtr := rfl
@[simp] theorem State.resetRegs_pending (lo hi : Nat) : (s.resetRegs lo hi).pending = s.pending := rfl

@[simp] theorem State.atTime_regs (t : Nat) : (s.atTime t).regs = s.regs := rfl
@[simp] theorem State.atTime_mem (t : Nat) : (s.atTime t).mem = s.mem := rfl
@[simp] theorem State.atTime_acc (t : Nat) : (s.atTime t).acc = s.acc := rfl
@[simp] theorem State.atTime_dev (t : Nat) : (s.atTime t).dev = s.dev := rfl
@[simp] theorem State.atTime_strata (t : Nat) : (s.atTime t).strata = s.strata := rfl
@[simp] theorem State.atTime_tiles (t : Nat) : (s.atTime t).tiles = s.tiles := rfl
@[simp] theorem State.atTime_vaults (t : Nat) : (s.atTime t).vaults = s.vaults := rfl
@[simp] theorem State.atTime_mm (t : Nat) : (s.atTime t).mm = s.mm := rfl
@[simp] theorem State.atTime_slices (t : Nat) : (s.atTime t).slices = s.slices := rfl
@[simp] theorem State.atTime_sched (t : Nat) : (s.atTime t).sched = s.sched := rfl
@[simp] theorem State.atTime_host (t : Nat) : (s.atTime t).host = s.host := rfl
@[simp] theorem State.atTime_fw (t : Nat) : (s.atTime t).fw = s.fw := rfl
@[simp] theorem State.atTime_flash (t : Nat) : (s.atTime t).flash = s.flash := rfl
@[simp] theorem State.atTime_sec (t : Nat) : (s.atTime t).sec = s.sec := rfl
@[simp] theorem State.atTime_pow (t : Nat) : (s.atTime t).pow = s.pow := rfl
@[simp] theorem State.atTime_assay (t : Nat) : (s.atTime t).assay = s.assay := rfl
@[simp] theorem State.atTime_clk (t : Nat) : (s.atTime t).clk = s.clk := rfl
@[simp] theorem State.atTime_air (t : Nat) : (s.atTime t).air = s.air := rfl
@[simp] theorem State.atTime_clusters (t : Nat) : (s.atTime t).clusters = s.clusters := rfl
@[simp] theorem State.atTime_ports (t : Nat) : (s.atTime t).ports = s.ports := rfl
@[simp] theorem State.atTime_fab (t : Nat) : (s.atTime t).fab = s.fab := rfl
@[simp] theorem State.atTime_out (t : Nat) : (s.atTime t).out = s.out := rfl
@[simp] theorem State.atTime_freeCtr (t : Nat) : (s.atTime t).freeCtr = s.freeCtr := rfl
@[simp] theorem State.atTime_pending (t : Nat) : (s.atTime t).pending = s.pending := rfl

@[simp] theorem State.setByte_now (k : Nat) (b : Byte) : (s.setByte k b).now = s.now := rfl
@[simp] theorem State.setByte_regs (k : Nat) (b : Byte) : (s.setByte k b).regs = s.regs := rfl
@[simp] theorem State.setByte_acc (k : Nat) (b : Byte) : (s.setByte k b).acc = s.acc := rfl
@[simp] theorem State.setByte_dev (k : Nat) (b : Byte) : (s.setByte k b).dev = s.dev := rfl
@[simp] theorem State.setByte_strata (k : Nat) (b : Byte) : (s.setByte k b).strata = s.strata := rfl
@[simp] theorem State.setByte_tiles (k : Nat) (b : Byte) : (s.setByte k b).tiles = s.tiles := rfl
@[simp] theorem State.setByte_vaults (k : Nat) (b : Byte) : (s.setByte k b).vaults = s.vaults := rfl
@[simp] theorem State.setByte_mm (k : Nat) (b : Byte) : (s.setByte k b).mm = s.mm := rfl
@[simp] theorem State.setByte_slices (k : Nat) (b : Byte) : (s.setByte k b).slices = s.slices := rfl
@[simp] theorem State.setByte_sched (k : Nat) (b : Byte) : (s.setByte k b).sched = s.sched := rfl
@[simp] theorem State.setByte_host (k : Nat) (b : Byte) : (s.setByte k b).host = s.host := rfl
@[simp] theorem State.setByte_fw (k : Nat) (b : Byte) : (s.setByte k b).fw = s.fw := rfl
@[simp] theorem State.setByte_flash (k : Nat) (b : Byte) : (s.setByte k b).flash = s.flash := rfl
@[simp] theorem State.setByte_sec (k : Nat) (b : Byte) : (s.setByte k b).sec = s.sec := rfl
@[simp] theorem State.setByte_pow (k : Nat) (b : Byte) : (s.setByte k b).pow = s.pow := rfl
@[simp] theorem State.setByte_assay (k : Nat) (b : Byte) : (s.setByte k b).assay = s.assay := rfl
@[simp] theorem State.setByte_clk (k : Nat) (b : Byte) : (s.setByte k b).clk = s.clk := rfl
@[simp] theorem State.setByte_air (k : Nat) (b : Byte) : (s.setByte k b).air = s.air := rfl
@[simp] theorem State.setByte_clusters (k : Nat) (b : Byte) : (s.setByte k b).clusters = s.clusters := rfl
@[simp] theorem State.setByte_ports (k : Nat) (b : Byte) : (s.setByte k b).ports = s.ports := rfl
@[simp] theorem State.setByte_fab (k : Nat) (b : Byte) : (s.setByte k b).fab = s.fab := rfl
@[simp] theorem State.setByte_out (k : Nat) (b : Byte) : (s.setByte k b).out = s.out := rfl
@[simp] theorem State.setByte_freeCtr (k : Nat) (b : Byte) : (s.setByte k b).freeCtr = s.freeCtr := rfl
@[simp] theorem State.setByte_pending (k : Nat) (b : Byte) : (s.setByte k b).pending = s.pending := rfl

@[simp] theorem State.zeroKeys_now (lo hi : Nat) : (s.zeroKeys lo hi).now = s.now := rfl
@[simp] theorem State.zeroKeys_regs (lo hi : Nat) : (s.zeroKeys lo hi).regs = s.regs := rfl
@[simp] theorem State.zeroKeys_acc (lo hi : Nat) : (s.zeroKeys lo hi).acc = s.acc := rfl
@[simp] theorem State.zeroKeys_dev (lo hi : Nat) : (s.zeroKeys lo hi).dev = s.dev := rfl
@[simp] theorem State.zeroKeys_strata (lo hi : Nat) : (s.zeroKeys lo hi).strata = s.strata := rfl
@[simp] theorem State.zeroKeys_tiles (lo hi : Nat) : (s.zeroKeys lo hi).tiles = s.tiles := rfl
@[simp] theorem State.zeroKeys_vaults (lo hi : Nat) : (s.zeroKeys lo hi).vaults = s.vaults := rfl
@[simp] theorem State.zeroKeys_mm (lo hi : Nat) : (s.zeroKeys lo hi).mm = s.mm := rfl
@[simp] theorem State.zeroKeys_slices (lo hi : Nat) : (s.zeroKeys lo hi).slices = s.slices := rfl
@[simp] theorem State.zeroKeys_sched (lo hi : Nat) : (s.zeroKeys lo hi).sched = s.sched := rfl
@[simp] theorem State.zeroKeys_host (lo hi : Nat) : (s.zeroKeys lo hi).host = s.host := rfl
@[simp] theorem State.zeroKeys_fw (lo hi : Nat) : (s.zeroKeys lo hi).fw = s.fw := rfl
@[simp] theorem State.zeroKeys_flash (lo hi : Nat) : (s.zeroKeys lo hi).flash = s.flash := rfl
@[simp] theorem State.zeroKeys_sec (lo hi : Nat) : (s.zeroKeys lo hi).sec = s.sec := rfl
@[simp] theorem State.zeroKeys_pow (lo hi : Nat) : (s.zeroKeys lo hi).pow = s.pow := rfl
@[simp] theorem State.zeroKeys_assay (lo hi : Nat) : (s.zeroKeys lo hi).assay = s.assay := rfl
@[simp] theorem State.zeroKeys_clk (lo hi : Nat) : (s.zeroKeys lo hi).clk = s.clk := rfl
@[simp] theorem State.zeroKeys_air (lo hi : Nat) : (s.zeroKeys lo hi).air = s.air := rfl
@[simp] theorem State.zeroKeys_clusters (lo hi : Nat) : (s.zeroKeys lo hi).clusters = s.clusters := rfl
@[simp] theorem State.zeroKeys_ports (lo hi : Nat) : (s.zeroKeys lo hi).ports = s.ports := rfl
@[simp] theorem State.zeroKeys_fab (lo hi : Nat) : (s.zeroKeys lo hi).fab = s.fab := rfl
@[simp] theorem State.zeroKeys_out (lo hi : Nat) : (s.zeroKeys lo hi).out = s.out := rfl
@[simp] theorem State.zeroKeys_freeCtr (lo hi : Nat) : (s.zeroKeys lo hi).freeCtr = s.freeCtr := rfl
@[simp] theorem State.zeroKeys_pending (lo hi : Nat) : (s.zeroKeys lo hi).pending = s.pending := rfl

@[simp] theorem State.emit_now (k : MsgKind) (l : List Nat) (d : List Byte) : (s.emit k l d).now = s.now := rfl
@[simp] theorem State.emit_regs (k : MsgKind) (l : List Nat) (d : List Byte) : (s.emit k l d).regs = s.regs := rfl
@[simp] theorem State.emit_mem (k : MsgKind) (l : List Nat) (d : List Byte) : (s.emit k l d).mem = s.mem := rfl
@[simp] theorem State.emit_acc (k : MsgKind) (l : List Nat) (d : List Byte) : (s.emit k l d).acc = s.acc := rfl
@[simp] theorem State.emit_dev (k : MsgKind) (l : List Nat) (d : List Byte) : (s.emit k l d).dev = s.dev := rfl
@[simp] theorem State.emit_strata (k : MsgKind) (l : List Nat) (d : List Byte) : (s.emit k l d).strata = s.strata := rfl
@[simp] theorem State.emit_tiles (k : MsgKind) (l : List Nat) (d : List Byte) : (s.emit k l d).tiles = s.tiles := rfl
@[simp] theorem State.emit_vaults (k : MsgKind) (l : List Nat) (d : List Byte) : (s.emit k l d).vaults = s.vaults := rfl
@[simp] theorem State.emit_mm (k : MsgKind) (l : List Nat) (d : List Byte) : (s.emit k l d).mm = s.mm := rfl
@[simp] theorem State.emit_slices (k : MsgKind) (l : List Nat) (d : List Byte) : (s.emit k l d).slices = s.slices := rfl
@[simp] theorem State.emit_sched (k : MsgKind) (l : List Nat) (d : List Byte) : (s.emit k l d).sched = s.sched := rfl
@[simp] theorem State.emit_host (k : MsgKind) (l : List Nat) (d : List Byte) : (s.emit k l d).host = s.host := rfl
@[simp] theorem State.emit_fw (k : MsgKind) (l : List Nat) (d : List Byte) : (s.emit k l d).fw = s.fw := rfl
@[simp] theorem State.emit_flash (k : MsgKind) (l : List Nat) (d : List Byte) : (s.emit k l d).flash = s.flash := rfl
@[simp] theorem State.emit_sec (k : MsgKind) (l : List Nat) (d : List Byte) : (s.emit k l d).sec = s.sec := rfl
@[simp] theorem State.emit_pow (k : MsgKind) (l : List Nat) (d : List Byte) : (s.emit k l d).pow = s.pow := rfl
@[simp] theorem State.emit_assay (k : MsgKind) (l : List Nat) (d : List Byte) : (s.emit k l d).assay = s.assay := rfl
@[simp] theorem State.emit_clk (k : MsgKind) (l : List Nat) (d : List Byte) : (s.emit k l d).clk = s.clk := rfl
@[simp] theorem State.emit_air (k : MsgKind) (l : List Nat) (d : List Byte) : (s.emit k l d).air = s.air := rfl
@[simp] theorem State.emit_clusters (k : MsgKind) (l : List Nat) (d : List Byte) : (s.emit k l d).clusters = s.clusters := rfl
@[simp] theorem State.emit_ports (k : MsgKind) (l : List Nat) (d : List Byte) : (s.emit k l d).ports = s.ports := rfl
@[simp] theorem State.emit_fab (k : MsgKind) (l : List Nat) (d : List Byte) : (s.emit k l d).fab = s.fab := rfl
@[simp] theorem State.emit_freeCtr (k : MsgKind) (l : List Nat) (d : List Byte) : (s.emit k l d).freeCtr = s.freeCtr := rfl
@[simp] theorem State.emit_pending (k : MsgKind) (l : List Nat) (d : List Byte) : (s.emit k l d).pending = s.pending := rfl

@[simp] theorem State.setTile_now (i : Nat) (x : TileState) : (s.setTile i x).now = s.now := rfl
@[simp] theorem State.setTile_regs (i : Nat) (x : TileState) : (s.setTile i x).regs = s.regs := rfl
@[simp] theorem State.setTile_mem (i : Nat) (x : TileState) : (s.setTile i x).mem = s.mem := rfl
@[simp] theorem State.setTile_acc (i : Nat) (x : TileState) : (s.setTile i x).acc = s.acc := rfl
@[simp] theorem State.setTile_dev (i : Nat) (x : TileState) : (s.setTile i x).dev = s.dev := rfl
@[simp] theorem State.setTile_strata (i : Nat) (x : TileState) : (s.setTile i x).strata = s.strata := rfl
@[simp] theorem State.setTile_vaults (i : Nat) (x : TileState) : (s.setTile i x).vaults = s.vaults := rfl
@[simp] theorem State.setTile_mm (i : Nat) (x : TileState) : (s.setTile i x).mm = s.mm := rfl
@[simp] theorem State.setTile_slices (i : Nat) (x : TileState) : (s.setTile i x).slices = s.slices := rfl
@[simp] theorem State.setTile_sched (i : Nat) (x : TileState) : (s.setTile i x).sched = s.sched := rfl
@[simp] theorem State.setTile_host (i : Nat) (x : TileState) : (s.setTile i x).host = s.host := rfl
@[simp] theorem State.setTile_fw (i : Nat) (x : TileState) : (s.setTile i x).fw = s.fw := rfl
@[simp] theorem State.setTile_flash (i : Nat) (x : TileState) : (s.setTile i x).flash = s.flash := rfl
@[simp] theorem State.setTile_sec (i : Nat) (x : TileState) : (s.setTile i x).sec = s.sec := rfl
@[simp] theorem State.setTile_pow (i : Nat) (x : TileState) : (s.setTile i x).pow = s.pow := rfl
@[simp] theorem State.setTile_assay (i : Nat) (x : TileState) : (s.setTile i x).assay = s.assay := rfl
@[simp] theorem State.setTile_clk (i : Nat) (x : TileState) : (s.setTile i x).clk = s.clk := rfl
@[simp] theorem State.setTile_air (i : Nat) (x : TileState) : (s.setTile i x).air = s.air := rfl
@[simp] theorem State.setTile_clusters (i : Nat) (x : TileState) : (s.setTile i x).clusters = s.clusters := rfl
@[simp] theorem State.setTile_ports (i : Nat) (x : TileState) : (s.setTile i x).ports = s.ports := rfl
@[simp] theorem State.setTile_fab (i : Nat) (x : TileState) : (s.setTile i x).fab = s.fab := rfl
@[simp] theorem State.setTile_out (i : Nat) (x : TileState) : (s.setTile i x).out = s.out := rfl
@[simp] theorem State.setTile_freeCtr (i : Nat) (x : TileState) : (s.setTile i x).freeCtr = s.freeCtr := rfl
@[simp] theorem State.setTile_pending (i : Nat) (x : TileState) : (s.setTile i x).pending = s.pending := rfl

@[simp] theorem State.setVault_now (i : Nat) (x : VaultState) : (s.setVault i x).now = s.now := rfl
@[simp] theorem State.setVault_regs (i : Nat) (x : VaultState) : (s.setVault i x).regs = s.regs := rfl
@[simp] theorem State.setVault_mem (i : Nat) (x : VaultState) : (s.setVault i x).mem = s.mem := rfl
@[simp] theorem State.setVault_acc (i : Nat) (x : VaultState) : (s.setVault i x).acc = s.acc := rfl
@[simp] theorem State.setVault_dev (i : Nat) (x : VaultState) : (s.setVault i x).dev = s.dev := rfl
@[simp] theorem State.setVault_strata (i : Nat) (x : VaultState) : (s.setVault i x).strata = s.strata := rfl
@[simp] theorem State.setVault_tiles (i : Nat) (x : VaultState) : (s.setVault i x).tiles = s.tiles := rfl
@[simp] theorem State.setVault_mm (i : Nat) (x : VaultState) : (s.setVault i x).mm = s.mm := rfl
@[simp] theorem State.setVault_slices (i : Nat) (x : VaultState) : (s.setVault i x).slices = s.slices := rfl
@[simp] theorem State.setVault_sched (i : Nat) (x : VaultState) : (s.setVault i x).sched = s.sched := rfl
@[simp] theorem State.setVault_host (i : Nat) (x : VaultState) : (s.setVault i x).host = s.host := rfl
@[simp] theorem State.setVault_fw (i : Nat) (x : VaultState) : (s.setVault i x).fw = s.fw := rfl
@[simp] theorem State.setVault_flash (i : Nat) (x : VaultState) : (s.setVault i x).flash = s.flash := rfl
@[simp] theorem State.setVault_sec (i : Nat) (x : VaultState) : (s.setVault i x).sec = s.sec := rfl
@[simp] theorem State.setVault_pow (i : Nat) (x : VaultState) : (s.setVault i x).pow = s.pow := rfl
@[simp] theorem State.setVault_assay (i : Nat) (x : VaultState) : (s.setVault i x).assay = s.assay := rfl
@[simp] theorem State.setVault_clk (i : Nat) (x : VaultState) : (s.setVault i x).clk = s.clk := rfl
@[simp] theorem State.setVault_air (i : Nat) (x : VaultState) : (s.setVault i x).air = s.air := rfl
@[simp] theorem State.setVault_clusters (i : Nat) (x : VaultState) : (s.setVault i x).clusters = s.clusters := rfl
@[simp] theorem State.setVault_ports (i : Nat) (x : VaultState) : (s.setVault i x).ports = s.ports := rfl
@[simp] theorem State.setVault_fab (i : Nat) (x : VaultState) : (s.setVault i x).fab = s.fab := rfl
@[simp] theorem State.setVault_out (i : Nat) (x : VaultState) : (s.setVault i x).out = s.out := rfl
@[simp] theorem State.setVault_freeCtr (i : Nat) (x : VaultState) : (s.setVault i x).freeCtr = s.freeCtr := rfl
@[simp] theorem State.setVault_pending (i : Nat) (x : VaultState) : (s.setVault i x).pending = s.pending := rfl

@[simp] theorem State.setSlice_now (i : Nat) (x : SliceState) : (s.setSlice i x).now = s.now := rfl
@[simp] theorem State.setSlice_regs (i : Nat) (x : SliceState) : (s.setSlice i x).regs = s.regs := rfl
@[simp] theorem State.setSlice_mem (i : Nat) (x : SliceState) : (s.setSlice i x).mem = s.mem := rfl
@[simp] theorem State.setSlice_acc (i : Nat) (x : SliceState) : (s.setSlice i x).acc = s.acc := rfl
@[simp] theorem State.setSlice_dev (i : Nat) (x : SliceState) : (s.setSlice i x).dev = s.dev := rfl
@[simp] theorem State.setSlice_strata (i : Nat) (x : SliceState) : (s.setSlice i x).strata = s.strata := rfl
@[simp] theorem State.setSlice_tiles (i : Nat) (x : SliceState) : (s.setSlice i x).tiles = s.tiles := rfl
@[simp] theorem State.setSlice_vaults (i : Nat) (x : SliceState) : (s.setSlice i x).vaults = s.vaults := rfl
@[simp] theorem State.setSlice_mm (i : Nat) (x : SliceState) : (s.setSlice i x).mm = s.mm := rfl
@[simp] theorem State.setSlice_sched (i : Nat) (x : SliceState) : (s.setSlice i x).sched = s.sched := rfl
@[simp] theorem State.setSlice_host (i : Nat) (x : SliceState) : (s.setSlice i x).host = s.host := rfl
@[simp] theorem State.setSlice_fw (i : Nat) (x : SliceState) : (s.setSlice i x).fw = s.fw := rfl
@[simp] theorem State.setSlice_flash (i : Nat) (x : SliceState) : (s.setSlice i x).flash = s.flash := rfl
@[simp] theorem State.setSlice_sec (i : Nat) (x : SliceState) : (s.setSlice i x).sec = s.sec := rfl
@[simp] theorem State.setSlice_pow (i : Nat) (x : SliceState) : (s.setSlice i x).pow = s.pow := rfl
@[simp] theorem State.setSlice_assay (i : Nat) (x : SliceState) : (s.setSlice i x).assay = s.assay := rfl
@[simp] theorem State.setSlice_clk (i : Nat) (x : SliceState) : (s.setSlice i x).clk = s.clk := rfl
@[simp] theorem State.setSlice_air (i : Nat) (x : SliceState) : (s.setSlice i x).air = s.air := rfl
@[simp] theorem State.setSlice_clusters (i : Nat) (x : SliceState) : (s.setSlice i x).clusters = s.clusters := rfl
@[simp] theorem State.setSlice_ports (i : Nat) (x : SliceState) : (s.setSlice i x).ports = s.ports := rfl
@[simp] theorem State.setSlice_fab (i : Nat) (x : SliceState) : (s.setSlice i x).fab = s.fab := rfl
@[simp] theorem State.setSlice_out (i : Nat) (x : SliceState) : (s.setSlice i x).out = s.out := rfl
@[simp] theorem State.setSlice_freeCtr (i : Nat) (x : SliceState) : (s.setSlice i x).freeCtr = s.freeCtr := rfl
@[simp] theorem State.setSlice_pending (i : Nat) (x : SliceState) : (s.setSlice i x).pending = s.pending := rfl

@[simp] theorem State.setTable_now (i : Nat) (x : TableState) : (s.setTable i x).now = s.now := rfl
@[simp] theorem State.setTable_regs (i : Nat) (x : TableState) : (s.setTable i x).regs = s.regs := rfl
@[simp] theorem State.setTable_mem (i : Nat) (x : TableState) : (s.setTable i x).mem = s.mem := rfl
@[simp] theorem State.setTable_acc (i : Nat) (x : TableState) : (s.setTable i x).acc = s.acc := rfl
@[simp] theorem State.setTable_dev (i : Nat) (x : TableState) : (s.setTable i x).dev = s.dev := rfl
@[simp] theorem State.setTable_tiles (i : Nat) (x : TableState) : (s.setTable i x).tiles = s.tiles := rfl
@[simp] theorem State.setTable_vaults (i : Nat) (x : TableState) : (s.setTable i x).vaults = s.vaults := rfl
@[simp] theorem State.setTable_mm (i : Nat) (x : TableState) : (s.setTable i x).mm = s.mm := rfl
@[simp] theorem State.setTable_slices (i : Nat) (x : TableState) : (s.setTable i x).slices = s.slices := rfl
@[simp] theorem State.setTable_sched (i : Nat) (x : TableState) : (s.setTable i x).sched = s.sched := rfl
@[simp] theorem State.setTable_host (i : Nat) (x : TableState) : (s.setTable i x).host = s.host := rfl
@[simp] theorem State.setTable_fw (i : Nat) (x : TableState) : (s.setTable i x).fw = s.fw := rfl
@[simp] theorem State.setTable_flash (i : Nat) (x : TableState) : (s.setTable i x).flash = s.flash := rfl
@[simp] theorem State.setTable_sec (i : Nat) (x : TableState) : (s.setTable i x).sec = s.sec := rfl
@[simp] theorem State.setTable_pow (i : Nat) (x : TableState) : (s.setTable i x).pow = s.pow := rfl
@[simp] theorem State.setTable_assay (i : Nat) (x : TableState) : (s.setTable i x).assay = s.assay := rfl
@[simp] theorem State.setTable_clk (i : Nat) (x : TableState) : (s.setTable i x).clk = s.clk := rfl
@[simp] theorem State.setTable_air (i : Nat) (x : TableState) : (s.setTable i x).air = s.air := rfl
@[simp] theorem State.setTable_clusters (i : Nat) (x : TableState) : (s.setTable i x).clusters = s.clusters := rfl
@[simp] theorem State.setTable_ports (i : Nat) (x : TableState) : (s.setTable i x).ports = s.ports := rfl
@[simp] theorem State.setTable_fab (i : Nat) (x : TableState) : (s.setTable i x).fab = s.fab := rfl
@[simp] theorem State.setTable_out (i : Nat) (x : TableState) : (s.setTable i x).out = s.out := rfl
@[simp] theorem State.setTable_freeCtr (i : Nat) (x : TableState) : (s.setTable i x).freeCtr = s.freeCtr := rfl
@[simp] theorem State.setTable_pending (i : Nat) (x : TableState) : (s.setTable i x).pending = s.pending := rfl

@[simp] theorem State.setBytes_now (k : Nat) (l : List Byte) : (s.setBytes k l).now = s.now := by
  induction l generalizing s k with
  | nil => rfl
  | cons b l ih => exact ih (s.setByte k b) (k + 1)
@[simp] theorem State.setBytes_regs (k : Nat) (l : List Byte) : (s.setBytes k l).regs = s.regs := by
  induction l generalizing s k with
  | nil => rfl
  | cons b l ih => exact ih (s.setByte k b) (k + 1)
@[simp] theorem State.setBytes_acc (k : Nat) (l : List Byte) : (s.setBytes k l).acc = s.acc := by
  induction l generalizing s k with
  | nil => rfl
  | cons b l ih => exact ih (s.setByte k b) (k + 1)
@[simp] theorem State.setBytes_dev (k : Nat) (l : List Byte) : (s.setBytes k l).dev = s.dev := by
  induction l generalizing s k with
  | nil => rfl
  | cons b l ih => exact ih (s.setByte k b) (k + 1)
@[simp] theorem State.setBytes_strata (k : Nat) (l : List Byte) : (s.setBytes k l).strata = s.strata := by
  induction l generalizing s k with
  | nil => rfl
  | cons b l ih => exact ih (s.setByte k b) (k + 1)
@[simp] theorem State.setBytes_tiles (k : Nat) (l : List Byte) : (s.setBytes k l).tiles = s.tiles := by
  induction l generalizing s k with
  | nil => rfl
  | cons b l ih => exact ih (s.setByte k b) (k + 1)
@[simp] theorem State.setBytes_vaults (k : Nat) (l : List Byte) : (s.setBytes k l).vaults = s.vaults := by
  induction l generalizing s k with
  | nil => rfl
  | cons b l ih => exact ih (s.setByte k b) (k + 1)
@[simp] theorem State.setBytes_mm (k : Nat) (l : List Byte) : (s.setBytes k l).mm = s.mm := by
  induction l generalizing s k with
  | nil => rfl
  | cons b l ih => exact ih (s.setByte k b) (k + 1)
@[simp] theorem State.setBytes_slices (k : Nat) (l : List Byte) : (s.setBytes k l).slices = s.slices := by
  induction l generalizing s k with
  | nil => rfl
  | cons b l ih => exact ih (s.setByte k b) (k + 1)
@[simp] theorem State.setBytes_sched (k : Nat) (l : List Byte) : (s.setBytes k l).sched = s.sched := by
  induction l generalizing s k with
  | nil => rfl
  | cons b l ih => exact ih (s.setByte k b) (k + 1)
@[simp] theorem State.setBytes_host (k : Nat) (l : List Byte) : (s.setBytes k l).host = s.host := by
  induction l generalizing s k with
  | nil => rfl
  | cons b l ih => exact ih (s.setByte k b) (k + 1)
@[simp] theorem State.setBytes_fw (k : Nat) (l : List Byte) : (s.setBytes k l).fw = s.fw := by
  induction l generalizing s k with
  | nil => rfl
  | cons b l ih => exact ih (s.setByte k b) (k + 1)
@[simp] theorem State.setBytes_flash (k : Nat) (l : List Byte) : (s.setBytes k l).flash = s.flash := by
  induction l generalizing s k with
  | nil => rfl
  | cons b l ih => exact ih (s.setByte k b) (k + 1)
@[simp] theorem State.setBytes_sec (k : Nat) (l : List Byte) : (s.setBytes k l).sec = s.sec := by
  induction l generalizing s k with
  | nil => rfl
  | cons b l ih => exact ih (s.setByte k b) (k + 1)
@[simp] theorem State.setBytes_pow (k : Nat) (l : List Byte) : (s.setBytes k l).pow = s.pow := by
  induction l generalizing s k with
  | nil => rfl
  | cons b l ih => exact ih (s.setByte k b) (k + 1)
@[simp] theorem State.setBytes_assay (k : Nat) (l : List Byte) : (s.setBytes k l).assay = s.assay := by
  induction l generalizing s k with
  | nil => rfl
  | cons b l ih => exact ih (s.setByte k b) (k + 1)
@[simp] theorem State.setBytes_clk (k : Nat) (l : List Byte) : (s.setBytes k l).clk = s.clk := by
  induction l generalizing s k with
  | nil => rfl
  | cons b l ih => exact ih (s.setByte k b) (k + 1)
@[simp] theorem State.setBytes_air (k : Nat) (l : List Byte) : (s.setBytes k l).air = s.air := by
  induction l generalizing s k with
  | nil => rfl
  | cons b l ih => exact ih (s.setByte k b) (k + 1)
@[simp] theorem State.setBytes_clusters (k : Nat) (l : List Byte) : (s.setBytes k l).clusters = s.clusters := by
  induction l generalizing s k with
  | nil => rfl
  | cons b l ih => exact ih (s.setByte k b) (k + 1)
@[simp] theorem State.setBytes_ports (k : Nat) (l : List Byte) : (s.setBytes k l).ports = s.ports := by
  induction l generalizing s k with
  | nil => rfl
  | cons b l ih => exact ih (s.setByte k b) (k + 1)
@[simp] theorem State.setBytes_fab (k : Nat) (l : List Byte) : (s.setBytes k l).fab = s.fab := by
  induction l generalizing s k with
  | nil => rfl
  | cons b l ih => exact ih (s.setByte k b) (k + 1)
@[simp] theorem State.setBytes_out (k : Nat) (l : List Byte) : (s.setBytes k l).out = s.out := by
  induction l generalizing s k with
  | nil => rfl
  | cons b l ih => exact ih (s.setByte k b) (k + 1)
@[simp] theorem State.setBytes_freeCtr (k : Nat) (l : List Byte) : (s.setBytes k l).freeCtr = s.freeCtr := by
  induction l generalizing s k with
  | nil => rfl
  | cons b l ih => exact ih (s.setByte k b) (k + 1)
@[simp] theorem State.setBytes_pending (k : Nat) (l : List Byte) : (s.setBytes k l).pending = s.pending := by
  induction l generalizing s k with
  | nil => rfl
  | cons b l ih => exact ih (s.setByte k b) (k + 1)

@[simp] theorem State.wrs_now (l : List (Fld × Nat)) : (s.wrs l).now = s.now := by
  induction l generalizing s with
  | nil => rfl
  | cons e l ih => exact ih (s.wr e.1 e.2)
@[simp] theorem State.wrs_mem (l : List (Fld × Nat)) : (s.wrs l).mem = s.mem := by
  induction l generalizing s with
  | nil => rfl
  | cons e l ih => exact ih (s.wr e.1 e.2)
@[simp] theorem State.wrs_acc (l : List (Fld × Nat)) : (s.wrs l).acc = s.acc := by
  induction l generalizing s with
  | nil => rfl
  | cons e l ih => exact ih (s.wr e.1 e.2)
@[simp] theorem State.wrs_dev (l : List (Fld × Nat)) : (s.wrs l).dev = s.dev := by
  induction l generalizing s with
  | nil => rfl
  | cons e l ih => exact ih (s.wr e.1 e.2)
@[simp] theorem State.wrs_strata (l : List (Fld × Nat)) : (s.wrs l).strata = s.strata := by
  induction l generalizing s with
  | nil => rfl
  | cons e l ih => exact ih (s.wr e.1 e.2)
@[simp] theorem State.wrs_tiles (l : List (Fld × Nat)) : (s.wrs l).tiles = s.tiles := by
  induction l generalizing s with
  | nil => rfl
  | cons e l ih => exact ih (s.wr e.1 e.2)
@[simp] theorem State.wrs_vaults (l : List (Fld × Nat)) : (s.wrs l).vaults = s.vaults := by
  induction l generalizing s with
  | nil => rfl
  | cons e l ih => exact ih (s.wr e.1 e.2)
@[simp] theorem State.wrs_mm (l : List (Fld × Nat)) : (s.wrs l).mm = s.mm := by
  induction l generalizing s with
  | nil => rfl
  | cons e l ih => exact ih (s.wr e.1 e.2)
@[simp] theorem State.wrs_slices (l : List (Fld × Nat)) : (s.wrs l).slices = s.slices := by
  induction l generalizing s with
  | nil => rfl
  | cons e l ih => exact ih (s.wr e.1 e.2)
@[simp] theorem State.wrs_sched (l : List (Fld × Nat)) : (s.wrs l).sched = s.sched := by
  induction l generalizing s with
  | nil => rfl
  | cons e l ih => exact ih (s.wr e.1 e.2)
@[simp] theorem State.wrs_host (l : List (Fld × Nat)) : (s.wrs l).host = s.host := by
  induction l generalizing s with
  | nil => rfl
  | cons e l ih => exact ih (s.wr e.1 e.2)
@[simp] theorem State.wrs_fw (l : List (Fld × Nat)) : (s.wrs l).fw = s.fw := by
  induction l generalizing s with
  | nil => rfl
  | cons e l ih => exact ih (s.wr e.1 e.2)
@[simp] theorem State.wrs_flash (l : List (Fld × Nat)) : (s.wrs l).flash = s.flash := by
  induction l generalizing s with
  | nil => rfl
  | cons e l ih => exact ih (s.wr e.1 e.2)
@[simp] theorem State.wrs_sec (l : List (Fld × Nat)) : (s.wrs l).sec = s.sec := by
  induction l generalizing s with
  | nil => rfl
  | cons e l ih => exact ih (s.wr e.1 e.2)
@[simp] theorem State.wrs_pow (l : List (Fld × Nat)) : (s.wrs l).pow = s.pow := by
  induction l generalizing s with
  | nil => rfl
  | cons e l ih => exact ih (s.wr e.1 e.2)
@[simp] theorem State.wrs_assay (l : List (Fld × Nat)) : (s.wrs l).assay = s.assay := by
  induction l generalizing s with
  | nil => rfl
  | cons e l ih => exact ih (s.wr e.1 e.2)
@[simp] theorem State.wrs_clk (l : List (Fld × Nat)) : (s.wrs l).clk = s.clk := by
  induction l generalizing s with
  | nil => rfl
  | cons e l ih => exact ih (s.wr e.1 e.2)
@[simp] theorem State.wrs_air (l : List (Fld × Nat)) : (s.wrs l).air = s.air := by
  induction l generalizing s with
  | nil => rfl
  | cons e l ih => exact ih (s.wr e.1 e.2)
@[simp] theorem State.wrs_clusters (l : List (Fld × Nat)) : (s.wrs l).clusters = s.clusters := by
  induction l generalizing s with
  | nil => rfl
  | cons e l ih => exact ih (s.wr e.1 e.2)
@[simp] theorem State.wrs_ports (l : List (Fld × Nat)) : (s.wrs l).ports = s.ports := by
  induction l generalizing s with
  | nil => rfl
  | cons e l ih => exact ih (s.wr e.1 e.2)
@[simp] theorem State.wrs_fab (l : List (Fld × Nat)) : (s.wrs l).fab = s.fab := by
  induction l generalizing s with
  | nil => rfl
  | cons e l ih => exact ih (s.wr e.1 e.2)
@[simp] theorem State.wrs_out (l : List (Fld × Nat)) : (s.wrs l).out = s.out := by
  induction l generalizing s with
  | nil => rfl
  | cons e l ih => exact ih (s.wr e.1 e.2)
@[simp] theorem State.wrs_freeCtr (l : List (Fld × Nat)) : (s.wrs l).freeCtr = s.freeCtr := by
  induction l generalizing s with
  | nil => rfl
  | cons e l ih => exact ih (s.wr e.1 e.2)
@[simp] theorem State.wrs_pending (l : List (Fld × Nat)) : (s.wrs l).pending = s.pending := by
  induction l generalizing s with
  | nil => rfl
  | cons e l ih => exact ih (s.wr e.1 e.2)

/-! Shorthands -/

theorem State.flag_eq (f : Fld) : s.flag f = s.wr f 1 := rfl
theorem State.bump_eq (f : Fld) (n : Nat) : s.bump f n = s.wr f (s.rd f + n) := rfl
theorem State.drop_eq (f : Fld) (n : Nat) : s.drop f n = s.wr f (s.rd f - n) := rfl
theorem State.sat_eq (f : Fld) (n : Nat) : s.sat f n = s.wr f (min (s.rd f + n) (2 ^ f.width - 1)) := rfl
@[simp] theorem State.wrs_nil : s.wrs [] = s := rfl
@[simp] theorem State.wrs_cons (f : Fld) (v : Nat) (l : List (Fld × Nat)) : s.wrs ((f, v) :: l) = (s.wr f v).wrs l := rfl
@[simp] theorem State.iff_true (g : State → State) : s.iff true g = g s := rfl
@[simp] theorem State.iff_false (g : State → State) : s.iff false g = s := rfl
@[simp] theorem State.setBytes_nil (k : Nat) : s.setBytes k [] = s := rfl
@[simp] theorem State.setBytes_cons (k : Nat) (b : Byte) (l : List Byte) :
    s.setBytes k (b :: l) = (s.setByte k b).setBytes (k + 1) l := rfl
@[simp] theorem onUnit_true (t : State) : onUnit true t = .next t := rfl
@[simp] theorem onUnit_false (t : State) : onUnit false t = .fault .noSuchUnit := rfl

theorem onUnit_eq_next {b : Bool} {t u : State} : onUnit b t = .next u ↔ b = true ∧ t = u := by
  cases b <;> simp [onUnit]

theorem onUnit_ne_refused (b : Bool) (t : State) (r : Refusal) : onUnit b t ≠ .refused r := by
  cases b <;> simp [onUnit]

/-! Views that look at one field -/

theorem State.rd_congr {s t : State} (h : t.regs = s.regs) (f : Fld) : t.rd f = s.rd f := by
  simp only [State.rd, h]

theorem State.byte_congr {s t : State} (h : t.mem = s.mem) (k : Nat) : t.byte k = s.byte k := by
  simp only [State.byte, h]

theorem State.bytes_congr {s t : State} (h : t.mem = s.mem) (k n : Nat) : t.bytes k n = s.bytes k n := by
  simp only [State.bytes, State.byte, h]

theorem State.num_congr {s t : State} (h : t.mem = s.mem) (k n : Nat) : t.num k n = s.num k n := by
  simp only [State.num, State.bytes_congr h]

@[simp] theorem State.wr_byte (f : Fld) (v : Nat) (j : Nat) : (s.wr f v).byte j = s.byte j := rfl
@[simp] theorem State.wr_bytes (f : Fld) (v : Nat) (j n : Nat) : (s.wr f v).bytes j n = s.bytes j n := rfl
@[simp] theorem State.wr_num (f : Fld) (v : Nat) (j n : Nat) : (s.wr f v).num j n = s.num j n := rfl
@[simp] theorem State.wr_tile (f : Fld) (v : Nat) (j : Nat) : (s.wr f v).tile j = s.tile j := rfl
@[simp] theorem State.wr_vault (f : Fld) (v : Nat) (j : Nat) : (s.wr f v).vault j = s.vault j := rfl
@[simp] theorem State.wr_slice (f : Fld) (v : Nat) (j : Nat) : (s.wr f v).slice j = s.slice j := rfl
@[simp] theorem State.wr_table (f : Fld) (v : Nat) (j : Nat) : (s.wr f v).table j = s.table j := rfl
@[simp] theorem State.wr_tileOn (f : Fld) (v : Nat) (j : Nat) : (s.wr f v).tileOn j = s.tileOn j := rfl
@[simp] theorem State.wr_vaultOn (f : Fld) (v : Nat) (j : Nat) : (s.wr f v).vaultOn j = s.vaultOn j := rfl
@[simp] theorem State.wrWord_byte (a : Nat) (w : RegWord) (j : Nat) : (s.wrWord a w).byte j = s.byte j := rfl
@[simp] theorem State.wrWord_bytes (a : Nat) (w : RegWord) (j n : Nat) : (s.wrWord a w).bytes j n = s.bytes j n := rfl
@[simp] theorem State.wrWord_num (a : Nat) (w : RegWord) (j n : Nat) : (s.wrWord a w).num j n = s.num j n := rfl
@[simp] theorem State.wrWord_tile (a : Nat) (w : RegWord) (j : Nat) : (s.wrWord a w).tile j = s.tile j := rfl
@[simp] theorem State.wrWord_vault (a : Nat) (w : RegWord) (j : Nat) : (s.wrWord a w).vault j = s.vault j := rfl
@[simp] theorem State.wrWord_slice (a : Nat) (w : RegWord) (j : Nat) : (s.wrWord a w).slice j = s.slice j := rfl
@[simp] theorem State.wrWord_table (a : Nat) (w : RegWord) (j : Nat) : (s.wrWord a w).table j = s.table j := rfl
@[simp] theorem State.wrWord_tileOn (a : Nat) (w : RegWord) (j : Nat) : (s.wrWord a w).tileOn j = s.tileOn j := rfl
@[simp] theorem State.wrWord_vaultOn (a : Nat) (w : RegWord) (j : Nat) : (s.wrWord a w).vaultOn j = s.vaultOn j := rfl
@[simp] theorem State.resetRegs_byte (lo hi : Nat) (j : Nat) : (s.resetRegs lo hi).byte j = s.byte j := rfl
@[simp] theorem State.resetRegs_bytes (lo hi : Nat) (j n : Nat) : (s.resetRegs lo hi).bytes j n = s.bytes j n := rfl
@[simp] theorem State.resetRegs_num (lo hi : Nat) (j n : Nat) : (s.resetRegs lo hi).num j n = s.num j n := rfl
@[simp] theorem State.resetRegs_tile (lo hi : Nat) (j : Nat) : (s.resetRegs lo hi).tile j = s.tile j := rfl
@[simp] theorem State.resetRegs_vault (lo hi : Nat) (j : Nat) : (s.resetRegs lo hi).vault j = s.vault j := rfl
@[simp] theorem State.resetRegs_slice (lo hi : Nat) (j : Nat) : (s.resetRegs lo hi).slice j = s.slice j := rfl
@[simp] theorem State.resetRegs_table (lo hi : Nat) (j : Nat) : (s.resetRegs lo hi).table j = s.table j := rfl
@[simp] theorem State.resetRegs_tileOn (lo hi : Nat) (j : Nat) : (s.resetRegs lo hi).tileOn j = s.tileOn j := rfl
@[simp] theorem State.resetRegs_vaultOn (lo hi : Nat) (j : Nat) : (s.resetRegs lo hi).vaultOn j = s.vaultOn j := rfl
@[simp] theorem State.atTime_rd (t : Nat) (g : Fld) : (s.atTime t).rd g = s.rd g := rfl
@[simp] theorem State.atTime_byte (t : Nat) (j : Nat) : (s.atTime t).byte j = s.byte j := rfl
@[simp] theorem State.atTime_bytes (t : Nat) (j n : Nat) : (s.atTime t).bytes j n = s.bytes j n := rfl
@[simp] theorem State.atTime_num (t : Nat) (j n : Nat) : (s.atTime t).num j n = s.num j n := rfl
@[simp] theorem State.atTime_tile (t : Nat) (j : Nat) : (s.atTime t).tile j = s.tile j := rfl
@[simp] theorem State.atTime_vault (t : Nat) (j : Nat) : (s.atTime t).vault j = s.vault j := rfl
@[simp] theorem State.atTime_slice (t : Nat) (j : Nat) : (s.atTime t).slice j = s.slice j := rfl
@[simp] theorem State.atTime_table (t : Nat) (j : Nat) : (s.atTime t).table j = s.table j := rfl
@[simp] theorem State.atTime_tileOn (t : Nat) (j : Nat) : (s.atTime t).tileOn j = s.tileOn j := rfl
@[simp] theorem State.atTime_vaultOn (t : Nat) (j : Nat) : (s.atTime t).vaultOn j = s.vaultOn j := rfl
@[simp] theorem State.setByte_rd (k : Nat) (b : Byte) (g : Fld) : (s.setByte k b).rd g = s.rd g := rfl
@[simp] theorem State.setByte_tile (k : Nat) (b : Byte) (j : Nat) : (s.setByte k b).tile j = s.tile j := rfl
@[simp] theorem State.setByte_vault (k : Nat) (b : Byte) (j : Nat) : (s.setByte k b).vault j = s.vault j := rfl
@[simp] theorem State.setByte_slice (k : Nat) (b : Byte) (j : Nat) : (s.setByte k b).slice j = s.slice j := rfl
@[simp] theorem State.setByte_table (k : Nat) (b : Byte) (j : Nat) : (s.setByte k b).table j = s.table j := rfl
@[simp] theorem State.setByte_tileOn (k : Nat) (b : Byte) (j : Nat) : (s.setByte k b).tileOn j = s.tileOn j := rfl
@[simp] theorem State.setByte_vaultOn (k : Nat) (b : Byte) (j : Nat) : (s.setByte k b).vaultOn j = s.vaultOn j := rfl
@[simp] theorem State.zeroKeys_rd (lo hi : Nat) (g : Fld) : (s.zeroKeys lo hi).rd g = s.rd g := rfl
@[simp] theorem State.zeroKeys_tile (lo hi : Nat) (j : Nat) : (s.zeroKeys lo hi).tile j = s.tile j := rfl
@[simp] theorem State.zeroKeys_vault (lo hi : Nat) (j : Nat) : (s.zeroKeys lo hi).vault j = s.vault j := rfl
@[simp] theorem State.zeroKeys_slice (lo hi : Nat) (j : Nat) : (s.zeroKeys lo hi).slice j = s.slice j := rfl
@[simp] theorem State.zeroKeys_table (lo hi : Nat) (j : Nat) : (s.zeroKeys lo hi).table j = s.table j := rfl
@[simp] theorem State.zeroKeys_tileOn (lo hi : Nat) (j : Nat) : (s.zeroKeys lo hi).tileOn j = s.tileOn j := rfl
@[simp] theorem State.zeroKeys_vaultOn (lo hi : Nat) (j : Nat) : (s.zeroKeys lo hi).vaultOn j = s.vaultOn j := rfl
@[simp] theorem State.emit_rd (k : MsgKind) (l : List Nat) (d : List Byte) (g : Fld) : (s.emit k l d).rd g = s.rd g := rfl
@[simp] theorem State.emit_byte (k : MsgKind) (l : List Nat) (d : List Byte) (j : Nat) : (s.emit k l d).byte j = s.byte j := rfl
@[simp] theorem State.emit_bytes (k : MsgKind) (l : List Nat) (d : List Byte) (j n : Nat) : (s.emit k l d).bytes j n = s.bytes j n := rfl
@[simp] theorem State.emit_num (k : MsgKind) (l : List Nat) (d : List Byte) (j n : Nat) : (s.emit k l d).num j n = s.num j n := rfl
@[simp] theorem State.emit_tile (k : MsgKind) (l : List Nat) (d : List Byte) (j : Nat) : (s.emit k l d).tile j = s.tile j := rfl
@[simp] theorem State.emit_vault (k : MsgKind) (l : List Nat) (d : List Byte) (j : Nat) : (s.emit k l d).vault j = s.vault j := rfl
@[simp] theorem State.emit_slice (k : MsgKind) (l : List Nat) (d : List Byte) (j : Nat) : (s.emit k l d).slice j = s.slice j := rfl
@[simp] theorem State.emit_table (k : MsgKind) (l : List Nat) (d : List Byte) (j : Nat) : (s.emit k l d).table j = s.table j := rfl
@[simp] theorem State.emit_tileOn (k : MsgKind) (l : List Nat) (d : List Byte) (j : Nat) : (s.emit k l d).tileOn j = s.tileOn j := rfl
@[simp] theorem State.emit_vaultOn (k : MsgKind) (l : List Nat) (d : List Byte) (j : Nat) : (s.emit k l d).vaultOn j = s.vaultOn j := rfl
@[simp] theorem State.setTile_rd (i : Nat) (x : TileState) (g : Fld) : (s.setTile i x).rd g = s.rd g := rfl
@[simp] theorem State.setTile_byte (i : Nat) (x : TileState) (j : Nat) : (s.setTile i x).byte j = s.byte j := rfl
@[simp] theorem State.setTile_bytes (i : Nat) (x : TileState) (j n : Nat) : (s.setTile i x).bytes j n = s.bytes j n := rfl
@[simp] theorem State.setTile_num (i : Nat) (x : TileState) (j n : Nat) : (s.setTile i x).num j n = s.num j n := rfl
@[simp] theorem State.setTile_vault (i : Nat) (x : TileState) (j : Nat) : (s.setTile i x).vault j = s.vault j := rfl
@[simp] theorem State.setTile_slice (i : Nat) (x : TileState) (j : Nat) : (s.setTile i x).slice j = s.slice j := rfl
@[simp] theorem State.setTile_table (i : Nat) (x : TileState) (j : Nat) : (s.setTile i x).table j = s.table j := rfl
@[simp] theorem State.setTile_tileOn (i : Nat) (x : TileState) (j : Nat) : (s.setTile i x).tileOn j = s.tileOn j := rfl
@[simp] theorem State.setTile_vaultOn (i : Nat) (x : TileState) (j : Nat) : (s.setTile i x).vaultOn j = s.vaultOn j := rfl
@[simp] theorem State.setVault_rd (i : Nat) (x : VaultState) (g : Fld) : (s.setVault i x).rd g = s.rd g := rfl
@[simp] theorem State.setVault_byte (i : Nat) (x : VaultState) (j : Nat) : (s.setVault i x).byte j = s.byte j := rfl
@[simp] theorem State.setVault_bytes (i : Nat) (x : VaultState) (j n : Nat) : (s.setVault i x).bytes j n = s.bytes j n := rfl
@[simp] theorem State.setVault_num (i : Nat) (x : VaultState) (j n : Nat) : (s.setVault i x).num j n = s.num j n := rfl
@[simp] theorem State.setVault_tile (i : Nat) (x : VaultState) (j : Nat) : (s.setVault i x).tile j = s.tile j := rfl
@[simp] theorem State.setVault_slice (i : Nat) (x : VaultState) (j : Nat) : (s.setVault i x).slice j = s.slice j := rfl
@[simp] theorem State.setVault_table (i : Nat) (x : VaultState) (j : Nat) : (s.setVault i x).table j = s.table j := rfl
@[simp] theorem State.setVault_tileOn (i : Nat) (x : VaultState) (j : Nat) : (s.setVault i x).tileOn j = s.tileOn j := rfl
@[simp] theorem State.setVault_vaultOn (i : Nat) (x : VaultState) (j : Nat) : (s.setVault i x).vaultOn j = s.vaultOn j := rfl
@[simp] theorem State.setSlice_rd (i : Nat) (x : SliceState) (g : Fld) : (s.setSlice i x).rd g = s.rd g := rfl
@[simp] theorem State.setSlice_byte (i : Nat) (x : SliceState) (j : Nat) : (s.setSlice i x).byte j = s.byte j := rfl
@[simp] theorem State.setSlice_bytes (i : Nat) (x : SliceState) (j n : Nat) : (s.setSlice i x).bytes j n = s.bytes j n := rfl
@[simp] theorem State.setSlice_num (i : Nat) (x : SliceState) (j n : Nat) : (s.setSlice i x).num j n = s.num j n := rfl
@[simp] theorem State.setSlice_tile (i : Nat) (x : SliceState) (j : Nat) : (s.setSlice i x).tile j = s.tile j := rfl
@[simp] theorem State.setSlice_vault (i : Nat) (x : SliceState) (j : Nat) : (s.setSlice i x).vault j = s.vault j := rfl
@[simp] theorem State.setSlice_table (i : Nat) (x : SliceState) (j : Nat) : (s.setSlice i x).table j = s.table j := rfl
@[simp] theorem State.setSlice_tileOn (i : Nat) (x : SliceState) (j : Nat) : (s.setSlice i x).tileOn j = s.tileOn j := rfl
@[simp] theorem State.setSlice_vaultOn (i : Nat) (x : SliceState) (j : Nat) : (s.setSlice i x).vaultOn j = s.vaultOn j := rfl
@[simp] theorem State.setTable_rd (i : Nat) (x : TableState) (g : Fld) : (s.setTable i x).rd g = s.rd g := rfl
@[simp] theorem State.setTable_byte (i : Nat) (x : TableState) (j : Nat) : (s.setTable i x).byte j = s.byte j := rfl
@[simp] theorem State.setTable_bytes (i : Nat) (x : TableState) (j n : Nat) : (s.setTable i x).bytes j n = s.bytes j n := rfl
@[simp] theorem State.setTable_num (i : Nat) (x : TableState) (j n : Nat) : (s.setTable i x).num j n = s.num j n := rfl
@[simp] theorem State.setTable_tile (i : Nat) (x : TableState) (j : Nat) : (s.setTable i x).tile j = s.tile j := rfl
@[simp] theorem State.setTable_vault (i : Nat) (x : TableState) (j : Nat) : (s.setTable i x).vault j = s.vault j := rfl
@[simp] theorem State.setTable_slice (i : Nat) (x : TableState) (j : Nat) : (s.setTable i x).slice j = s.slice j := rfl
@[simp] theorem State.setTable_tileOn (i : Nat) (x : TableState) (j : Nat) : (s.setTable i x).tileOn j = s.tileOn j := rfl
@[simp] theorem State.setTable_vaultOn (i : Nat) (x : TableState) (j : Nat) : (s.setTable i x).vaultOn j = s.vaultOn j := rfl
@[simp] theorem State.setBytes_rd (k : Nat) (l : List Byte) (g : Fld) : (s.setBytes k l).rd g = s.rd g :=
  State.rd_congr (s.setBytes_regs k l) g
@[simp] theorem State.wrs_byte (l : List (Fld × Nat)) (k : Nat) : (s.wrs l).byte k = s.byte k :=
  State.byte_congr (s.wrs_mem l) k

/-! Reading back -/

@[simp] theorem State.setTile_tile_same (i : Nat) (x : TileState) : (s.setTile i x).tile i = x := by
  simp [State.setTile, State.tile]
@[simp] theorem State.setTile_tile_ne {i j : Nat} (x : TileState) (h : j ≠ i) : (s.setTile i x).tile j = s.tile j := by
  simp [State.setTile, State.tile, h]
@[simp] theorem State.setVault_vault_same (i : Nat) (x : VaultState) : (s.setVault i x).vault i = x := by
  simp [State.setVault, State.vault]
@[simp] theorem State.setVault_vault_ne {i j : Nat} (x : VaultState) (h : j ≠ i) : (s.setVault i x).vault j = s.vault j := by
  simp [State.setVault, State.vault, h]
@[simp] theorem State.setSlice_slice_same (i : Nat) (x : SliceState) : (s.setSlice i x).slice i = x := by
  simp [State.setSlice, State.slice]
@[simp] theorem State.setSlice_slice_ne {i j : Nat} (x : SliceState) (h : j ≠ i) : (s.setSlice i x).slice j = s.slice j := by
  simp [State.setSlice, State.slice, h]
@[simp] theorem State.setTable_table_same (i : Nat) (x : TableState) : (s.setTable i x).table i = x := by
  simp [State.setTable, State.table]
@[simp] theorem State.setTable_table_ne {i j : Nat} (x : TableState) (h : j ≠ i) : (s.setTable i x).table j = s.table j := by
  simp [State.setTable, State.table, h]
@[simp] theorem State.setByte_byte_same (k : Nat) (b : Byte) : (s.setByte k b).byte k = b := by
  simp [State.setByte, State.byte]
@[simp] theorem State.setByte_byte_ne {k j : Nat} (b : Byte) (h : j ≠ k) : (s.setByte k b).byte j = s.byte j := by
  simp [State.setByte, State.byte, h]

/-- Bytes below and above a stored run are as before. -/
theorem State.setBytes_byte_out (k : Nat) (l : List Byte) {j : Nat} (h : j < k ∨ k + l.length ≤ j) :
    (s.setBytes k l).byte j = s.byte j := by
  induction l generalizing s k with
  | nil => rfl
  | cons b l ih =>
    have e : j ≠ k := by simp at h; omega
    rw [State.setBytes_cons, ih (s.setByte k b) (k + 1) (by simp at h; omega), State.setByte_byte_ne _ _ e]

/-- A stored run reads back. -/
theorem State.setBytes_byte_in (k : Nat) (l : List Byte) {i : Nat} (h : i < l.length) :
    (s.setBytes k l).byte (k + i) = l[i] := by
  induction l generalizing s k i with
  | nil => simp at h
  | cons b l ih =>
    rw [State.setBytes_cons]
    cases i with
    | zero =>
      change ((s.setByte k b).setBytes (k + 1) l).byte k = b
      rw [State.setBytes_byte_out _ _ _ (.inl (Nat.lt_succ_self k)), State.setByte_byte_same]
    | succ i =>
      have := ih (s.setByte k b) (k + 1) (i := i) (by simpa using h)
      rw [show k + (i + 1) = k + 1 + i by omega, this]; simp

/-! Register fields -/

theorem bitsOf_testBit (w : RegWord) (lo n i : Nat) : (bitsOf w lo n).testBit i = (decide (i < n) && w.getLsbD (lo + i)) := by
  simp [bitsOf, BitVec.getLsbD]

theorem bitMask_getLsbD (lo n i : Nat) (h : lo + n ≤ 64) : (bitMask lo n).getLsbD i = (decide (lo ≤ i) && decide (i < lo + n)) := by
  simp only [bitMask, BitVec.getLsbD_ofNat, Nat.testBit_mul_two_pow, Nat.testBit_two_pow_sub_one]
  by_cases h1 : lo ≤ i <;> by_cases h2 : i < lo + n <;> simp [h1, h2] <;> omega

theorem setBits_getLsbD (w : RegWord) (lo n v i : Nat) (h : lo + n ≤ 64) :
    (setBits w lo n v).getLsbD i = if lo ≤ i ∧ i < lo + n then v.testBit (i - lo) else w.getLsbD i := by
  simp only [setBits, BitVec.getLsbD_or, BitVec.getLsbD_and, BitVec.getLsbD_not, bitMask_getLsbD _ _ _ h,
    BitVec.getLsbD_ofNat, Nat.testBit_mul_two_pow, Nat.testBit_mod_two_pow]
  by_cases h1 : lo ≤ i <;> by_cases h2 : i < lo + n <;> simp [h1, h2]
  · rw [decide_eq_true (show i < 64 by omega), decide_eq_true (show i - lo < n by omega)]; simp
  · exact fun hw => BitVec.lt_of_getLsbD hw
  · exact fun hw => BitVec.lt_of_getLsbD hw
  · exact fun hw => BitVec.lt_of_getLsbD hw

/-- A field reads back as the low bits of what was written to it. -/
theorem bitsOf_setBits_same (w : RegWord) (lo n v : Nat) (h : lo + n ≤ 64) : bitsOf (setBits w lo n v) lo n = v % 2 ^ n := by
  apply Nat.eq_of_testBit_eq
  intro i
  rw [bitsOf_testBit, setBits_getLsbD _ _ _ _ _ h, Nat.testBit_mod_two_pow]
  by_cases hi : i < n <;> simp [hi]

/-- A field that shares no bit with the one written is as before. -/
theorem bitsOf_setBits_ne (w : RegWord) (lo n v lo' n' : Nat) (h : lo + n ≤ 64) (d : lo + n ≤ lo' ∨ lo' + n' ≤ lo) :
    bitsOf (setBits w lo n v) lo' n' = bitsOf w lo' n' := by
  apply Nat.eq_of_testBit_eq
  intro i
  rw [bitsOf_testBit, bitsOf_testBit, setBits_getLsbD _ _ _ _ _ h]
  by_cases hi : i < n'
  · rw [if_neg (by omega)]
  · simp [hi]

/-- A register field reads back as the low bits of what was written to it. -/
theorem State.rd_wr_same (f : Fld) (v : Nat) (h : f.lo + f.width ≤ 64) : (s.wr f v).rd f = v % 2 ^ f.width := by
  simp only [State.rd, State.wr, fldGet, fldPut, regSetWord, regWord, tblGet_set_same]
  exact bitsOf_setBits_same _ _ _ _ h

/-- Writing a field leaves the fields of the other registers as they were. -/
theorem State.rd_wr_addr (f g : Fld) (v : Nat) (h : g.addr ≠ f.addr) : (s.wr f v).rd g = s.rd g := by
  simp only [State.rd, State.wr, fldGet, fldPut, regSetWord, regWord, tblGet_set_ne _ _ _ _ h]

/-- Writing a field leaves the other fields of its register as they were. -/
theorem State.rd_wr_bits (f g : Fld) (v : Nat) (h : f.lo + f.width ≤ 64)
    (d : f.lo + f.width ≤ g.lo ∨ g.lo + g.width ≤ f.lo) : (s.wr f v).rd g = s.rd g := by
  by_cases e : g.addr = f.addr
  · simp only [State.rd, State.wr, fldGet, fldPut, regSetWord, regWord, e, tblGet_set_same]
    exact bitsOf_setBits_ne _ _ _ _ _ _ h d
  · exact s.rd_wr_addr f g v e

end Sys2Proof.Machine
end

