-- ==== Sys2Proof/Tests/Slice0.lean ====
section
/-! SUPPORT. The author's tests: operands out of range are refused, single commands do what a worked value of the spec says,
and each statement's hypotheses are met by a state written here. -/

namespace Sys2Proof.Machine.Slice0

set_option Elab.async false

/-! States -/

/-- The reset state with some register fields set. -/
def st (l : List (Fld × Nat)) : State := State.reset.wrs l

/-- The reset state in RUN, with the service cores and Agate running and some register fields set. -/
def run (l : List (Fld × Nat)) : State := st ((R.DEV_STATUS_PHASE, 4) :: (R.FW_CORE_STATUS_STATE 0, 1) :: l)

/-- A command entry, from (byte offset, 32-bit word) pairs. -/
def entryOf (l : List (Nat × Nat)) : BitVec 512 := BitVec.ofNat 512 (l.map fun w => w.2 * 2 ^ (8 * w.1)).sum

/-- Tile 0 with a job of slice 0 whose slab 0 lies in vault 0, its queue 0 holding one command at cycle 0. -/
def tileWith (r : List (Fld × Nat)) (l : List (Nat × Nat)) : State :=
  ((run ((R.TILE_CMDQ_STATUS_STATE 0 0, 1) :: r)).setTile 0 { TileState.reset with
    q0 := { CmdQueue.empty with buf := [⟨0, entryOf l⟩], used := true }, job := some ⟨0, 0, 1, 0, [0], false, 0⟩ }).setHome 0 0
      { HomeEntry.unmapped with state := .resident }

/-- `tileWith` with nothing further set. -/
def tileAt (l : List (Nat × Nat)) : State := tileWith [] l

/-- The job of `tileAt`. -/
def tileJob : TileJob := ⟨0, 0, 1, 0, [0], false, 0⟩

/-- The command of `tileAt`, outside any loop. -/
def instOf (l : List (Nat × Nat)) : Inst := ⟨⟨0, entryOf l⟩, []⟩

/-- A sealed table for slot `n` without entries. -/
def slotTab (n : Nat) : SlotTable := ⟨n, 0, [], [], 0, 0, 0, 0, [], 0, [], [], [], [], [], [], false, false⟩

/-- Job 5 of slice 0, queue 0, on tile 0, in a phase; its descriptor is given. -/
def jobIn (phase : JobPhase) (desc : List (BitVec 8)) : JobRec :=
  ⟨5, 0, 0, 0, 0, phase, desc, [], [], [], 0, 0, 0, 0, 0, 1, [0], 1000, 0, 0, 0, 0, 0, 0, false, false, [], none, 0, 0, 0, 0, false, 0, [], 0, [], 0, none, [], []⟩

/-- RUN with slice 0 OPEN, some register fields set, and one job. -/
def jobState (r : List (Fld × Nat)) (j : JobRec) : State :=
  { run ((R.SLICE_STATE_STATE 0, 2) :: r) with sched := { SchedState.reset with jobs := [j] } }

/-- RUN with carrier 0 of µ 1 on cluster 0, its endpoint served, and some tables; at GPS second 1 the slot on air is 2000. -/
def airState (r : List (Fld × Nat)) (c : ClusterState) : State :=
  { ((run ([(R.FW_CORE_STATUS_STATE 5, 1), (R.FW_CORE_STATUS_STATE 7, 1), (R.DEV_STATUS_RADIO_READY, 1), (R.AIR_CL_STATUS_MU 0, 1)] ++ r)).setTable 7
      { TableState.reset with bank0 := toBytes 4 (1 + 8192) }) with clusters := [(0, c)] }

/-- A trigger of slot 2003. -/
def someTrigger : Trigger := ⟨0, 0, false, 2003, 0, false⟩

/-- A host that reaches BAR2, with PASID 0 bound to slice 0 and the slice OPEN. -/
def hostState : State := { run [(R.PASID_ENTRY_VALID 0, 1), (R.SLICE_STATE_STATE 0, 2)] with
  host := { State.reset.host with linkUp := true, config := true } }

/-! Strata files in memory -/

/-- Memory cells with bytes from key `k` on. -/
def cells : Nat → List Byte → Tbl Byte
  | _, [] => []
  | k, b :: l => (k, b) :: cells (k + 1) l

theorem cells_below (l : List Byte) (k i : Nat) (h : i < k) : tblFind (cells k l) i = none := by
  induction l generalizing k with
  | nil => rfl
  | cons b l ih => simp [cells, tblFind, Nat.ne_of_gt h, ih (k + 1) (by omega)]

theorem cells_get (l : List Byte) (k i : Nat) : tblGet unwritten (cells k l) (k + i) = l.getD i 0 := by
  induction l generalizing k i with
  | nil => rfl
  | cons b l ih =>
    cases i with
    | zero => simp [cells, tblGet, tblFind]
    | succ i =>
      have h := ih (k + 1) i
      rw [Nat.add_right_comm] at h
      simp only [tblGet] at h
      simp only [cells, tblGet, tblFind, Nat.ne_of_lt (Nat.lt_add_of_pos_right (Nat.succ_pos i)), if_false]
      simpa [Nat.add_assoc] using h

/-- A section of a file: kind, FLAGS and raw body. -/
abbrev Part := Nat × Nat × List Byte

/-- The parts with the offsets of their bodies, from `off` on. -/
def placed : Nat → List Part → List (Nat × Part)
  | _, [] => []
  | off, p :: l => (off, p) :: placed (off + p.2.2.length) l

/-- A directory entry: its 16 bytes ahead of the digest, and all of it. -/
def entryHead (e : Nat × Part) : List Byte :=
  toBytes 1 e.2.1 ++ toBytes 1 0 ++ toBytes 2 e.2.2.1 ++ toBytes 4 e.1 ++ toBytes 4 e.2.2.2.length ++ toBytes 4 0

/-- The bytes of a directory entry. -/
def entryBytes (e : Nat × Part) : List Byte := entryHead e ++ digestBytes (Config.sha3 e.2.2.2)

/-- The header of a file of `n` parts. -/
def headOf (kind n : Nat) : List Byte :=
  toBytes 4 0x5354_5241 ++ toBytes 2 2 ++ toBytes 2 n ++ toBytes 4 9 ++ toBytes 4 3 ++ toBytes 8 20_000 ++ toBytes 1 7 ++
    toBytes 1 kind ++ List.replicate 230 0

/-- A file of parts (R47 to R49) up to its signature block, which is all zeros: no BASE_DIGEST, every grade. -/
def fileOf (kind : Nat) (l : List Part) : List Byte :=
  headOf kind l.length ++ ((placed (0x100 + 80 * l.length) l).flatMap entryBytes ++ l.flatMap (·.2.2))

/-- What is read of a part. -/
def partOf (e : Nat × Part) : Section :=
  let raw := e.2.2.2
  let rest := raw.drop (4 + 12 * bodyRegs raw)
  { kind := e.2.1, tableId := 0, flags := e.2.2.1, offset := e.1, length := raw.length, reserved := 0,
    digest := digestBytes (Config.sha3 raw), found := digestBytes (Config.sha3 raw), regs := pairsOf (raw.drop 4) (bodyRegs raw) 4 8,
    base := if e.2.1 = 3 then rest.take 64 else [], ports := if e.2.1 = 4 then pairsOf rest (rest.length / 2) 1 1 else [],
    body := if e.2.1 = 3 then rest.drop 64 else rest }

/-- What is read of a file of parts. -/
def readOf (kind : Nat) (l : List Part) : StrataFile :=
  ⟨0x5354_5241, 2, l.length, 9, 3, 20_000, 7, kind, 0, 0, 0, (placed (0x100 + 80 * l.length) l).map partOf, 0, 0,
    Config.sha3 (fileBytes (fun i => (fileOf kind l).getD i 0) 0 20_000)⟩

theorem toBytes_len (n v : Nat) : (toBytes n v).length = n := by
  induction n generalizing v with
  | zero => rfl
  | succ n ih => simp [toBytes, ih]

theorem ofBytes_toBytes (n v : Nat) (h : v < 256 ^ n) : ofBytes (toBytes n v) = v := by
  induction n generalizing v with
  | zero => simp at h; simp [toBytes, ofBytes, h]
  | succ n ih =>
    have : v / 256 < 256 ^ n := Nat.div_lt_of_lt_mul (by rw [Nat.pow_succ] at h; omega)
    simp only [toBytes, ofBytes, ih _ this, BitVec.toNat_ofNat]
    omega

/-- The bytes `m` of a file that begins with `a`. -/
theorem bytes_in (l a m b : List Byte) (off n : Nat) (h : l = a ++ (m ++ b)) (h1 : off = a.length) (h2 : n = m.length) :
    fileBytes (fun i => l.getD i 0) off n = m := by
  subst h h1 h2
  apply List.ext_getElem
  · simp [fileBytes]
  · intro i h1 h2
    simp only [fileBytes, List.getElem_map, List.getElem_range, List.getD_eq_getElem?_getD]
    rw [List.getElem?_append_right (by omega), Nat.add_sub_cancel_left, List.getElem?_append_left h2, List.getElem?_eq_getElem h2]
    rfl

/-- The number of `n` bytes of a file that begins with `a`. -/
theorem num_in (l a b : List Byte) (off n v : Nat) (h : l = a ++ (toBytes n v ++ b)) (h1 : off = a.length) (h2 : v < 256 ^ n) :
    fileNum (fun i => l.getD i 0) off n = v := by
  rw [fileNum, bytes_in l a _ b off n h h1 (toBytes_len n v).symm, ofBytes_toBytes n v h2]

theorem head_len (kind n : Nat) : (headOf kind n).length = 0x100 := by
  simp only [headOf, List.length_append, toBytes_len, List.length_replicate]

theorem entry_len (e : Nat × Part) : (entryBytes e).length = 80 := by simp [entryBytes, entryHead, digestBytes, toBytes_len]

theorem placed_length (k : Nat) (l : List Part) : (placed k l).length = l.length := by
  induction l generalizing k with
  | nil => rfl
  | cons e l ih => simp [placed, ih]

/-- Part `i` of a list of parts with its place. -/
abbrev nth (k : Nat) (l : List Part) (i : Nat) : Nat × Part := (placed k l).getD i (0, 0, 0, [])

theorem entries_split (k : Nat) (l : List Part) (i : Nat) (h : i < l.length) :
    ∃ a b, (placed k l).flatMap entryBytes = a ++ (entryBytes (nth k l i) ++ b) ∧ a.length = 80 * i := by
  induction l generalizing k i with
  | nil => simp at h
  | cons p l ih =>
    cases i with
    | zero => exact ⟨[], (placed (k + p.2.2.length) l).flatMap entryBytes, rfl, rfl⟩
    | succ i =>
      obtain ⟨a, b, h1, h2⟩ := ih (k + p.2.2.length) i (by simpa using h)
      exact ⟨entryBytes (k, p) ++ a, b, by simp only [placed, List.flatMap_cons, h1, List.append_assoc]; rfl, by
        simp [entry_len, h2]; omega⟩

theorem bodies_split (k : Nat) (l : List Part) (i : Nat) (h : i < l.length) :
    ∃ a b, l.flatMap (·.2.2) = a ++ ((nth k l i).2.2.2 ++ b) ∧ k + a.length = (nth k l i).1 := by
  induction l generalizing k i with
  | nil => simp at h
  | cons p l ih =>
    cases i with
    | zero => exact ⟨[], l.flatMap (·.2.2), rfl, rfl⟩
    | succ i =>
      obtain ⟨a, b, h1, h2⟩ := ih (k + p.2.2.length) i (by simpa using h)
      exact ⟨p.2.2 ++ a, b, by simp only [List.flatMap_cons, h1, List.append_assoc]; rfl, by
        rw [List.length_append, ← Nat.add_assoc]; exact h2⟩

/-- An entry as it is read from its file. -/
theorem entry_read (kind : Nat) (l : List Part) (i : Nat) (e : Nat × Part) (hi : i < l.length) (he : e = nth (0x100 + 80 * l.length) l i)
    (h1 : e.2.1 < 256) (h2 : e.2.2.1 < 65536) (h3 : e.1 < 2 ^ 32) (h4 : e.2.2.2.length < 2 ^ 32) :
    parseEntry (fun i => (fileOf kind l).getD i 0) (0x100 + 80 * i) = partOf e := by
  obtain ⟨a, b, ha, hl⟩ := entries_split (0x100 + 80 * l.length) l i hi
  obtain ⟨c, d, hc, hm⟩ := bodies_split (0x100 + 80 * l.length) l i hi
  rw [← he] at ha hc hm
  have hf : fileOf kind l = (headOf kind l.length ++ a) ++ (entryBytes e ++ (b ++ l.flatMap (·.2.2))) := by
    simp only [fileOf, ha, List.append_assoc]
  have hn : (headOf kind l.length ++ a).length = 0x100 + 80 * i := by rw [List.length_append, head_len, hl]
  generalize headOf kind l.length ++ a = a at hf hn
  generalize hr : b ++ l.flatMap (·.2.2) = r at hf
  have hb : fileBytes (fun i => (fileOf kind l).getD i 0) e.1 e.2.2.2.length = e.2.2.2 := by
    refine bytes_in (fileOf kind l) (headOf kind l.length ++ ((placed (0x100 + 80 * l.length) l).flatMap entryBytes ++ c)) _ d _ _ ?_ ?_ rfl
    · simp only [fileOf, hc, List.append_assoc]
    · have : ((placed (0x100 + 80 * l.length) l).flatMap entryBytes).length = 80 * l.length := by
        generalize 0x100 + 80 * l.length = k
        clear * -
        induction l generalizing k with
        | nil => rfl
        | cons p l ih => simp only [placed, List.flatMap_cons, List.length_append, entry_len, ih, List.length_cons]; omega
      simp only [List.length_append, head_len, this]; omega
  have n0 := num_in (fileOf kind l) a _ (0x100 + 80 * i) 1 e.2.1 (by rw [hf, entryBytes, entryHead]; simp only [List.append_assoc]; rfl) hn.symm h1
  have n1 := num_in (fileOf kind l) (a ++ toBytes 1 e.2.1) _ (0x100 + 80 * i + 1) 1 0 (by
    rw [hf, entryBytes, entryHead]; simp only [List.append_assoc]; rfl) (by simp [hn, toBytes_len]) (by decide)
  have n2 := num_in (fileOf kind l) (a ++ toBytes 1 e.2.1 ++ toBytes 1 0) _ (0x100 + 80 * i + 2) 2 e.2.2.1 (by
    rw [hf, entryBytes, entryHead]; simp only [List.append_assoc]; rfl) (by simp [hn, toBytes_len]) h2
  have n4 := num_in (fileOf kind l) (a ++ toBytes 1 e.2.1 ++ toBytes 1 0 ++ toBytes 2 e.2.2.1) _ (0x100 + 80 * i + 4) 4 e.1 (by
    rw [hf, entryBytes, entryHead]; simp only [List.append_assoc]; rfl) (by simp [hn, toBytes_len]) h3
  have n8 := num_in (fileOf kind l) (a ++ toBytes 1 e.2.1 ++ toBytes 1 0 ++ toBytes 2 e.2.2.1 ++ toBytes 4 e.1) _ (0x100 + 80 * i + 8) 4
    e.2.2.2.length (by rw [hf, entryBytes, entryHead]; simp only [List.append_assoc]; rfl) (by simp [hn, toBytes_len]) h4
  have nC := num_in (fileOf kind l) (a ++ toBytes 1 e.2.1 ++ toBytes 1 0 ++ toBytes 2 e.2.2.1 ++ toBytes 4 e.1 ++ toBytes 4 e.2.2.2.length) _
    (0x100 + 80 * i + 0xC) 4 0 (by rw [hf, entryBytes, entryHead]; simp only [List.append_assoc]; rfl) (by simp [hn, toBytes_len]) (by decide)
  have nD := bytes_in (fileOf kind l) (a ++ entryHead e) (digestBytes (Config.sha3 e.2.2.2)) r (0x100 + 80 * i + 0x10) 64 (by
    rw [hf, entryBytes]; simp only [List.append_assoc]) (by simp [hn, entryHead, toBytes_len]) (by simp [digestBytes, toBytes_len])
  simp only [parseEntry, n0, n1, n2, n4, n8, nC, nD, hb]
  rfl

theorem zeros_num (n : Nat) : ofBytes (List.replicate n 0) = 0 := by
  induction n with
  | zero => rfl
  | succ n ih => rw [List.replicate_succ, ofBytes, ih]; rfl

theorem num_beyond (l : List Byte) (off n : Nat) (h : l.length ≤ off) : fileNum (fun i => l.getD i 0) off n = 0 := by
  have : fileBytes (fun i => l.getD i 0) off n = List.replicate n 0 := by
    apply List.ext_getElem
    · simp [fileBytes]
    · intro i h1 h2
      simp only [fileBytes, List.getElem_map, List.getElem_range, List.getElem_replicate, List.getD_eq_getElem?_getD]
      rw [List.getElem?_eq_none (by omega)]
      rfl
  rw [fileNum, this, zeros_num]

/-- A file as it is read. -/
theorem file_read (kind : Nat) (l : List Part) (hk : kind < 256) (hl : l.length ≤ 64) (hn : (fileOf kind l).length ≤ 15_000)
    (h : ∀ i, i < l.length → (nth (0x100 + 80 * l.length) l i).2.1 < 256 ∧ (nth (0x100 + 80 * l.length) l i).2.2.1 < 65536 ∧
      (nth (0x100 + 80 * l.length) l i).1 < 2 ^ 32 ∧ (nth (0x100 + 80 * l.length) l i).2.2.2.length < 2 ^ 32) :
    parseStrata (fun i => (fileOf kind l).getD i 0) = readOf kind l := by
  have hs : ((List.range l.length).map fun i => parseEntry (fun i => (fileOf kind l).getD i 0) (0x100 + 80 * i)) =
      (placed (0x100 + 80 * l.length) l).map partOf := by
    apply List.ext_getElem
    · simp [placed_length]
    · intro i h1 h2
      simp only [List.length_map, List.length_range] at h1
      simp only [List.getElem_map, List.getElem_range]
      obtain ⟨a, b, c, d⟩ := h i h1
      rw [entry_read kind l i _ h1 rfl a b c d]
      simp only [List.length_map, placed_length] at h2
      simp [h2, placed_length]
  generalize hr : (placed (0x100 + 80 * l.length) l).flatMap entryBytes ++ l.flatMap (·.2.2) = r
  have hf : fileOf kind l = toBytes 4 0x5354_5241 ++ (toBytes 2 2 ++ (toBytes 2 l.length ++ (toBytes 4 9 ++ (toBytes 4 3 ++
      (toBytes 8 20_000 ++ (toBytes 1 7 ++ (toBytes 1 kind ++ (List.replicate 38 0 ++ (List.replicate 64 0 ++
        (List.replicate 128 0 ++ r)))))))))) := by
    rw [← hr, fileOf, headOf, show (230 : Nat) = 38 + (64 + 128) from rfl, List.replicate_add, List.replicate_add]
    simp only [List.append_assoc]
  have m0 := num_in (fileOf kind l) [] _ 0 4 0x5354_5241 hf rfl (by decide)
  have m4 := num_in (fileOf kind l) (toBytes 4 0x5354_5241) _ 4 2 2 hf (by simp [toBytes_len]) (by decide)
  have m6 := num_in (fileOf kind l) (toBytes 4 0x5354_5241 ++ toBytes 2 2) _ 6 2 l.length (by
    rw [hf]; simp only [List.append_assoc]; rfl) (by simp [toBytes_len]) (by omega)
  have m8 := num_in (fileOf kind l) (toBytes 4 0x5354_5241 ++ toBytes 2 2 ++ toBytes 2 l.length) _ 8 4 9 (by
    rw [hf]; simp only [List.append_assoc]; rfl) (by simp [toBytes_len]) (by decide)
  have mC := num_in (fileOf kind l) (toBytes 4 0x5354_5241 ++ toBytes 2 2 ++ toBytes 2 l.length ++ toBytes 4 9) _ 0xC 4 3 (by
    rw [hf]; simp only [List.append_assoc]; rfl) (by simp [toBytes_len]) (by decide)
  generalize hp : toBytes 4 0x5354_5241 ++ toBytes 2 2 ++ toBytes 2 l.length ++ toBytes 4 9 ++ toBytes 4 3 = p at *
  have hpl : p.length = 16 := by rw [← hp]; simp [toBytes_len]
  have hg : fileOf kind l = p ++ (toBytes 8 20_000 ++ (toBytes 1 7 ++ (toBytes 1 kind ++ (List.replicate 38 0 ++
      (List.replicate 64 0 ++ (List.replicate 128 0 ++ r)))))) := by rw [hf, ← hp]; simp only [List.append_assoc]
  have m10 := num_in (fileOf kind l) p _ 0x10 8 20_000 hg (by simp [hpl]) (by decide)
  have m18 := num_in (fileOf kind l) (p ++ toBytes 8 20_000) _ 0x18 1 7 (by
    rw [hg]; simp only [List.append_assoc]; rfl) (by simp [hpl, toBytes_len]) (by decide)
  have m19 := num_in (fileOf kind l) (p ++ toBytes 8 20_000 ++ toBytes 1 7) _ 0x19 1 kind (by
    rw [hg]; simp only [List.append_assoc]; rfl) (by simp [hpl, toBytes_len]) hk
  generalize hq : p ++ toBytes 8 20_000 ++ toBytes 1 7 ++ toBytes 1 kind = q
  have hql : q.length = 26 := by rw [← hq]; simp [hpl, toBytes_len]
  have hz : fileOf kind l = q ++ (List.replicate 38 0 ++ (List.replicate 64 0 ++ (List.replicate 128 0 ++ r))) := by
    rw [hg, ← hq]; simp only [List.append_assoc]
  have z1 := bytes_in (fileOf kind l) q (List.replicate 38 0) _ 0x1A 38 hz (by simp [hql]) (by simp)
  have z2 := bytes_in (fileOf kind l) (q ++ List.replicate 38 0) (List.replicate 64 0) (List.replicate 128 0 ++ r) 0x40 64 (by
    rw [hz]; simp only [List.append_assoc]) (by simp [hql]) (by simp)
  have z3 := bytes_in (fileOf kind l) (q ++ List.replicate 38 0 ++ List.replicate 64 0) (List.replicate 128 0) r 0x80 128 (by
    rw [hz]; simp only [List.append_assoc]) (by simp [hql]) (by simp)
  have k1 := num_beyond (fileOf kind l) (20_000 - sigBlock) 32 (by simp only [sigBlock]; omega)
  have k2 := num_beyond (fileOf kind l) (20_000 - 13) 13 (by omega)
  have e1 : fileNum (fun i => (fileOf kind l).getD i 0) 0x1A 38 = 0 := by rw [fileNum, z1, zeros_num]
  have e2 : fileNum (fun i => (fileOf kind l).getD i 0) 0x40 64 = 0 := by rw [fileNum, z2, zeros_num]
  have e3 : fileNum (fun i => (fileOf kind l).getD i 0) 0x80 128 = 0 := by rw [fileNum, z3, zeros_num]
  simp only [parseStrata, m0, m4, m6, m8, mC, m10, m18, m19, k1, k2, e1, e2, e3, Nat.min_eq_left hl, hs]
  rfl
/-! Lifecycle -/

/-- An image that passes every check of R597. -/
def goodImage : ImageCopy := ⟨true, true, 1, 7, 5, 1, [(1, 1, 3, 0, 0), (2, 1, 2, 1, 2), (3, 1, 2, 1, 2), (4, 1, 2, 1, 2), (5, 1, 2, 0, 0)]⟩

/-- An image whose signature is not good. -/
def badImage : ImageCopy := { goodImage with sigOk := false }

/-- Meets the hypotheses of ResetsComplete, ResetsClearTheRadio. -/
theorem witness_resets : (run []).canonical ∧ (run []).runs = true ∧ (run []).dev.writing = none ∧ 10_000 ≤ 10_000 ∧
    0xA502 % 4 = 2 ∧ 0xA502 / 256 % 256 = 0xA5 ∧ 0xA501 % 4 = 1 ∧ 0xA501 / 256 % 256 = 0xA5 ∧ 599 < 600 ∧ 1000 ≤ 1000 := by
  simp only [State.canonical]
  decide +kernel

/-- Meets the hypotheses of BootPhasesComplete (ROM_DONE). -/
theorem witness_rom : (st []).runs = true ∧ (st []).rd R.DEV_STATUS_PHASE = 1 ∧
    (st []).dev.resetEnd + (st []).bootWait ≤ max (st []).now 2_000 ∧ (st []).dev.stop = .none ∧
    (st []).pickCopy ((st []).copyGood 0) goodImage badImage = some (goodImage, false) ∧
    (st []).pickCopy ((st []).copyGood 0) badImage badImage = none := by decide +kernel

/-- BOOT with Agate running. -/
def bootState : State := { st [(R.DEV_STATUS_PHASE, 2), (R.FW_CORE_STATUS_STATE 0, 1)] with
  sec := { State.reset.sec with agate := some goodImage } }

/-- A manufacturing record of grade A: the last tile and vault of each sector unused. -/
def partMap : PartMap := ⟨0, (List.range 8).map (fun n => n * 17 + 16), (List.range 8).map (fun n => n * 19 + 16), [], 800⟩

theorem part_each {α β : Type} (p : State → β) (g : State → α → State) (l : List α) (h : ∀ t x, p (g t x) = p t) (s : State) :
    p (s.each l g) = p s := by
  induction l generalizing s with
  | nil => rfl
  | cons a l ih => exact (ih (g s a)).trans (h s a)

theorem boot_straps : ((bootState.atTime 1).readMap partMap).rd R.DEV_STRAP_STRAPS = 0 := by
  simp only [State.readMap, State.putWords]
  rw [part_each (·.rd _), part_each (·.rd _)]
  · decide +kernel
  · exact fun t i => State.rd_wr_addr _ _ _ _ (by simp only [R.DEV_STRAP_STRAPS, R.SEC_DEVICE_ID_ID]; omega)
  · exact fun t i => State.rd_wr_addr _ _ _ _ (by simp only [R.DEV_STRAP_STRAPS, R.TILE_ARRAY_STATUS_STATE]; omega)

theorem boot_counters : ((bootState.atTime 1).readMap partMap).flash.counters = [] := by
  simp only [State.readMap, State.putWords]
  rw [part_each (·.flash.counters), part_each (·.flash.counters)]
  · rfl
  all_goals exact fun _ _ => rfl

/-- Meets the hypotheses of BootPhasesComplete (BOOT_DONE). -/
theorem witness_boot : bootState.runs = true ∧ bootState.rd R.DEV_STATUS_PHASE = 2 ∧ bootState.agateUp = true ∧
    (∀ n, ((bootState.atTime 1).readMap partMap).pickCopy (((bootState.atTime 1).readMap partMap).copyGood n)
      badImage goodImage = some (goodImage, true)) ∧ mapLegal partMap = true ∧ bootState.dev.stop = .none ∧
    bootState.rd R.DEV_STRAP_STRAPS / 2 % 2 = 0 ∧
    (∀ e ∈ [(1, goodImage), (2, goodImage), (3, goodImage), (4, goodImage)], e.2.sigOk = true ∧ e.2.formOk = true ∧
      bootState.counter 5 ≤ e.2.keySvn ∧ bootState.counter e.1 ≤ e.2.svn) ∧
    (setLevels (bootState.sec.agate.getD ⟨true, true, 0, 0, 0, 0, []⟩) goodImage goodImage goodImage).isSome = true ∧
    mapLegal { partMap with vaults := [] } = false := by
  refine ⟨by decide +kernel, by decide +kernel, by decide +kernel, fun n => ?_, ?_⟩
  · simp [State.pickCopy, boot_straps, State.copyGood, State.signed, State.counter, boot_counters, badImage, goodImage, tblGet, tblFind]
  · decide +kernel

/-- The sections of a full image without radio: every tile in use, the planes of every stop those of its domain. -/
def fullParts : List Part :=
  [(1, 0, List.replicate 140 0 ++ ((List.range 152).map fun v => if radioVault v then 1 else 0) ++ List.replicate 16 1 ++
      List.replicate 16 0 ++ List.replicate 16 1 ++ List.replicate 16 0),
   (2, 0, List.replicate 140 0), (3, 1, List.replicate 68 0), (3, 3, List.replicate 68 0), (3, 5, List.replicate 68 0),
   (4, 0, List.replicate 4 0), (4, 8, List.replicate 4 0), (4, 16, List.replicate 4 0), (4, 24, List.replicate 4 0),
   (5, 0, [0, 0, 0, 0, 1, 0] ++ (List.range 160).map fun k => if k % 20 = 17 || k % 20 = 18 then 5 else 6)]

/-- BUILD with Agate running, on an owned device whose flash holds the full image as its primary copy. -/
def buildState : State := { st [(R.DEV_STATUS_PHASE, 3), (R.FW_CORE_STATUS_STATE 0, 1), (R.SEC_STATUS_OWNED, 1)] with
  dev := { State.reset.dev with map := partMap }, flash := { FlashState.blank with keys := [(0, ⟨0, 1, true⟩)] },
  mem := cells (flashKey (strataAt false)) (fileOf 0 fullParts) }

theorem build_file : (buildState.atTime 1).nextEpoch.flashStrata false = readOf 0 fullParts := by
  have h : ∀ i, (buildState.atTime 1).nextEpoch.byte (flashKey (strataAt false + i)) = (fileOf 0 fullParts).getD i 0 := by
    intro i
    have hm : (buildState.atTime 1).nextEpoch.mem = cells (flashKey (strataAt false)) (fileOf 0 fullParts) := rfl
    rw [State.byte, hm, show flashKey (strataAt false + i) = flashKey (strataAt false) + i from (Nat.add_assoc _ _ _).symm, cells_get]
  rw [State.flashStrata, funext h]
  exact file_read 0 fullParts (by decide) (by decide) (by decide +kernel) (by decide +kernel)

/-- Meets the hypotheses of BootPhasesComplete (BUILD_DONE). -/
theorem witness_build : buildState.runs = true ∧ buildState.rd R.DEV_STATUS_PHASE = 3 ∧ buildState.agateUp = true ∧
    buildState.dev.stop = .none ∧ (buildState.atTime 1).nextEpoch.rd R.SEC_STATUS_OWNED ≠ 0 ∧
    (buildState.atTime 1).nextEpoch.rd R.DEV_STRAP_STRAPS / 2 % 2 = 0 ∧
    (buildState.atTime 1).nextEpoch.flashStrata false = readOf 0 fullParts ∧ headerOk (readOf 0 fullParts) = true ∧
    (readOf 0 fullParts).kind = 0 ∧ (readOf 0 fullParts).baseDigest = 0 ∧
    (buildState.atTime 1).nextEpoch.keyMay 0 0 = true ∧
    ((buildState.atTime 1).nextEpoch.ownerSlot 0).id = (readOf 0 fullParts).keyId ∧
    (buildState.atTime 1).nextEpoch.counter 6 ≤ (readOf 0 fullParts).rollback ∧
    (buildState.atTime 1).nextEpoch.imageBroken (readOf 0 fullParts) = false := by
  refine ⟨?_, ?_, ?_, ?_, ?_, ?_, build_file, ?_, rfl, rfl, ?_, ?_, ?_, ?_⟩ <;> decide +kernel

theorem build_digests : ∀ x, x ∈ (readOf 0 fullParts).sections → x.digest = x.found := by
  intro x hx
  obtain ⟨e, _, rfl⟩ := List.mem_map.mp hx
  rfl

/-- Meets the hypotheses of BootPhasesComplete (BUILD_DONE, the copy picked). -/
theorem witness_buildPicks : ∃ c, (buildState.atTime 1).nextEpoch.pickCopy (buildState.atTime 1).nextEpoch.strataGood
    ((buildState.atTime 1).nextEpoch.flashStrata false, true) ((buildState.atTime 1).nextEpoch.flashStrata true, false) = some c ∧
    (buildState.atTime 1).nextEpoch.imageBroken c.1.1 = false := by
  obtain ⟨_, _, _, _, _, hs, _, hh, hk, hb, h1, h2, h3, h4⟩ := witness_build
  have hg : (buildState.atTime 1).nextEpoch.strataGood (readOf 0 fullParts, true) = true := by
    have hd : (readOf 0 fullParts).sections.all (·.digestOk) = true :=
      List.all_eq_true.mpr fun x hx => by simp [Section.digestOk, build_digests x hx]
    have hf : ((buildState.atTime 1).nextEpoch.signerOf (readOf 0 fullParts)).isSome = true := by decide +kernel
    simp [State.strataGood, State.strataSigned, hh, hk, hb, hd, hf, h3]
  exact ⟨((readOf 0 fullParts, true), false), by simp [build_file, State.pickCopy, hs, hg], h4⟩

/-- Meets the hypotheses of BootPhasesComplete (BUILD_DONE without an owner). -/
theorem witness_unowned : (st [(R.DEV_STATUS_PHASE, 3), (R.FW_CORE_STATUS_STATE 0, 1)]).runs = true ∧
    (st [(R.DEV_STATUS_PHASE, 3), (R.FW_CORE_STATUS_STATE 0, 1)]).agateUp = true ∧
    (st [(R.DEV_STATUS_PHASE, 3), (R.FW_CORE_STATUS_STATE 0, 1)]).rd R.DEV_STATUS_PHASE = 3 ∧
    (st [(R.DEV_STATUS_PHASE, 3), (R.FW_CORE_STATUS_STATE 0, 1)]).rd R.SEC_STATUS_OWNED = 0 := by decide +kernel

/-- RUN with time locked, a radio unit that has been READY and cluster 0 (µ 1) holding the tables of the next 8 slots, at the GPS
epoch. -/
def readyState : State := { (airState [(R.TIME_STATUS_TIME_LOCK, 1), (R.DEV_STATUS_RADIO_READY, 0)]
    { ClusterState.reset with tables := (List.range 8).map fun i => slotTab (i + 1) }) with
  air := { State.reset.air with discovered := true } }

/-- A state in a phase. -/
def inPhase (p : Nat) (stop : StopState) : State := { st [(R.DEV_STATUS_PHASE, p)] with dev := { State.reset.dev with stop := stop } }

/-- Meets the hypotheses of RunEventsComplete. -/
theorem witness_runEvents :
    ((readyState.airTime 19_000_000_000).rd R.DEV_STATUS_PHASE = 4 ∧ (readyState.airTime 19_000_000_000).dev.stop = .none ∧
      (readyState.airTime 19_000_000_000).rd R.DEV_STATUS_RADIO_READY = 0 ∧
      (readyState.airTime 19_000_000_000).rd R.TIME_STATUS_TIME_LOCK = 1 ∧ (readyState.airTime 19_000_000_000).air.discovered = true ∧
      (readyState.airTime 19_000_000_000).preloaded = true ∧ (readyState.airTime 19_000_000_000).eightReady 0 = true ∧
      (readyState.airTime 19_000_000_000).atSlot ((readyState.airTime 19_000_000_000).clusterMu 0) = true) ∧
    ((inPhase 4 .none).rd R.DEV_STATUS_PHASE = 4 ∧ (inPhase 4 .none).dev.stop = .none ∧ ((inPhase 4 .none).atTime 0).slotGrid = 0 ∧
      (inPhase 4 .none).rd R.DEV_STATUS_RADIO_READY = 0) ∧
    ((inPhase 4 .owner).rd R.DEV_STATUS_PHASE = 4 ∧ (inPhase 4 .owner).dev.stop = .owner ∧ (inPhase 4 .owner).dev.radioStopAt = none ∧
      (inPhase 4 .owner).jobsEnded = true) ∧
    ((inPhase 3 .none).dev.stop = .none ∧ (inPhase 3 .none).rd R.DEV_STATUS_PHASE < 4) ∧
    ((((inPhase 5 .none).atTime 1).settleStop.passStop).rd R.DEV_STATUS_PHASE = 5 ∧
      (((inPhase 5 .none).atTime 1).settleStop.passStop).jobsEnded = true ∧
      (((inPhase 5 .none).atTime 1).settleStop.passStop).dev.radioStopAt = none) := by decide +kernel
/-! Registers, the Strata image, commits and slices -/

/-- What a write of a register that `p` describes needs. -/
def regTo (s : State) (who : Sender) (f : Fld) (width : Nat) (p : RegAt → Bool) : Bool := (s.regAt who f.addr width).any p

/-- RUN with slice 0 OPEN. -/
def openState : State := run [(R.SLICE_STATE_STATE 0, 2)]

/-- RUN with slice 0 OPEN and its memory request slot 0 BUSY. -/
def busyState : State := run [(R.SLICE_STATE_STATE 0, 2), (R.MEM_REQ_CTRL_GO 0 0, 1)]

/-- Meets the hypotheses of RegisterWriteCompletes. -/
theorem witness_registerWrite :
    regTo (run []) .owner R.DEV_FLASH_OFFSET_OFFSET 32 (fun x =>
      !ownCommand x.reg.name 1 && !(run []).heldField x && !allGrouped x.reg && ((run []).oddRequest x 1).isNone &&
        !(["MODEL_CTRL", "CQ_HEAD", "TILE_ARRAY_SHAPING", "STRATA_SWITCH_CTRL", "DEV_GPIO_OE", "DEV_GPIO_OUT"].contains x.reg.name)) = true ∧
    regTo (run []) .owner R.FW_LOG_SEL_SEQ 32 (fun x => ownCommand x.reg.name 1) = true ∧
    regTo busyState (.slice 0) (R.MEM_REQ_HANDLE_HANDLE 0 0) 32 (fun x => busyState.heldField x) = true ∧
    regTo openState (.slice 0) (R.JQ_BASE_ADDR 0 0) 64 (fun x => !ownCommand x.reg.name 1 && !openState.heldField x && !x.shadow &&
      allGrouped x.reg) = true ∧
    regTo openState (.slice 0) (R.MODEL_CTRL_ENABLE 0 0) 32 (fun x => x.reg.name == "MODEL_CTRL" && !ownCommand x.reg.name 1 &&
      !openState.heldField x && !allGrouped x.reg && (openState.oddRequest x 1).isNone && openState.rd (R.MODEL_CTRL_ENABLE 0 0) == 0) =
        true := by decide +kernel

/-- Meets the hypotheses of ReadsAndTurnedAwayAccessesComplete. -/
theorem witness_accesses :
    ((run []).regAt .owner R.DEV_FLASH_OFFSET_OFFSET.addr 32).isSome = true ∧
    ((run []).regAt (.slice 0) 0x50000 32 = none ∧ bar0Hole (.slice 0) 0x50000 = false) ∧
    (run []).rd (R.MESH_STOP_CTRL_ENABLED 2 159) = 0 ∧
    (hostState.hostReach = true ∧ hostState.boundSlice 0 0 = some 0 ∧
      (hostState.regAt (.slice 0) (R.JQ_BASE_ADDR 0 0).addr 64).any (fun r =>
        (hostState.sliceCommand 0 r ((R.JQ_BASE_ADDR 0 0).addr % 0x10_0000) 0 1).isNone) = true) := by decide +kernel

/-- A section image of one section that no rule rejects: the slice templates (kind 6), or the routes of plane 0 (3). -/
def deltaParts (kind : Nat) : List Part := [(kind, if kind = 3 then 1 else 0, List.replicate (if kind = 3 then 68 else 4) 0)]

/-- Its section as read. -/
def deltaSection (kind : Nat) : Section := partOf (nth 336 (deltaParts kind) 0)

/-- RUN with the section image in owner memory at 0 and in the given reload state. -/
def reloading (kind reload : Nat) : State :=
  let s := run [(R.FW_CORE_STATUS_STATE 0, 1), (R.STRATA_STATUS_RELOAD, reload), (R.DEV_STATUS_RADIO_READY, 1)]
  { s with strata := { s.strata with file := some (readOf 1 (deltaParts kind)), staged := if 2 ≤ reload then [deltaSection kind] else [] },
           flash := { FlashState.blank with keys := [(0, ⟨0, 1, true⟩)] }, mem := cells (ownerKey 0) (fileOf 1 (deltaParts kind)) }

theorem reload_file : (reloading 6 0).ownerFile ((reloading 6 0).rd R.STRATA_RELOAD_ADDR_ADDR) = readOf 1 (deltaParts 6) := by
  have h : ∀ i, (reloading 6 0).byte (ownerKey (0 + i)) = (fileOf 1 (deltaParts 6)).getD i 0 := by
    intro i
    have hm : (reloading 6 0).mem = cells (ownerKey 0) (fileOf 1 (deltaParts 6)) := rfl
    rw [State.byte, hm, show ownerKey (0 + i) = ownerKey 0 + i from (Nat.add_assoc _ _ _).symm, cells_get]
  have ha : (reloading 6 0).rd R.STRATA_RELOAD_ADDR_ADDR = 0 := by decide +kernel
  rw [ha, State.ownerFile, funext h]
  exact file_read 1 (deltaParts 6) (by decide) (by decide) (by decide +kernel) (by decide +kernel)

theorem badSection_one (x : Section) (l : List Section) (f : Section → Nat × Nat) (hl : l = [x]) (h : (f x).1 = 0) :
    badSection l f = none := by
  subst hl
  simp [badSection, h]

theorem reload_passes : ((reloading 6 0).atTime 1).reloadCode (readOf 1 (deltaParts 6)) true = (0, 0, 0) := by
  have hd : (deltaSection 6).digestOk = true := by simp [Section.digestOk, deltaSection, partOf]
  have hl : (readOf 1 (deltaParts 6)).sections = [deltaSection 6] := rfl
  unfold State.reloadCode
  simp only []
  rw [if_neg (by decide +kernel), badSection_one _ _ _ hl (by decide +kernel)]
  simp only []
  rw [if_neg (by decide +kernel), badSection_one _ _ _ hl (by simp [hd])]
  simp only []
  rw [if_neg (by decide +kernel), if_neg (by decide +kernel), badSection_one _ _ _ hl (by decide +kernel)]
  simp only []
  rw [badSection_one _ _ _ hl (by decide +kernel)]
  simp only []
  rw [badSection_one _ _ _ hl (by decide +kernel)]
  simp only []
  rw [if_neg (by decide +kernel), show doubledAt (readOf 1 (deltaParts 6)).sections = none by decide +kernel]
  simp only []
  rw [badSection_one _ _ _ hl (by decide +kernel)]
  simp only []
  rw [badSection_one _ _ _ hl (by decide +kernel)]

/-- Meets the hypotheses of StrataReloadCompletes. -/
theorem witness_reload :
    ((reloading 6 0).rd R.DEV_STATUS_PHASE = 4 ∧ (reloading 6 0).rd R.STRATA_STATUS_RELOAD = 0 ∧ (reloading 6 0).agateUp = true ∧
      (reloading 6 0).ownerFile ((reloading 6 0).rd R.STRATA_RELOAD_ADDR_ADDR) = readOf 1 (deltaParts 6) ∧
      ((reloading 6 0).atTime 1).reloadCode (readOf 1 (deltaParts 6)) true = (0, 0, 0)) ∧
    ((run [(R.FW_CORE_STATUS_STATE 0, 1)]).ownerFile 0).magic ≠ 0x5354_5241 ∧ (st []).rd R.DEV_STATUS_PHASE ≠ 4 ∧
    ((reloading 6 1).strata.file = some (readOf 1 (deltaParts 6)) ∧ (reloading 6 1).rd R.STRATA_STATUS_RELOAD = 1) ∧
    ((reloading 6 2).rd R.STRATA_STATUS_RELOAD = 2 ∧ (reloading 6 3).rd R.STRATA_STATUS_RELOAD = 3 ∧
      ((reloading 6 3).atTime 1).switchDue = true) := by
  refine ⟨⟨?_, ?_, ?_, reload_file, reload_passes⟩, ?_, ?_, ⟨rfl, ?_⟩, ?_⟩ <;> decide +kernel

/-- The delta of `reloading` with a switch requested at GPS second 1. -/
def switching (kind reload sfn slot : Nat) : State :=
  ((reloading kind reload).atTime 20_000_000_000).wrs
    [(R.STRATA_SWITCH_CTRL_KIND, if kind = 6 then 0 else 1), (R.STRATA_SWITCH_CTRL_SFN, sfn), (R.STRATA_SWITCH_CTRL_SLOT, slot)]

/-- A table whose old bank has `n` holders. -/
def oldTable (n : Nat) : TableState := { TableState.reset with fly1 := n, held := true }

/-- Meets the hypotheses of SwitchesAndDrainsComplete. -/
theorem witness_switch :
    ((switching 6 2 0 0).rd R.DEV_STATUS_PHASE = 4 ∧ (switching 6 2 0 0).rd R.STRATA_STATUS_RELOAD = 2 ∧
      (∀ x ∈ (switching 6 2 0 0).strata.staged, sectionBoundary x = 0) ∧ (switching 6 2 0 0).switchCode = (0, 0, 0)) ∧
    ((switching 3 2 101 79).rd R.DEV_STATUS_PHASE = 4 ∧ (switching 3 2 101 79).rd R.STRATA_STATUS_RELOAD = 2 ∧
      (∀ x ∈ (switching 3 2 101 79).strata.staged, sectionBoundary x = 1) ∧ (switching 3 2 101 79).switchCode = (0, 0, 0) ∧
      (switching 3 2 101 79).rd R.DEV_STATUS_RADIO_READY = 1 ∧
      (switching 3 2 101 79).gpsNs + 125_000 ≤ (switching 3 2 101 79).slot3Start 101 79) ∧
    ((reloading 6 3).rd R.STRATA_STATUS_RELOAD = 3 ∧ ((reloading 6 3).atTime 1).switchDue = true) ∧
    (∀ id ∈ [1, 10], (((run []).setTable id (oldTable 0)).table id).held = true ∧ (((run []).setTable id (oldTable 0)).table id).oldFly = 0 ∧
      (((run []).setTable id (oldTable 1)).table id).stalled = false ∧ (((run []).setTable id (oldTable 1)).table id).oldFly ≠ 0 ∧
      (((run []).setTable id (oldTable 1)).table id).switchedAt + 10_000_000 ≤
        max ((run []).setTable id (oldTable 1)).now 10_000_000) := by decide +kernel

/-- RUN with slice 0 OPEN and some commit under check and waiting. -/
def committing (l m : List Commit) : State :=
  let s := run [(R.SLICE_STATE_STATE 0, 2)]
  { s with strata := { s.strata with checking := l, waiting := m } }

/-- A commit of slice 0's ring group 0. -/
def ringCommit (group : Nat) : Commit := ⟨some 0, group, 0, 0, 7, [], 0⟩

/-- Meets the hypotheses of CommitsAndSnapshotsComplete. -/
theorem witness_commits :
    (((committing [] []).atTime 1).cgReached 1 = true ∧ (committing [] []).checkOf 1 = none ∧ (groupAt 1 0 0 0).isSome = true ∧
      (committing [] []).instOn 0 0 = true ∧ (committing [] []).waitingFor (cgSlice 1) 0 0 0 = none) ∧
    ((committing [ringCommit 0] []).checkOf 1 = some (ringCommit 0) ∧
      ((committing [ringCommit 0] []).atTime 1).commitCode (ringCommit 0) = (0, 0)) ∧
    ((committing [ringCommit 200] []).checkOf 1 = some (ringCommit 200) ∧
      (((committing [ringCommit 200] []).atTime 1).commitCode (ringCommit 200)).1 ≠ 0) ∧
    ((committing [] [⟨none, 0, 0x32, 0, 7, [], 0⟩]).waitingFor none 0x32 0 0 = some ⟨none, 0, 0x32, 0, 7, [], 0⟩ ∧
      ((committing [] [⟨none, 0, 0x32, 0, 7, [], 0⟩]).atTime 1).actPoint ⟨none, 0, 0x32, 0, 7, [], 0⟩ = true) ∧
    halfPage (R.JQ_BASE_ADDR 0 0).addr ≠ 0 := by decide +kernel

/-- RUN with one slice template and slice 63 in state `n`. -/
def sliceIn (n : Nat) : State :=
  (run [(R.SLICE_STATE_STATE 63, n)]).setTable 6 { TableState.reset with bank0 := List.replicate 10 0 ++ [1] }

/-- Meets the hypotheses of SliceCommandsComplete. -/
theorem witness_slices :
    ((sliceIn 0).rd R.DEV_STATUS_PHASE = 4 ∧ (sliceIn 0).rd (R.SLICE_STATE_STATE 63) = 0 ∧ (sliceIn 0).createCode 63 0 = 0) ∧
    ((sliceIn 1).rd (R.SLICE_STATE_STATE 63) = 1 ∧ (sliceIn 1).jasperDown = false) ∧
    ((sliceIn 2).rd R.DEV_STATUS_PHASE = 4 ∧ (sliceIn 2).rd (R.SLICE_STATE_STATE 63) = 2 ∧ (sliceIn 2).rd R.SLICECTL_STATUS_ACTIVE < 4) ∧
    ((sliceIn 3).rd (R.SLICE_STATE_STATE 63) = 3 ∧ (sliceIn 3).sliceClear 63 = true) ∧
    ((sliceIn 4).rd (R.SLICE_STATE_STATE 63) = 4 ∧ (sliceIn 4).sliceClear 63 = true) := by decide +kernel
/-! Tile commands -/

/-- COPY of 64 bytes from 0 to 64. -/
def copyWords : List (Nat × Nat) := [(0, 9), (0x14, 64), (0x20, 64)]

/-- SCALE_LOAD of 4,096 entries from address 0. -/
def scaleWords : List (Nat × Nat) := [(0, 4), (0x20, 4096 * 2 ^ 12)]

/-- XFER of 64 bytes to SRAM (DIR 0) or to memory (DIR 1) at VADDR 0. -/
def xferWords (dir : Nat) : List (Nat × Nat) := [(0, 0x0A), (0x28, 64 + dir * 2 ^ 22)]

/-- VEC with operation `op` on one FP32 element. -/
def vecWords (op : Nat) : List (Nat × Nat) := [(0, 6), (0x1C, 256), (0x20, op + 0x660)]

/-- SFU with function `fn` on one FP32 element. -/
def sfuWords (fn : Nat) : List (Nat × Nat) :=
  [(0, 7), (0x14, 256), (0x20, fn + 0x6600), (0x28, 0x1_0001)]

/-- The tile state of `tileWith`. -/
def tileOf (l : List (Nat × Nat)) : TileState :=
  { TileState.reset with q0 := { CmdQueue.empty with buf := [⟨0, entryOf l⟩], used := true }, job := some tileJob }

theorem tileWith_tile (r : List (Fld × Nat)) (l : List (Nat × Nat)) : (tileWith r l).tile 0 = tileOf l :=
  State.setTile_tile_same _ 0 (tileOf l)

/-- The command of `tileWith` has no rival: the other queues are empty. -/
theorem alone (r : List (Fld × Nat)) (l : List (Nat × Nat)) (u : TileUnit) (plan : State → Nat → TileJob → Inst → Option Plan) :
    (tileWith r l).outranked 0 0 0 tileJob u plan = false := by
  have h : ∀ k, k ∈ [1, 2, 3] → (tileWith r l).ready 0 k 0 = none := by
    intro k hk
    have hq : ((tileWith r l).queueIn 0 k 0).inst = none := by
      simp only [State.queueIn, State.failing, State.queue, tileWith_tile]
      simp only [List.mem_cons, List.not_mem_nil, or_false] at hk
      rcases hk with rfl | rfl | rfl <;> rfl
    rw [State.ready, hq]
    rfl
  simp [State.outranked, allQueues, h]


/-- Meets the hypotheses of TileMovesComplete. -/
theorem witness_tileMoves :
    ((tileAt copyWords).headReady 0 0 0 tileJob (instOf copyWords) ∧ (instOf copyWords).e.opcode = 9 ∧
      ((tileAt copyWords).copyPlan 0 0 0 tileJob (instOf copyWords)).passes) ∧
    ((tileAt scaleWords).headReady 0 0 0 tileJob (instOf scaleWords) ∧ (instOf scaleWords).e.opcode = 4 ∧
      ((tileAt scaleWords).scaleLoadPlan 0 0 0 tileJob (instOf scaleWords)).passes) ∧
    ((tileAt [(0, 0x0C)]).headReady 0 0 0 tileJob (instOf [(0, 0x0C)]) ∧ (instOf [(0, 0x0C)]).e.opcode = 0x0C ∧
      (syncPlan tileJob (instOf [(0, 0x0C)])).passes) ∧
    (∀ r l u plan, (tileWith r l).outranked 0 0 0 tileJob u plan = false) := by
  simp only [State.headReady, Plan.passes]
  refine ⟨?_, ?_, ?_, alone⟩ <;> decide +kernel

/-- `tileAt` with an XFER, the inference plane given to the tile's stop (1) or not (0). -/
def xferState (dir on : Nat) : State := tileWith [(R.MESH_STOP_CTRL_ENABLED 1 (meshStop 0), on)] (xferWords dir)

/-- Meets the hypotheses of TileMovesComplete (XFER). -/
theorem witness_transfers :
    (∀ dir ∈ [0, 1], ∀ on ∈ [0, 1],
    (xferState dir on).headReady 0 0 0 tileJob (instOf (xferWords dir)) ∧ (instOf (xferWords dir)).e.opcode = 0x0A ∧
      (instOf (xferWords dir)).e.fld 0x28 22 1 = (if (dir == 1) then 1 else 0) ∧
      (xferState dir on).rd (R.MESH_STOP_CTRL_ENABLED 1 (meshStop 0)) = on ∧
      ((xferState dir on).xferPlan 0 0 (dir == 1) tileJob (instOf (xferWords dir))).passes) ∧
    (∀ r l u plan, (tileWith r l).outranked 0 0 0 tileJob u plan = false) := by
  simp only [State.headReady, Plan.passes]
  exact ⟨by decide +kernel, alone⟩

/-- Meets the hypotheses of VectorAndFunctionCommandsComplete (VEC). -/
theorem witness_vectors :
    (∀ op ∈ List.range 10,
    (tileAt (vecWords op)).headReady 0 0 0 tileJob (instOf (vecWords op)) ∧ (instOf (vecWords op)).e.opcode = 6 ∧
      (instOf (vecWords op)).e.fld 0x20 0 4 = op ∧
      ((tileAt (vecWords op)).vecPlan 0 0 0 op tileJob (instOf (vecWords op))).passes) ∧
    (∀ r l u plan, (tileWith r l).outranked 0 0 0 tileJob u plan = false) := by
  simp only [State.headReady, Plan.passes]
  exact ⟨by decide +kernel, alone⟩

/-- Meets the hypotheses of VectorAndFunctionCommandsComplete (SFU). -/
theorem witness_functions :
    (∀ fn ∈ List.range 11,
    (tileAt (sfuWords fn)).headReady 0 0 0 tileJob (instOf (sfuWords fn)) ∧ (instOf (sfuWords fn)).e.opcode = 7 ∧
      (instOf (sfuWords fn)).e.fld 0x20 0 5 = fn ∧ (instOf (sfuWords fn)).e.fld 0x20 16 2 = 0 ∧
      ((tileAt (sfuWords fn)).sfuPlan 0 0 0 fn tileJob (instOf (sfuWords fn))).passes) ∧
    (∀ r l u plan, (tileWith r l).outranked 0 0 0 tileJob u plan = false) := by
  simp only [State.headReady, Plan.passes]
  exact ⟨by decide +kernel, alone⟩

/-- SOFTMAX of one FP32 element. -/
def softWords : List (Nat × Nat) := [(0, 7), (0x14, 256), (0x20, 0x0A + 0x6600), (0x28, 0x1_0001)]

/-- NORM with APPLY on one FP32 element. -/
def normWords : List (Nat × Nat) := [(0, 8), (0x14, 256), (0x20, 0x66 + 2 ^ 12), (0x28, 0x1_0001)]

/-- QUANT of one BF16 element to format 0. -/
def quantWords : List (Nat × Nat) := [(0, 5), (0x14, 256), (0x20, 6), (0x2C, 0x1_0001)]

/-- Meets the hypotheses of VectorAndFunctionCommandsComplete (SOFTMAX, NORM, QUANT). -/
theorem witness_rows :
    ((tileAt softWords).headReady 0 0 0 tileJob (instOf softWords) ∧ (instOf softWords).e.opcode = 7 ∧
      (instOf softWords).e.fld 0x20 0 5 = 0x0A ∧ (instOf softWords).e.fld 0x20 16 1 = 0 ∧ (instOf softWords).e.fld 0x20 17 1 = 0 ∧
      ((tileAt softWords).sfuPlan 0 0 0 0x0A tileJob (instOf softWords)).passes) ∧
    ((tileAt normWords).headReady 0 0 0 tileJob (instOf normWords) ∧ (instOf normWords).e.opcode = 8 ∧
      ((tileAt normWords).normPlan 0 0 0 tileJob (instOf normWords)).passes) ∧
    ((tileAt quantWords).headReady 0 0 0 tileJob (instOf quantWords) ∧ (instOf quantWords).e.opcode = 5 ∧
      ((tileAt quantWords).quantPlan 0 0 0 tileJob (instOf quantWords)).passes) ∧
    (∀ r l u plan, (tileWith r l).outranked 0 0 0 tileJob u plan = false) := by
  simp only [State.headReady, Plan.passes]
  refine ⟨?_, ?_, ?_, alone⟩ <;> decide +kernel

/-- MATMUL of one BF16 product, the array at full level. -/
def matWords : List (Nat × Nat) := [(0, 1), (0x14, 512), (0x24, 0x55), (0x30, 1)]

/-- ACC_READ or ACC_LOAD of one FP32 element. -/
def accWords (op : Nat) : List (Nat × Nat) := [(0, op), (0x20, 6 * 2 ^ 16), (0x24, 1)]

/-- SEAM of one FP32 result from format 0 by format 0 on the home vault. -/
def seamWords : List (Nat × Nat) := [(0, 0x0B), (0x14, 256), (0x2C, 6 * 2 ^ 16), (0x30, 0x1_0000), (0x34, 1)]

/-- Tile 0 driving its home vault. -/
def seamState : State := tileWith [(R.VAULT_SEAM_STATUS_DRIVER_VALID ((tileAt []).homeVault 0), 1),
  (R.VAULT_SEAM_STATUS_DRIVER ((tileAt []).homeVault 0), 0)] seamWords

/-- Meets the hypotheses of ArrayAndSeamCommandsComplete. -/
theorem witness_array :
    ((tileWith [(R.TILE_ARRAY_STATUS_LEVEL 0, 16)] matWords).headReady 0 0 0 tileJob (instOf matWords) ∧
      (instOf matWords).e.opcode = 1 ∧
      ((tileWith [(R.TILE_ARRAY_STATUS_LEVEL 0, 16)] matWords).matmulPlan 0 0 0 0 false tileJob (instOf matWords)).passes) ∧
    ((tileAt (accWords 2)).headReady 0 0 0 tileJob (instOf (accWords 2)) ∧ (instOf (accWords 2)).e.opcode = 2 ∧
      ((tileAt (accWords 2)).accReadPlan 0 0 0 tileJob (instOf (accWords 2))).passes) ∧
    ((tileAt (accWords 3)).headReady 0 0 0 tileJob (instOf (accWords 3)) ∧ (instOf (accWords 3)).e.opcode = 3 ∧
      ((tileAt (accWords 3)).accLoadPlan 0 0 0 tileJob (instOf (accWords 3))).passes) ∧
    (seamState.headReady 0 0 0 tileJob (instOf seamWords) ∧ (instOf seamWords).e.opcode = 0x0B ∧
      (seamState.seamPlan 0 0 0 0 false tileJob (instOf seamWords)).passes ∧
      seamState.seamBad 0 (instOf seamWords).seam = none) ∧
    (∀ r l u plan, (tileWith r l).outranked 0 0 0 tileJob u plan = false) := by
  simp only [State.headReady, Plan.passes]
  refine ⟨?_, ?_, ?_, ?_, alone⟩ <;> decide +kernel

/-- LOOP over one entry, once. -/
def loopWords : List (Nat × Nat) := [(0, 0x0D), (0x10, 2 ^ 16)]

/-- BANKS on bank 0 to target state `tgt`. -/
def banksWords (tgt : Nat) : List (Nat × Nat) := [(0, 0x0F), (0x20, 1 + tgt * 2 ^ 24)]

/-- Meets the hypotheses of TileControlAndEventsComplete (LOOP, STOP, BANKS). -/
theorem witness_control :
    ((tileAt loopWords).headReady 0 0 0 tileJob (instOf loopWords) ∧ (instOf loopWords).e.headerBad = false ∧
      (instOf loopWords).e.bareBad = false ∧ (instOf loopWords).e.opcode = 0x0D ∧ (instOf loopWords).e.fld 0x10 16 6 ≠ 0 ∧
      ((tileAt loopWords).queue 0 0).frames = [] ∧ (instOf loopWords).e.clearBut [(0x10, 0, 22), (0x14, 0, 24), (0x18, 0, 24),
        (0x1C, 0, 24), (0x20, 0, 24), (0x24, 0, 16)] = true) ∧
    ((tileAt [(0, 0x0E)]).headReady 0 0 0 tileJob (instOf [(0, 0x0E)]) ∧ (instOf [(0, 0x0E)]).e.headerBad = false ∧
      (instOf [(0, 0x0E)]).e.bareBad = false ∧ (instOf [(0, 0x0E)]).e.opcode = 0x0E ∧ (instOf [(0, 0x0E)]).e.clearBut [] = true ∧
      (tileAt [(0, 0x0E)]).queueDrained 0 0 = true) ∧
    (∀ tgt ∈ [0, 1, 2], (tileAt (banksWords tgt)).headReady 0 0 0 tileJob (instOf (banksWords tgt)) ∧
      (instOf (banksWords tgt)).e.headerBad = false ∧ (instOf (banksWords tgt)).e.bareBad = false ∧
      (instOf (banksWords tgt)).e.opcode = 0x0F ∧ (instOf (banksWords tgt)).e.fld 0x20 24 2 = tgt ∧
      ((tileAt (banksWords tgt)).banksPlan 0 0 0 tgt tileJob (instOf (banksWords tgt))).passes) := by
  simp only [State.headReady, Plan.passes]
  decide +kernel

/-- A command of queue 0 on the copy unit that has run its time. -/
def doneCmd : RunCmd := (instOf copyWords).onUnit 0 0 .copy 6 [] []

/-- A transfer of queue 0 to memory. -/
def outXfer : XferRec := ⟨0, 0, 0, true, 0, 0, 64, 0, 0, some (2, false), ⟨false, false, 0, 0, 0⟩⟩

/-- Tile 0 with a command ended, a transfer, a remote signal to counter 63 and bank 23 on its way to OFF. -/
def busyTile (cmds : List RunCmd) : State := (tileWith [(R.TILE_CMDQ_TAIL_TAIL 0 0, 2)] copyWords).setTile 0
  { (tileAt copyWords).tile 0 with running := cmds, xfers := [outXfer], inbound := [⟨63, 1, 0, 2, false⟩], bankMoves := [⟨23, 2, 0, 4⟩] }

/-- Meets the hypotheses of IssuedCommandLeavesQueue and TileControlAndEventsComplete (events). -/
theorem witness_tileEvents :
    (((tileAt copyWords).copyPlan 0 0 0 tileJob (instOf copyWords)).run.isSome = true ∧
      ((((tileAt copyWords).copyPlan 0 0 0 tileJob (instOf copyWords)).effect (tileAt copyWords)).tile 0).fail = none ∧
      (syncPlan tileJob (instOf [(0, 0x0C)])).run = none ∧
      ((tileAt [(0, 9)]).copyPlan 0 0 0 tileJob (instOf [(0, 9)])).code.isSome = true ∧
      ((tileAt [(0, 9)]).copyPlan 0 0 0 tileJob (instOf [(0, 9)])).hold = false) ∧
    ((busyTile []).tileOn 0 = true ∧ ((busyTile []).tile 0).job = some tileJob ∧ (busyTile []).mayIssue 0 0 9 = true) ∧
    ((busyTile []).rd (R.TILE_CMDQ_HEAD_HEAD 0 0) ≠ (busyTile []).rd (R.TILE_CMDQ_TAIL_TAIL 0 0) ∧
      (busyTile []).hMapped 0 ((busyTile []).ringEntry 0 0 ((busyTile []).rd (R.TILE_CMDQ_HEAD_HEAD 0 0))) 64 = true ∧
      (busyTile []).hFirstBad 0 ((busyTile []).ringEntry 0 0 ((busyTile []).rd (R.TILE_CMDQ_HEAD_HEAD 0 0))) 64 = none) ∧
    (((busyTile [doneCmd]).tile 0).running.find? (fun c => c.queue == 0 && c.index == 0 && c.unit != .banks) = some doneCmd ∧
      doneCmd.cyc + doneCmd.dur ≤ 9 ∧ doneCmd.code = 0 ∧ doneCmd.parityOf = 0 ∧ doneCmd.seam = none ∧ doneCmd.scaleOut = false ∧ doneCmd.record = []) ∧
    ((busyTile []).xferOf 0 0 0 9 = some (outXfer, false) ∧ (busyTile []).gen tileJob.holder = outXfer.gen ∧ outXfer.toMemory = true) ∧
    ((busyTile []).tile 0).inbound.find? (fun r => r.counter == 63 && r.earliest ≤ 9) = some ⟨63, 1, 0, 2, false⟩ ∧
    (((busyTile []).tile 0).bankMoves.find? (fun m => m.bank == 23) = some ⟨23, 2, 0, 4⟩ ∧ (busyTile []).bankInUse 0 23 = false ∧
      0 + 4 ≤ 9 ∧ ((busyTile []).tile 0).running = []) ∧
    ((((busyTile []).showEngines 0 16).tile 0).gapFrom ≤ 16 ∧ (16 - (((busyTile []).showEngines 0 16).tile 0).gapFrom) % 16 = 0 ∧
      (((busyTile []).showEngines 0 16).tile 0).lastInt < 16 ∧
      (((busyTile []).showEngines 0 16).tile 0).gapFrom ≤ (((busyTile []).showEngines 0 16).tile 0).lastInt) := by
  decide +kernel
/-! Vaults and the memory manager -/

/-- Vault 151 with the window and relock bits, rate, and what waits of its writes given. -/
def streamVault (window relock rate : Nat) (x : VaultState) : State :=
  (run [(R.VAULT_PORT_MODE_RATE 151, rate), (R.VAULT_PORT_MODE_WINDOW 151, window), (R.VAULT_PORT_MODE_RELOCK 151, relock)]).setVault 151 x

/-- A vault with one line written at instant 0. -/
def oneLine : VaultState := { VaultState.reset with wq := [⟨0, 1, 0⟩] }

/-- A vault whose patrol stands at its last codeword. -/
def lastWord : VaultState := { VaultState.reset with patrolAt := 0x17F_FFFF }

/-- A vault asked to run in Stream mode. -/
def toStream : VaultState := { VaultState.reset with wantStream := true }

/-- Meets the hypotheses of VaultEventsComplete. -/
theorem witness_vaults :
    ((streamVault 0 0 1 oneLine).vaultOn 151 = true ∧ (streamVault 0 0 1 oneLine).rd (R.VAULT_PORT_MODE_WINDOW 151) = 0 ∧
      (streamVault 0 0 1 oneLine).rd (R.VAULT_PORT_MODE_RELOCK 151) = 0 ∧ (streamVault 0 0 1 oneLine).rd (R.VAULT_PORT_MODE_RATE 151) = 1 ∧
      ((streamVault 0 0 1 oneLine).atTime 20_000).windowDue 151 = true) ∧
    ((streamVault 1 1 1 oneLine).rd (R.VAULT_PORT_MODE_WINDOW 151) = 1 ∧ (streamVault 1 1 1 oneLine).rd (R.VAULT_PORT_MODE_RELOCK 151) = 1 ∧
      ((streamVault 1 1 1 oneLine).atTime 30).relocked 151 = true) ∧
    ((streamVault 1 0 1 oneLine).rd (R.VAULT_PORT_MODE_WINDOW 151) = 1 ∧ (streamVault 1 0 1 oneLine).rd (R.VAULT_PORT_MODE_RELOCK 151) = 0) ∧
    (((streamVault 0 0 0 toStream).vault 151).held = [] ∧ ((streamVault 0 0 0 toStream).vault 151).wantStream = true ∧
      (streamVault 0 0 0 toStream).rd (R.VAULT_PORT_MODE_WINDOW 151) = 0 ∧ (streamVault 0 0 0 toStream).rd (R.VAULT_PORT_MODE_RELOCK 151) = 0 ∧
      (streamVault 0 0 0 toStream).rd (R.VAULT_PORT_MODE_RATE 151) ≠ 1 ∧ (streamVault 0 1 0 toStream).rd (R.VAULT_PORT_MODE_RELOCK 151) = 1 ∧
      ((streamVault 0 1 0 toStream).atTime 30).relocked 151 = true) ∧
    ((run []).badAt 0 ((run []).vault 0).patrolAt = 0 ∧ ((run []).vault 0).patrolAt + 1 < 0x180_0000) ∧
    ((streamVault 0 0 0 lastWord).badAt 151 ((streamVault 0 0 0 lastWord).vault 151).patrolAt = 0 ∧
      ((streamVault 0 0 0 lastWord).vault 151).patrolAt + 1 = 0x180_0000) := by decide +kernel

/-- Slice 63, OPEN, with room for 10 slabs, holding an object of 2 slabs, and slot 15 filled for `op`. -/
def memState (op : Nat) : State :=
  (run [(R.SLICE_STATE_STATE 63, 2), (R.MEM_POOL_TOTAL_SLABS, 100), (R.MEM_POOL_FREE_SLABS, 100), (R.MEM_QUOTA_CEIL 63, 10),
    (R.MEM_REQ_HANDLE_HANDLE 63 15, if op = 1 then 0 else handleOf 63 0 1), (R.MEM_REQ_COUNT_COUNT 63 15, if op = 2 ∨ op = 3 then 0 else 1)]).setObject
      63 0 ⟨1, true, 0, 2, 0, 0⟩

/-- `memState` with the GO of slot 15 written. -/
def memGone (op : Nat) : State :=
  ((memState op).atTime 1).wrs [(R.MEM_REQ_CTRL_OP 63 15, op), (R.MEM_REQ_CTRL_TICKET 63 15, 7), (R.MEM_REQ_CTRL_HINT 63 15, 0),
    (R.MEM_REQ_CTRL_GO 63 15, 1)]

/-- Meets the hypotheses of MemoryRequestsComplete. -/
theorem witness_memoryRequests : (∀ op ∈ [1, 2, 3, 4], (memState op).sliceOpen 63 = true ∧ (memState op).rd (R.MEM_REQ_CTRL_GO 63 15) = 0 ∧
      (memState op).mm.reqs = [] ∧ (memGone op).jasperDown = false ∧ (memGone op).reqCheck 63 15 op = 0 ∧
      (∀ y ∈ List.range 64, (memGone op).used y ≤ (memGone op).rd (R.MEM_QUOTA_CEIL y))) ∧
    (memGone 1).shortBy 63 ((memGone 1).reqFields 63 15).count = 0 := by decide +kernel

/-- A move of slab 0 of slice 63 to vault 1, and a region of vault 151 on its way back to the pool, with transfers in flight. -/
def movingState (started released : Bool) (flights : List (Nat × Nat × Nat)) : State :=
  ({ run [(R.MEM_LEND_VALID 0, 1), (R.MEM_LEND_DEVICE 0, 7)] with mm := { MemState.reset with
    moves := [⟨63, 0, true, 16, 7, false, 1, 0, started, [], 0, false, [], 0, 0, 0⟩],
    old := [⟨151, 383, 0, true, released, false, flights⟩] } }).setTile 0
      { TileState.reset with xfers := [⟨0, 0, 0, true, 0, 0, 64, 0, 0, some (2, false), ⟨false, false, 0, 0, 0⟩⟩] }

/-- Meets the hypotheses of MovesAndRegionsComplete. -/
theorem witness_moves :
    ((movingState false false []).mm.moves.filter fun (m : Move) => m.sector == 7 && m.started).length < 4 ∧
    ((movingState false false []).nextMove 7).isSome = true ∧ ((movingState true false []).moveOf 63 0).isSome = true ∧
    (63, 0) ∉ (movingState true false []).mm.pins ∧
    (∀ o : OldRegion, o ∈ (movingState true false [(0, 0, 1)]).mm.old → ∀ f ∈ o.flights,
      (movingState true false [(0, 0, 1)]).inFlight f = false) ∧
    (∀ o : OldRegion, o ∈ (movingState true false [(0, 0, 0)]).mm.old → ∃ f ∈ o.flights,
      (movingState true false [(0, 0, 0)]).inFlight f = true) ∧
    (∃ o : OldRegion, o ∈ (movingState true true []).mm.old ∧ o.vault = 151 ∧ o.index = 383 ∧ o.released = true) ∧
    (∃ o : OldRegion, o ∈ (movingState true false []).mm.old ∧ o.vault = 151 ∧ o.index = 383 ∧ o.moved = true ∧ o.released = false ∧
      o.switchedAt + 10_000_000 ≤ max (movingState true false []).now 10_000_000) ∧ (run []).lendOf 255 = none ∧
    ((movingState true false []).rd (R.MEM_LEND_VALID 0) = 1 ∧ (movingState true false []).rd (R.MEM_LEND_DEVICE 0) = 7) := by
  decide +kernel

/-- Meets the hypotheses of StoresAndFieldWritesReadBack. -/
theorem witness_fields : R.PASID_ENTRY_PASID 0 ≠ R.PASID_ENTRY_SLICE 0 ∧
    (R.PASID_ENTRY_PASID 0).lo + (R.PASID_ENTRY_PASID 0).width ≤ 64 ∧
    (R.PASID_ENTRY_SLICE 0).addr = (R.PASID_ENTRY_PASID 0).addr ∧
    (R.PASID_ENTRY_PASID 0).lo + (R.PASID_ENTRY_PASID 0).width ≤ (R.PASID_ENTRY_SLICE 0).lo := by decide
/-! Jobs, sequences, deadlines and claims -/

/-- A neural primary of cluster 15 that ended with OK: FALLBACK_KIND 0x02. -/
def neuralDone : JobRec := { jobIn .ended (toBytes 44 0 ++ toBytes 84 2) with slice := 79, status := some 0 }

/-- Meets the hypotheses of JobQueueCommandsComplete. -/
theorem witness_queues :
    ((jobState [] (jobIn .waiting [])).sliceOpen 0 = true ∧ toField 32 ((16 : Int) - (jobState [] (jobIn .waiting [])).rd (R.JQ_HEAD_HEAD 0 31)) ≤
      2 ^ (jobState [] (jobIn .waiting [])).rd (R.JQ_SIZE_SIZE_LOG2 0 31)) ∧
    ((jobState [] (jobIn .ended [])).sched.jobs.find? (fun j => j.slice == 0 && j.queue == 0 && j.phase == .ended) = some (jobIn .ended []) ∧
      (jobState [] (jobIn .ended [])).gen 0 = (jobIn .ended []).gen ∧ (jobIn .ended []).hgen = 0 ∧
      (jobState [] (jobIn .ended [])).rd (R.CQ_BASE_ADDR 0 0) * 32 < 2 ^ 56 ∧
      (jobState [] (jobIn .ended [])).cqUsed 0 0 < 2 ^ (jobState [] (jobIn .ended [])).rd (R.CQ_SIZE_SIZE_LOG2 0 0)) ∧
    ((jobState [] neuralDone).sched.jobs.find? (fun j => j.slice == 79 && j.queue == 0 && j.phase == .ended) = some neuralDone ∧
      neuralDone.fbKind = 2 ∧ neuralDone.status = some 0) := by decide +kernel

/-- A REALTIME descriptor: DEADLINE at second 1, checkpoint 0 VALID with the given TARGET on tile 0, counter 0. -/
def realtimeDesc (target : Nat) : List (BitVec 8) :=
  toBytes 4 1 ++ toBytes 28 0 ++ toBytes 8 (2 ^ 32) ++ toBytes 24 0 ++ toBytes 8 (2 ^ 14 + target * 2 ^ 32) ++ toBytes 24 0

/-- A job held for its launch at second 1. -/
def heldJob (slack : Nat) : JobRec := { jobIn .held [] with launch := 2 ^ 32, slack := slack }

/-- `jobState` with queue 0 of tile 0 in use, and tile 0 free for slice 0. -/
def jobOn (j : JobRec) (stopped : Nat) : State :=
  (jobState [(R.SCHED_TILE_HOLDER 0, 0), (R.SCHED_TILE_STATE 0, 1), (R.TILE_CMDQ_STATUS_STATE 0 0, stopped)] j).setTile 0
    { TileState.reset with q0 := { CmdQueue.empty with used := true } }

/-- Meets the hypotheses of JobsRunAndLaunch (start, end, bound). -/
theorem witness_jobs :
    ((jobState [] (jobIn .placed [])).job 5 = some (jobIn .placed []) ∧
      ((jobState [] (jobIn .placed [])).atTime 1).tilesHalt (jobIn .placed []) = false ∧
      ((jobState [] (jobIn .placed [])).atTime 1).mayLoad (jobIn .placed []) = true) ∧
    ((jobOn (jobIn .running []) 3).job 5 = some (jobIn .running []) ∧ (jobOn (jobIn .running []) 3).firstFail (jobIn .running []) = none ∧
      (jobIn .running []).status = none ∧ (jobOn (jobIn .running []) 3).allStopped (jobIn .running []) = true) ∧
    ((jobOn (jobIn .running []) 1).allStopped (jobIn .running []) = false ∧ (jobIn .running []).realtime = false ∧
      (jobOn (jobIn .running []) 1).firstFail (jobIn .running []) = none ∧
      (jobIn .running []).startNs + (jobIn .running []).bound ≤ max (jobOn (jobIn .running []) 1).now 1000) ∧
    ((jobOn (jobIn .running (realtimeDesc 0)) 1).allStopped (jobIn .running (realtimeDesc 0)) = false ∧
      (jobIn .running (realtimeDesc 0)).realtime = true ∧ (jobIn .running (realtimeDesc 0)).fallback = false ∧
      (jobOn (jobIn .running (realtimeDesc 0)) 1).firstFail (jobIn .running (realtimeDesc 0)) = none) := by decide +kernel

/-- Meets the hypotheses of JobsRunAndLaunch (launch). -/
theorem witness_launch :
    ((jobOn (heldJob 0) 1).job 5 = some (heldJob 0) ∧
      ((jobOn (heldJob 0) 1).atTime 994_950_000).untilWord (heldJob 0).launch = 5_050_000) ∧
    (((jobOn (heldJob 0) 1).atTime 1_000_000_000).untilWord (heldJob 0).launch = 0 ∧
      ((jobOn (heldJob 0) 1).atTime 1_000_000_000).jasperDown = false ∧ (heldJob 0).mode / 16 % 2 = 0 ∧ (heldJob 0).hgen = 0 ∧
      ((jobOn (heldJob 0) 1).atTime 1_000_000_000).tilesHalt (heldJob 0) = false ∧
      ((jobOn (heldJob 0) 1).atTime 1_000_000_000).tileFree 0 0 = true) ∧
    ((heldJob 10).slack ≠ 0 ∧ ((jobOn (heldJob 10) 1).atTime 1_000_000_011).untilWord (heldJob 10).launch = -11) := by decide +kernel

/-- Meets the hypotheses of DeadlinesAndSuppliesComplete. -/
theorem witness_deadlines :
    ((jobOn (jobIn .running (realtimeDesc 0)) 1).job 5 = some (jobIn .running (realtimeDesc 0)) ∧
      (jobIn .running (realtimeDesc 0)).awaits 0 = true ∧
      (jobOn (jobIn .running (realtimeDesc 0)) 1).checkReached (jobIn .running (realtimeDesc 0)) 0 = true ∧
      0 ≤ ((jobOn (jobIn .running (realtimeDesc 0)) 1).atTime 1_000_000_000).beforeL (jobIn .running (realtimeDesc 0)) 0 ∧
      ((jobOn (jobIn .running (realtimeDesc 0)) 1).atTime 1_000_000_001).beforeL (jobIn .running (realtimeDesc 0)) 0 < 0 ∧
      (jobIn .running (realtimeDesc 0)).remain 0 = 0) ∧
    ((jobIn .running (realtimeDesc 1)).awaits 0 = true ∧
      ((jobOn (jobIn .running (realtimeDesc 1)) 1).atTime 1_000_000_000).checkReached (jobIn .running (realtimeDesc 1)) 0 = false ∧
      ((jobOn (jobIn .running (realtimeDesc 1)) 1).atTime 1_000_000_000).beforeL (jobIn .running (realtimeDesc 1))
        ((jobIn .running (realtimeDesc 1)).remain 0) ≤ 0) ∧
    ((jobState [] (jobIn .fallbackDue [])).job 5 = some (jobIn .fallbackDue []) ∧
      (∀ k, k ∈ (jobIn .fallbackDue []).tiles → (jobState [] (jobIn .fallbackDue [])).rd (R.TILE_ARRAY_STATUS_LEVEL k) = 0 ∧
        ((jobState [] (jobIn .fallbackDue [])).tile k).job = none)) ∧
    ((jobState [] (jobIn .classical (realtimeDesc 0))).job 5 = some (jobIn .classical (realtimeDesc 0)) ∧
      ((jobState [] (jobIn .classical (realtimeDesc 0))).atTime 1_000_000_000).untilWord (jobIn .classical (realtimeDesc 0)).deadline = 0) := by
  decide +kernel

/-- Slice 0 with two sequence entries, entry 1 in state `n`, model 0 ENABLED with room for its work list and step. -/
def seqState (n : Nat) : State :=
  ((run [(R.SLICE_STATE_STATE 0, 2), (R.SC_SEQ_SEQ_SHARE 0, 2), (R.SEQ_STATE_STATE 0 1, n), (R.MODEL_CTRL_ENABLE 0 0, 1),
    (R.MODEL_WLIST_LEN_BYTES 0 0, 64), (R.MODEL_STEP_DESC 0 0, 128)]).setHome 0 0 { HomeEntry.unmapped with state := .resident })

/-- Meets the hypotheses of SequenceCommandsComplete. -/
theorem witness_sequences :
    ((seqState 0).sliceOpen 0 = true ∧ 1 < (seqState 0).rd (R.SC_SEQ_SEQ_SHARE 0) ∧ (seqState 0).rd (R.SEQ_STATE_STATE 0 1) = 0) ∧
    ((seqState 2).workList 0 0 = ([1], []) ∧ (seqState 2).rd (R.MODEL_CTRL_ENABLE 0 0) = 1 ∧ (seqState 2).jasperDown = false ∧
      (seqState 2).sched.jobs = [] ∧ ((seqState 2).policyMode 0 ((seqState 2).vbytes 0 ((seqState 2).rd (R.MODEL_STEP_DESC 0 0)) 128) % 4 == 1) = false ∧ ((seqState 2).workBytes 0 0 false [1] []).length ≤ (seqState 2).rd (R.MODEL_WLIST_LEN_BYTES 0 0) ∧
      (seqState 2).addrOk 0 ((seqState 2).rd (R.MODEL_WLIST_ADDR 0 0)) 64 ((seqState 2).workBytes 0 0 false [1] []).length = true ∧
      (seqState 2).addrOk 0 ((seqState 2).rd (R.MODEL_STEP_DESC 0 0)) 64 128 = true) := by decide +kernel

/-- Swing tile 0 of slice 0, with the given claims and scrubs due. -/
def claimState (l : List Claim) (m : List Nat) : State :=
  { run [(R.FW_CORE_STATUS_STATE 5, 1), (R.SCHED_TILE_SWING 0, 1), (R.SCHED_TILE_HOLDER 0, 0)] with
    sched := { SchedState.reset with claims := l, scrubDue := m } }

/-- A claim of tile 0 by cluster 15, accepted at instant 0. -/
def claimed (done released : Bool) : Claim := ⟨0, 15, 0, done, released, false⟩

/-- Meets the hypotheses of ClaimsAndScrubsComplete. -/
theorem witness_claims :
    ((claimState [] []).flintUp = true ∧ (claimState [] []).rd R.POWER_STATUS_SHED_STEP < 7 ∧ (claimState [] []).tileOn 0 = true ∧
      (claimState [] []).rd (R.SCHED_TILE_SWING 0) = 1 ∧ (claimState [] []).rd (R.SCHED_TILE_HOLDER 0) < 64 ∧
      (claimState [] []).claimOf 0 = none) ∧
    ((claimState [claimed false false] []).claimOf 0 = some (claimed false false) ∧
      (claimState [claimed false false] []).tenantOn 0 = false ∧ ((claimState [claimed false false] []).tile 0).job = none ∧
      (claimState [claimed false false] []).rd (R.TILE_ARRAY_STATUS_LEVEL 0) = 0 ∧
      0 + 250_000 ≤ max (claimState [claimed false false] []).now 250_000) ∧
    ((claimState [claimed true false] []).claimOf 0 = some (claimed true false) ∧ (claimState [claimed true false] []).jobOn 0 = false ∧
      ((claimState [claimed true false] []).tile 0).job = none ∧
      (claimState [claimed true false] []).rd (R.TILE_ARRAY_STATUS_LEVEL 0) = 0) ∧
    ((claimState [claimed true true] []).tileOn 0 = true ∧ (claimState [claimed true true] []).claimOf 0 = some (claimed true true) ∧
      (claimState [claimed true true] []).jobOn 0 = false ∧ ((claimState [claimed true true] []).tile 0).job = none ∧
      (claimState [claimed true true] []).rd (R.TILE_ARRAY_STATUS_LEVEL 0) = 0) ∧
    (0 ∈ (claimState [] [0]).sched.scrubDue ∧ (claimState [] [0]).inReserve 0 = false ∧ (claimState [] [0]).claimOf 0 = none ∧
      (claimState [] [0]).tileOn 0 = true ∧ (claimState [] [0]).jobOn 0 = false ∧ ((claimState [] [0]).tile 0).job = none ∧
      (claimState [] [0]).rd (R.TILE_ARRAY_STATUS_LEVEL 0) = 0) := by
  decide +kernel

/-- Slice 0 with a waiting job in share group 0 of weight 3. -/
def supplyState : State := jobState [(R.SCHED_SG_WEIGHT_WEIGHT 0, 3)] (jobIn .waiting [])

/-- Meets the hypotheses of DeadlinesAndSuppliesComplete (ACCOUNTING_PERIOD). -/
theorem witness_supply : ((supplyState.atTime 1_000_000).supplyMark.periodNow ≠ (supplyState.atTime 1_000_000).supplyMark.sched.periodAt) ∧
    (List.range 256).filter (fun g => ({ (supplyState.atTime 1_000_000).supplyMark with
      sched := { (supplyState.atTime 1_000_000).supplyMark.sched with
        supply := 0, periodAt := (supplyState.atTime 1_000_000).supplyMark.periodNow } } : State).groupActive g) = [0] ∧
    ([0].map fun g => (supplyState.atTime 1_000_000).supplyMark.rd (R.SCHED_SG_WEIGHT_WEIGHT g)).sum = 3 := by decide +kernel
/-! The air interface -/

/-- `airState` with tables. -/
def tabState (l : List SlotTable) : State := airState [] { ClusterState.reset with tables := l }

/-- The SLOT_ID of slot 2003. -/
def slot2003 : Nat := slotId 1 2003

/-- An image of a table without entries for slot 2003. -/
def sealBytes : List (BitVec 8) := toBytes 4 slot2003 ++ List.replicate 60 0

/-- Meets the hypotheses of TablesAreBuilt. -/
theorem witness_tables :
    (bankNum sealBytes 0 4 = slot2003 ∧ bankNum sealBytes 4 2 = 0 ∧ ((tabState []).airTime 20_000_000_000).flintUp = true ∧
      ((tabState []).airTime 20_000_000_000).radioHalted = false ∧
      ((tabState []).airTime 20_000_000_000).clusterMu 0 = 1 ∧ ((tabState []).airTime 20_000_000_000).slotOf 1 slot2003 = 2003 ∧
      (1 == 3 || slot2003 != slotId 1 2003 || 2003 != max ((tabState []).airTime 20_000_000_000 |>.cluster 0).next
        (((tabState []).airTime 20_000_000_000).slotNow 1 + 3) || decide (((tabState []).airTime 20_000_000_000).gpsNs <
          (2003 - 9) * slotNs 1)) = false ∧
      decide (fireNs 1 2003 ≤ ((tabState []).airTime 20_000_000_000).gpsNs) = false ∧
      ((tabState []).airTime 20_000_000_000).entryCode 0 1 2003 0 (entriesOf ((sealBytes.drop 64).take (16 * 0))) false false = 0 ∧
      ((tabState []).airTime 20_000_000_000).entryCode 0 1 2003 0 (entriesOf ((sealBytes.drop 64).take (16 * 0))) true false ≠ 0) ∧
    (((tabState [slotTab 2003]).airTime 20_000_000_000).slotTable 0 2003 = some (slotTab 2003) ∧ (slotTab 2003).phase = 0 ∧
      ((tabState [slotTab 2003]).airTime 20_000_000_000).pastCutoff 1 2003 = false ∧
      ((tabState [slotTab 2003]).airTime 20_000_000_000).entryCode 0 1 2003 0 (entriesOf []) false false = 0) ∧
    (((tabState [slotTab 2003]).airTime 20_000_500_000).slotOf 1 slot2003 = 2003 ∧
      ((tabState [slotTab 2003]).airTime 20_000_500_000).pastCutoff 1 (slotTab 2003).slot = true) := by decide +kernel

/-- An entry with every field 0, and one that is conditional. -/
def tabEntry (cond : Bool) : TabEntry := ⟨if cond then 2 ^ 7 else 0, 0, 0⟩

/-- A fired table for slot 2003 with one entry, and the local carriers whose primary was aborted. -/
def firedTab (cond : Bool) (l : List Nat) : SlotTable := { slotTab 2003 with phase := 2, entries := [tabEntry cond], aborted := l }

/-- Meets the hypotheses of TablesRun. -/
theorem witness_tablesRun :
    (((tabState [slotTab 2003]).airTime 20_000_500_000).makeReady.clusterMu 0 = 1 ∧
      ((tabState [slotTab 2003]).airTime 20_000_500_000).makeReady.slotOf 1 slot2003 = 2003 ∧
      ((tabState [slotTab 2003]).airTime 20_000_500_000).makeReady.slotTable 0 2003 = some (slotTab 2003) ∧ (slotTab 2003).phase ≠ 2 ∧
      fireNs 1 2003 ≤ ((tabState [slotTab 2003]).airTime 20_000_500_000).makeReady.gpsNs ∧
      ((tabState [slotTab 2003]).airTime 20_000_500_000).makeReady.gpsNs < fireNs 1 2003 + slotNs 1 ∧
      ((tabState [slotTab 2003]).airTime 20_000_500_000).makeReady.rd R.DEV_STATUS_RADIO_READY ≠ 0) ∧
    (((tabState []).airTime 20_000_500_000).clusterMu 0 ≠ 3 ∧ fireNs 1 2003 ≤ ((tabState []).airTime 20_000_500_000).gpsNs ∧
      ((tabState []).airTime 20_000_500_000).slotTable 0 2003 = none ∧ (((tabState []).airTime 20_000_500_000).cluster 0).next ≤ 2003 ∧
      ((tabState []).airTime 20_000_500_000).rd R.DEV_STATUS_RADIO_READY ≠ 0) ∧
    (∀ cond ∈ [false, true],
      ((tabState [firedTab cond []]).airTime 20_000_500_000).slotTable 0 2003 = some (firedTab cond []) ∧
      (firedTab cond []).entries[0]? = some (tabEntry cond) ∧ (tabEntry cond).stage = 0 ∧
      (tabEntry cond).trig ≤ ((tabState [firedTab cond []]).airTime 20_000_500_000).airUnits ∧
      (∀ d, d ∈ (firedTab cond []).entries.take 0 → d.stage ≠ 0) ∧ entCond (tabEntry cond).bits = cond) ∧
    ((firedTab true []).aborted.contains (entLocal (tabEntry true).bits) = false ∧
      (firedTab true [0]).aborted.contains (entLocal (tabEntry true).bits) = true ∧ 15 ∉ (firedTab true []).aborted ∧
      ((tabState [firedTab true []]).airTime 20_000_500_000).primaryStands 0 2003 15 = false) := by decide +kernel

/-- Meets the hypotheses of TablesAreReleased. -/
theorem witness_releases :
    (((tabState [firedTab false []]).airTime 20_003_000_000).slotOf 1 slot2003 = 2003 ∧
      ((tabState [firedTab false []]).airTime 20_003_000_000).slotTable 0 2003 = some (firedTab false []) ∧
      (2003 + 3) * slotNs 1 ≤ ((tabState [firedTab false []]).airTime 20_003_000_000).gpsNs) ∧
    (((airState [] { ClusterState.reset with units := [(12, ⟨none, [someTrigger]⟩)] }).airTime 1).unit 0 12).run = none ∧
    (((airState [] { ClusterState.reset with units := [(12, ⟨none, [someTrigger]⟩)] }).airTime 1).unit 0 12).queue = [someTrigger] := by
  decide +kernel

/-- `airState` with carrier 0 in state `n` on radio unit 63, which is READY. -/
def carrierIn (n : Nat) : State := airState [(R.AIR_CARRIER_STATE 0, n), (R.AIR_CARRIER_RU 0, 63), (R.AIR_RU_STATE_STATE 63, 3)]
  { ClusterState.reset with tables := [slotTab 2003] }

/-- Meets the hypotheses of FapiRequestsComplete. -/
theorem witness_fapi :
    (((carrierIn 1).airTime 20_000_000_000).carrierValid 0 = true ∧ ((carrierIn 1).airTime 20_000_000_000).endpointUp 0 = true) ∧
    (((carrierIn 1).airTime 20_000_000_000).rd (R.AIR_CARRIER_STATE 0) = 1 ∧
      classBand (((carrierIn 1).airTime 20_000_000_000).carrierClass 0) (((carrierIn 1).airTime 20_000_000_000).carrierMu 0) 40 = true ∧
      4 ≤ classDl (((carrierIn 1).airTime 20_000_000_000).carrierClass 0) ∧
      4 ≤ classUl (((carrierIn 1).airTime 20_000_000_000).carrierClass 0) ∧
      273 ≤ [270, 273, 264].getD (((carrierIn 1).airTime 20_000_000_000).carrierMu 0) 0) ∧
    (((carrierIn 1).airTime 20_000_000_000).rd (R.AIR_RU_STATE_STATE (((carrierIn 1).airTime 20_000_000_000).rd (R.AIR_CARRIER_RU 0))) = 3 ∧
      ((carrierIn 1).airTime 20_000_000_000).radioHalted = false) ∧
    (((((carrierIn 2).setCarrier 0 { (carrierIn 2).carrier 0 with started := true }).airTime 20_000_000_000).carrier 0).started = true ∧
      ((((carrierIn 2).setCarrier 0 { (carrierIn 2).carrier 0 with started := true }).airTime 20_000_000_000).cluster 0).tables.getLast? =
        some (slotTab 2003)) ∧ ((((tabState []).airTime 1).cluster (((tabState []).airTime 1).carrierCluster 0))).tables = [] ∧
    (((carrierIn 2).airTime 20_000_000_000).slotOf 1 slot2003 = 2003 ∧
      ((carrierIn 2).airTime 20_000_000_000).pastCutoff 1 2003 = false ∧
      ((carrierIn 2).airTime 20_000_000_000).slotTable 0 2003 = some (slotTab 2003) ∧
      hasBit (slotTab 2003).nulls (((carrierIn 2).airTime 20_000_000_000).carrierLocal 0) = false) := by decide +kernel

/-- `carrierIn 2` with eAxC entry 0: uplink of carrier 0 on port 31, radio unit 63, and radio unit 63 in state `n`. -/
def uplinkState (n : Nat) : State :=
  ((carrierIn 2).setTable 8 { TableState.reset with bank0 := toBytes 8 (31 * 2 ^ 16 + 2 ^ 21 + 2 ^ 23 + 63 * 2 ^ 43) }).wrs
    [(R.AIR_RU_STATE_STATE 63, n), (R.AIR_FH_TA4_MIN_NS 1, 25_000), (R.AIR_FH_TA4_MAX_NS 1, 100_000)]

/-- Meets the hypotheses of FronthaulAndRadioUnitsComplete (packets). -/
theorem witness_fronthaul :
    (∀ t ∈ [20_000_000_000, 20_002_000_000],
      eaxcCarrier (((uplinkState 3).airTime t).eaxc 0) = 0 ∧ ((uplinkState 3).airTime t).uplinkEntry 31 0 = some 0 ∧
      ((uplinkState 3).airTime t).slotOf 1 slot2003 = 2003 ∧ eaxcValid (((uplinkState 3).airTime t).eaxc 0) = true) ∧
    ((uplinkState 3).airTime 20_000_000_000).airUnits < symbolStart 1 (14 * 2003) +
      ((uplinkState 3).airTime 20_000_000_000).rd (R.AIR_FH_TA4_MIN_NS 1) * 30_720 ∧
    symbolStart 1 (14 * 2003) + ((uplinkState 3).airTime 20_002_000_000).rd (R.AIR_FH_TA4_MAX_NS 1) * 30_720 <
      ((uplinkState 3).airTime 20_002_000_000).airUnits ∧
    (symbolStart 1 (14 * 2003) + ((uplinkState 3).airTime 20_001_550_000).rd (R.AIR_FH_TA4_MIN_NS 1) * 30_720 ≤
      ((uplinkState 3).airTime 20_001_550_000).airUnits ∧ ((uplinkState 3).airTime 20_001_550_000).airUnits ≤
      symbolStart 1 (14 * 2003) + ((uplinkState 3).airTime 20_001_550_000).rd (R.AIR_FH_TA4_MAX_NS 1) * 30_720) ∧
    (List.range 273).filter (fun p => !(((uplinkState 3).airTime 20_002_000_000).rxSymbol 0 (14 * 2003)).prbs.contains p) ≠ [] := by
  decide +kernel

/-- Meets the hypotheses of FronthaulAndRadioUnitsComplete (radio units). -/
theorem witness_radioUnits :
    ((∃ e, e ∈ ((uplinkState 0).airTime 1).eaxcRange ∧ eaxcValid (((uplinkState 0).airTime 1).eaxc e) = true ∧
        eaxcRu (((uplinkState 0).airTime 1).eaxc e) = 63 ∧ eaxcPort (((uplinkState 0).airTime 1).eaxc e) = 31)) ∧
    (∀ n ∈ [0, 1, 2, 3, 4], ((uplinkState n).airTime 1).rd (R.AIR_RU_STATE_STATE 63) = n) ∧
    (((uplinkState 3).airTime 100_000_000).rd (R.AIR_CARRIER_RU 0) = 63 ∧ ((uplinkState 3).airTime 100_000_000).rd (R.AIR_CARRIER_STATE 0) = 2 ∧
      (((uplinkState 3).airTime 100_000_000).carrier 0).lastUl + 100_000_000 ≤ ((uplinkState 3).airTime 100_000_000).now) := by
  decide +kernel
/-! The cores and engines of a radio cluster -/

/-- A run of unit `u` at its first command. -/
def firstRun : StreamRun := ⟨someTrigger, 0, false, []⟩

/-- Unit `u` of cluster 0 at the first command of a stream at 0, whose first 64 bytes are given as a number; tile 0 belongs to the
cluster, radio slab 0 lies in vault 17, and the cluster's stop has the radio plane. -/
def unitState (u e : Nat) : State :=
  let s := (airState [(R.SCHED_TILE_HOLDER 0, 0x40), (R.MESH_STOP_CTRL_ENABLED 0 17, 1)] { ClusterState.reset with units := [(u, ⟨some firstRun, []⟩)] }).setNum
    (clusterKey 0 0) 64 e
  { s with strata := { s.strata with radioSlabs := [(0, 17 * 384 + 1)] } }

/-- The state in which the command of unit `u` is carried out. -/
def unitNow (u e : Nat) : State := (unitState u e).airTime 20_000_000_000

/-- A command with OPCODE `op`; REPEAT and SIGNAL with the EXT they need. -/
def micaWord (op : Nat) : Nat := op + (if op = 0xC then 2 ^ 80 else if op = 0xE then 2 ^ 64 else 0)

/-- Meets the hypotheses of MicaCommandsComplete (the core stands at the command). -/
theorem witness_micaAt : ∀ op ∈ (List.range 15).map (· + 1), ∀ u ∈ [0, 7],
    (unitNow u (micaWord op)).micaAt 0 u op firstRun (BitVec.ofNat 128 (micaWord op)) := by
  simp only [State.micaAt]
  decide +kernel

/-- Meets the hypotheses of MicaCommandsComplete (the fields). -/
theorem witness_micaFields :
    (∀ op ∈ [1, 2, 3, 4, 5, 6, 7, 8, 9, 0xA, 0xB, 0xD, 0xF], onlyBits (BitVec.ofNat 128 (micaWord op)) [] = true) ∧
    onlyBits (BitVec.ofNat 128 (micaWord 0xC)) [(32, 4), (48, 16), (64, 22)] = true ∧
    cmdExt (BitVec.ofNat 128 (micaWord 0xC)) / 2 ^ 16 % 64 ≠ 0 ∧
    onlyBits (BitVec.ofNat 128 (micaWord 0xE)) [(32, 6), (64, 16)] = true ∧ cmdExt (BitVec.ofNat 128 (micaWord 0xE)) ≠ 0 ∧
    cmdImm (BitVec.ofNat 128 (micaWord 7)) ≠ 1 ∧
    ((unitNow 0 1).micaBegin 0 0 firstRun 1 0 |>.mica 0 0).loops = [] ∧
    ((((unitNow 0 1).micaBegin 0 0 firstRun 1 0 |>.mica 0 0).gen 0).walk 32).isSome = true ∧
    (((unitNow 0 10).micaBegin 0 0 firstRun 10 0).minmaxScan 0 0 false
      (((unitNow 0 10).micaBegin 0 0 firstRun 10 0 |>.mica 0 0).gen 0) 0 none 1).isSome = true := by decide +kernel

/-- A descriptor given as a number. -/
def descOf (n : Nat) : Desc := BitVec.ofNat 512 n

/-- An LDPC descriptor: graph 1, Z = 2, 4 rows, one block. -/
def ldpcWords (kind : Nat) : Nat := kind + 4100 * 2 ^ 256

/-- A polar descriptor: N = 32, K = 20, E = 32. -/
def polarWords (kind : Nat) : Nat := kind + (5 + 19 * 2 ^ 4 + 31 * 2 ^ 16) * 2 ^ 256

/-- A transform of 128 samples in place. -/
def fftWords (kind : Nat) : Nat := kind + 127 * 2 ^ 256

/-- A transfer of 64 bytes from or to address 0. -/
def dmaWords (kind : Nat) : Nat := kind + 64 * 2 ^ 320

/-- Meets the hypotheses of EngineDescriptorsComplete (codecs). -/
theorem witness_codecs :
    (∀ kind ∈ [1, 2], (unitNow 8 (ldpcWords kind)).engineAt 0 8 kind firstRun (descOf (ldpcWords kind)) ∧
      (ldpcBody (descOf (ldpcWords kind)) firstRun).bad = false ∧
      (ldpcBody (descOf (ldpcWords kind)) firstRun).blocks = 1) ∧
    (∀ kind ∈ [1, 2], (unitNow 9 (polarWords kind)).engineAt 0 9 kind firstRun (descOf (polarWords kind))) := by
  simp only [State.engineAt]
  decide +kernel

/-- Where TS 38.212 defines the combination (log entry 16), the polar descriptor keeps its rules. -/
theorem witness_polar (h : Config.polarDefined (polarKey (descOf (polarWords 1))) = true) :
    polarBad (descOf (polarWords 1)) = false := by
  unfold polarBad
  rw [h]
  decide +kernel

/-- Meets the hypotheses of EngineDescriptorsComplete (transforms, PRACH, DMA). -/
theorem witness_transforms :
    (∀ kind ∈ [1, 2], (unitNow 10 (fftWords kind)).engineAt 0 10 kind firstRun (descOf (fftWords kind)) ∧
      ((unitNow 10 (fftWords kind)).fftDesc 0 (kind == 2) (descOf (fftWords kind)) firstRun).toOption.isSome = true) ∧
    (∀ kind ∈ [1, 2], (unitNow 11 kind).engineAt 0 11 kind firstRun (descOf kind)) ∧
    (∀ kind ∈ [1, 2, 3, 4], (unitNow 12 (dmaWords kind)).engineAt 0 12 kind firstRun (descOf (dmaWords kind)) ∧
      dmaBad (descOf (dmaWords kind)) = false ∧ dmaLen (descOf (dmaWords kind)) = 64 ∧
      (unitNow 12 (dmaWords kind)).hMapped (64 + 0) 0 64 = true ∧ (unitNow 12 (dmaWords kind)).hFirstBad (64 + 0) 0 64 = none ∧
      (unitNow 12 (dmaWords kind)).rd (R.MESH_STOP_CTRL_ENABLED 0 (clusterStop 0)) ≠ 0 ∧
      ((unitNow 12 (dmaWords kind)).dmaVault 0 (kind == 1) (descOf (dmaWords kind)) firstRun).toOption.isSome = true ∧
      ((unitNow 12 (dmaWords kind)).dmaTile 0 (kind == 3) (descOf (dmaWords kind)) firstRun).toOption.isSome = true ∧
      ((unitNow 12 (dmaWords kind)).clusterTiles 0)[(descOf (dmaWords kind)).fld 0x20 22 2]? = some 0) := by
  simp only [State.engineAt]
  decide +kernel

/-- A run of PRACH_DETECT over the profile at `prof`. -/
def prachRun : PrachRun := ⟨0, 139, 256, 0, 0x1000, 0x2000, 1024, 0x3000, 0, ⟨13, 0, 1, 0, false, 0, 0⟩⟩

/-- Meets the hypotheses of PrachDetectCompletes. -/
theorem witness_prach : prachSize ((descOf 2).fld 0x20 10 1) = (139, 256) ∧
    (unitNow 11 2).prachSet 0 0 firstRun 3 = 0 ∧ 0 < prachRun.start 1 - prachRun.start 0 ∧
    (prachRun.zones 1).length ≠ 0 := by decide +kernel
/-! Time and Ethernet -/

/-- Domain 0 in state `n` on slave port 39, with source `src` and one path result. -/
def timeState (n src : Nat) : State :=
  let s := run [(R.TIME_DOM_CFG_SOURCE 0, src), (R.TIME_DOM_CFG_PORT0 0, 39), (R.TIME_DOM_STATUS_STATE 0, n), (R.TIME_DOM_STATUS_PORT 0, 39),
    (R.TIME_TOD_STATUS_ROLE, 2)]
  { s with clk := { s.clk with domA := { s.clk.domA with paths := [(39, [160])] } } }

/-- `timeState` at instant `t`. -/
def timeAt (n src t : Nat) : State := ((timeState n src).atTime t).timeNow

/-- Meets the hypotheses of PtpAndTimeoutsComplete. -/
theorem witness_ptp :
    ((timeAt 2 0 1000).slavePort 0 39 = true ∧ (timeAt 2 0 1000).rd (R.TIME_DOM_STATUS_PORT 0) = 39 ∧
      (timeAt 2 0 1000).meanPath 0 39 = some 160) ∧
    (timeAt 2 0 500_000_000).domSt 0 = 2 ∧ (timeAt 2 0 500_000_000).rd (R.TIME_DOM_CFG_SOURCE 0) = 0 ∧
    (tblGet 0 ((timeAt 2 0 500_000_000).dom 0).annAt ((timeAt 2 0 500_000_000).rd (R.TIME_DOM_STATUS_PORT 0)) + 375_000_000 ≤
      (timeAt 2 0 500_000_000).now + 1 ∧
      ((timeAt 2 0 500_000_000).dom 0).syncAt + 500_000_000 ≤ (timeAt 2 0 500_000_000).now) ∧
    ((timeAt 2 1 2_000_000_000).rd (R.TIME_DOM_CFG_SOURCE 0) = 1 ∧ (timeAt 2 1 2_000_000_000).domSt 0 = 2 ∧
      ((timeAt 2 1 2_000_000_000).dom 0).updAt + 2_000_000_000 ≤ (timeAt 2 1 2_000_000_000).now) := by decide +kernel

/-- A time-of-day frame of zeros with its CRC. -/
def todFrame : List (BitVec 8) := List.replicate 16 0 ++ toBytes 2 (crc16 0xFFFF (List.replicate 16 0))

/-- Meets the hypotheses of PulsesAndDeviceClockComplete (time of day). -/
theorem witness_tod : (timeState 2 0).rd R.TIME_TOD_STATUS_ROLE = 2 ∧ (timeAt 2 0 1000).rd R.TIME_TOD_STATUS_ROLE = 2 ∧
    todFrame.length = 18 ∧ crc16 0xFFFF (todFrame.take 16) = ofBytes (todFrame.drop 16) ∧
    (let s := timeState 2 0
     let u : State := { s with clk := { s.clk with edges := [(0, 1)] } }
     decide (tblGet 0 u.clk.edges 0 ≠ 0) && decide (500_000 ≤ (u.atTime 500_000).now + 1 - tblGet 0 u.clk.edges 0) &&
      decide ((u.atTime 500_000).now + 1 - tblGet 0 u.clk.edges 0 ≤ 900_000_000)) = true := by decide +kernel

/-- A holdover that began at the start and has reached its limit of 120 s. -/
def holdoverState : State :=
  let s := run [(R.TIME_DOM_STATUS_STATE 0, 3)]
  (({ s with clk := { s.clk with hoFrom := some 0 } } : State).atTime 120_000_000_000).timeNow

/-- Meets the hypotheses of PulsesAndDeviceClockComplete (holdover). -/
theorem witness_holdover : holdoverState.rd R.TIME_STATUS_TIME_LOCK ≠ 1 ∧ holdoverState.rd R.TIME_STATUS_HO_EXPIRED ≠ 1 ∧
    holdoverState.clk.hoFrom ≠ none ∧ (if holdoverState.rd R.TIME_STATUS_SYNCE_STATE = 1 then
      holdoverState.rd R.TIME_HO_CFG_HO_LIMIT_SE_S else holdoverState.rd R.TIME_HO_CFG_HO_LIMIT_S) ≤
        holdoverState.rd R.TIME_HO_ELAPSED_SECONDS := by decide +kernel

/-- RUN with SyncE reference 3 on port 39 and its dropped references. -/
def synceState (l : List Nat) : State :=
  let s := run [(R.TIME_SYNCE_CFG_EN, 1), (R.TIME_SYNCE_CFG_EN3, 1), (R.TIME_SYNCE_CFG_CAND3, 39)]
  { s with clk := { s.clk with dropped := l, ql := [(39, 2)] } }

/-- Meets the hypotheses of SynceAndTimeMessagesComplete. -/
theorem witness_synce : 3 ∉ (synceState []).clk.dropped ∧ 3 ∈ (synceState [3]).clk.dropped ∧ ((synceState []).atTime 1).synceChoice = some 39 ∧
    0 + ((synceState []).atTime 500_000_000).rd R.TIME_SYNCE_TIMING_HOLDOFF_MS * 1_000_000 ≤ ((synceState []).atTime 500_000_000).now ∧
    0 + ((synceState []).atTime 300_000_000_000).rd R.TIME_SYNCE_TIMING_WTR_S * 1_000_000_000 ≤
      ((synceState []).atTime 300_000_000_000).now ∧
    ((synceState []).atTime 1).timeNow.rd R.TIME_MASTER_CFG_TWO_STEP = 0 ∧
    ((run [(R.TIME_MASTER_CFG_TWO_STEP, 1)]).atTime 1).timeNow.rd R.TIME_MASTER_CFG_TWO_STEP = 1 ∧
    (run [(R.TIME_STATUS_SYNCE_STATE, 1)]).rd R.TIME_STATUS_SYNCE_STATE = 1 ∧ (run []).rd R.TIME_STATUS_SYNCE_STATE ≠ 1 := by decide +kernel

/-- Port 39 with LINK in state `n`, one lane, an MTU and a policer. -/
def portIn (n : Nat) (x : PortState) : State :=
  let s := run [(R.PORT_STATUS_LINK 39, n), (R.PORT_CTRL_MTU 39, 1518), (R.PORT_VLAN_FH_VID 39, 5), (R.PORT_Q_LIMIT_LIMIT 39 0, 1),
    (R.PORT_STATUS_LINK 0, n), (R.PORT_CTRL_MTU 0, 1518)]
  ({ s with strata := { s.strata with lanes := [(2, [(7, 1)])] } } : State).setPort 39 x

/-- A frame of `len` bytes. -/
def frameOf (len etype : Nat) (ok : Bool) : EthFrame := ⟨1, len, ok, none, etype, false, 0⟩

/-- A gate set that starts at 0. -/
def gateSet : GateSet := ⟨true, 1000, 0, [(0xFF, 1000)], 0, 0⟩

/-- Meets the hypotheses of EthernetCommandsComplete. -/
theorem witness_ethernet :
    ((portIn 2 .reset).rd (R.PORT_STATUS_LINK 39) = 2 ∧ 64 ≤ (portIn 2 .reset).rd (R.PORT_CTRL_MTU 39) ∧
      (portIn 2 .reset).consumer 39 (frameOf 64 0x88F7 true) < 2 ∧ 2 ≤ (portIn 2 .reset).consumer 39 (frameOf 64 0x0800 true) ∧
      2 ≤ (portIn 2 .reset).consumer 0 (frameOf 1518 0x0800 true)) ∧
    (lenSum (((portIn 2 .reset).port 39).queue ((portIn 2 .reset).queueOf 39 none)) + 4096 ≤
        (portIn 2 .reset).rd (R.PORT_Q_LIMIT_LIMIT 39 ((portIn 2 .reset).queueOf 39 none)) * 4096 ∧
      ((portIn 2 .reset).port 39).used + 4096 ≤ 128 * 1024 * 2 ^ (portIn 2 .reset).rd (R.PORT_STATUS_SPEED 39)) ∧
    (((portIn 2 .reset).port 39).flight = none ∧ ((portIn 2 .reset).frameDone 39).rd (R.PORT_STATUS_LINK 39) = 2) ∧
    ((((portIn 2 { PortState.reset with next := some gateSet }).atTime 1).port 39).next = some gateSet ∧
      gateSet.start ≤ ((portIn 2 { PortState.reset with next := some gateSet }).atTime 1).devNs) ∧
    ((portIn 1 .reset).rd (R.PORT_STATUS_LINK 39) = 1 ∧ (portIn 1 .reset).portBundled 39 = true ∧
      0 + ((portIn 1 .reset).atTime 1_000_000_000).rd (R.PORT_CTRL_UP_HOLD_MS 39) * 1_000_000 ≤
        ((portIn 1 .reset).atTime 1_000_000_000).now) := by decide +kernel
/-! The fabric -/

/-- RUN with link 0 UP toward peer 1, which is UP, owner queue 31 with one descriptor at 0, and lend 0 of one region. -/
def fabState (r : List (Fld × Nat)) (f : FabState) (d : List (BitVec 8)) : State :=
  let s := run ([(R.FAB_LINK_STATUS_STATE 0, 2), (R.FAB_PEER_STATE 1, 1), (R.FAB_OPQ_CFG_OWNER 31, 1), (R.FAB_OPQ_TAIL_TAIL 31, 1)] ++ r)
  ({ (s.setTable 10 { TableState.reset with bank0 := [0, 1] }) with fab := f } : State).setBytes (ownerKey 0) d

/-- A flit that arrives. -/
def flitTail (ok idle : Bool) (seq : Nat) : FlitTail := ⟨seq, some 0, [(0, 1)], idle, ok, 1, 0⟩

/-- A flit to send. -/
def someFlit : Flit := ⟨1, 0, 1, 0, 1, 0, 7, 0, 0, 0, [1, 0]⟩

/-- Meets the hypotheses of FlitsAndLinksComplete. -/
theorem witness_links :
    (((fabState [] .reset []).atTime 1).linkUp 0 = true ∧ (((fabState [] .reset []).atTime 1).link 0).rxNext = 0) ∧
    ((((fabState [] .reset []).atTime 2_000).link 0).progress + 2_000 ≤ ((fabState [] .reset []).atTime 2_000).now) ∧
    (⟨0, 0, 0, someFlit⟩ ∈ ((fabState [] { FabState.reset with links := [(0, { LinkState.reset with replay := [⟨0, 0, 0, someFlit⟩] })] }
        []).link 0).replay ∧ 0 + 6_000 ≤ ((fabState [] .reset []).atTime 6_000).now) ∧
    ((List.range 8).find? [7].contains = some 7) ∧
    ((fabState [(R.FAB_LINK_STATUS_STATE 5, 1)] .reset []).rd (R.FAB_LINK_STATUS_STATE 5) = 1 ∧
      (fabState [(R.FAB_LINK_STATUS_STATE 5, 1)] .reset []).rd (R.FAB_LINK_PARK_HELD 5) ≠ 1 ∧
      0 + 1_000_000 ≤ ((fabState [] .reset []).atTime 1_000_000).now) ∧
    ((run [(R.FAB_LINK_PARK_HELD 5, 1)]).rd (R.FAB_LINK_PARK_HELD 5) ≠ 0 ∧
      (((run []).setLink 5 { (run []).link 5 with charges := [] }).showCharges 5).linkUp 5 = false) ∧
    ((((fabState [] .reset []).atTime 2_000).link 0).lastFlit + 2_000 ≤ ((fabState [] .reset []).atTime 2_000).now ∧
      ((fabState [] .reset []).atTime 2_000).rd (creditFld 0 3) ≠ vcSize 3) := by decide +kernel

/-- A descriptor of operation `op` to device 1: 64 bytes for the line operations, else LEN 1. -/
def opDesc (op : Nat) : List (BitVec 8) :=
  [BitVec.ofNat 8 op, 0, if op = 12 ∨ op = 13 ∨ op = 15 then 0 else 1, 0] ++ List.replicate 20 0 ++
    [if op = 1 ∨ op = 2 ∨ op = 4 ∨ op = 5 then 63 else 0] ++ List.replicate 39 0

/-- Meets the hypotheses of FabricOperationsIssue. -/
theorem witness_operations : ∀ op ∈ (List.range 15).map (· + 1),
    ((fabState [] .reset (opDesc op)).atTime 1).opqHead 31 = some (0, opDesc op) ∧ dOp (opDesc op) = op ∧
      ((fabState [] .reset (opDesc op)).atTime 1).rd R.DEV_STATUS_PHASE = 4 ∧
      ((fabState [] .reset (opDesc op)).atTime 1).issueCode 31 (opDesc op) = 0 ∧
      ((fabState [] .reset (opDesc op)).atTime 1).issueWaits 31 (opDesc op) = false ∧
      ((fabState [(R.FAB_LINK_STATUS_STATE 0, 0)] .reset (0 :: (opDesc op).tail)).atTime 1).issueCode 31 (0 :: (opDesc op).tail) ≠ 0 := by
  decide +kernel

/-- A header from device 1 over link 5. -/
def someHdr (window : Nat) : FabHdr := ⟨5, 0, 1, 0, 0, 7, window, 0⟩

/-- A request of kind `kind` with tag 7 toward device 1. -/
def fabReq (kind : Nat) (retried : Bool) : FabReq := ⟨7, 3, kind, 1, 0, 1, 0, 0, retried, 0, someFlit⟩

/-- The fabric with one request and its descriptor in progress. -/
def requesting (kind : Nat) (retried : Bool) : State :=
  fabState [] { FabState.reset with reqs := [fabReq kind retried], ops := [⟨3, 31, 0, 0, opDesc 1, 0, 0, 0, 0⟩] } []

/-- Meets the hypotheses of FabricRequestsComplete. -/
theorem witness_requests :
    (∀ kind ∈ [1, 4, 7], (((requesting kind false).atTime 1).freeBuf 5 1).reqOf 7 = some (fabReq kind false) ∧
      (fabReq kind false).dev = (someHdr 0).dev ∧ (fabReq kind false).flit.pod = (someHdr 0).pod ∧
      ((((requesting kind false).atTime 1).freeBuf 5 1).fabOp 3).isSome = true ∧
      (((requesting kind false).atTime 1).freeBuf 5 1).opqOwner 31 = true) ∧
    (((requesting 1 false).atTime 24_000).reqOf 7 = some (fabReq 1 false) ∧
      (fabReq 1 false).first + 24_000 ≤ ((requesting 1 false).atTime 24_000).now ∧
      (((requesting 1 false).atTime 24_000).takeTag.2.fabOp 3).isSome = true) ∧
    (((requesting 1 true).atTime 40_000).reqOf 7 = some (fabReq 1 true) ∧
      (fabReq 1 true).last + 40_000 ≤ ((requesting 1 true).atTime 40_000).now) ∧
    ((fabReq 5 false).last + 64_000 ≤ ((requesting 5 false).atTime 64_000).now) ∧
    (((requesting 4 false).atTime 64_000).reqOf 7 = some (fabReq 4 false) ∧
      (fabReq 4 false).first + 64_000 ≤ ((requesting 4 false).atTime 64_000).now) := by decide +kernel

/-- Window 0 is memory of lend 0, window 1 a tile of slice 0's running job, window 2 a ring, all open to every device of the pod. -/
def homeState (f : FabState) : State :=
  let s := fabState [(R.FAB_WIN_CTRL_KIND 0, 1), (R.FAB_WIN_CTRL_SRC_ANY 0, 1), (R.FAB_WIN_CTRL_KIND 1, 2), (R.FAB_WIN_CTRL_SRC_ANY 1, 1),
    (R.FAB_WIN_CTRL_KIND 2, 3), (R.FAB_WIN_CTRL_SRC_ANY 2, 1)] f []
  { s with mm := { s.mm with regions := [(0, .lent 0)] }, sched := { s.sched with jobs := [jobIn .running []] } }

/-- The home once the request's buffer is free. -/
def homeNow (vc : Nat) : State := ((homeState .reset).atTime 1).freeBuf 5 vc

/-- An atomic on 4 bytes. -/
def someAtomic (op : Nat) (retry : Bool) : AtomicOp := ⟨op, false, false, 1, 0, 0, retry⟩

/-- Meets the hypotheses of HomeRequestsComplete. -/
theorem witness_home :
    ((homeNow 0).homeCode (someHdr 0) 1 192 = 0 ∧ (homeNow 0).homeCode (someHdr 3) 1 64 ≠ 0 ∧
      ∀ p, p ∈ (homeNow 0).winLines 0 0 192 → ∀ i, i < 2 →
        ((homeNow 0).settleLines ((homeNow 0).winLines 0 0 192)).badAt p.1 (p.2 / 32 + i) = 0) ∧
    ((homeNow 0).homeCode (someHdr 0) 2 64 = 0 ∧ (homeNow 0).homeCode (someHdr 0) 3 4 = 0 ∧ (homeNow 0).homeCode (someHdr 0) 4 8 = 0) ∧
    ((homeNow 0).homeCode (someHdr 0) 4 4 = 0 ∧ (someAtomic 6 false).homeEpoch = (homeNow 0).ownEpoch ∧
      ((homeNow 0).fab.replays.filter fun e => e.port == 5).length < 4096) ∧
    ((((homeState { FabState.reset with replays := [⟨5, 0, 1, 0, 7, 9, 0⟩] }).atTime 1).freeBuf 5 0).fab.replays.find? (fun e =>
      e.pod == 0 && e.dev == 1 && e.epoch == 0 && e.tag == 7) = some ⟨5, 0, 1, 0, 7, 9, 0⟩) ∧
    ((homeNow 0).homeCode (someHdr 0) 5 64 = 0 ∧ (homeState .reset).rd (R.FAB_WIN_CTRL_KIND 0) = 1 ∧ (homeNow 0).rd (R.FAB_WIN_CTRL_KIND 0) = 1) ∧
    ((homeNow 0).homeCode (someHdr 1) 5 64 = 0 ∧ (homeState .reset).rd (R.FAB_WIN_CTRL_KIND 1) ≠ 1 ∧
      (homeNow 0).rd (R.FAB_WIN_CTRL_KIND 1) ≠ 1 ∧ (homeNow 0).winTile 1 = some 0 ∧
      banksOf [⟨0, 64⟩] (fun b => (homeNow 0).rd (bankFld 0 b) != 0) = false) ∧
    ((someHdr 0).pod = (homeNow 0).ownPod → (someHdr 0).epoch ∉ ((homeNow 0).peer 1).retired) ∧
    (homeNow 2).homeCode (someHdr 2) 7 222 = 0 := by decide +kernel

/-- A queued store of one line. -/
def cairnEntry : CairnEntry := ⟨0, someHdr 0, 2, 0, 0, List.replicate 64 1, 2 ^ 64 - 1⟩

/-- Meets the hypotheses of FabricStoresComplete. -/
theorem witness_stores :
    ((homeState { FabState.reset with cairn := [cairnEntry] }).fab.cairn[0]? = some cairnEntry ∧
      (homeState { FabState.reset with cairn := [cairnEntry] }).mergeBad 0 0 (2 ^ 64 - 1) = []) ∧
    ((fabState [] { FabState.reset with credits := [⟨0, 1, 191, [0], 0⟩] } []).msgCredit 0 1 191 = some ⟨0, 1, 191, [0], 0⟩ ∧
      0 + 10_000_000 ≤ ((fabState [] .reset []).atTime 10_000_000).now ∧
      ((fabState [] { FabState.reset with credits := [⟨0, 1, 191, [0], 0⟩] } []).usable 0 1).head? = some 0) := by decide +kernel

/-- Meets the hypotheses of FencingCompletes, FencedPeerReturnsWithNewEpoch. -/
theorem witness_fencing :
    (run [(R.FAB_STATUS_NUMBERED, 1)]).rd R.FAB_STATUS_NUMBERED ≠ 0 ∧ (((run []).freeBuf 5 3).peer 255).retired.contains 7 = false ∧
    (((run []).setPeer 255 { PeerState.reset with retired := [7] }).peer 255).retired.contains 7 = true ∧
    (((fabState [] .reset []).atTime 100_000_000).upPeers ≠ [] ∧ ((fabState [] .reset []).atTime 100_000_000).fab.heard +
      ((fabState [] .reset []).atTime 100_000_000).deadTime ≤ ((fabState [] .reset []).atTime 100_000_000).now) ∧
    (run [(R.FAB_FENCE_STATUS_SELF_FENCED, 1)]).selfFenced = true ∧
    ((fabState [(R.FAB_WIN_CTRL_KIND 191, 3)] { FabState.reset with notices := [(191, 255, 7)] } []).fab.notices.find? (fun n =>
      n.1 == 191 && n.2.1 == 255) = some (191, 255, 7) ∧
      (((fabState [(R.FAB_WIN_CTRL_KIND 191, 3)] .reset []).ring 191).filter (· == 255)).length < 2) ∧
    (∀ q ∈ [1, 2, 3, 5, 6, 7, 9], ((run []).books q 1).isSome = true) ∧ ((run []).books 8 0).isSome = true := by decide +kernel
/-! Firmware, the host, security, power and the assay -/

/-- Meets the hypotheses of FirmwareCommandsComplete. -/
theorem witness_firmware :
    ((run []).coreRuns 0 = true ∧ tblGet (run []).dev.resetEnd (run []).fw.kicks 0 + watchdogNs 0 ≤ ((run []).atTime 10_000_000_000).now) ∧
    (∀ n ∈ [1, 3, 4], (run [(R.FW_CORE_STATUS_STATE 22, n)]).rd (R.FW_CORE_STATUS_STATE 22) = n ∧
      4 ≤ (run [(R.FW_CORE_STATUS_STATE 22, n)]).rd R.DEV_STATUS_PHASE) ∧
    (run [(R.FW_CORE_STATUS_STATE 22, 2)]).rd (R.FW_CORE_STATUS_STATE 22) = 2 ∧
    (let w := run [(R.STRATA_EVENT_SWITCHED, 1), (R.FW_NOTIFY_ROUTE_ROUTE, 1)]
     let on := w.pendBits &&& w.rd R.FW_NOTIFY_MASK_MASK
     on ≠ 0 ∧ w.rd R.FW_NOTIFY_ROUTE_ROUTE ≠ 0 ∧ on ≠ w.fw.notified &&& on) := by decide +kernel

/-- Meets the hypotheses of HostCommandsComplete. -/
theorem witness_host :
    (run [(R.DEV_STRAP_STRAPS, 8)]).rd R.DEV_STRAP_STRAPS / 8 ≠ 0 ∧ hostState.host.linkUp = true ∧ hostState.hostReach = true ∧
    hostState.host.beatAt + 100_000_000 ≤ (hostState.atTime 100_000_000).now ∧
    ((run [(R.PCIE_SESSION_STATE, 2)]).rd R.PCIE_SESSION_STATE = 2 ∧
      (run [(R.PCIE_SESSION_STATE, 2)]).host.lostAt + 10_000_000_000 ≤ ((run []).atTime 10_000_000_000).now) ∧
    7 % 2 ^ 16 ≠ hostState.rd R.PCIE_SESSION_HGEN := by decide +kernel

/-- RUN with Agate running, slice 63 OPEN and core 22 running. -/
def secureState : State := run [(R.FW_CORE_STATUS_STATE 0, 1), (R.SLICE_STATE_STATE 63, 2), (R.FW_CORE_STATUS_STATE 22, 1)]

/-- Meets the hypotheses of SecurityCommandsComplete. -/
theorem witness_security :
    (secureState.agateUp = true ∧ secureState.inRun = true ∧ secureState.sec.checkUntil ≤ secureState.now) ∧
    secureState.sliceOpen 63 = true ∧ reqUnit 0 0 = true ∧ reqUnit 64 0 = true ∧
    secureState.rd (reqFld R.REQ_CTRL_GO R.SREQ_CTRL_GO 64 0) ≠ 1 ∧
    ({ secureState with sec := { secureState.sec with reqs := [⟨0, 0, 0⟩] } } : State).sec.nextReq = some ⟨0, 0, 0⟩ ∧
    secureState.rd (R.FW_CORE_STATUS_STATE 22) = 1 ∧ max 0 secureState.sec.runtime.1 ≤ min 0xFFFF secureState.sec.runtime.2 := by decide +kernel

/-- A sag in progress from the start, with one source. -/
def sagState : State :=
  let s := run []
  { s with pow := { s.pow with sagFrom := some 0, sources := [3] } }

/-- Meets the hypotheses of PowerCommandsComplete. -/
theorem witness_power :
    ((run []).shedding = true ∧ (391 : Int) < 4 * (run [(R.POWER_MODE_CFG_TJ_THROTTLE, 105)]).rd R.POWER_MODE_CFG_TJ_THROTTLE - 12) ∧
    (run []).rd (R.HUB_THERM_STATE_LEVEL 0) ≠ 3 ∧
    (100_000 + 25_000 < (run []).setpoint * 1000 ∧ 1_000 * 100 < railNominal 5 * 1000 * 95) ∧
    (member (run []).pow.sources 3 false = [] ∧ member [3, 4] 3 false ≠ [] ∧ member sagState.pow.sources 3 false = [] ∧ sagState.pow.sagFrom ≠ none) ∧
    (sagState.rd R.POWER_STATUS_SHED_STEP < 9 ∧ sagState.shedding = true ∧
      entryTime 1 ≤ (sagState.atTime 1_000_000_000).sagTime) ∧ (run []).pow.avsTries = 0 ∧
    ({ run [] with pow := { (run []).pow with avsTries := 1 } } : State).pow.avsTries ≠ 0 := by decide +kernel

/-- A sample taken at tile 0, waiting (0) or under check by tile `k` - 1. -/
def assaySample (k : Nat) : Sample := ⟨0, 0, false, false, 0, [], [5], 0, k⟩

/-- RUN with a sample, tile 17 idle, and tile 0 to be retired. -/
def assayState (k : Nat) : State :=
  { (run [(R.SCHED_TILE_STATE 17, 1), (R.SCHED_TILE_HOLDER 17, 0x7E)]).setTable 5
      { TableState.reset with bank0 := List.replicate 136 0x7E } with assay := ⟨[assaySample k], if k = 0 then [0] else []⟩ }

/-- RUN with Agate running and a flash write of 64 KiB prepared. -/
def flashState : State := run [(R.FW_CORE_STATUS_STATE 0, 1), (R.DEV_FLASH_OFFSET_OFFSET, 0x100_0000)]

/-- Meets the hypotheses of AssayAndFlashComplete. -/
theorem witness_assay :
    ((assayState 0).assay.samples.find? (fun x => x.checker == 0) = some (assaySample 0) ∧ (assayState 0).inRun = true ∧
      (assayState 0).rd R.POWER_STATUS_SHED_STEP < 3 ∧ ((assayState 0).checkerFor 0 []).isSome = true) ∧
    ((assayState 18).assay.samples.find? (fun x => x.checker != 0) = some (assaySample 18) ∧ (assaySample 18).rows = [5]) ∧
    (assaySample 0).at_ns + 10_000_000 ≤ ((assayState 0).atTime 10_000_000).now ∧
    (assayState 0).assay.toRetire.filter (assayState 0).retireReady ≠ [] ∧
    (flashState.dev.writing = none ∧ flashState.agateUp = true ∧ flashState.inRun = true ∧
      flashState.rd R.DEV_FLASH_OFFSET_OFFSET % 65536 = 0 ∧ inCopyRegion (flashState.rd R.DEV_FLASH_OFFSET_OFFSET) (96 * 2 ^ 20) = true ∧
      flashState.rd R.DEV_FLASH_SRC_VADDR % 64 = 0) ∧
    ({ flashState with dev := { flashState.dev with writing := some (0, 0x100_0000, 65536) } } : State).dev.writing =
      some (0, 0x100_0000, 65536) := by decide +kernel
/-! The device as a whole -/

/-- A command carried out: there is a next state. -/
def isNext (a : Host.Outcome State Fault Refusal) : Bool := match a with | .next _ => true | _ => false

/-- Meets the hypotheses of AcceptedCommandsComplete. -/
theorem witness_accepts : (run []).accepts (.copy 134 3 0) = true ∧ (run []).accepts (.copy 136 0 0) = false ∧ (run []).accepts (.copy 135 0 0) = false ∧
    ({ run [] with flash := { FlashState.blank with retired := [134] } } : State).accepts (.copy 134 3 0) = false := by decide +kernel

/-- Meets the hypotheses of StepKeepsCanonicalForm, StepMovesForward, NetworkCommandsTouchNoMemory. -/
theorem witness_step : State.reset.canonical ∧ isNext (step { State.reset with pending := [.powerLoss 1, .timeCapture 2] }) = true ∧
    isNext (exec (.coldReset 2 10_000 0 false 1) (run [])) = true ∧ isNext (exec (.warmReset 0x11 10_000 false 1) (run [])) = true ∧
    isNext (exec (.shaperTick 39 1) State.reset) = true := by
  simp only [State.canonical]
  decide +kernel

/-- Meets the hypotheses of EndpointsReachTheirWindowsOnly, PlaneViolationsAreCounted, ExtendsAreLogged. -/
theorem witness_windows : (0x1000_0000 : Nat) + 0x10_0000 * 64 ≤ 0x1400_0000 ∧ (0x50000 : Nat) < 0x1000_0000 + 0x10_0000 * 63 ∧
    (run []).rd (R.MESH_STOP_CTRL_ENABLED 2 159) = 0 ∧ (run []).sec.log.length < 512 ∧
    512 ≤ ({ run [] with sec := { (run []).sec with log := List.replicate 512 ⟨0, 0, 0, 0⟩ } } : State).sec.log.length := by
  decide +kernel

/-! Operands out of range are refused, one for each check of `Instr.wf` -/

theorem wf_refuses_planes :
    ([.planeViolationDrop 3 0 0, .planeViolationDrop 0 160 0, .tableBankReleased 0 0, .tableBankReleased 11 0, .drainStall 11 0,
    .cgCommit 65 0 0 0 0 0, .cgCheckDone 65 0, .cgDiscard 65 0 0 0 0, .copy 136 0 0, .copy 0 4 0, .bankTransitionDone 0 24 0,
    .remoteSignalArrival 0 64 0, .shapingInterval 136 0, .vaultRefresh 152 0, .dramTempSample 8 none 0 0, .memAlloc 64 0 0 0 0,
    .memAlloc 0 16 0 0 0, .memQuery 64 0 0, .moveStart 8 0, .migrationSwitch 64 0 0, .oldRegionRelease 152 0 0,
    .oldRegionRelease 0 384 0, .jqDoorbell 64 0 0 0, .jqDoorbell 0 32 0 0, .completionWrite 80 0 0 0, .seqEntryWrite 0 0 4 0 0,
    .stepBuild 0 16 0, .claim 0 16 0] : List Instr).all (fun c => !c.wf) = true := by
  decide +kernel

theorem wf_refuses_radio :
    ([.tableSeal 16 [] 0, .patchWrite 0 16 0 [] false 0, .fapiParam 256 0, .fhUlPacket 32 0 0 0 0 0 0 [] true 0, .fhWindowClose 4096 0 0 0 0 0,
    .ruCallHome 64 0 0 0, .ruCallHome 0 32 0 0, .queuedTriggerStart 0 13 0, .vld 16 0 0 0 0, .vld 0 8 0 0 0, .ldpcDecode 16 0 0 0,
    .trackingIdleFree 0 16 0 0, .ptpSyncRx 2 0 0 0, .ptpSyncRx 0 40 0 0, .ppsEdge 2 0, .synceRefFail 4 0 0, .ethRxFrame 40 (frameOf 64 0 true) 0,
    .nakRx 6 0 0, .helloRx 0 256 0 [] [] 0 0, .linkStateRx 0 0 6 0, .fabLoad 32 0, .homeCreditRx { someHdr 0 with link := 6 } 0 0,
    .recvSlotConsume 192 0 0, .creditReturnSend 16 0 0, .creditReturnSend 0 256 0, .msgCreditResync 0 0 192 0 0,
    .fenceMsgRx 0 256 0 0 0 0, .fenceNotice 0 256 0, .resyncQueryRx (someHdr 192) 0] : List Instr).all (fun c => !c.wf) = true := by
  decide +kernel

theorem wf_refuses_services :
    ([.sliceCreate 64 0 0, .sliceCreate 0 16 0, .fwCoreKick 23 0, .hbAttach 64 0 0, .sliceExtend 64 0, .reqQuote 65 0 0 0, .reqQuote 0 4 0 0,
    .reqQuote 1 2 0 0, .junctionTempSample 8 none 0 0, .railSag 6 0 0 0 0, .customerImageLoad 6 0 true 0 0 0 0,
    .customerImageLoad 23 0 true 0 0 0 0, .customerImageLoad 7 64 true 0 0 0 0] : List Instr).all (fun c => !c.wf) = true := by
  decide +kernel

theorem wf_accepts_bounds :
    ([.planeViolationDrop 2 159 0, .tableBankReleased 10 0, .cgCommit 64 0 0 0 0 0, .copy 135 3 0,
    .bankTransitionDone 135 23 0, .memAlloc 63 15 0 0 0, .oldRegionRelease 151 383 0, .completionWrite 79 31 63 0, .vld 15 7 0 0 0,
    .fhWindowClose 4095 0 0 0 0 0, .reqQuote 0 3 0 0, .reqQuote 64 1 0 0, .customerImageLoad 22 63 true 0 0 0 0] : List Instr).all Instr.wf = true := by
  decide +kernel

/-! Single commands and worked values of the spec -/

/-- No row of the command table gives bits, so no word spells a command. -/
theorem test_decode : decodeTableWord 32 0 = none ∧ (State.reset.withFetchWord 32 0) = State.reset := ⟨rfl, rfl⟩

/-- R43, R649: after reset the device is in ROM, and an empty queue idles. -/
theorem test_reset : State.reset.rd R.DEV_STATUS_PHASE = 1 ∧ step State.reset = .next State.reset := ⟨by decide +kernel, rfl⟩

/-- R103's example: ties go to the even BF16 code. -/
theorem test_bf16_ties : fromF32 5 0x3F80_8000 = 0x3F80 ∧ fromF32 5 0x3F81_8000 = 0x3F82 := by decide +kernel

/-- The expansion example of chapter 3: INT4 code 0b1011 at d = 3 is XF7 0x75, E5M2 code 0x3D at d = -5 is XF12 0x2D0. -/
theorem test_expansion : xf7Code ((codeVal 0 0xB).scale 3) = 0x75 ∧ xf12Code ((codeVal 4 0x3D).scale (-5)) = 0x2D0 := by
  decide +kernel

/-- The quantisation examples of chapter 3: ties away from zero, saturation of 7 in E2M1 and of 7.75 in INT4. -/
theorem test_quantise : (quantCode 1 (f32Val 0x3E80_0000)).1 = 0x1 ∧ (quantCode 1 (f32Val 0xC020_0000)).1 = 0xD ∧
    quantCode 1 (f32Val 0x40E0_0000) = (0x7, true) ∧ quantCode 0 (f32Val 0x40F8_0000) = (7, true) ∧
    (quantCode 0 (f32Val 0xBF00_0000)).1 = 0xF ∧ (quantCode 3 (f32Val 0x3F88_0000)).1 = 0x39 := by decide +kernel

/-- The chunk example of chapter 4: 1, 2^-24 in one chunk and 2^-24 in the next leave 1.0; in one chunk they give 0x3F80_0001. -/
theorem test_chunks : accUpdate false (accUpdate true 0 (chunkSum [f32Val 0x3F80_0000, f32Val 0x3380_0000]) 0)
      (chunkSum [f32Val 0x3380_0000]) 0 = 0x3F80_0000 ∧
    accUpdate true 0 (chunkSum [f32Val 0x3F80_0000, f32Val 0x3380_0000, f32Val 0x3380_0000]) 0 = 0x3F80_0001 := by decide +kernel

/-- R72, R77: an access of the wrong width is counted; MESH_PLANE_VIOL saturates. -/
theorem test_counts : (stateOf State.reset (exec (.rcRead .owner 0x50000 16 1) State.reset)).rd R.STRATA_WINDOW_ERR_COUNT = 1 ∧
    (let s := st [(R.MESH_PLANE_VIOL_COUNT 0 0, 0xFFFF_FFFF)]
     (stateOf s (exec (.planeViolationDrop 0 0 1) s)).rd (R.MESH_PLANE_VIOL_COUNT 0 0)) = 0xFFFF_FFFF := by decide +kernel

/-- R166: a target behind by 2^31 - 1 is reached, one above by 1 is not. -/
theorem test_wait : countReached (4 + 2 ^ 31) 5 = true ∧ countReached 5 6 = false ∧ countReached 0 0xFFFF_FFFF = true := by decide +kernel

/-- R160: COPY moves 64 bytes inside tile SRAM and no more; they stand there once it is complete. -/
theorem test_copy :
    (let s := (tileAt copyWords).setBytes (tileKey 0 0) (List.replicate 65 7)
     let v := stateOf s (exec (.copy 0 0 0) s)
     let u := stateOf v (exec (.commandComplete 0 0 0 6 0 0) v)
     (v.byte (tileKey 0 127), u.byte (tileKey 0 64), u.byte (tileKey 0 127), u.byte (tileKey 0 128))) = (0, 7, 7, 0) := by decide +kernel

/-- R623: sag time reaches step 1 at once, step 2 after 50 µs. -/
theorem test_shed : (stateOf (sagState) (exec (.shedStepEntry 0 1) sagState)).rd R.POWER_STATUS_SHED_STEP = 1 ∧
    entryTime 2 = 50_000 := by decide +kernel
/-! Forms whose check the rules spell out -/

/-- Meets the hypotheses of ControlFormsCompleteByTheRules. -/
theorem witness_controlForms :
    ((readOf 0 fullParts).gradeMask / 2 ^ ((buildState.atTime 1).nextEpoch).dev.map.grade % 2 = 1 ∧
      sectionsWhole (readOf 0 fullParts).sections = true ∧ domainOk (readOf 0 fullParts).sections = true ∧
      (let w := (buildState.atTime 1).nextEpoch
       let l := (readOf 0 fullParts).sections
       pinOk l ((w.putRoles l).withSections l).swingSet = true ∧
         ∀ x ∈ l, bootListed x = true ∧ ((w.putRoles l).sectionCode ((w.putRoles l).withSections l) x true).1 = 0)) ∧
    (let s := reloading 6 0
     let w := s.atTime 1
     let f := readOf 1 (deltaParts 6)
     s.rd R.STRATA_RELOAD_ADDR_ADDR % 64 = 0 ∧ s.rd R.STRATA_RELOAD_ADDR_ADDR + f.totalLen ≤ 2 ^ 57 ∧ headerOk f = true ∧ f.kind = 1 ∧
       (∀ x ∈ f.sections, entryListed x = true) ∧ w.keyMay 0 0 = true ∧ (w.ownerSlot 0).id = f.keyId ∧ w.counter 6 ≤ f.rollback ∧
       f.baseDigest = w.digestAt R.STRATA_DIGEST_DIGEST ∧ (∀ x ∈ f.sections, x.kind = 6) ∧ doubledAt f.sections = none ∧
       (∀ x ∈ f.sections, (w.sectionCode (w.withSections f.sections) x false).1 = 0) ∧ ∀ id < 12, (w.table id).oldFly = 0) ∧
    (let w := ((reloading 6 2).atTime 1).switchFields 0 0 0
     w.rd R.DEV_STATUS_PHASE = 4 ∧ w.rd R.STRATA_STATUS_RELOAD = 2 ∧
       (∀ x ∈ w.strata.staged, sectionBoundary x = 0 ∧ x.kind ≠ 4 ∧ sectionTable x ∉ [some 5, some 7, some 8]) ∧
       ∀ id < 12, (w.table id).oldFly = 0) ∧
    (let c : Commit := ⟨none, 0, 0x30, 0, 7, [], 0⟩
     let w := (committing [c] []).atTime 1
     (committing [c] []).checkOf 0 = some c ∧ (groupAt 0 c.btype c.inst c.group).isSome = true ∧ w.ownSliceOpen c = true ∧
       w.instOn c.btype c.inst = true ∧ (w.applySnap c.snap).alsoListed c.btype c.inst c.group = true ∧
       (w.applySnap c.snap).ownershipOk c.btype c.group = true ∧ w.agree (w.applySnap c.snap) c.btype c.inst c.group w.sliceOpen = 0) ∧
    (let c : Commit := ⟨none, 128, 0x31, 0, 7, [], 0⟩
     let w := (committing [c] []).atTime 1
     w.agree (w.applySnap c.snap) c.btype c.inst c.group w.sliceOpen = 0 ∧
       (w.applySnap c.snap).lendCount (c.group - 128) - w.lendCount (c.group - 128) ≤ w.poolFree) ∧
    (let s := sliceIn 0
     s.template 0 0xA 2 % 2 = 1 ∧ s.template 0 0 2 ≤ s.template 0 2 2 ∧ s.template 0 2 2 ≤ s.rd R.MEM_POOL_TOTAL_SLABS ∧
       ((allSlices.filter (· != 63)).map fun y => s.rd (R.MEM_QUOTA_FLOOR y)).sum + s.template 0 0 2 ≤
         s.rd R.MEM_POOL_TOTAL_SLABS - s.rd R.MEM_POOL_LENT_SLABS ∧ s.template 0 6 2 = 0) ∧
    (0x1010_0000 - 4 : Nat) < 0x1000_0000 + 0x10_0000 * 1 := by decide +kernel

/-- RUN on a device with Agate running, slots 0 and 1 of the owner's keys in use (every usage), slot 2 VALID with usage 2. -/
def ownedState : State := { run [(R.FW_CORE_STATUS_STATE 0, 1)] with
  flash := { FlashState.blank with keys := [(0, ⟨0, 7, true⟩), (1, ⟨1, 7, true⟩), (2, ⟨2, 2, true⟩)] } }

/-- RUN with request slot 0 asking for a quote at VADDR 0x1000, its nonce at 0. -/
def quoteState : State :=
  let s := run [(R.FW_CORE_STATUS_STATE 0, 1), (R.REQ_CTRL_GO 0, 1), (R.REQ_CTRL_OP 0, 1), (R.REQ_MASK_MASK 0, 0xFFFF),
    (R.REQ_OUT_ADDR_VADDR 0, 0x1000), (R.REQ_OUT_LEN_LEN 0, 65536)]
  { s with sec := { s.sec with reqs := [⟨0, 0, 0⟩] } }

theorem quote_fits (s : State) (l : List (BitVec 8)) (hl : l.length = 64) : (s.evidence 0 1 0xFFFF l).length ≤ 65536 := by
  have h : (s.maskedMrs 0 0xFFFF).length = 1024 := by
    rw [State.maskedMrs, show ((List.range 18).filter fun b => 0xFFFF / 2 ^ b % 2 == 1) = List.range 16 by decide +kernel]
    simp [digestBytes, toBytes_len]
  simp [State.evidence, State.quoteBody, signBlock, digestBytes, toBytes_len, hl, h]

/-- Meets the hypotheses of RequestFormsCompleteByTheRules. -/
theorem witness_requestForms :
    (∀ op ∈ [1, 2, 3, 4],
      let w := memGone op
      let f := w.reqFields 63 15
      let o := w.object 63 (f.handle % 4096)
      w.rd R.DEV_STATUS_PHASE = 4 ∧
        (op = 1 → f.hint ≠ 5 ∧ f.first = 0 ∧ 1 ≤ f.count ∧ f.count ≤ 65536 ∧ w.rangeFree 63 f = true ∧
          w.used 63 + f.count ≤ w.rd (R.MEM_QUOTA_CEIL 63) ∧ w.hintOk f.hint f.target = true ∧ w.shortBy 63 f.count = 0 ∧
          (w.object 63 4095).live = false) ∧
        (op ≠ 1 → o.live = true ∧ f.handle = handleOf 63 (f.handle % 4096) o.serial ∧ f.vaddr = 0 ∧ f.hint = 0 ∧ f.first = 0 ∧
          f.target = 0 ∧ w.hintOk f.hint f.target = true ∧ (op = 4 ∨ f.count = 0)) ∧
        (op = 4 → 1 ≤ f.count ∧ f.first + f.count ≤ o.count ∧
          ∀ k ∈ w.migrateSlabs 63 f, (w.home 63 k).state ≠ .transit ∧ (w.home 63 k).state ≠ .lost)) ∧
    (let w := ownedState.atTime 1
     w.agateUp = true ∧ w.inRun = true ∧ w.sec.checkUntil ≤ w.now ∧ w.counter 7 + 1 = 1 ∧ w.keyMay 0 2 = true ∧
       (w.ownerSlot 3).valid = false ∧ w.otherKey 2 2 = true ∧ w.otherKey 2 0 = true ∧ 2 ≠ w.sec.imageSlot ∧
       ∀ k < 4, (((run [(R.FW_CORE_STATUS_STATE 0, 1)]).atTime 1).ownerSlot k).valid = false) ∧
    (let w := quoteState.atTime 1
     w.agateUp = true ∧ w.sec.nextReq = some ⟨0, 0, 0⟩ ∧ w.rd (R.REQ_CTRL_OP 0) = 1 ∧ w.rd (R.REQ_MASK_MASK 0) < 2 ^ 16 ∧
       w.rd (R.REQ_NONCE_ADDR_VADDR 0) % 64 = 0 ∧ w.rd (R.REQ_OUT_ADDR_VADDR 0) % 64 = 0 ∧ w.rd (R.REQ_OUT_LEN_LEN 0) = 65536) ∧
    (∀ op ∈ (List.range 15).map (· + 1),
      let w := (fabState [] .reset (opDesc op)).atTime 1
      let d := opDesc op
      descBreaks d = false ∧ (op ∈ [1, 2, 4, 5, 14] → w.opqMapped 31 (dLocal d) (dLen d) = true) ∧ w.selfFenced = false ∧
        (op ∉ [12, 13, 15] → dPod d = w.ownPod ∧ w.peerUp (dDev d) = true ∧ w.usable (dPod d) (dDev d) ≠ [])) ∧
    (∀ e ∈ [(0, 2, 64), (0, 3, 8), (0, 4, 8), (0, 5, 64), (1, 5, 64), (2, 7, 222)],
      let w := homeNow (if e.2.1 = 7 then 2 else 0)
      let h := someHdr e.1
      h.pkey = w.rd (R.FAB_WIN_CTRL_PKEY h.window) ∧ h.pod = w.ownPod ∧ w.rd (R.FAB_WIN_CTRL_SRC_ANY h.window) = 1 ∧
        h.epoch ∉ (w.peer h.dev).retired ∧ kindOk e.2.1 (w.rd (R.FAB_WIN_CTRL_KIND h.window)) = true ∧
        (e.2.1 ≠ 7 → h.offset + e.2.2 ≤ w.winSize h.window)) ∧
    (∀ kind ∈ [1, 2], (unitNow 10 (fftWords kind)).engineAt 0 10 kind firstRun (descOf (fftWords kind))) ∧
    (let d := descOf (fftWords 1)
     let n := d.fld 0x20 0 12 + 1
     fftSize n = true ∧ d.fld 0x20 28 4 = 0 ∧ d.fld 0x20 12 16 = 0 ∧ firstRun.place d 0x10 = firstRun.place d 0x14 ∧
       firstRun.place d 0x10 + 4 * n ≤ clusterBytes ∧ firstRun.place d 0x18 + 1 ≤ clusterBytes ∧ firstRun.place d 0x10 % 64 = 0) := by
  simp only [State.engineAt]
  refine ⟨?_, ?_, ?_, ?_, ?_, ?_, ?_⟩ <;> decide +kernel

end Sys2Proof.Machine.Slice0
end

section
/-! PROOFS. Finding a register's address in the map (R72 to R74), and MESH_PLANE_VIOL (R20, R34, R77): where it lies, what a
dropped packet, a read and a write do to it. -/

namespace Sys2Proof.Machine

/-! Blocks below an address -/

/-- The first address beyond every page of a block. -/
def BlockDef.bound (b : BlockDef) : Nat :=
  match b.insts with
  | [] => b.base + 2 * b.half
  | d :: _ => b.base + d.count * d.stride

/-- A block's page and its outermost stride are not empty, so that its bound is one. -/
def BlockDef.spaced (b : BlockDef) : Bool := b.half != 0 && b.insts.all (·.stride != 0)

theorem dimSplit_eq_none_of_le {d : Dim} (ds : List Dim) {off : Nat} (hd : d.stride ≠ 0) (h : d.count * d.stride ≤ off) :
    dimSplit (d :: ds) off = none := by
  have hc : d.count ≤ off / d.stride := (Nat.le_div_iff_mul_le (Nat.pos_of_ne_zero hd)).2 h
  simp [dimSplit, Nat.not_lt.2 hc]

theorem blockMatch_eq_none_of_bound_le {b : BlockDef} {a : Nat} (hb : b.spaced = true) (h : b.bound ≤ a) :
    blockMatch b a = none := by
  obtain ⟨block, base, insts, half, btype, regs⟩ := b
  cases insts with
  | nil =>
    simp only [BlockDef.spaced, BlockDef.bound, List.all_nil, Bool.and_true, bne_iff_ne] at hb h
    simp only [blockMatch, dimSplit, if_neg hb, if_neg (show ¬ a - base < 2 * half by omega), ite_self]
  | cons d ds =>
    simp only [BlockDef.spaced, BlockDef.bound, List.all_cons, Bool.and_eq_true, bne_iff_ne] at hb h
    obtain ⟨-, hd, -⟩ := hb
    simp only [blockMatch, dimSplit_eq_none_of_le ds hd (show d.count * d.stride ≤ a - base by omega), ite_self]

theorem blockMatch_base_add {b : BlockDef} {n off : Nat} {inst : List Nat} (hd : dimSplit b.insts n = some (inst, off))
    (hh : b.half ≠ 0) (ho : off < 2 * b.half) : blockMatch b (b.base + n) = some (inst, off) := by
  simp [blockMatch, hd, hh, ho]

/-- The search passes over the blocks that lie below the address. -/
theorem regFindIn_append_of_bound_le {a : Nat} (bs cs : List BlockDef)
    (h : ∀ b ∈ bs, b.spaced = true ∧ b.bound ≤ a) : regFindIn (bs ++ cs) a = regFindIn cs a := by
  induction bs with
  | nil => rfl
  | cons b bs ih =>
    obtain ⟨hb, hbs⟩ := List.forall_mem_cons.1 h
    rw [List.cons_append, regFindIn, blockMatch_eq_none_of_bound_le hb.1 hb.2, ih hbs]

/-! The mesh block and its counter -/

/-- The MESH block: three planes of 160 stops (R73). -/
def meshBlock : BlockDef := ⟨.mesh, 0x1400000, [⟨3, 262144⟩, ⟨160, 1024⟩], 0x200, 0x12, regsMesh⟩

/-- MESH_PLANE_VIOL's row (R77). -/
def planeViolReg : RegDef := ⟨"MESH_PLANE_VIOL", 0x8, [], 4, .none, [⟨0, 32, .rc, 0, none⟩]⟩

/-- MESH_PLANE_VIOL of one plane at one stop, as the map finds it. -/
def planeViolAt (plane stop : Nat) : RegAt := ⟨meshBlock, [plane, stop], planeViolReg, [], false⟩

theorem regBlocks_split_at_mesh : regBlocks = regBlocks.take 10 ++ meshBlock :: regBlocks.drop 11 := rfl

theorem blocks_before_mesh_lie_below :
    (regBlocks.take 10).all (fun b => b.spaced && decide (b.bound ≤ meshBlock.base)) = true := by decide

/-- From the MESH block's base up, the search begins at the MESH block. -/
theorem regFind_of_mesh_base_le {a : Nat} (h : meshBlock.base ≤ a) :
    regFind a = regFindIn (meshBlock :: regBlocks.drop 11) a := by
  rw [regFind, regBlocks_split_at_mesh]
  refine regFindIn_append_of_bound_le _ _ fun b hb => ?_
  have hm := List.all_eq_true.1 blocks_before_mesh_lie_below b hb
  rw [Bool.and_eq_true, decide_eq_true_eq] at hm
  exact ⟨hm.1, hm.2.trans h⟩

/-- An offset in a stop's page belongs to that plane and stop. -/
theorem dimSplit_mesh {plane stop off : Nat} (hp : plane < 3) (hs : stop < 160) (ho : off < 0x400) :
    dimSplit meshBlock.insts (262144 * plane + (1024 * stop + off)) = some ([plane, stop], off) := by
  have hplane : (262144 * plane + (1024 * stop + off)) / 262144 = plane := by omega
  have hrest : (262144 * plane + (1024 * stop + off)) % 262144 = 1024 * stop + off := by omega
  have hstop : (1024 * stop + off) / 1024 = stop := by omega
  have hoff : (1024 * stop + off) % 1024 = off := by omega
  simp [meshBlock, dimSplit, hplane, hrest, hstop, hoff, hp, hs]

section
variable {plane stop : Nat} (hp : plane < 3) (hs : stop < 160)
include hp hs

theorem regFind_planeViol : regFind (R.MESH_PLANE_VIOL_COUNT plane stop).addr = some (planeViolAt plane stop) := by
  have ha : (R.MESH_PLANE_VIOL_COUNT plane stop).addr = meshBlock.base + (262144 * plane + (1024 * stop + 8)) := by
    simp only [R.MESH_PLANE_VIOL_COUNT, meshBlock]; omega
  have hl : regLookup meshBlock.regs 8 = some (planeViolReg, []) := rfl
  have hm := blockMatch_base_add (dimSplit_mesh hp hs (by decide : 8 < 0x400)) (by decide) (by decide)
  rw [ha, regFind_of_mesh_base_le (Nat.le_add_right _ _), regFindIn, hm]
  simp only [hl, planeViolAt]

theorem rd_reset_planeViol : State.reset.rd (R.MESH_PLANE_VIOL_COUNT plane stop) = 0 := by
  have hw : regReset (R.MESH_PLANE_VIOL_COUNT plane stop).addr = 0 := by
    rw [regReset, regFind_planeViol hp hs]; rfl
  change bitsOf (regReset (R.MESH_PLANE_VIOL_COUNT plane stop).addr) 0 32 = 0
  rw [hw]; rfl

/-- The owner's 32-bit accesses reach MESH_PLANE_VIOL in every state: a stop is never switched off (R72). -/
theorem regAt_planeViol (s : State) :
    s.regAt .owner (R.MESH_PLANE_VIOL_COUNT plane stop).addr 32 = some (planeViolAt plane stop) := by
  have ha : (R.MESH_PLANE_VIOL_COUNT plane stop).addr = 0x1400008 + 262144 * plane + 1024 * stop := rfl
  have hreach : reaches .owner (R.MESH_PLANE_VIOL_COUNT plane stop).addr = true := by
    simp only [reaches, ha, Bool.or_eq_true, decide_eq_true_eq]; omega
  have hlist : unlistedIndex (R.MESH_PLANE_VIOL_COUNT plane stop).addr = false := by
    simp only [unlistedIndex, ha, Bool.or_eq_false_iff, beq_eq_false_iff_ne]; omega
  have hqueue : rsvdQueue (R.MESH_PLANE_VIOL_COUNT plane stop).addr = false := by
    simp only [rsvdQueue, ha, Bool.and_eq_false_iff, decide_eq_false_iff_not]; omega
  have hshown : s.unitShown (planeViolAt plane stop) (R.MESH_PLANE_VIOL_COUNT plane stop).addr = true := rfl
  have hwidth : (planeViolAt plane stop).reg.bytes * 8 = 32 := rfl
  simp [State.regAt, hreach, hlist, hqueue, regFind_planeViol hp hs, hshown, hwidth]

end

/-! What a drop, a read and a write do -/

/-- A counter that counts one saturates at all ones. -/
theorem State.rd_sat_one (s : State) {f : Fld} (hl : f.lo + f.width ≤ 64) :
    (s.sat f 1).rd f = min (s.rd f + 1) (2 ^ f.width - 1) := by
  rw [State.sat, s.rd_wr_same f _ hl, Nat.mod_eq_of_lt]
  have := Nat.two_pow_pos f.width
  omega

theorem exec_planeViolationDrop {s : State} {plane stop : Nat} (t : Nat) (hp : plane < 3) (hs : stop < 160)
    (he : s.rd (R.MESH_STOP_CTRL_ENABLED plane stop) = 0) :
    exec (.planeViolationDrop plane stop t) s = .next ((s.atTime t).sat (R.MESH_PLANE_VIOL_COUNT plane stop) 1) := by
  change execPlaneViolationDrop plane stop t s = _
  simp [execPlaneViolationDrop, hp, hs, he]

theorem readWord_planeViol (s : State) (plane stop : Nat) :
    s.readWord (planeViolAt plane stop) (R.MESH_PLANE_VIOL_COUNT plane stop).addr =
      s.rd (R.MESH_PLANE_VIOL_COUNT plane stop) := by
  change (regWord s.regs (R.MESH_PLANE_VIOL_COUNT plane stop).addr &&& BitVec.ofNat 64 (2 ^ 32 - 1)).toNat =
    ((regWord s.regs (R.MESH_PLANE_VIOL_COUNT plane stop).addr).toNat >>> 0) % 2 ^ 32
  rw [BitVec.toNat_and, BitVec.toNat_ofNat, Nat.mod_eq_of_lt (by decide), Nat.and_two_pow_sub_one_eq_mod, Nat.shiftRight_zero]

/-- A read sends the count and clears it (R20, R77). -/
theorem regRead_planeViol (s : State) (plane stop : Nat) :
    s.regRead (planeViolAt plane stop) (R.MESH_PLANE_VIOL_COUNT plane stop).addr =
      (s.emit .read [(R.MESH_PLANE_VIOL_COUNT plane stop).addr, s.rd (R.MESH_PLANE_VIOL_COUNT plane stop)]).wr
        (R.MESH_PLANE_VIOL_COUNT plane stop) 0 := by
  rw [State.regRead, readWord_planeViol]
  rfl

/-- A write puts the word back as it stands: the register's only field is RC (R20). -/
theorem regWrite_planeViol (s : State) (plane stop a v : Nat) :
    s.regWrite (planeViolAt plane stop) a v = s.wrWord a (regWord s.regs a) := by
  have hown : ownCommand "MESH_PLANE_VIOL" v = false := by simp [ownCommand]
  have hheld : s.heldField (planeViolAt plane stop) = false := rfl
  have hodd : s.oddRequest (planeViolAt plane stop) v = none := by
    simp [State.oddRequest, planeViolAt, planeViolReg]
  have hput : s.putReg (planeViolAt plane stop) a v = s.wrWord a (regWord s.regs a) := rfl
  have hlive (u : State) : u.liveActed (planeViolAt plane stop) v = u := rfl
  have hplain : allGrouped (planeViolAt plane stop).reg = false := rfl
  have hname : (planeViolAt plane stop).reg.name = "MESH_PLANE_VIOL" := rfl
  simp [State.regWrite, hown, hheld, hplain, hodd, hput, hlive, hname]

/-- Writing back the word a register holds leaves its fields as they were. -/
theorem State.rd_wrWord_self (s : State) (f : Fld) : (s.wrWord f.addr (regWord s.regs f.addr)).rd f = s.rd f := by
  simp only [State.rd, State.wrWord, fldGet, regWord, regSetWord, tblGet_set_same]

theorem exec_rcRead_planeViol (s : State) {plane stop : Nat} (t : Nat) (hp : plane < 3) (hs : stop < 160) :
    exec (.rcRead .owner (R.MESH_PLANE_VIOL_COUNT plane stop).addr 32 t) s =
      .next (((s.atTime t).settleStop.passStop).regRead (planeViolAt plane stop) (R.MESH_PLANE_VIOL_COUNT plane stop).addr) := by
  change execRcRead _ _ _ _ _ = _
  simp only [execRcRead, regAt_planeViol hp hs]

theorem exec_registerWrite_planeViol (s : State) {plane stop : Nat} (v t : Nat) (hp : plane < 3) (hs : stop < 160) :
    exec (.registerWrite .owner (R.MESH_PLANE_VIOL_COUNT plane stop).addr 32 v t) s =
      .next ((s.atTime t).regWrite (planeViolAt plane stop) (R.MESH_PLANE_VIOL_COUNT plane stop).addr v) := by
  change execRegisterWrite _ _ _ _ _ _ = _
  simp only [execRegisterWrite, regAt_planeViol hp hs]

/-- Settles O54: the owner reaches the counter at every plane and stop, and its one field is RC and saturates. -/
theorem planeViolationsAreCounted : Obligations.PlaneViolationsAreCounted := by
  intro s plane stop t hp hs
  have hbits : (R.MESH_PLANE_VIOL_COUNT plane stop).lo + (R.MESH_PLANE_VIOL_COUNT plane stop).width ≤ 64 :=
    (by decide : 0 + 32 ≤ 64)
  refine ⟨?_, rd_reset_planeViol hp hs, fun he => ?drop, ?read, fun v => ?write⟩
  · rw [R.MESH_PLANE_VIOL_COUNT, Fld.mk.injEq]
    exact ⟨by omega, rfl, rfl⟩
  case drop => exact ⟨_, exec_planeViolationDrop t hp hs he, State.rd_sat_one _ hbits⟩
  case read =>
    have hread := exec_rcRead_planeViol s t hp hs
    rw [regRead_planeViol] at hread
    exact ⟨_, _, rfl, hread, State.rd_wr_same _ _ _ hbits, rfl⟩
  case write =>
    have hwrite := exec_registerWrite_planeViol s v t hp hs
    rw [regWrite_planeViol] at hwrite
    exact ⟨_, hwrite, State.rd_wrWord_self (s.atTime t) _⟩

end Sys2Proof.Machine
end

section
/-! PROOFS. A counter's distance from a wait's target, modulo 2^32 (R166). -/

namespace Sys2Proof.Machine

/-- A difference of two counts in an n-bit field, in naturals: the one formula of every counter, ring and queue that wraps. -/
theorem toField_sub {n b : Nat} (a : Nat) (hb : b ≤ 2 ^ n) : toField n ((a : Int) - b) = (a + 2 ^ n - b) % 2 ^ n := by
  have hwrap : (a : Int) - b + (2 ^ n : Nat) = (a + 2 ^ n - b : Nat) := by omega
  rw [toField, ← Int.add_emod_right, hwrap, ← Int.natCast_emod, Int.toNat_natCast]

/-- The rule of R166. -/
theorem countReached_iff {target : Nat} (value : Nat) (ht : target ≤ 2 ^ 32) :
    countReached value target = true ↔ (value + 2 ^ 32 - target) % 2 ^ 32 < 2 ^ 31 := by
  rw [countReached, toField_sub value ht, decide_eq_true_iff]
  norm_num

/-- A value that has wrapped past its target by less than 2^31 has reached it. -/
theorem countReached_behind {d : Nat} (value : Nat) (hd : d < 2 ^ 31) :
    countReached value ((value + 2 ^ 32 - d) % 2 ^ 32) = true := by
  have hdist : (value + 2 ^ 32 - (value + 2 ^ 32 - d) % 2 ^ 32) % 2 ^ 32 = d := by omega
  rwa [countReached_iff value (Nat.mod_lt _ (by decide)).le, hdist]

/-- A target ahead of the value by less than 2^31 leaves a distance of more than 2^31 modulo 2^32. -/
theorem countReached_ahead {d : Nat} (value : Nat) (h0 : 0 < d) (hd : d < 2 ^ 31) :
    countReached value ((value + d) % 2 ^ 32) = false := by
  have hdist : (value + 2 ^ 32 - (value + d) % 2 ^ 32) % 2 ^ 32 = 2 ^ 32 - d := by omega
  rw [Bool.eq_false_iff, Ne, countReached_iff value (Nat.mod_lt _ (by decide)).le, hdist]
  omega

/-- Settles O55: the model's signed difference is the distance of R166, and a target within 2^31 behind or ahead of the value
fixes that distance. -/
theorem waitsCompareModulo : Obligations.WaitsCompareModulo := by
  intro value target _ ht
  refine ⟨countReached_iff value ht.le, ?behind, ?ahead⟩
  case behind =>
    rintro d hd rfl
    exact countReached_behind value hd
  case ahead =>
    rintro d h0 hd rfl
    exact countReached_ahead value h0 hd

end Sys2Proof.Machine
end

section
/-! PROOFS. What a cold or warm reset leaves of the registers (R649, R650), and the radio's state after it (R357). -/

namespace Sys2Proof.Machine

/-! Finding an array of registers in a block that stands once -/

/-- The first offset beyond every register of a row. -/
def RegDef.bound (r : RegDef) : Nat :=
  match r.dims with
  | [] => r.off + 1
  | d :: _ => r.off + d.count * d.stride

/-- A row's outermost stride is not zero, so that its bound is one. -/
def RegDef.spaced (r : RegDef) : Bool := r.dims.all (·.stride != 0)

theorem regMatch_eq_none_of_bound_le {r : RegDef} {off : Nat} (hr : r.spaced = true) (h : r.bound ≤ off) :
    regMatch r off = none := by
  obtain ⟨name, start, dims, bytes, group, fields⟩ := r
  cases dims with
  | nil =>
    obtain ⟨n, rfl⟩ : ∃ n, off = start + (n + 1) := ⟨off - start - 1, by simp only [RegDef.bound] at h; omega⟩
    simp [regMatch, dimSplit]
  | cons d ds =>
    simp only [RegDef.spaced, RegDef.bound, List.all_cons, Bool.and_eq_true, bne_iff_ne] at hr h
    obtain ⟨hd, -⟩ := hr
    simp [regMatch, dimSplit_eq_none_of_le ds hd (show d.count * d.stride ≤ off - start by omega)]

/-- The search passes over the rows that end below the offset. -/
theorem regLookup_append_of_bound_le {off : Nat} (rs rs' : List RegDef)
    (h : ∀ r ∈ rs, r.spaced = true ∧ r.bound ≤ off) : regLookup (rs ++ rs') off = regLookup rs' off := by
  induction rs with
  | nil => rfl
  | cons r rs ih =>
    obtain ⟨hr, hrs⟩ := List.forall_mem_cons.1 h
    rw [List.cons_append, regLookup, regMatch_eq_none_of_bound_le hr.1 hr.2, ih hrs]

/-- Row `r`, an array of registers in a block that stands once, is found at each of its indices where the blocks before its own
and the rows before it end below it. -/
theorem regFind_array {bs cs : List BlockDef} {b : BlockDef} {rs rs' : List RegDef} {r : RegDef} {d : Dim} {i : Nat}
    (hblock : regBlocks = bs ++ b :: cs) (hbs : ∀ x ∈ bs, x.spaced = true ∧ x.bound ≤ b.base)
    (hinst : b.insts = []) (hrow : b.regs = rs ++ r :: rs') (hrs : ∀ x ∈ rs, x.spaced = true ∧ x.bound ≤ r.off)
    (hdims : r.dims = [d]) (hd : d.stride ≠ 0) (hend : r.bound ≤ 2 * b.half) (hi : i < d.count) :
    regFind (b.base + r.off + d.stride * i) = some ⟨b, [], r, [i], false⟩ := by
  have hin : r.off + d.stride * i < 2 * b.half := by
    have hlast := Nat.mul_lt_mul_of_pos_left hi (Nat.pos_of_ne_zero hd)
    simp only [RegDef.bound, hdims, Nat.mul_comm d.count] at hend
    omega
  have hblockMatch : blockMatch b (b.base + (r.off + d.stride * i)) = some ([], r.off + d.stride * i) :=
    blockMatch_base_add (by rw [hinst, dimSplit]) (by omega) hin
  have hlookup : regLookup b.regs (r.off + d.stride * i) = some (r, [i]) := by
    have hdiv : d.stride * i / d.stride = i := Nat.mul_div_cancel_left i (Nat.pos_of_ne_zero hd)
    have hmatch : regMatch r (r.off + d.stride * i) = some [i] := by simp [regMatch, hdims, dimSplit, hdiv, hi]
    rw [hrow, regLookup_append_of_bound_le _ _ fun x hx => (hrs x hx).imp_right (·.trans (Nat.le_add_right _ _)),
      regLookup, hmatch]
  rw [Nat.add_assoc, regFind, hblock,
    regFindIn_append_of_bound_le _ _ fun x hx => (hbs x hx).imp_right (·.trans (Nat.le_add_right _ _)), regFindIn, hblockMatch]
  simp only [hlookup]

/-! What a reset leaves of the registers -/

theorem State.each_keeps {α β : Type} (p : State → β) {s : State} {l : List α} {g : State → α → State}
    (h : ∀ t, ∀ x ∈ l, p (g t x) = p t) : p (s.each l g) = p s :=
  List.foldlRecOn l g (motive := fun t => p t = p s) rfl fun t ht x hx => (h t x hx).trans ht

theorem State.rd_wrs_of_notMem (s : State) {f : Fld} {l : List (Fld × Nat)} (h : f.addr ∉ l.map (·.1.addr)) :
    (s.wrs l).rd f = s.rd f := by
  induction l generalizing s with
  | nil => rfl
  | cons e l ih =>
    obtain ⟨he, hl⟩ := List.ne_and_not_mem_of_not_mem_cons h
    rw [State.wrs_cons, ih _ hl, s.rd_wr_addr _ _ _ he]

/-- The registers outside the ASSAY block that a reset writes: its cause, the straps, and what a warm reset carries over. -/
def resetRows : List Nat :=
  [R.DEV_RESET_CAUSE_CAUSE.addr, R.DEV_STRAP_STRAPS.addr, R.FW_LOG_HEAD_SEQ.addr, R.PCIE_SESSION_HGEN.addr,
    R.HB_SESSION_STATUS_HGEN.addr, (R.TIME_DOM_STATUS_STATE 0).addr, (R.TIME_DOM_STATUS_STATE 1).addr,
    R.TIME_STATUS_SYNCE_STATE.addr]

theorem resetRows_eq : resetRows = [0x1c, 0x20, 0x40300, 0x3600004, 0x100000014, 0x10110, 0x10190, 0x10000] := rfl

/-- Every reset puts the register at `a` back to its Reset column: no field of it is kept (R650), it shows nothing of the
flash (R635, R638), and the reset itself writes nothing there. -/
structure ResetClears (a : Nat) : Prop where
  not_kept : keptMask a = 0
  not_assay : a < 0x50000 ∨ 0x60000 ≤ a
  not_row : a ∉ resetRows

theorem ResetClears.rd_showFlash {f : Fld} (hf : ResetClears f.addr) (s : State) : s.showFlash.rd f = s.rd f := by
  have hout := hf.not_assay
  rw [State.showFlash, State.showStrikes, State.each_keeps (·.rd f) fun t k hk => ?strikes, State.rd_wrs_of_notMem _ ?health]
  case strikes =>
    have hsite : k < 136 := List.mem_range.1 hk
    exact t.rd_wr_addr _ _ _ (by simp only [R.ASSAY_TILE_STRIKES_COUNT]; omega)
  case health =>
    simp only [List.map_cons, List.map_nil, List.mem_cons, List.not_mem_nil, or_false, R.ASSAY_HEALTH_REPLACE,
      R.ASSAY_HEALTH_REASON, R.ASSAY_RETIRED_COUNT]
    omega

theorem ResetClears.rd_keepRegs {f : Fld} (hf : ResetClears f.addr) (s : State) (old : Tbl RegWord) :
    (s.keepRegs old).rd f = s.rd f := by
  refine State.each_keeps (·.rd f) fun t e _ => ?_
  by_cases hm : keptMask e.1 = 0
  · simp only [if_pos hm]
  · have hne : f.addr ≠ e.1 := fun he => hm (he ▸ hf.not_kept)
    simp only [if_neg hm, State.rd, State.wrWord, fldGet, regWord, regSetWord, tblGet_set_ne _ _ _ _ hne]

theorem State.clusters_showFlash (s : State) : s.showFlash.clusters = s.clusters := by
  rw [State.showFlash, State.showStrikes, State.each_keeps (·.clusters) fun t _ _ => t.wr_clusters _ _, State.wrs_clusters]

theorem State.clusters_keepRegs (s : State) (old : Tbl RegWord) : (s.keepRegs old).clusters = s.clusters := by
  refine State.each_keeps (·.clusters) fun t e _ => ?_
  by_cases hm : keptMask e.1 = 0
  · simp only [if_pos hm]
  · simp only [if_neg hm, State.wrWord_clusters]

/-- What every reset leaves: no cluster holds anything, and the registers that it clears read their Reset column. -/
structure AfterReset (u : State) : Prop where
  clusters : u.clusters = []
  cleared : ∀ f : Fld, ResetClears f.addr → u.rd f = State.reset.rd f

theorem AfterReset.coldReset (s : State) (cause straps : Nat) (trip : Bool) : AfterReset (s.coldReset cause straps trip) where
  clusters := by rw [State.coldReset, State.wrs_clusters, State.clusters_showFlash]; rfl
  cleared f hf := by
    have hrow : f.addr ∉ resetRows.take 2 := fun h => hf.not_row (List.mem_of_mem_take h)
    rw [State.coldReset, State.rd_wrs_of_notMem _ hrow, hf.rd_showFlash]
    rfl

theorem AfterReset.warmReset (s : State) (cause : Nat) (trip : Bool) : AfterReset (s.warmReset cause trip) where
  clusters := by rw [State.warmReset, State.wrs_clusters, State.clusters_showFlash, State.clusters_keepRegs]; rfl
  cleared f hf := by
    rw [State.warmReset, State.rd_wrs_of_notMem _ hf.not_row, hf.rd_showFlash, hf.rd_keepRegs]
    rfl

/-! Each reset takes effect -/

section
variable {s : State} {lowNs word t : Nat} (trip : Bool) (hr : s.runs = true)
include hr

theorem exec_coldReset {cause : Nat} (straps : Nat) (h1 : 1 ≤ cause) (h4 : cause ≤ 4) (hl : 10_000 ≤ lowNs) :
    exec (.coldReset cause lowNs straps trip t) s = .next ((s.atTime t).coldReset cause straps trip) := by
  have hrun : (s.atTime t).runs = true := hr
  change execColdReset _ _ _ _ _ _ = _
  by_cases hc : cause = 1
  · simp only [execColdReset, hc, ↓reduceIte]
  · have h0 : cause ≠ 0 := by omega
    simp [execColdReset, hc, hrun, h0, Nat.not_lt.2 h4, Nat.not_lt.2 hl]

theorem exec_brownOut {mV ns : Nat} (straps : Nat) (hv : mV < 600) (hn : 1000 ≤ ns) :
    exec (.brownOut mV ns straps trip t) s = .next ((s.atTime t).coldReset 4 straps trip) := by
  have hrun : (s.atTime t).runs = true := hr
  change execBrownOut _ _ _ _ _ _ = _
  simp [execBrownOut, hrun, Nat.not_le.2 hv, Nat.not_lt.2 hn]

theorem exec_devResetCold (straps : Nat) (hk : word % 4 = 2) (hc : word / 256 % 256 = 0xA5) :
    exec (.devResetCold word straps trip t) s = .next ((s.atTime t).coldReset 3 straps trip) := by
  have hrun : (s.atTime t).runs = true := hr
  change execDevResetCold _ _ _ _ _ = _
  simp [execDevResetCold, resetWord, hrun, hk, hc]

theorem exec_warmReset {cause : Nat} (h1 : 0x11 ≤ cause) (h3 : cause ≤ 0x13) (hl : 10_000 ≤ lowNs) :
    exec (.warmReset cause lowNs trip t) s = .next ((s.atTime t).warmReset cause trip) := by
  have hrun : (s.atTime t).runs = true := hr
  change execWarmReset _ _ _ _ _ = _
  simp [execWarmReset, hrun, Nat.not_lt.2 h1, Nat.not_lt.2 h3, Nat.not_lt.2 hl]

theorem exec_devResetWarm (hk : word % 4 = 1) (hc : word / 256 % 256 = 0xA5) :
    exec (.devResetWarm word trip t) s = .next ((s.atTime t).warmReset 0x12 trip) := by
  have hrun : (s.atTime t).runs = true := hr
  change execDevResetWarm _ _ _ _ = _
  simp [execDevResetWarm, resetWord, hrun, hk, hc]

end

/-! The registers of carriers, radio units and service cores -/

/-- The FW block (R73). -/
def fwBlock : BlockDef := ⟨.fw, 0x40000, [], 0x8000, 0x6, regsFw⟩

/-- The AIR block (R73). -/
def airBlock : BlockDef := ⟨.air, 0x2800000, [], 0x80000, 0x21, regsAir1 ++ regsAir2⟩

/-- FW_CORE_STATUS's row: RO fields that reset to 0. -/
def coreStatusReg : RegDef := ⟨"FW_CORE_STATUS", 0x100, [⟨23, 4⟩], 4, .none,
  [⟨0, 3, .ro, 0, none⟩, ⟨3, 1, .ro, 0, none⟩, ⟨4, 4, .ro, 0, none⟩, ⟨8, 2, .ro, 0, none⟩]⟩

/-- AIR_CARRIER's row: RO fields that reset to 0. -/
def carrierReg : RegDef := ⟨"AIR_CARRIER", 0x1000, [⟨256, 8⟩], 4, .none,
  [⟨0, 3, .ro, 0, none⟩, ⟨3, 4, .ro, 0, none⟩, ⟨7, 4, .ro, 0, none⟩, ⟨11, 4, .ro, 0, none⟩, ⟨15, 6, .ro, 0, none⟩]⟩

/-- AIR_RU_STATE's row: RO fields that reset to 0. -/
def ruStateReg : RegDef := ⟨"AIR_RU_STATE", 0x4000, [⟨64, 32⟩], 4, .none,
  [⟨0, 3, .ro, 0, none⟩, ⟨3, 5, .ro, 0, none⟩, ⟨8, 1, .ro, 0, none⟩]⟩

theorem regFind_coreStatus {c : Nat} (hc : c < 23) :
    regFind (R.FW_CORE_STATUS_STATE c).addr = some ⟨fwBlock, [], coreStatusReg, [c], false⟩ :=
  regFind_array (bs := regBlocks.take 5) (cs := regBlocks.drop 6) (rs := regsFw.take 11) (rs' := regsFw.drop 12)
    (d := ⟨23, 4⟩) rfl (by decide) rfl rfl (by decide) rfl (by decide) (by decide) hc

theorem regFind_carrier {k : Nat} (hk : k < 256) :
    regFind (R.AIR_CARRIER_STATE k).addr = some ⟨airBlock, [], carrierReg, [k], false⟩ :=
  regFind_array (bs := regBlocks.take 15) (cs := regBlocks.drop 16) (rs := airBlock.regs.take 16) (rs' := airBlock.regs.drop 17)
    (d := ⟨256, 8⟩) rfl (by decide) rfl rfl (by decide) rfl (by decide) (by decide) hk

theorem regFind_ruState {r : Nat} (hr : r < 64) :
    regFind (R.AIR_RU_STATE_STATE r).addr = some ⟨airBlock, [], ruStateReg, [r], false⟩ :=
  regFind_array (bs := regBlocks.take 15) (cs := regBlocks.drop 16) (rs := airBlock.regs.take 18) (rs' := airBlock.regs.drop 19)
    (d := ⟨64, 32⟩) rfl (by decide) rfl rfl (by decide) rfl (by decide) (by decide) hr

theorem keptMask_eq_zero_of_ro {a : Nat} {x : RegAt} (hx : regFind a = some x) (hro : ∀ d ∈ x.reg.fields, d.acc = .ro) :
    keptMask a = 0 := by
  rw [keptMask, hx]
  exact List.foldlRecOn _ _ (motive := (· = 0)) rfl fun m hm d hd => by rw [hro d hd]; exact hm

theorem rd_reset_eq_zero {f : Fld} {x : RegAt} (hx : regFind f.addr = some x) (h0 : ∀ d ∈ x.reg.fields, d.reset = 0) :
    State.reset.rd f = 0 := by
  have hsum : x.reg.fields.foldl (fun w d => w + d.reset * 2 ^ d.lo) 0 = 0 :=
    List.foldlRecOn _ _ (motive := (· = 0)) rfl fun w hw d hd => by rw [hw, h0 d hd, Nat.zero_mul]
  have hword : regReset f.addr = 0 := by rw [regReset, hx]; simp only [regResetWord, hsum]; rfl
  change bitsOf (regReset f.addr) f.lo f.width = 0
  simp [hword, bitsOf]

/-- A register of RO fields that reset to 0 reads 0 after every reset, where the reset writes nothing to it. -/
theorem AfterReset.rd_eq_zero {u : State} (hu : AfterReset u) {f : Fld} {b : BlockDef} {r : RegDef} {inst is : List Nat}
    (hx : regFind f.addr = some ⟨b, inst, r, is, false⟩) (hro : ∀ d ∈ r.fields, d.acc = .ro ∧ d.reset = 0)
    (hassay : f.addr < 0x50000 ∨ 0x60000 ≤ f.addr) (hrow : f.addr ∉ resetRows) : u.rd f = 0 := by
  have hclears : ResetClears f.addr := ⟨keptMask_eq_zero_of_ro hx fun d hd => (hro d hd).1, hassay, hrow⟩
  rw [hu.cleared f hclears, rd_reset_eq_zero hx fun d hd => (hro d hd).2]

section
variable {u : State} (hu : AfterReset u)
include hu

theorem AfterReset.tables_eq_nil (c : Nat) : (u.cluster c).tables = [] := by
  rw [State.cluster, hu.clusters]; rfl

theorem AfterReset.carrierState_eq_zero {k : Nat} (hk : k < 256) : u.rd (R.AIR_CARRIER_STATE k) = 0 := by
  refine hu.rd_eq_zero (regFind_carrier hk) (by decide) (.inr ?_) ?_
  · simp only [R.AIR_CARRIER_STATE]; omega
  · simp only [resetRows_eq, R.AIR_CARRIER_STATE, List.mem_cons, List.not_mem_nil, or_false]; omega

theorem AfterReset.ruState_eq_zero {r : Nat} (hr : r < 64) : u.rd (R.AIR_RU_STATE_STATE r) = 0 := by
  refine hu.rd_eq_zero (regFind_ruState hr) (by decide) (.inr ?_) ?_
  · simp only [R.AIR_RU_STATE_STATE]; omega
  · simp only [resetRows_eq, R.AIR_RU_STATE_STATE, List.mem_cons, List.not_mem_nil, or_false]; omega

theorem AfterReset.coreState_eq_zero {c : Nat} (hc : c < 23) : u.rd (R.FW_CORE_STATUS_STATE c) = 0 := by
  refine hu.rd_eq_zero (regFind_coreStatus hc) (by decide) (.inl ?_) ?_
  · simp only [R.FW_CORE_STATUS_STATE]; omega
  · simp only [resetRows_eq, R.FW_CORE_STATUS_STATE, List.mem_cons, List.not_mem_nil, or_false]; omega

/-- An endpoint stands on a service core, cores 7 to 22 (R331, R561). -/
theorem AfterReset.endpointUp_eq_false (k : Nat) : u.endpointUp k = false := by
  have hcore : 7 + u.carrierEntry k / 2 ^ 15 % 16 < 23 := by omega
  rw [State.endpointUp, hu.coreState_eq_zero hcore]
  rfl

end

/-- Settles O56: each of the five commands ends in a cold or warm reset, and both leave the radio as reset finds it. -/
theorem resetsClearTheRadio : Obligations.ResetsClearTheRadio := by
  intro s u cause lowNs straps mV ns word t trip _ hrun hreset
  have hu : AfterReset u := by
    obtain ⟨h1, h4, hl, he⟩ | ⟨hv, hn, he⟩ | ⟨hk, hc, he⟩ | ⟨h1, h3, hl, he⟩ | ⟨hk, hc, he⟩ := hreset
    · rw [exec_coldReset trip hrun straps h1 h4 hl] at he
      exact Host.Outcome.next.inj he ▸ .coldReset _ _ _ _
    · rw [exec_brownOut trip hrun straps hv hn] at he
      exact Host.Outcome.next.inj he ▸ .coldReset _ _ _ _
    · rw [exec_devResetCold trip hrun straps hk hc] at he
      exact Host.Outcome.next.inj he ▸ .coldReset _ _ _ _
    · rw [exec_warmReset trip hrun h1 h3 hl] at he
      exact Host.Outcome.next.inj he ▸ .warmReset _ _ _
    · rw [exec_devResetWarm trip hrun hk hc] at he
      exact Host.Outcome.next.inj he ▸ .warmReset _ _ _
  exact ⟨hu.tables_eq_nil, fun _ => hu.carrierState_eq_zero, fun _ => hu.ruState_eq_zero, fun k _ => hu.endpointUp_eq_false k⟩

end Sys2Proof.Machine
end

section
/-! PROOFS. A HELLO after a fence (R521). -/

namespace Sys2Proof.Machine

theorem State.rd_iff_flag_addr (s : State) (b : Bool) (f g : Fld) (h : g.addr ≠ f.addr) :
    (s.iff b (·.flag f)).rd g = s.rd g := by
  cases b
  · rfl
  · exact s.rd_wr_addr f g 1 h

/-- The event that a joining peer may raise lies below the peer table, and its state and epoch share no bit. -/
theorem State.rd_peerJoins (s : State) (dev : Nat) {epoch : Nat} (he : epoch < 2 ^ 16) :
    (s.peerJoins dev epoch).rd (R.FAB_PEER_STATE dev) = 1 ∧ (s.peerJoins dev epoch).rd (R.FAB_PEER_EPOCH dev) = epoch := by
  have hevent : 0x3401000 + 4 * dev ≠ 0x3400004 := by omega
  simp only [State.peerJoins, State.wrs_cons, State.wrs_nil]
  constructor
  · rw [State.rd_iff_flag_addr _ _ _ _ hevent,
      State.rd_wr_bits _ _ _ _ (by decide : 2 + 16 ≤ 64) (.inr (by decide : 0 + 2 ≤ 2))]
    exact State.rd_wr_same _ _ _ (by decide : 0 + 2 ≤ 64)
  · rw [State.rd_iff_flag_addr _ _ _ _ hevent, State.rd_wr_same _ _ _ (by decide : 2 + 16 ≤ 64)]
    exact Nat.mod_eq_of_lt he

/-- The state once a HELLO on link `l` has been heard: its buffer is free again. -/
def State.hears (s : State) (l : Nat) : State :=
  (s.freeBuf l 3).setFab { (s.freeBuf l 3).fab with heard := (s.freeBuf l 3).now }

/-- The peer `dev` with the epoch, the link and the windows of its HELLO on link `l`. -/
def State.welcomes (s : State) (l dev epoch : Nat) (windows : List (Nat × Nat)) : State :=
  let v := s.peerJoins dev epoch
  v.setPeer dev { v.peer dev with heard := v.now, off := (v.peer dev).off.filter (· != l), windows := windows }

/-- What a HELLO brings of windows is no register. -/
theorem State.rd_welcomes (s : State) (l dev epoch : Nat) (windows : List (Nat × Nat)) (f : Fld) :
    (s.welcomes l dev epoch windows).rd f = (s.peerJoins dev epoch).rd f := rfl

/-- The two answers to a HELLO (R521). -/
theorem exec_helloRx (s : State) {l dev : Nat} (epoch cyc t : Nat) (windows pairs : List (Nat × Nat)) (hl : l < 6)
    (hdev : dev < 256) :
    exec (.helloRx l dev epoch windows pairs cyc t) s = .next
      (let u := (s.atTime t).hears l
       if epoch ∈ (u.peer dev).retired then u.manage l 0x0C u.ownPod dev 0 dev epoch []
       else (u.welcomes l dev epoch windows).each (pairs.take 16) fun w p => w.fenceNamed dev p.1 p.2 cyc) := by
  have hok : (l < 6 && dev < 256) = true := by simp [hl, hdev]
  change execHelloRx _ _ _ _ _ _ _ _ = _
  rw [execHelloRx, hok, onUnit_true]
  simp only [List.contains_iff_mem]
  rfl

/-- Settles O53: a HELLO's answer turns on the fenced epochs of its peer, and nothing after the join writes that peer's
registers before the fence list is taken. -/
theorem fencedPeerReturnsWithNewEpoch : Obligations.FencedPeerReturnsWithNewEpoch := by
  rintro s _ l dev epoch cyc t windows pairs hl hdev hepoch rfl
  have hrx := exec_helloRx s epoch cyc t windows pairs hl hdev
  refine ⟨fun hfenced => ?fenced, fun hnew => ?new⟩
  case fenced => exact hrx.trans (congrArg _ (if_pos hfenced))
  case new =>
    obtain ⟨hup, hepochIs⟩ := ((s.atTime t).hears l).rd_peerJoins dev hepoch
    exact ⟨((s.atTime t).hears l).welcomes l dev epoch windows, (State.rd_welcomes ..).trans hup,
      (State.rd_welcomes ..).trans hepochIs, hrx.trans (congrArg _ (if_neg hnew))⟩

end Sys2Proof.Machine
end

section
/-! PROOFS. The step, the reset state and what every step keeps: the queue, time and the canonical forms. -/

namespace Sys2Proof.Machine

/-- What follows a canonical state is canonical. -/
theorem State.canonical_of_follows {s u : State} (h : Follows s u) (hs : s.canonical) : u.canonical := by
  obtain ⟨hmem, hregs, hacc⟩ := hs
  exact ⟨h.mem hmem, h.regs hregs, h.acc hacc⟩

/-- Settles O1: both clauses are what `step` is by its two cases of the queue. -/
theorem stepRunsFrontCommand : Obligations.StepRunsFrontCommand := by
  refine ⟨fun s c => rfl, fun s hs => ?_⟩
  rw [step, hs]

/-- Every step is a command on the rest of the queue, or idles: the state after it follows the one that waits behind the front
command. -/
theorem follows_of_step {s u : State} (h : step s = .next u) : Follows { s with pending := s.pending.tail } u := by
  unfold step at h
  split at h
  next hp =>
    cases h
    rw [hp, List.tail_nil, ← hp]
    exact .refl s
  next c rest hp =>
    rw [hp, List.tail_cons]
    exact exec_follows (.refl _) u h

/-- Settles O49: every shared operation keeps the canonical forms, so every command does, and so every step. -/
theorem stepKeepsCanonicalForm : Obligations.StepKeepsCanonicalForm :=
  fun _ _ hs hstep => State.canonical_of_follows (follows_of_step hstep) hs

/-- Settles O51: what follows a state has not run its time or its count of draws back, and has its queue. -/
theorem stepMovesForward : Obligations.StepMovesForward :=
  fun _ _ hstep => have h := follows_of_step hstep; ⟨h.now, h.free, h.pending⟩

/-- Settles O50: the reset state lists nothing, so every byte and every register reads as unlisted. -/
theorem resetStateIsClean : Obligations.ResetStateIsClean :=
  ⟨⟨rfl, rfl, rfl⟩, rfl, fun _ => rfl, fun _ => rfl, by decide⟩

end Sys2Proof.Machine
end

section
/-! PROOFS. Which commands are carried out (R26, R27, R33). -/

namespace Sys2Proof.Machine

/-- An answer that turns on one check: the state `t` where it passes, the fault `noSuchUnit` where not. -/
def AnsOn (ok : Bool) (a : Ans) : Prop := ∃ t, a = onUnit ok t

/-- A command that acts on no unit is always carried out. -/
theorem AnsOn.always (t : State) : AnsOn true (.next t) := ⟨t, rfl⟩

/-- A command whose units are numbered alone: what is out of range exists on no part. -/
theorem AnsOn.numbered {b : Bool} (t : State) : AnsOn (b && true) (onUnit b t) := ⟨t, by rw [Bool.and_true]⟩

/-- A site that is on is a site of the device. -/
theorem State.tileOn_eq_range_and (s : State) (site : Nat) : s.tileOn site = (decide (site < 136) && s.tileOn site) := by
  simp only [State.tileOn, Bool.and_assoc, Bool.and_self_left]

theorem State.vaultOn_eq_range_and (s : State) (v : Nat) : s.vaultOn v = (decide (v < 152) && s.vaultOn v) := by
  simp only [State.vaultOn, Bool.and_self_left]

theorem AnsOn.tile {s : State} {site : Nat} (t : State) :
    AnsOn (decide (site < 136) && s.tileOn site) (onUnit (s.tileOn site) t) := ⟨t, by rw [← s.tileOn_eq_range_and]⟩

theorem AnsOn.tilePart {s : State} {site : Nat} {b : Bool} (t : State) :
    AnsOn (decide (site < 136) && b && s.tileOn site) (onUnit (s.tileOn site && b) t) :=
  ⟨t, by rw [Bool.and_right_comm, ← s.tileOn_eq_range_and]⟩

theorem AnsOn.vault {s : State} {v : Nat} (t : State) :
    AnsOn (decide (v < 152) && s.vaultOn v) (onUnit (s.vaultOn v) t) := ⟨t, by rw [← s.vaultOn_eq_range_and]⟩

/-- A command is carried out where its units are accepted and faults where they are not: what a command may act on is its
first check. -/
theorem exec_answers_on_accepts (s : State) (c : Instr) : AnsOn (s.accepts c) (exec c s) := by
  cases c
  case coldReset | warmReset | brownOut | devResetWarm | devResetCold | romDone | bootDone | buildDone | radioReadySet
      | ownerStop | stopComplete | registerWrite | rcRead | windowAccessError | strataReloadGo | strataReloadAbort |
      strataStaged | strataSwitchRequest | strataSwitch | cgAct | jobStart | jobLaunch | launchPlanClose |
      jobBoundExpiry | jobEnd | accountingPeriod | checkpointReached | checkpointTimeout | fallbackStart |
      classicalDoneSignal | deadlineExpiry | rlcInvAll | rlcInvAllDone | bar2Access | fwCoreRestart | fwLogSel |
      notifySend | hbSessionOpen | hbSessionClose | hbHeartbeat | heartbeatTimeout | sessionLostExpiry | pcieLinkDown
      | pcieFunctionReset | enrolClaim | enrolAdd | enrolRevoke | enrolRelease | secExtend | secEvlogSel |
      quoteService | powerSample | pwrWarn | shedStepEntry | recoveryStep | assayCheck | assayCheckDone |
      assaySampleTimeout | strikeLogHour | tileRetire | assayLogSel | thermtrip | avsTimeout | flashWrite |
      flashWriteDone | powerLoss | sagCleared | slewGapClosed | pcieLinkUp | pcieConfigRequest | atsInvalidation |
      launchSlackExpiry | todPpsOutput | timeCapture | cairnApply | detectorTick | ptpTransmit | esmcTransmit => exact .always _
  case planeViolationDrop | tableBankReleased | drainStall | cgCommit | cgCheckDone | cgDiscard | dramTempSample |
      junctionTempSample | memAlloc | memFree | memHint | memMigrate | memQuery | migrationSwitch | sliceOpened |
      sliceReset | sliceRemove | sliceResetDone | hbAttach | sliceExtend | moveStart | oldRegionRelease | regionZeroed
      | releaseStall | jqDoorbell | jqFlush | completionWrite | seqEntryWrite | stepBuild | claim | claimComplete |
      claimOverrun | claimRelease | tableSeal | patchCutoff | tableFire | slotMissed | entryTrigger | tableRelease |
      slotIndication | patchWrite | condAbortFire | trackingIdleFree | fapiParam | fapiConfig | fapiStart | fapiStop |
      fapiDlTti | fapiUlTti | fapiUlDci | fapiTxData | ruUplaneSilence | fhUlPacket | fhWindowClose | ruCallHome |
      ruConfigured | ruSupervisionMiss | ruSessionUp | queuedTriggerStart | vld | vst | vadd | vsub | cmul | cmac |
      accout | accclr | mag2 | minmax | agset | repeatBody | waitCounter | signalCounter | endStream | ldpcDecode |
      ldpcEncode | polarDecode | polarEncode | fftForward | fftInverse | prachCorrelate | prachDetect | dmaVaultToSram
      | dmaSramToVault | dmaTileToCluster | dmaClusterToTile | ptpSyncRx | ptpDelayResult | ptpAnnounceRx |
      announceTimeout | syncTimeout | ppsTimeout | ppsEdge | esmcRx | synceRefFail | synceWtrExpiry | ethRxFrame |
      txFrameEnqueue | txFrameStart | shaperTick | policerTick | gateEvent | gateChange | portLinkUp | portLinkLoss |
      flitRx | nakRx | replayTimeout | deliveryTimeout | fabLinkUp | fabLinkDown | unpark | creditLeak |
      replayEntryExpiry | laneChargeLapse | helloRx | linkStateRx | fabLoad | fabStore | fabStoreWord | fabGet |
      fabPut | fabFetchAdd | fabSwap | fabCswap | fabMin | fabMax | fabInv | fabInvPod | fabInvLocal | fabMsg |
      fabFenceOp | homeLoad | homeStore | homeStoreWord | homeAtomic | homePut | homeInv | homeMsg | homeCreditRx |
      fabResponseRx | recvSlotConsume | creditReturnSend | msgCreditResync | fenceCtrlFence | fenceMsgRx | fenceNotice
      | sliceCreate | watchdogExpiry | fwCoreKick | coreCrash | coreRestartDone | logAppend | reqQuote | reqChain |
      railSag | lendMessageRx | resyncQueryRx | customerImageLoad => exact .numbered _
  case shapingInterval | fullScrub => exact .tile _
  case cmdFetch | matmul | accRead | accLoad | scaleLoad | quant | vecAdd | vecSub | vecMul | vecFma | vecMax | vecMin
      | vecAbs | vecNeg | vecScale2 | vecCvt | sfuExp2 | sfuLog2 | sfuErf | sfuExp | sfuRecip | sfuRsqrt | sfuSigmoid
      | sfuSilu | sfuGeluErf | sfuGeluTanh | softmax | norm | copy | xferToSram | xferToMemory | seam | sync |
      loopBody | stopQueue | banksOn | banksRetain | banksOff | commandComplete | xferArrival | xferFaultReport |
      bankTransitionDone | remoteSignalArrival => exact .tilePart _
  case seamWriteWindow | portRateChange | vaultRefresh | patrolScrub => exact .vault _
  case todFrameRx | holdoverBudgetExpiry | helloSend | loadRetryTimeout | requestTimeout | atomicRetry | atomicUnknown |
      helloSilenceSelfFence | rejoin | fabBooksSnap | eecLocked =>
    change AnsOn true _
    dsimp only [exec, execTodFrameRx, execHoldoverBudgetExpiry, execHelloSend, execLoadRetryTimeout, execRequestTimeout, execAtomicRetry,
      execAtomicUnknown, execHelloSilenceSelfFence, execRejoin, execFabBooksSnap, execEecLocked]
    repeat' split
    all_goals exact .always _

/-- Settles O48: each command is either always carried out or carried out under its guard, and `accepts` is that guard. -/
theorem acceptedCommandsComplete : Obligations.AcceptedCommandsComplete := by
  intro s c
  obtain ⟨t, ht⟩ := exec_answers_on_accepts s c
  refine ⟨fun hok => ⟨t, ?_⟩, fun hbad => ?_⟩
  · rw [ht, hok, onUnit_true]
  · rw [ht, hbad, onUnit_false]

end Sys2Proof.Machine
end

section
/-! PROOFS. Cold and warm resets (R649, R650): what they clear, set and keep. -/

namespace Sys2Proof.Machine

/-! Register words and fields -/

theorem State.rd_lt (s : State) (f : Fld) : s.rd f < 2 ^ f.width := Nat.mod_lt _ (Nat.two_pow_pos _)

/-- Two words that agree on a field's bits read alike there. -/
theorem bitsOf_congr {v w : RegWord} {lo n : Nat} (h : ∀ i, i < n → v.getLsbD (lo + i) = w.getLsbD (lo + i)) :
    bitsOf v lo n = bitsOf w lo n := by
  apply Nat.eq_of_testBit_eq
  intro i
  rw [bitsOf_testBit, bitsOf_testBit]
  by_cases hi : i < n
  · rw [h i hi]
  · simp [hi]

/-- In the word `(v & ~m) | (w & m)`, a field whose bits `m` holds all reads as in `w`. -/
theorem bitsOf_merge_kept {v w m : RegWord} {lo n : Nat} (h : bitsOf m lo n = 2 ^ n - 1) :
    bitsOf ((v &&& ~~~m) ||| (w &&& m)) lo n = bitsOf w lo n := by
  refine bitsOf_congr fun i hi => ?_
  have hm : m.getLsbD (lo + i) = true := by
    have := bitsOf_testBit m lo n i
    rw [h, Nat.testBit_two_pow_sub_one] at this
    simpa [hi] using this.symm
  simp [hm]

/-- In the word `(v & ~m) | (w & m)`, a field of which `m` holds no bit reads as in `v`. -/
theorem bitsOf_merge_cleared {v w m : RegWord} {lo n : Nat} (hn : lo + n ≤ 64) (h : bitsOf m lo n = 0) :
    bitsOf ((v &&& ~~~m) ||| (w &&& m)) lo n = bitsOf v lo n := by
  refine bitsOf_congr fun i hi => ?_
  have hm : m.getLsbD (lo + i) = false := by
    have := bitsOf_testBit m lo n i
    rw [h, Nat.zero_testBit] at this
    simpa [hi] using this.symm
  have hlt : lo + i < 64 := by omega
  simp only [BitVec.getLsbD_or, BitVec.getLsbD_and, BitVec.getLsbD_not, hm, hlt, decide_true, Bool.not_false, Bool.and_true,
    Bool.and_false, Bool.or_false]

/-! The registers a warm reset carries over -/

/-- What a warm reset makes of the word `w` of the register at `a`: the kept fields stay, the others go to their Reset column. -/
def keptWord (a : Nat) (w : RegWord) : RegWord := (regReset a &&& ~~~ keptMask a) ||| (w &&& keptMask a)

theorem keptWord_of_mask_zero {a : Nat} (h : keptMask a = 0) (w : RegWord) : keptWord a w = regReset a := by
  rw [keptWord, h]
  change regReset a &&& ~~~0#64 ||| w &&& 0#64 = regReset a
  rw [BitVec.not_zero, BitVec.and_allOnes, BitVec.and_zero, BitVec.or_zero]

theorem keptWord_reset (a : Nat) : keptWord a (regReset a) = regReset a := by
  refine BitVec.eq_of_getLsbD_eq fun i hi => ?_
  simp only [keptWord, BitVec.getLsbD_or, BitVec.getLsbD_and, BitVec.getLsbD_not, hi, decide_true, Bool.true_and]
  rw [← Bool.and_or_distrib_left, Bool.not_or_self, Bool.and_true]

/-- Over a canonical register file, each key's word is kept once. -/
theorem regWord_keepRegs {old : Tbl RegWord} {lo : Nat} (hold : tblWfFrom regReset lo old = true) (s : State) (a : Nat) :
    regWord (s.keepRegs old).regs a =
      match tblFind old a with
      | some w => if keptMask a = 0 then regWord s.regs a else keptWord a w
      | none => regWord s.regs a := by
  induction old generalizing s lo with
  | nil => rfl
  | cons e old ih =>
    obtain ⟨k, w⟩ := e
    simp only [tblWfFrom, Bool.and_eq_true, decide_eq_true_eq] at hold
    obtain ⟨-, hold⟩ := hold
    have hstep : s.keepRegs ((k, w) :: old) =
        (if keptMask k = 0 then s else s.wrWord k (keptWord k w)).keepRegs old := rfl
    rw [hstep, ih hold]
    by_cases hk : k = a
    · subst hk
      rw [tblFind_before regReset old (k + 1) k hold (Nat.lt_succ_self k)]
      simp only [tblFind, ↓reduceIte]
      split
      · rfl
      · exact tblGet_set_same _ _ _ _
    · have hs : regWord (if keptMask k = 0 then s else s.wrWord k (keptWord k w)).regs a = regWord s.regs a := by
        split
        · rfl
        · exact tblGet_set_ne _ _ _ _ (Ne.symm hk)
      simp only [tblFind, hk, ↓reduceIte, hs]

/-- On cleared registers, every register reads as its kept word. -/
theorem regWord_keepRegs_cleared {old : Tbl RegWord} (hold : RegFile.wf old = true) {s : State} (hs : s.regs = []) (a : Nat) :
    regWord (s.keepRegs old).regs a = keptWord a (regWord old a) := by
  have hreset : regWord s.regs a = regReset a := by rw [hs]; rfl
  rw [regWord_keepRegs hold, hreset]
  cases hf : tblFind old a with
  | none =>
    have : regWord old a = regReset a := by simp [regWord, tblGet, hf]
    rw [this, keptWord_reset]
  | some w =>
    have : regWord old a = w := by simp [regWord, tblGet, hf]
    rw [this]
    dsimp only
    split
    next hm => rw [keptWord_of_mask_zero hm]
    next => rfl

/-! What a reset leaves of memory and of what registers show of the flash -/

theorem State.now_spoilFlash (s : State) : s.spoilFlash.now = s.now := by
  unfold State.spoilFlash
  split
  · rfl
  · exact State.setBytes_now ..

theorem State.pending_spoilFlash (s : State) : s.spoilFlash.pending = s.pending := by
  unfold State.spoilFlash
  split
  · rfl
  · exact State.setBytes_pending ..

theorem State.bare_now (s : State) : s.bare.now = s.now := s.now_spoilFlash
theorem State.bare_pending (s : State) : s.bare.pending = s.pending := s.pending_spoilFlash

theorem tblFind_filter_key {α : Type} (m : Tbl α) (p : Nat → Bool) (k : Nat) :
    tblFind (m.filter fun e => p e.1) k = if p k then tblFind m k else none := by
  induction m with
  | nil => simp [tblFind]
  | cons e m ih =>
    obtain ⟨a, v⟩ := e
    by_cases hk : a = k
    · subst hk
      cases hp : p a <;> simp [hp, tblFind, ih]
    · cases hp : p a <;> simp [hp, tblFind, ih, hk]

/-- No byte of the device outlives a reset (log entry 2). -/
theorem State.bare_byte_inner (s : State) {k : Nat} (hk : k < outerKeys) : s.bare.byte k = unwritten := by
  have := tblFind_filter_key s.spoilFlash.mem (fun a => decide (outerKeys ≤ a)) k
  rw [State.byte, tblGet, State.bare, this, if_neg (by simpa using hk)]
  rfl

/-- Where no flash write is in progress, memory outside the device is as before. -/
theorem State.bare_byte_outer (s : State) (hw : s.dev.writing = none) {k : Nat} (hk : outerKeys ≤ k) :
    s.bare.byte k = s.byte k := by
  have hspoil : s.spoilFlash = s := by unfold State.spoilFlash; rw [hw]
  have := tblFind_filter_key s.mem (fun a => decide (outerKeys ≤ a)) k
  rw [State.byte, tblGet, State.bare, hspoil, this, if_pos (by simpa using hk)]
  rfl

/-- Showing the flash writes registers alone. -/
theorem State.showFlash_keeps {β : Type} (p : State → β) (hp : ∀ (t : State) (f : Fld) (v : Nat), p (t.wr f v) = p t)
    (s : State) : p s.showFlash = p s := by
  rw [State.showFlash, State.showStrikes, State.each_keeps p fun t _ _ => hp t _ _]
  simp only [State.wrs_cons, State.wrs_nil, hp]

/-- Registers outside the ASSAY block show nothing of the flash. -/
theorem State.rd_showFlash (s : State) {f : Fld} (hf : f.addr < 0x50000 ∨ 0x60000 ≤ f.addr) : s.showFlash.rd f = s.rd f := by
  rw [State.showFlash, State.showStrikes, State.each_keeps (·.rd f) fun t k hk => ?strikes, State.rd_wrs_of_notMem _ ?health]
  case strikes =>
    have hsite : k < 136 := List.mem_range.1 hk
    exact t.rd_wr_addr _ _ _ (by simp only [R.ASSAY_TILE_STRIKES_COUNT]; omega)
  case health =>
    simp only [List.map_cons, List.map_nil, List.mem_cons, List.not_mem_nil, or_false, R.ASSAY_HEALTH_REPLACE,
      R.ASSAY_HEALTH_REASON, R.ASSAY_RETIRED_COUNT]
    omega

/-- Keeping registers writes registers alone. -/
theorem State.keepRegs_keeps {β : Type} (p : State → β) (hp : ∀ (t : State) (a : Nat) (w : RegWord), p (t.wrWord a w) = p t)
    (s : State) (old : Tbl RegWord) : p (s.keepRegs old) = p s := by
  refine State.each_keeps p fun t e _ => ?_
  dsimp only
  split
  · rfl
  · exact hp t _ _

/-- Writing fields in order writes registers alone. -/
theorem State.wrs_keeps {β : Type} (p : State → β) (hp : ∀ (t : State) (f : Fld) (v : Nat), p (t.wr f v) = p t)
    (s : State) (l : List (Fld × Nat)) : p (s.wrs l) = p s := by
  induction l generalizing s with
  | nil => rfl
  | cons e l ih => rw [State.wrs_cons, ih, hp]

/-! Cold resets -/

section
variable (s : State) (cause straps : Nat) (trip : Bool)

theorem State.coldReset_keeps {β : Type} (p : State → β) (hp : ∀ (t : State) (f : Fld) (v : Nat), p (t.wr f v) = p t) :
    p (s.coldReset cause straps trip) = p ({ s.bare with
      clk := clkFrom s.now, dev := { s.bare.dev with thermtrip := trip, stuck := trip } } : State) := by
  rw [State.coldReset, State.wrs_keeps p hp, State.showFlash_keeps p hp]

/-- A cold reset puts every register below the ASSAY block but the two it writes at its Reset column. -/
theorem State.rd_coldReset {f : Fld} (hf : f.addr < 0x50000) (hc : f.addr ≠ R.DEV_RESET_CAUSE_CAUSE.addr)
    (hs : f.addr ≠ R.DEV_STRAP_STRAPS.addr) : (s.coldReset cause straps trip).rd f = State.reset.rd f := by
  rw [State.coldReset, State.rd_wrs_of_notMem _ (by simp [hc, hs]), State.rd_showFlash _ (.inl hf)]
  rfl

theorem State.rd_coldReset_cause : (s.coldReset cause straps trip).rd R.DEV_RESET_CAUSE_CAUSE = cause % 2 ^ 8 := by
  have hlater : R.DEV_RESET_CAUSE_CAUSE.addr ∉ [R.DEV_STRAP_STRAPS.addr] := by decide
  rw [State.coldReset, State.wrs_cons, State.rd_wrs_of_notMem _ hlater]
  exact State.rd_wr_same _ _ _ (by decide)

theorem State.rd_coldReset_straps : (s.coldReset cause straps trip).rd R.DEV_STRAP_STRAPS = straps % 2 ^ 4 := by
  rw [State.coldReset, State.wrs_cons, State.wrs_cons, State.wrs_nil]
  exact State.rd_wr_same _ _ _ (by decide)

end

/-! Warm resets -/

section
variable (s : State) (cause : Nat) (trip : Bool)

theorem State.warmReset_keeps {β : Type} (p : State → β) (hp : ∀ (t : State) (f : Fld) (v : Nat), p (t.wr f v) = p t)
    (hw : ∀ (t : State) (a : Nat) (w : RegWord), p (t.wrWord a w) = p t) :
    p (s.warmReset cause trip) = p ({ s.bare with
      clk := s.clk.keep s.now, fw := { FwState.reset with log := s.fw.log },
      dev := { s.bare.dev with thermtrip := s.dev.thermtrip || trip, stuck := trip } } : State) := by
  rw [State.warmReset, State.wrs_keeps p hp, State.showFlash_keeps p hp, State.keepRegs_keeps p hw]

/-- A register that the reset does not write holds its kept word. -/
theorem State.rd_warmReset (hregs : RegFile.wf s.regs = true) {f : Fld} (ha : f.addr < 0x50000 ∨ 0x60000 ≤ f.addr)
    (hrow : f.addr ∉ resetRows) :
    (s.warmReset cause trip).rd f = bitsOf (keptWord f.addr (regWord s.regs f.addr)) f.lo f.width := by
  rw [State.warmReset, State.rd_wrs_of_notMem _ hrow, State.rd_showFlash _ ha, State.rd, fldGet,
    regWord_keepRegs_cleared hregs rfl]

/-- A field that the mask holds is as before (R650). -/
theorem State.rd_warmReset_kept (hregs : RegFile.wf s.regs = true) {f : Fld} (ha : f.addr < 0x50000 ∨ 0x60000 ≤ f.addr)
    (hrow : f.addr ∉ resetRows) (hm : bitsOf (keptMask f.addr) f.lo f.width = 2 ^ f.width - 1) :
    (s.warmReset cause trip).rd f = s.rd f := by
  rw [s.rd_warmReset cause trip hregs ha hrow]
  exact bitsOf_merge_kept hm

theorem State.rd_warmReset_phase (hregs : RegFile.wf s.regs = true) : (s.warmReset cause trip).rd R.DEV_STATUS_PHASE = 1 := by
  rw [s.rd_warmReset cause trip hregs (.inl (by decide)) (by decide)]
  have hm : bitsOf (keptMask R.DEV_STATUS_PHASE.addr) R.DEV_STATUS_PHASE.lo R.DEV_STATUS_PHASE.width = 0 := by decide
  exact (bitsOf_merge_cleared (by decide) hm).trans (by decide)

theorem State.rd_warmReset_cause : (s.warmReset cause trip).rd R.DEV_RESET_CAUSE_CAUSE = cause % 2 ^ 8 := by
  have hlater : R.DEV_RESET_CAUSE_CAUSE.addr ∉ resetRows.drop 1 := by decide
  rw [State.warmReset, State.wrs_cons, State.rd_wrs_of_notMem _ hlater]
  exact State.rd_wr_same _ _ _ (by decide)

theorem State.rd_warmReset_straps : (s.warmReset cause trip).rd R.DEV_STRAP_STRAPS = s.rd R.DEV_STRAP_STRAPS := by
  have hlater : R.DEV_STRAP_STRAPS.addr ∉ resetRows.drop 2 := by decide
  rw [State.warmReset, State.wrs_cons, State.wrs_cons, State.rd_wrs_of_notMem _ hlater, State.rd_wr_same _ _ _ (by decide)]
  exact Nat.mod_eq_of_lt (s.rd_lt _)

theorem State.rd_warmReset_logHead : (s.warmReset cause trip).rd R.FW_LOG_HEAD_SEQ = s.rd R.FW_LOG_HEAD_SEQ := by
  have hlater : R.FW_LOG_HEAD_SEQ.addr ∉ resetRows.drop 3 := by decide
  rw [State.warmReset, State.wrs_cons, State.wrs_cons, State.wrs_cons, State.rd_wrs_of_notMem _ hlater,
    State.rd_wr_same _ _ _ (by decide)]
  exact Nat.mod_eq_of_lt (s.rd_lt _)

/-- Every slice's GEN is a field that a warm reset keeps. -/
theorem keptMask_sliceGen : ∀ x, x < 64 → bitsOf (keptMask (R.SLICE_GEN_GEN x).addr) 0 16 = 2 ^ 16 - 1 := by decide +kernel

/-- The parking of every link is a field that a warm reset keeps. -/
theorem keptMask_linkPark : ∀ l, l < 6 → bitsOf (keptMask (R.FAB_LINK_PARK_HELD l).addr) 4 1 = 2 ^ 1 - 1 := by decide +kernel

end

/-- Settles O2: each command ends in a cold or a warm reset; a cold one starts from cleared registers and memory, a warm one
puts the kept fields back. -/
theorem resetsComplete : Obligations.ResetsComplete := by
  constructor
  · intro s lowNs straps mV ns word t trip AfterCold
    have after (cause : Nat) (hc : cause < 2 ^ 8) : AfterCold ((s.atTime t).coldReset cause straps trip) cause := by
      refine ⟨?now, ?queue, ?phase, ?cause, ?straps, ?stuck, ?acc, ?tiles, ?slices, fun k hk => ?inner, fun hw k hk => ?outer,
        fun f hf hfc hfs => State.rd_coldReset _ _ _ _ hf hfc hfs⟩
      case now => exact (State.coldReset_keeps _ _ _ _ (·.now) fun _ _ _ => rfl).trans (State.bare_now _)
      case queue => exact (State.coldReset_keeps _ _ _ _ (·.pending) fun _ _ _ => rfl).trans (State.bare_pending _)
      case phase => exact (State.rd_coldReset _ _ _ _ (by decide) (by decide) (by decide)).trans (by decide)
      case cause => exact (State.rd_coldReset_cause _ _ _ _).trans (Nat.mod_eq_of_lt hc)
      case straps => exact State.rd_coldReset_straps _ _ _ _
      case stuck => exact State.coldReset_keeps _ _ _ _ (·.dev.stuck) fun _ _ _ => rfl
      case acc => exact State.coldReset_keeps _ _ _ _ (·.acc) fun _ _ _ => rfl
      case tiles => exact State.coldReset_keeps _ _ _ _ (·.tiles) fun _ _ _ => rfl
      case slices => exact State.coldReset_keeps _ _ _ _ (·.slices) fun _ _ _ => rfl
      case inner =>
        exact (State.coldReset_keeps _ _ _ _ (·.byte k) fun _ _ _ => rfl).trans (State.bare_byte_inner _ hk)
      case outer =>
        exact (State.coldReset_keeps _ _ _ _ (·.byte k) fun _ _ _ => rfl).trans ((s.atTime t).bare_byte_outer hw hk)
    refine ⟨⟨_, rfl, after 1 (by decide)⟩, fun hr hl => ⟨_, exec_coldReset trip hr straps (by decide) (by decide) hl, after 2 (by decide)⟩,
      fun hr cause hc => ?_, fun hr hv hn => ⟨_, exec_brownOut trip hr straps hv hn, after 4 (by decide)⟩,
      fun hr hk hw => ⟨_, exec_devResetCold trip hr straps hk hw, after 3 (by decide)⟩⟩
    have hrun : (s.atTime t).runs = true := hr
    have he : exec (.coldReset cause lowNs straps trip t) s = .next ((s.atTime t).coldReset cause straps trip) := by
      change execColdReset _ _ _ _ _ _ = _
      obtain rfl | rfl := hc <;> simp [execColdReset, hrun]
    exact ⟨_, he, after cause (by omega)⟩
  · intro s lowNs word t trip hcan hr AfterWarm
    have hregs : RegFile.wf (s.atTime t).regs = true := hcan.2.1
    have after (cause : Nat) (hc : cause < 2 ^ 8) : AfterWarm ((s.atTime t).warmReset cause trip) cause := by
      refine ⟨?queue, State.rd_warmReset_phase _ _ _ hregs, ?cause, State.rd_warmReset_straps _ _ _, ?stop, ?retries,
        fun x hx => ?gen, fun l hl => ?park, ?log, State.rd_warmReset_logHead _ _ _, ?clock, fun k hk => ?inner⟩
      case queue =>
        exact (State.warmReset_keeps _ _ _ (·.pending) (fun _ _ _ => rfl) fun _ _ _ => rfl).trans (State.bare_pending _)
      case cause => exact (State.rd_warmReset_cause _ _ _).trans (Nat.mod_eq_of_lt hc)
      case stop => exact State.rd_warmReset_kept _ _ _ hregs (.inl (by decide)) (by decide) (by decide)
      case retries => exact State.rd_warmReset_kept _ _ _ hregs (.inl (by decide)) (by decide) (by decide)
      case gen =>
        refine State.rd_warmReset_kept _ _ _ hregs (.inr ?_) ?_ (keptMask_sliceGen x hx)
        · simp only [R.SLICE_GEN_GEN]; omega
        · simp only [resetRows_eq, R.SLICE_GEN_GEN, List.mem_cons, List.not_mem_nil, or_false]; omega
      case park =>
        refine State.rd_warmReset_kept _ _ _ hregs (.inr ?_) ?_ (keptMask_linkPark l hl)
        · simp only [R.FAB_LINK_PARK_HELD]; omega
        · simp only [resetRows_eq, R.FAB_LINK_PARK_HELD, List.mem_cons, List.not_mem_nil, or_false]; omega
      case log => exact State.warmReset_keeps _ _ _ (·.fw.log) (fun _ _ _ => rfl) fun _ _ _ => rfl
      case clock => exact State.warmReset_keeps _ _ _ (·.clk.dev) (fun _ _ _ => rfl) fun _ _ _ => rfl
      case inner =>
        exact (State.warmReset_keeps _ _ _ (·.byte k) (fun _ _ _ => rfl) fun _ _ _ => rfl).trans (State.bare_byte_inner _ hk)
    refine ⟨fun hl => ⟨_, exec_warmReset trip hr (by decide) (by decide) hl, after 0x11 (by decide)⟩, fun cause hc => ?_,
      fun hk hw => ⟨_, exec_devResetWarm trip hr hk hw, after 0x12 (by decide)⟩⟩
    have hrun : (s.atTime t).runs = true := hr
    have he : exec (.warmReset cause lowNs trip t) s = .next ((s.atTime t).warmReset cause trip) := by
      change execWarmReset _ _ _ _ _ = _
      obtain rfl | rfl := hc <;> simp [execWarmReset, hrun]
    exact ⟨_, he, after cause (by omega)⟩

end Sys2Proof.Machine
end

section
/-! PROOFS. Operations that write registers alone (`RegsOnly`), and reading the fields they leave. -/

namespace Sys2Proof.Machine

/-- Two fields of different registers, or of one register without a common bit. -/
def Fld.apart (f g : Fld) : Bool :=
  decide (g.addr ≠ f.addr) ||
    (decide (f.lo + f.width ≤ 64) && (decide (f.lo + f.width ≤ g.lo) || decide (g.lo + g.width ≤ f.lo)))

/-- Writing a field leaves the fields apart from it as they were. -/
theorem State.rd_wr_apart (s : State) {f g : Fld} (v : Nat) (h : f.apart g = true) : (s.wr f v).rd g = s.rd g := by
  simp only [Fld.apart, Bool.or_eq_true, Bool.and_eq_true, decide_eq_true_eq] at h
  obtain haddr | ⟨hword, hbits⟩ := h
  · exact s.rd_wr_addr f g v haddr
  · exact s.rd_wr_bits f g v hword hbits

/-- A value that fits its field reads back. -/
theorem State.rd_wr_fits (s : State) {f : Fld} {v : Nat} (h : f.lo + f.width ≤ 64) (hv : v < 2 ^ f.width) :
    (s.wr f v).rd f = v := (s.rd_wr_same f v h).trans (Nat.mod_eq_of_lt hv)

/-- `t` is `s` but for registers, and of those only the ones at the addresses `A` may differ. -/
structure RegsOnly (A : Nat → Prop) (s t : State) : Prop where
  rest : t = { s with regs := t.regs }
  word : ∀ a, ¬ A a → regWord t.regs a = regWord s.regs a

section
variable {A : Nat → Prop} {s t u : State}

theorem RegsOnly.refl (A : Nat → Prop) (s : State) : RegsOnly A s s := ⟨rfl, fun _ _ => rfl⟩

theorem RegsOnly.trans (h : RegsOnly A s t) (k : RegsOnly A t u) : RegsOnly A s u where
  rest := by rw [k.rest, h.rest]
  word a ha := (k.word a ha).trans (h.word a ha)

theorem RegsOnly.wr (h : RegsOnly A s t) {f : Fld} (hf : A f.addr) (v : Nat) : RegsOnly A s (t.wr f v) := by
  refine h.trans ⟨rfl, fun a ha => ?_⟩
  exact tblGet_set_ne _ _ _ _ fun he => ha (he ▸ hf)

theorem RegsOnly.wrWord (h : RegsOnly A s t) {a : Nat} (ha : A a) (w : RegWord) : RegsOnly A s (t.wrWord a w) := by
  refine h.trans ⟨rfl, fun b hb => ?_⟩
  exact tblGet_set_ne _ _ _ _ fun he => hb (he ▸ ha)

theorem RegsOnly.flag (h : RegsOnly A s t) {f : Fld} (hf : A f.addr) : RegsOnly A s (t.flag f) := h.wr hf 1

theorem RegsOnly.sat (h : RegsOnly A s t) {f : Fld} (hf : A f.addr) (n : Nat) : RegsOnly A s (t.sat f n) := h.wr hf _

theorem RegsOnly.bump (h : RegsOnly A s t) {f : Fld} (hf : A f.addr) (n : Nat) : RegsOnly A s (t.bump f n) := h.wr hf _

theorem RegsOnly.drop (h : RegsOnly A s t) {f : Fld} (hf : A f.addr) (n : Nat) : RegsOnly A s (t.drop f n) := h.wr hf _

theorem RegsOnly.wrs (h : RegsOnly A s t) {l : List (Fld × Nat)} (hl : ∀ e ∈ l, A e.1.addr) : RegsOnly A s (t.wrs l) := by
  induction l generalizing t with
  | nil => exact h
  | cons e l ih =>
    obtain ⟨he, hl⟩ := List.forall_mem_cons.1 hl
    exact ih (h.wr he e.2) hl

theorem RegsOnly.each {α : Type} {g : State → α → State} {l : List α} (h : RegsOnly A s t)
    (hg : ∀ u, ∀ x ∈ l, RegsOnly A u (g u x)) : RegsOnly A s (t.each l g) :=
  List.foldlRecOn l g h fun _ hu x hx => hu.trans (hg _ x hx)

theorem RegsOnly.iff {g : State → State} {b : Bool} (h : RegsOnly A s t) (hg : ∀ u, RegsOnly A s u → RegsOnly A s (g u)) :
    RegsOnly A s (t.iff b g) := by
  cases b
  · exact h
  · exact hg t h

theorem RegsOnly.ite {c : Prop} [Decidable c] (ht : RegsOnly A s t) (hu : RegsOnly A s u) :
    RegsOnly A s (if c then t else u) := by
  split <;> assumption

theorem RegsOnly.putWords (h : RegsOnly A s t) {f : Nat → Fld} {n : Nat} (hf : ∀ i, i < n → A (f i).addr) (v : Nat) :
    RegsOnly A s (t.putWords f n v) :=
  h.each fun u i hi => (RegsOnly.refl A u).wr (hf i (List.mem_range.1 hi)) _

/-- Some registers differ, it does not matter which. -/
theorem RegsOnly.weaken {B : Nat → Prop} (h : RegsOnly A s t) (hAB : ∀ a, A a → B a) : RegsOnly B s t :=
  ⟨h.rest, fun a ha => h.word a fun hA => ha (hAB a hA)⟩

/-- A field at another address is as before. -/
theorem RegsOnly.rd (h : RegsOnly A s t) {f : Fld} (hf : ¬ A f.addr) : t.rd f = s.rd f := by
  simp only [State.rd, fldGet, h.word _ hf]

/-- What is no register is as before. -/
theorem RegsOnly.keeps {β : Type} (p : State → β) (hp : ∀ (u : State) (r : Tbl RegWord), p { u with regs := r } = p u)
    (h : RegsOnly A s t) : p t = p s := by
  rw [h.rest, hp]

theorem RegsOnly.mem (h : RegsOnly A s t) : t.mem = s.mem := h.keeps (·.mem) fun _ _ => rfl
theorem RegsOnly.acc (h : RegsOnly A s t) : t.acc = s.acc := h.keeps (·.acc) fun _ _ => rfl
theorem RegsOnly.now (h : RegsOnly A s t) : t.now = s.now := h.keeps (·.now) fun _ _ => rfl
theorem RegsOnly.dev (h : RegsOnly A s t) : t.dev = s.dev := h.keeps (·.dev) fun _ _ => rfl
theorem RegsOnly.sec (h : RegsOnly A s t) : t.sec = s.sec := h.keeps (·.sec) fun _ _ => rfl
theorem RegsOnly.flash (h : RegsOnly A s t) : t.flash = s.flash := h.keeps (·.flash) fun _ _ => rfl
theorem RegsOnly.strata (h : RegsOnly A s t) : t.strata = s.strata := h.keeps (·.strata) fun _ _ => rfl

end

/-- Registers, whichever they are. -/
abbrev AnyReg : Nat → Prop := fun _ => True

theorem State.regsOnly_putWords (s : State) (f : Nat → Fld) (n v : Nat) : RegsOnly AnyReg s (s.putWords f n v) :=
  (RegsOnly.refl _ s).putWords (fun _ _ => trivial) v

theorem State.regsOnly_wrs (s : State) (l : List (Fld × Nat)) : RegsOnly AnyReg s (s.wrs l) :=
  (RegsOnly.refl _ s).wrs fun _ _ => trivial

end Sys2Proof.Machine
end

section
/-! PROOFS. ROM, BOOT and BUILD (R43, R53, R54, R597, R598). -/

namespace Sys2Proof.Machine

/-! What the shared operations of the boot leave alone -/

section
variable (s : State)

theorem State.regsOnly_showKeys : RegsOnly AnyReg s s.showKeys := by
  unfold State.showKeys
  refine RegsOnly.wr ?_ trivial _
  exact (RegsOnly.refl _ s).each fun u k _ =>
    (((RegsOnly.refl _ u).wr trivial _).wr trivial _).putWords (fun _ _ => trivial) _

theorem State.dev_appendEvent (reg src : Nat) (d : BitVec 512) : (s.appendEvent reg src d).dev = s.dev := by
  rw [State.appendEvent]
  split
  · rfl
  · rfl

theorem State.dev_extendMr (n src : Nat) (d : BitVec 512) : (s.extendMr n src d).dev = s.dev := by
  rw [State.extendMr, State.extendAt, State.dev_appendEvent, (State.regsOnly_putWords ..).dev]

theorem State.dev_showImage (k : Nat) (c : ImageCopy × Bool) : (s.showImage k c).dev = s.dev := (State.regsOnly_wrs ..).dev

/-- Restarting watchdogs touches the firmware's state alone. -/
theorem State.kickAll_keeps {β : Type} (p : State → β) (hp : ∀ (u : State) (x : FwState), p { u with fw := x } = p u) (c : Nat) :
    p (s.kickAll c) = p s := by
  unfold State.kickAll
  exact State.each_keeps p fun u _ _ => hp u _

theorem State.iff_emit_regs (b : Bool) (k : MsgKind) (l : List Nat) : (s.iff b fun t => t.emit k l).regs = s.regs := by
  cases b <;> rfl

theorem State.iff_emit_dev (b : Bool) (k : MsgKind) (l : List Nat) : (s.iff b fun t => t.emit k l).dev = s.dev := by
  cases b <;> rfl

theorem State.dev_log (core level trace : Nat) (args : List Nat) : (s.log core level trace args).dev = s.dev := by
  rw [State.log]
  split
  · rfl
  · exact State.iff_emit_dev ..

/-- A log record moves LOG_HEAD and no other register. -/
theorem State.rd_log (core level trace : Nat) (args : List Nat) {f : Fld} (hf : f.addr ≠ R.FW_LOG_HEAD_SEQ.addr) :
    (s.log core level trace args).rd f = s.rd f := by
  rw [State.log]
  split
  · rfl
  · exact (State.rd_congr (State.iff_emit_regs ..) f).trans (State.rd_wr_addr _ _ _ _ hf)

theorem State.dev_enrol (op : Nat) (r : EnrolRec) : (s.enrol op r).dev = s.dev := by
  unfold State.enrol
  rw [(State.regsOnly_showKeys _).dev, State.dev_extendMr]
  rfl

theorem State.dev_applyEnrolments (recs : List (Nat × EnrolRec)) : (s.applyEnrolments recs).dev = s.dev := by
  have hfold (p : State × Bool) : (recs.foldl (fun (p : State × Bool) (r : Nat × EnrolRec) =>
      if 1 ≤ r.1 && r.1 ≤ 4 && p.1.enrolCode r.1 r.2 = 0 then (p.1.enrol r.1 r.2, true) else p) p).1.dev = p.1.dev := by
    refine List.foldlRecOn recs _ (motive := fun q : State × Bool => q.1.dev = p.1.dev) rfl fun q hq r _ => ?_
    split
    · exact (State.dev_enrol ..).trans hq
    · exact hq
  unfold State.applyEnrolments
  dsimp only
  split
  · exact hfold (s, false)
  · rw [(State.regsOnly_showKeys _).dev, State.dev_extendMr, hfold]

theorem State.dev_startCores : s.startCores.dev = s.dev := by
  unfold State.startCores State.showStandby
  rw [State.wr_dev]
  dsimp only
  rw [State.wr_dev, State.each_keeps (·.dev) fun u c _ => u.kickAll_keeps (·.dev) (fun _ _ => rfl) c,
    State.each_keeps (·.dev) fun u _ _ => u.wr_dev _ _]

/-! The end of a phase -/

/-- The phase entered is the phase shown. -/
theorem State.rd_enterPhase {p : Nat} (hp : p < 16) : (s.enterPhase p).rd R.DEV_STATUS_PHASE = p := by
  have hphase : (s.wr R.DEV_STATUS_PHASE p).rd R.DEV_STATUS_PHASE = p :=
    (State.rd_wr_same _ _ _ (by decide)).trans (Nat.mod_eq_of_lt hp)
  rw [State.enterPhase]
  split
  · exact (State.rd_wr_addr _ _ _ _ (by simp only [R.DEV_STATUS_PHASE, R.DEV_PHASE_US_US]; omega)).trans hphase
  · exact hphase

/-- Entering a phase touches no register outside DEV_STATUS and the phase times. -/
theorem State.rd_enterPhase_other (p : Nat) {f : Fld} (h0 : f.addr ≠ 0) (hp : f.addr ≠ 0x40 + 4 * p) :
    (s.enterPhase p).rd f = s.rd f := by
  have hphase : (s.wr R.DEV_STATUS_PHASE p).rd f = s.rd f := State.rd_wr_addr _ _ _ _ h0
  rw [State.enterPhase]
  split
  · exact (State.rd_wr_addr _ _ _ _ hp).trans hphase
  · exact hphase

theorem State.sec_enterPhase (p : Nat) : (s.enterPhase p).sec = s.sec := by
  rw [State.enterPhase]
  split <;> rfl

/-- With no stop asked for, the next phase begins. -/
theorem State.nextPhase_eq (p : Nat) (h : s.dev.stop = .none) : s.nextPhase p = s.enterPhase p := by
  have hstop : (s.dev.stop == .asked) = false := by rw [h]; rfl
  rw [State.nextPhase, hstop]
  rfl

/-- A failed check ends in FAILED with its cause (R42). -/
theorem State.failBoot_shows {cause : Nat} (hc : cause < 2 ^ 8) (detail : Nat) :
    (s.failBoot cause detail).rd R.DEV_STATUS_PHASE = 0xF ∧ (s.failBoot cause detail).rd R.DEV_STOP_CAUSE_CAUSE = cause := by
  rw [State.failBoot]
  constructor
  · rw [State.rd_log _ _ _ _ _ (by decide), State.rd_enterPhase _ (by decide)]
  · rw [State.rd_log _ _ _ _ _ (by decide), State.rd_enterPhase_other _ _ (by decide) (by decide)]
    exact (State.rd_wr_same _ _ _ (by decide)).trans (Nat.mod_eq_of_lt hc)

end

/-! Picking a copy (R597) -/

/-- Without COPY_SEL a good primary copy is picked. -/
theorem State.pickCopy_primary {α : Type} (s : State) {ok : α → Bool} {a : α} (b : α)
    (hs : s.rd R.DEV_STRAP_STRAPS / 2 % 2 = 0) (ha : ok a = true) : s.pickCopy ok a b = some (a, false) := by
  simp [State.pickCopy, hs, ha]

/-- The checks of a copy, spelled out. -/
theorem State.copyGood_of (s : State) {n : Nat} {c : ImageCopy}
    (h : c.sigOk = true ∧ c.formOk = true ∧ s.counter 5 ≤ c.keySvn ∧ s.counter n ≤ c.svn) : s.copyGood n c = true := by
  obtain ⟨hsig, hform, hkey, hsvn⟩ := h
  simp [State.copyGood, State.signed, hsig, hform, hkey, hsvn]

/-! ROM_DONE -/

/-- What ROM shows and measures of the AGATE copy it starts (R598). -/
def State.romWith (s : State) (c : ImageCopy × Bool) : State :=
  let u := (((s.each (List.range 8) fun t n => t.wr (R.SEC_ROLLBACK_VALUE n) (t.counter n)).showKeys).extendMr 0 0 c.1.digest).showImage 1 c
  (({ u with sec := { u.sec with
    cdiA := cdiAOf (u.digestAt (R.SEC_MR_VALUE 0)) (u.counter 0), agate := some c.1,
    svns := [(0, c.1.svn), (5, c.1.keySvn)] } } : State).wr (R.FW_CORE_STATUS_STATE 0) 1).kickAll 0

theorem State.dev_romWith (s : State) (c : ImageCopy × Bool) : (s.romWith c).dev = s.dev := by
  unfold State.romWith
  rw [State.kickAll_keeps _ (·.dev) fun _ _ => rfl, State.wr_dev]
  dsimp only
  rw [State.dev_showImage, State.dev_extendMr, (State.regsOnly_showKeys _).dev, State.each_keeps (·.dev) fun u _ _ => u.wr_dev _ _]

theorem State.romWith_shows (s : State) (c : ImageCopy × Bool) :
    (s.romWith c).sec.agate = some c.1 ∧ (s.romWith c).rd (R.FW_CORE_STATUS_STATE 0) = 1 := by
  unfold State.romWith
  dsimp only
  constructor
  · rw [State.kickAll_keeps _ (·.sec) fun _ _ => rfl, State.wr_sec]
  · rw [State.kickAll_keeps _ (·.rd (R.FW_CORE_STATUS_STATE 0)) fun _ _ => rfl]
    exact State.rd_wr_same _ _ _ (by decide)

section
variable {s : State} {t : Nat} (hr : s.runs = true) (hphase : s.rd R.DEV_STATUS_PHASE = 1)
  (hwait : s.dev.resetEnd + s.bootWait ≤ max s.now t) {a b : ImageCopy}
include hr hphase hwait

theorem exec_romDone_none (hpick : s.pickCopy (s.copyGood 0) a b = none) :
    exec (.romDone true true a b t) s = .next ((s.atTime t).failBoot 4 1) := by
  have hrun : (s.atTime t).runs = true := hr
  have hph : (s.atTime t).rd R.DEV_STATUS_PHASE = 1 := hphase
  have hw : ¬ (s.atTime t).now < (s.atTime t).dev.resetEnd + (s.atTime t).bootWait := Nat.not_lt.2 hwait
  have hp : (s.atTime t).pickCopy ((s.atTime t).copyGood 0) a b = none := hpick
  change execRomDone _ _ _ _ _ _ = _
  simp only [execRomDone, hrun, hph, hw, hp]
  rfl

theorem exec_romDone_some {c : ImageCopy × Bool} (hpick : s.pickCopy (s.copyGood 0) a b = some c) :
    exec (.romDone true true a b t) s = .next (((s.atTime t).romWith c).nextPhase 2) := by
  have hrun : (s.atTime t).runs = true := hr
  have hph : (s.atTime t).rd R.DEV_STATUS_PHASE = 1 := hphase
  have hw : ¬ (s.atTime t).now < (s.atTime t).dev.resetEnd + (s.atTime t).bootWait := Nat.not_lt.2 hwait
  have hp : (s.atTime t).pickCopy ((s.atTime t).copyGood 0) a b = some c := hpick
  change execRomDone _ _ _ _ _ _ = _
  simp only [execRomDone, hrun, hph, hw, hp]
  rfl

/-- ROM ends in BOOT with the copy picked. -/
theorem exec_romDone_boots {c : ImageCopy × Bool} (hstop : s.dev.stop = .none) (hpick : s.pickCopy (s.copyGood 0) a b = some c) :
    ∃ u, exec (.romDone true true a b t) s = .next u ∧ u.rd R.DEV_STATUS_PHASE = 2 ∧ u.rd (R.FW_CORE_STATUS_STATE 0) = 1 ∧
      u.sec.agate = some c.1 := by
  obtain ⟨hagate, hcore⟩ := (s.atTime t).romWith_shows c
  have hnext : ((s.atTime t).romWith c).nextPhase 2 = ((s.atTime t).romWith c).enterPhase 2 :=
    State.nextPhase_eq _ _ (by rw [State.dev_romWith]; exact hstop)
  refine ⟨_, (exec_romDone_some hr hphase hwait hpick).trans (congrArg _ hnext), State.rd_enterPhase _ (by decide), ?_, ?_⟩
  · rw [State.rd_enterPhase_other _ _ (by decide) (by decide), hcore]
  · rw [State.sec_enterPhase, hagate]

end

/-! BOOT_DONE -/

/-- The manufacturing record writes registers beyond the straps and DEV_INFO, and the map. -/
theorem State.regsOnly_readMap (s : State) (map : PartMap) :
    RegsOnly (fun a => a = 8 ∨ 0x24 ≤ a) ({ s with dev := { s.dev with map := map } } : State) (s.readMap map) := by
  unfold State.readMap
  refine RegsOnly.each (.putWords (.wrs (.wrs (.refl _ _) ?units) ?record) ?id _) fun u k _ => .wr (.refl _ u) ?tile _
  case units => simp [R.DEV_INFO_TILES_ENABLED, R.DEV_INFO_VAULTS_UNHOMED]
  case record => simp [R.DEV_INFO_GRADE, R.DEV_INFO_REMAP_SECTORS, R.HB_IDENT_GRADE, R.POWER_VDD_CORE_SET_MV]
  case id => simp only [R.SEC_DEVICE_ID_ID]; omega
  case tile => simp only [R.TILE_ARRAY_STATUS_STATE]; omega

/-- BOOT goes on with a compatible set to BUILD. -/
theorem State.bootWith_shows (s : State) (b : BootSet) (listed : Bool) (tried : BitVec 512) (recs : List (Nat × EnrolRec))
    (hstop : s.dev.stop = .none)
    (hset : (setLevels (s.sec.agate.getD ⟨true, true, 0, 0, 0, 0, []⟩) b.jasper.1 b.flint.1 b.svc.1).isSome = true) :
    (s.bootWith b listed tried recs).rd R.DEV_STATUS_PHASE = 3 := by
  obtain ⟨l, hl⟩ := Option.isSome_iff_exists.1 hset
  unfold State.bootWith
  dsimp only
  simp only [hl]
  rw [State.nextPhase_eq, State.rd_enterPhase _ (by decide)]
  rw [State.each_keeps (·.dev) fun u _ _ => u.wr_dev _ _, State.dev_startCores, State.dev_applyEnrolments]
  dsimp only
  rw [State.wrs_dev, State.each_keeps (·.dev) fun u _ _ => u.wr_dev _ _]
  simp only [State.wrs_dev, State.dev_log, State.dev_extendMr, (State.regsOnly_putWords _ _ _ _).dev, State.dev_showImage, hstop]

section
variable {s : State} {t : Nat} (hr : s.runs = true) (hphase : s.rd R.DEV_STATUS_PHASE = 2) (hagate : s.agateUp = true)
  {map : PartMap} {j1 j2 f1 f2 v1 v2 m1 m2 : ImageCopy} (listed : Bool) (recs : List (Nat × EnrolRec))
include hr hphase hagate

/-- A manufacturing record that does not hold ends BOOT. -/
theorem exec_bootDone_badMap {ok : Bool} (h : ok = false ∨ mapLegal map = false) :
    exec (.bootDone map ok j1 j2 f1 f2 v1 v2 m1 m2 listed recs t) s = .next ((s.atTime t).failBoot 4 0) := by
  have hrun : (s.atTime t).runs = true := hr
  have hph : (s.atTime t).rd R.DEV_STATUS_PHASE = 2 := hphase
  have hag : (s.atTime t).agateUp = true := hagate
  have hbad : (!ok || !mapLegal map) = true := by obtain rfl | h := h <;> simp [*]
  change execBootDone _ _ _ _ _ _ _ _ _ _ _ _ _ _ = _
  simp only [execBootDone, hrun, hph, hag, hbad]
  rfl

/-- With a good copy of each image BOOT goes on with the set picked. -/
theorem exec_bootDone_good (hmap : mapLegal map = true) {w : State} (hw : w = (s.atTime t).readMap map) {j f v m : ImageCopy × Bool}
    (hj : w.pickCopy (w.copyGood 1) j1 j2 = some j) (hf : w.pickCopy (w.copyGood 2) f1 f2 = some f)
    (hv : w.pickCopy (w.copyGood 3) v1 v2 = some v) (hm : w.pickCopy (w.copyGood 4) m1 m2 = some m) :
    exec (.bootDone map true j1 j2 f1 f2 v1 v2 m1 m2 listed recs t) s =
      .next (w.bootWith ⟨j, f, v, some m.1⟩ listed (if w.rd R.DEV_STRAP_STRAPS / 2 % 2 = 1 then m2 else m1).digest recs) := by
  have hrun : (s.atTime t).runs = true := hr
  have hph : (s.atTime t).rd R.DEV_STATUS_PHASE = 2 := hphase
  have hag : (s.atTime t).agateUp = true := hagate
  change execBootDone _ _ _ _ _ _ _ _ _ _ _ _ _ _ = _
  simp only [execBootDone, hrun, hph, hag, hmap, ← hw, hj, hf, hv, hm]
  rfl

end

/-! BUILD_DONE -/

section
variable {s : State} {t : Nat} (hr : s.runs = true) (hphase : s.rd R.DEV_STATUS_PHASE = 3) (hagate : s.agateUp = true)
  (sig1 sig2 : Bool) (slabs : List (Nat × Nat))
include hr hphase hagate

/-- Without an owner there is no image to build (R53). -/
theorem exec_buildDone_unowned (howned : s.rd R.SEC_STATUS_OWNED = 0) :
    exec (.buildDone sig1 sig2 slabs true true true true t) s = .next ((s.atTime t).nextEpoch.failBoot 4 6) := by
  have hrun : (s.atTime t).runs = true := hr
  have hph : (s.atTime t).rd R.DEV_STATUS_PHASE = 3 := hphase
  have hag : (s.atTime t).agateUp = true := hagate
  have hown : (s.atTime t).nextEpoch.rd R.SEC_STATUS_OWNED = 0 := (State.rd_wr_addr _ _ _ _ (by decide)).trans howned
  change execBuildDone _ _ _ _ _ _ _ _ _ = _
  simp only [execBuildDone, hrun, hph, hag, hown]
  rfl

/-- With a good copy of the full image BUILD ends in RUN. -/
theorem exec_buildDone_good {w : State} (hw : w = (s.atTime t).nextEpoch) {c : StrataCopy × Bool}
    (howned : w.rd R.SEC_STATUS_OWNED ≠ 0)
    (hpick : w.pickCopy w.strataGood (w.flashStrata false, sig1) (w.flashStrata true, sig2) = some c)
    (hwhole : w.imageBroken c.1.1 = false) (hstop : s.dev.stop = .none) :
    exec (.buildDone sig1 sig2 slabs true true true true t) s =
      .next (((w.loadImage c.1.1 c.2).initVaults slabs).bringUp.enterRun) := by
  have hrun : (s.atTime t).runs = true := hr
  have hph : (s.atTime t).rd R.DEV_STATUS_PHASE = 3 := hphase
  have hag : (s.atTime t).agateUp = true := hagate
  have hasked : (s.dev.stop == StopState.asked) = false := by rw [hstop]; rfl
  change execBuildDone _ _ _ _ _ _ _ _ _ = _
  simp only [execBuildDone, hrun, hph, hag, ← hw, if_neg howned, hpick, hwhole, hasked]
  rfl

end

/-- Settles O3: each phase ends on its first failing check, or with the copies picked; the next phase is entered where no stop
was asked for. -/
theorem bootPhasesComplete : Obligations.BootPhasesComplete := by
  intro s t hr
  refine ⟨fun a b hphase hwait hstop => ⟨fun hcopy hsig hform hkey hsvn => ?primary, fun c hpick => ?picked, fun hpick => ?none⟩,
    fun map j1 j2 f1 f2 v1 v2 m1 m2 listed recs hphase hagate => ⟨?_, fun hmap hstop hcopy hgood hset => ?boots,
      fun ok hbad => ⟨_, exec_bootDone_badMap hr hphase hagate listed recs hbad, State.failBoot_shows _ (by decide) 0⟩⟩,
    fun sig1 sig2 slabs hphase hagate => ⟨?_, fun howned => ⟨_, exec_buildDone_unowned hr hphase hagate sig1 sig2 slabs howned,
      State.failBoot_shows _ (by decide) 6⟩⟩,
    fun p h2 h4 hstop => ?next⟩
  case primary =>
    have hpick := s.pickCopy_primary b hcopy (s.copyGood_of ⟨hsig, hform, hkey, hsvn⟩)
    obtain ⟨u, he, hp, -, hag⟩ := exec_romDone_boots hr hphase hwait hstop hpick
    exact ⟨u, he, hp, hag⟩
  case picked => exact exec_romDone_boots hr hphase hwait hstop hpick
  case none => exact ⟨_, exec_romDone_none hr hphase hwait hpick, State.failBoot_shows _ (by decide) 1⟩
  · intro hmap w j f v m hw hj hf hv hm
    exact exec_bootDone_good hr hphase hagate listed recs hmap hw hj hf hv hm
  case boots =>
    have hregs := (s.atTime t).regsOnly_readMap map
    have hsel : ((s.atTime t).readMap map).rd R.DEV_STRAP_STRAPS / 2 % 2 = 0 := by rw [hregs.rd (by decide)]; exact hcopy
    have hcount (n : Nat) : ((s.atTime t).readMap map).counter n = s.counter n := by
      rw [State.counter, hregs.flash]; rfl
    have hpick (n : Nat) (c d : ImageCopy) (hc : (n, c) ∈ [(1, j1), (2, f1), (3, v1), (4, m1)]) :=
      State.pickCopy_primary ((s.atTime t).readMap map) d hsel
        (State.copyGood_of ((s.atTime t).readMap map) (n := n) (by simpa only [hcount] using hgood _ hc))
    refine ⟨_, exec_bootDone_good hr hphase hagate listed recs hmap rfl (hpick 1 j1 j2 (by simp)) (hpick 2 f1 f2 (by simp))
      (hpick 3 v1 v2 (by simp)) (hpick 4 m1 m2 (by simp)), State.bootWith_shows _ _ _ _ _ ?_ ?_⟩
    · rw [hregs.dev]; exact hstop
    · rw [hregs.sec]; exact hset
  · intro w c hw howned hpick hwhole hstop
    exact exec_buildDone_good hr hphase hagate sig1 sig2 slabs hw howned hpick hwhole hstop
  case next =>
    rw [s.nextPhase_eq p hstop]
    refine ⟨s.rd_enterPhase (by omega), ?_⟩
    have hp : (2 ≤ p && p ≤ 4) = true := by simp [h2, h4]
    rw [State.enterPhase, if_pos hp, State.rd_wr_same _ _ _ (by decide : 0 + 32 ≤ 64)]
    exact Nat.mod_eq_of_lt (Nat.lt_of_le_of_lt (Nat.min_le_right _ _) (by decide : 0xFFFF_FFFF < 2 ^ 32))

end Sys2Proof.Machine
end

section
/-! PROOFS. RADIO_READY, OWNER_STOP and STOP_COMPLETE (R44, R46). -/

namespace Sys2Proof.Machine

/-! Admission -/

section
variable (s : State)

theorem State.regsOnly_showAdmit :
    RegsOnly (fun a => a = R.SCHED_STATUS_ADMIT_OPEN.addr ∨ a = R.DEV_STATUS_INFER_OPEN.addr) s s.showAdmit :=
  (RegsOnly.refl _ s).wrs (by simp)

/-- Where admission may not be open, both bits that show it fall. -/
theorem State.showAdmit_closed (h : s.mayAdmit = false) :
    s.showAdmit.rd R.SCHED_STATUS_ADMIT_OPEN = 0 ∧ s.showAdmit.rd R.DEV_STATUS_INFER_OPEN = 0 := by
  unfold State.showAdmit
  simp only [h, Bool.false_and, Bool.false_eq_true, ↓reduceIte, State.wrs_cons, State.wrs_nil]
  constructor
  · rw [State.rd_wr_apart _ _ (by decide)]
    exact State.rd_wr_fits _ (by decide) (by decide)
  · exact State.rd_wr_fits _ (by decide) (by decide)

/-- The phase shares DEV_STATUS with a bit of admission, and no bit of its own. -/
theorem State.showAdmit_phase : s.showAdmit.rd R.DEV_STATUS_PHASE = s.rd R.DEV_STATUS_PHASE := by
  unfold State.showAdmit
  simp only [State.wrs_cons, State.wrs_nil]
  rw [State.rd_wr_apart _ _ (by decide), State.rd_wr_apart _ _ (by decide)]

theorem State.mayAdmit_of_stop (h : s.dev.stop ≠ .none) : s.mayAdmit = false := by
  have : (s.dev.stop == .none) = false := by simpa using h
  simp [State.mayAdmit, this]

theorem State.mayAdmit_of_phase (h : s.rd R.DEV_STATUS_PHASE ≠ 4) : s.mayAdmit = false := by
  have : s.inRun = false := by simpa [State.inRun] using h
  simp [State.mayAdmit, this]

/-! The stop -/

/-- The owner's cause is the lowest, so it stands whatever came in its cycle (R42). -/
theorem State.stopCause_reachStop_owner : (s.reachStop 1).dev.stopCause = 1 := by
  simp only [State.reachStop]
  split
  next h =>
    have : s.dev.stopCause ≠ 0 := by simp at h; exact h.1
    omega
  next => rfl

theorem State.enterStopping_shows :
    (s.reachStop 1).enterStopping.rd R.DEV_STATUS_PHASE = 5 ∧ (s.reachStop 1).enterStopping.rd R.DEV_STOP_CAUSE_CAUSE = 1 := by
  rw [State.enterStopping, State.stopCause_reachStop_owner]
  constructor
  · exact State.rd_enterPhase _ (by decide)
  · rw [State.rd_enterPhase_other _ _ (by decide) (by decide)]
    exact State.rd_wr_fits _ (by decide) (by decide)

/-- The radio is made ready where every condition of R44 holds. -/
theorem State.makeReady_eq (h : s.readyNow = true) :
    s.makeReady = ({ s with clk := { s.clk with settled := true } } : State).wrs
      [(R.DEV_STATUS_RADIO_READY, 1), (R.AIR_STATUS_RUNNING, 1)] := by
  rw [State.makeReady, if_pos h]

/-- The owner's stop as it stands before the jobs are looked at: admission is closed and the cause is kept for the end. -/
def State.ownerStops (s : State) : State :=
  let t := s.reachStop 1
  ({ t with dev := { t.dev with
    stop := .owner,
    radioStopAt := s.radioEnd (if s.slotGrid = 0 && s.rd R.DEV_STATUS_RADIO_READY = 0 then 0 else 10_000_000) } } : State).showAdmit

theorem exec_ownerStop_run {t : Nat} (hp : s.rd R.DEV_STATUS_PHASE = 4) (hs : s.dev.stop = .none) :
    exec (.ownerStop t) s = .next (s.atTime t).ownerStops.passStop := by
  have hph : (s.atTime t).rd R.DEV_STATUS_PHASE = 4 := hp
  have hst : ((s.atTime t).dev.stop == .none) = true := by rw [State.atTime_dev, hs]; rfl
  change execOwnerStop _ _ = _
  simp only [execOwnerStop, hph, hst]
  rfl

end

/-- Settles O4: R44's conditions hold at the slot boundary of the cluster named; the stop closes admission because it is asked
for, and STOPPED because the phase is not RUN. -/
theorem runEventsComplete : Obligations.RunEventsComplete := by
  refine ⟨fun s w t c hw hp hs hr hl hd hpre hc h8 hat => ?ready, fun s t => ⟨fun hp hs => ?stop, fun hp hs hr hj => ⟨?pass, ?_⟩,
    fun hp hs => ?before, fun w hw hp hj hr => ?complete⟩⟩
  case ready =>
    have hany : ((List.range 16).any fun c => w.eightReady c && w.atSlot (w.clusterMu c)) = true :=
      List.any_eq_true.2 ⟨c, List.mem_range.2 hc, by rw [h8, hat]; rfl⟩
    have hready : w.readyNow = true := by
      simp only [State.readyNow, State.inRun, hp, hs, hr, hl, hd, hpre, hany]
      rfl
    refine ⟨w.makeReady, by rw [hw]; rfl, ?_⟩
    rw [w.makeReady_eq hready]
    simp only [State.wrs_cons, State.wrs_nil]
    refine ⟨?_, State.rd_wr_fits _ (by decide) (by decide), ?_, rfl⟩
    · rw [State.rd_wr_apart _ _ (by decide)]
      exact State.rd_wr_fits _ (by decide) (by decide)
    · rw [State.rd_wr_apart _ _ (by decide), State.rd_wr_apart _ _ (by decide)]
      exact hp
  case stop =>
    obtain ⟨hadmit, hinfer⟩ := State.showAdmit_closed _ (State.mayAdmit_of_stop
      ({ ((s.atTime t).reachStop 1) with dev := { ((s.atTime t).reachStop 1).dev with
        stop := .owner,
        radioStopAt := (s.atTime t).radioEnd
          (if (s.atTime t).slotGrid = 0 && (s.atTime t).rd R.DEV_STATUS_RADIO_READY = 0 then 0 else 10_000_000) } } : State)
      (by simp))
    refine ⟨(s.atTime t).ownerStops, exec_ownerStop_run s hp hs, hadmit, hinfer, rfl, rfl, rfl, fun hgrid hready => ?_⟩
    have hlen : ((s.atTime t).slotGrid = 0 && (s.atTime t).rd R.DEV_STATUS_RADIO_READY = 0 : Bool) = true := by
      rw [State.atTime_rd, hgrid, hready]; rfl
    unfold State.ownerStops
    rw [(State.regsOnly_showAdmit _).dev]
    simp only [hlen, ↓reduceIte, State.radioEnd]
  case pass =>
    have hnow : (s.inRun && s.dev.stop == .owner && s.dev.radioStopAt.isNone && s.jobsEnded) = true := by
      simp only [State.inRun, hp, hs, hr, hj]
      rfl
    rw [State.passStop, if_pos hnow]
  · exact s.enterStopping_shows
  case before =>
    have hp4 : ((s.atTime t).rd R.DEV_STATUS_PHASE = 4 : Bool) = false := decide_eq_false (by rw [State.atTime_rd]; omega)
    have hlt : ((s.atTime t).rd R.DEV_STATUS_PHASE < 4 : Bool) = true := decide_eq_true hp
    have hst : ((s.atTime t).dev.stop == .none) = true := by rw [State.atTime_dev, hs]; rfl
    change execOwnerStop _ _ = _
    simp only [execOwnerStop, hp4, hlt, hst]
    rfl
  case complete =>
    have he : exec (.stopComplete t) s =
        .next (((w.each (allVaults.filter w.vaultOn) fun s v => s.wr (R.VAULT_STATUS_STATE v) 3).enterPhase 6).showAdmit) := by
      change execStopComplete _ _ = _
      simp only [execStopComplete, ← hw, hp, hj, hr]
      rfl
    have hphase := State.rd_enterPhase (w.each (allVaults.filter w.vaultOn) fun s v => s.wr (R.VAULT_STATUS_STATE v) 3)
      (by decide : 6 < 16)
    exact ⟨_, he, (State.showAdmit_phase _).trans hphase, State.showAdmit_closed _ (State.mayAdmit_of_phase _ (by rw [hphase]; decide))⟩

end Sys2Proof.Machine
end

section
/-! PROOFS. Register accesses (R20, R21, R64, R72, R555): what a write changes, and who reaches what. -/

namespace Sys2Proof.Machine

/-! Writes of a register's fields -/

/-- Clearing W1C bits leaves the fields that share none of them. -/
theorem bitsOf_and_not_shift {w : RegWord} {lo n v lo' n' : Nat} (hv : v < 2 ^ n) (h' : lo' + n' ≤ 64)
    (d : lo + n ≤ lo' ∨ lo' + n' ≤ lo) : bitsOf (w &&& ~~~ BitVec.ofNat 64 (v * 2 ^ lo)) lo' n' = bitsOf w lo' n' := by
  refine bitsOf_congr fun i hi => ?_
  have hclear : (v * 2 ^ lo).testBit (lo' + i) = false := by
    rw [Nat.testBit_mul_two_pow, Bool.and_eq_false_iff]
    obtain d | d := d
    · exact .inr (Nat.testBit_lt_two_pow (hv.trans_le (Nat.pow_le_pow_right (by decide) (by omega))))
    · exact .inl (decide_eq_false (by omega))
  have hlt : lo' + i < 64 := by omega
  simp only [BitVec.getLsbD_and, BitVec.getLsbD_not, BitVec.getLsbD_ofNat, hclear, hlt, decide_true, Bool.and_false,
    Bool.not_false, Bool.and_true]

/-- Writing another field, or the same one where it is read-only, leaves a read-only field as it was. -/
theorem bitsOf_fieldWritten {r : RegDef} {value : Nat} {w : RegWord} {f g : FieldDef}
    (hro : f.acc = .ro ∨ f.acc = .roKept ∨ f.acc = .rc) (hf : f.lo + f.width ≤ 64)
    (hg : g ≠ f → g.lo + g.width ≤ 64 ∧ (g.lo + g.width ≤ f.lo ∨ f.lo + f.width ≤ g.lo)) :
    bitsOf (fieldWritten r false value w g) f.lo f.width = bitsOf w f.lo f.width := by
  by_cases he : g = f
  · subst he
    obtain h | h | h := hro <;> simp [fieldWritten, h]
  · obtain ⟨hword, hapart⟩ := hg he
    simp only [fieldWritten, Bool.false_eq_true, ↓reduceIte]
    split
    · split
      · rfl
      · exact bitsOf_setBits_ne _ _ _ _ _ _ hword hapart
    · exact bitsOf_and_not_shift (Nat.mod_lt _ (Nat.two_pow_pos _)) hf hapart
    · rfl

theorem bitsOf_wordWritten {r : RegDef} {value : Nat} {w : RegWord} {f : FieldDef}
    (hro : f.acc = .ro ∨ f.acc = .roKept ∨ f.acc = .rc) (hf : f.lo + f.width ≤ 64)
    (hapart : ∀ g ∈ r.fields, g ≠ f → g.lo + g.width ≤ 64 ∧ (g.lo + g.width ≤ f.lo ∨ f.lo + f.width ≤ g.lo)) :
    bitsOf (wordWritten r false value w) f.lo f.width = bitsOf w f.lo f.width :=
  List.foldlRecOn r.fields _ (motive := fun v => bitsOf v f.lo f.width = bitsOf w f.lo f.width) rfl fun _ hv g hg =>
    (bitsOf_fieldWritten hro hf (hapart g hg)).trans hv

/-! REGISTER_WRITE -/

section
variable (s : State) (t : Nat)

/-- Which register an access reaches does not turn on the instant. -/
theorem State.regAt_atTime (who : Sender) (a width : Nat) : (s.atTime t).regAt who a width = s.regAt who a width := rfl

theorem State.heldField_atTime (x : RegAt) : (s.atTime t).heldField x = s.heldField x := rfl

/-- Whether a GO is answered by its slot's own checks does not turn on the instant. -/
theorem State.oddRequest_atTime {x : RegAt} {value : Nat} (h : s.oddRequest x value = none) :
    (s.atTime t).oddRequest x value = none := by
  simp only [State.oddRequest] at h ⊢
  split_ifs at h ⊢
  · rfl
  · rfl

/-- A register that sets nothing going in its cycle. -/
theorem State.liveActed_plain {x : RegAt} (value : Nat)
    (h : x.reg.name ∉ ["MODEL_CTRL", "CQ_HEAD", "TILE_ARRAY_SHAPING", "STRATA_SWITCH_CTRL", "DEV_GPIO_OE", "DEV_GPIO_OUT"]) :
    s.liveActed x value = s := by
  simp only [List.mem_cons, List.not_mem_nil, or_false, not_or] at h
  obtain ⟨-, hcq, hshape, hswitch, hoe, hout⟩ := h
  simp [State.liveActed, hcq, hshape, hswitch, hoe, hout]

theorem exec_registerWrite {who : Sender} {a width : Nat} {x : RegAt} (value : Nat) (hx : s.regAt who a width = some x) :
    exec (.registerWrite who a width value t) s = .next ((s.atTime t).regWrite x a value) := by
  change execRegisterWrite _ _ _ _ _ _ = _
  simp only [execRegisterWrite, State.regAt_atTime, hx]

variable {s t} {x : RegAt} {a value : Nat}

theorem State.regWrite_ignored (h : ownCommand x.reg.name value = true ∨ s.heldField x = true) : s.regWrite x a value = s := by
  have hor : (ownCommand x.reg.name value || s.heldField x) = true := by rwa [Bool.or_eq_true]
  rw [State.regWrite, if_pos hor]

theorem State.regWrite_grouped (hown : ownCommand x.reg.name value = false) (hheld : s.heldField x = false)
    (hactive : x.shadow = false) (hgroup : allGrouped x.reg = true) : s.regWrite x a value = s.windowErr := by
  simp [State.regWrite, hown, hheld, hactive, hgroup]

theorem State.regWrite_acts (hown : ownCommand x.reg.name value = false) (hheld : s.heldField x = false)
    (hlive : x.shadow = true ∨ allGrouped x.reg = false) (hodd : s.oddRequest x value = none)
    (hmodel : x.reg.name = "MODEL_CTRL" → s.rd (R.MODEL_CTRL_ENABLE (x.inst.headD 0) (x.idx.headD 0)) = 0) :
    s.regWrite x a value = (s.putReg x a value).liveActed x value := by
  have hor : (ownCommand x.reg.name value || s.heldField x) = false := by rw [hown, hheld]; rfl
  have hgroup : (!x.shadow && allGrouped x.reg) = false := by obtain h | h := hlive <;> simp [h]
  have hfree : (decide (x.reg.name = "MODEL_CTRL") &&
      decide (s.rd (R.MODEL_CTRL_ENABLE (x.inst.headD 0) (x.idx.headD 0)) = 1)) = false := by
    rw [Bool.and_eq_false_iff, decide_eq_false_iff_not, decide_eq_false_iff_not]
    by_cases hn : x.reg.name = "MODEL_CTRL"
    · exact .inr (by rw [hmodel hn]; decide)
    · exact .inl hn
  simp only [State.regWrite, hor, hgroup, hodd, hfree, Bool.false_eq_true, ↓reduceIte]

end

/-- Settles O5: a write that reaches its register is a fold over the register's fields, and a read-only field is no part of it. -/
theorem registerWriteCompletes : Obligations.RegisterWriteCompletes := by
  intro s who a width value t x hx
  refine ⟨fun hown hheld hlive hodd hname => ?plain, fun h => ?ignored, fun hown hheld hact hgroup => ?grouped,
    fun hown hheld hlive hodd hmodel => ?acts⟩
  case plain =>
    have hmodel : x.reg.name ≠ "MODEL_CTRL" := fun h => hname (by simp [h])
    have hwrite := (exec_registerWrite s t value hx).trans (congrArg _
      (State.regWrite_acts hown hheld hlive (s.oddRequest_atTime t hodd) fun h => absurd h hmodel))
    rw [State.liveActed_plain _ _ hname] at hwrite
    refine ⟨_, hwrite, rfl, fun b hb => tblGet_set_ne _ _ _ _ hb, fun f hf hact hnone hro hfit hapart => ?_⟩
    have hword : regWord ((s.atTime t).putReg x a value).regs a = wordWritten x.reg x.shadow value (regWord s.regs a) :=
      tblGet_set_same _ _ _ _
    rw [hword, hact]
    exact bitsOf_wordWritten hro hfit hapart
  case ignored => exact (exec_registerWrite s t value hx).trans (congrArg _ (State.regWrite_ignored h))
  case grouped => exact (exec_registerWrite s t value hx).trans (congrArg _ (State.regWrite_grouped hown hheld hact hgroup))
  case acts =>
    exact (exec_registerWrite s t value hx).trans (congrArg _
      (State.regWrite_acts hown hheld hlive (s.oddRequest_atTime t hodd) hmodel))

/-! Reach (R72, R555) -/

/-- Outside its windows an endpoint reaches nothing, and what it meets there is no hole of BAR0. -/
theorem reaches_outside {who : Sender} {a : Nat}
    (h : (∃ x, who = .slice x ∧ (a < 0x1000_0000 + 0x10_0000 * x ∨ 0x1000_0000 + 0x10_0000 * (x + 1) ≤ a)) ∨
      (who = .owner ∨ who = .firmware) ∧ 0x1_0000_0000 ≤ a ∨ who = .host ∧ a < 0x1_0000_0000) :
    reaches who a = false ∧ bar0Hole who a = false := by
  obtain ⟨x, rfl, ha⟩ | ⟨rfl | rfl, ha⟩ | ⟨rfl, ha⟩ := h
  · refine ⟨?_, rfl⟩
    simp only [reaches, Bool.and_eq_false_iff, decide_eq_false_iff_not, beq_eq_false_iff_ne]
    omega
  · refine ⟨?_, rfl⟩
    simp only [reaches, Bool.or_eq_false_iff, Bool.and_eq_false_iff, decide_eq_false_iff_not]
    omega
  · refine ⟨?_, rfl⟩
    simp only [reaches, Bool.or_eq_false_iff, Bool.and_eq_false_iff, decide_eq_false_iff_not]
    omega
  · refine ⟨decide_eq_false (by omega), ?_⟩
    simp only [bar0Hole, Bool.and_eq_false_iff, decide_eq_false_iff_not]
    omega

theorem State.regAt_outside (s : State) {who : Sender} {a : Nat} (width : Nat) (h : reaches who a = false) :
    s.regAt who a width = none := by
  simp [State.regAt, h]

theorem State.turnedAway_counted (s : State) {who : Sender} {a : Nat} (h : bar0Hole who a = false) :
    s.turnedAway who a = s.windowErr := by
  simp [State.turnedAway, h]

/-- Settles O52: an address outside the sender's windows is no register's, in any state. -/
theorem endpointsReachTheirWindowsOnly : Obligations.EndpointsReachTheirWindowsOnly := by
  intro s who a width v t h
  obtain ⟨hreach, hhole⟩ := reaches_outside h
  constructor
  · change execRegisterWrite _ _ _ _ _ _ = _
    simp only [execRegisterWrite, State.regAt_outside _ width hreach, State.turnedAway_counted _ hhole]
  · change execRcRead _ _ _ _ _ = _
    simp only [execRcRead, State.regAt_outside _ width hreach, State.turnedAway_counted _ hhole]

end Sys2Proof.Machine
end

section
/-! PROOFS. A reload of the Strata image (R55 to R57, R656). -/

namespace Sys2Proof.Machine

section
variable (s : State)

/-! The checks of a GO -/

/-- A section that a check names has a reason. -/
theorem badSection_reason {l : List Section} {g : Section → Nat × Nat} {c : Nat × Nat × Nat} (h : badSection l g = some c) :
    c.1 ≠ 0 := by
  obtain ⟨e, -, he⟩ := List.exists_of_findSome?_eq_some h
  dsimp only at he
  split at he
  · exact absurd he (by simp)
  next hne => cases he; exact hne

/-- A GO has a reason, or no reason, no section and no detail (R80): each check in turn gives its own. -/
theorem State.reloadCode_cases (f : StrataFile) (sig : Bool) :
    (s.reloadCode f sig).1 ≠ 0 ∨ s.reloadCode f sig = (0, 0, 0) := by
  unfold State.reloadCode
  dsimp only
  split
  · exact .inl (by decide)
  split
  next h => exact .inl (badSection_reason h)
  split
  · exact .inl (by decide)
  split
  next h => exact .inl (badSection_reason h)
  split
  · exact .inl (by decide)
  split
  · exact .inl (by decide)
  split
  next h => exact .inl (badSection_reason h)
  split
  next h => exact .inl (badSection_reason h)
  split
  next h => exact .inl (badSection_reason h)
  split
  · exact .inl (by decide)
  split
  · exact .inl (Nat.succ_ne_zero 1)
  split
  next h => exact .inl (badSection_reason h)
  split
  next h => exact .inl (badSection_reason h)
  exact .inr rfl

/-- A file without the header's magic fails the first check (R47). -/
theorem State.reloadCode_magic {f : StrataFile} (sig : Bool) (h : f.magic ≠ 0x5354_5241) : s.reloadCode f sig = (1, 0xFF, 0) := by
  have hmagic : (f.magic == 0x5354_5241) = false := by simpa using h
  have hhead : headerOk f = false := by simp [headerOk, hmagic]
  simp [State.reloadCode, hhead]

/-! RESULT -/

theorem State.rd_reloadResult (r i d : Nat) :
    (s.reloadResult r i d).rd R.STRATA_RELOAD_RESULT_REASON = r % 256 ∧
      (s.reloadResult r i d).rd R.STRATA_RELOAD_RESULT_DETAIL = d % 65536 := by
  unfold State.reloadResult
  simp only [State.wrs_cons, State.wrs_nil]
  constructor
  · rw [State.rd_wr_apart _ _ (by decide), State.rd_wr_apart _ _ (by decide)]
    exact State.rd_wr_same _ _ _ (by decide)
  · exact State.rd_wr_same _ _ _ (by decide)

theorem State.regsOnly_reloadResult (r i d : Nat) :
    RegsOnly (· = R.STRATA_RELOAD_RESULT_REASON.addr) s (s.reloadResult r i d) :=
  (RegsOnly.refl _ s).wrs (by simp [R.STRATA_RELOAD_RESULT_REASON, R.STRATA_RELOAD_RESULT_SECTION, R.STRATA_RELOAD_RESULT_DETAIL])

theorem State.regsOnly_rejectStrata (r i d : Nat) :
    RegsOnly (fun a => a = R.STRATA_RELOAD_RESULT_REASON.addr ∨ a = R.STRATA_EVENT_REJECTED.addr) s (s.rejectStrata r i d) :=
  ((s.regsOnly_reloadResult r i d).weaken fun _ => .inl).flag (.inr rfl)

/-- A rejected GO gives its reason and sets its event (R80, R82). -/
theorem State.rejectStrata_shows (r i d : Nat) :
    (s.rejectStrata r i d).rd R.STRATA_RELOAD_RESULT_REASON = r % 256 ∧
      (s.rejectStrata r i d).rd R.STRATA_RELOAD_RESULT_DETAIL = d % 65536 ∧
      (s.rejectStrata r i d).rd R.STRATA_EVENT_REJECTED = 1 := by
  obtain ⟨hreason, hdetail⟩ := s.rd_reloadResult r i d
  rw [State.rejectStrata, State.flag_eq]
  refine ⟨?_, ?_, State.rd_wr_fits _ (by decide) (by decide)⟩
  · rw [State.rd_wr_apart _ _ (by decide), hreason]
  · rw [State.rd_wr_apart _ _ (by decide), hdetail]

/-- CHECKING, with the file held (R79). -/
def State.holdFile (s : State) (f : StrataFile) : State :=
  (({ s with strata := { s.strata with file := some f, goAt := s.now } }).wr R.STRATA_STATUS_RELOAD 1).reloadResult 0 0 0

theorem State.holdFile_shows (f : StrataFile) :
    (s.holdFile f).rd R.STRATA_RELOAD_RESULT_REASON = 0 ∧ (s.holdFile f).rd R.STRATA_RELOAD_RESULT_DETAIL = 0 ∧
      (s.holdFile f).rd R.STRATA_STATUS_RELOAD = 1 := by
  obtain ⟨hreason, hdetail⟩ := State.rd_reloadResult
    (({ s with strata := { s.strata with file := some f, goAt := s.now } } : State).wr R.STRATA_STATUS_RELOAD 1) 0 0 0
  refine ⟨hreason, hdetail, ?_⟩
  rw [State.holdFile, (State.regsOnly_reloadResult _ 0 0 0).rd (by decide)]
  exact State.rd_wr_fits _ (by decide) (by decide)

/-! GO -/

section
variable {s} {t : Nat} (sig : Bool)

theorem exec_strataReloadGo_notRun (h : s.rd R.DEV_STATUS_PHASE ≠ 4) :
    exec (.strataReloadGo sig false t) s = .next ((s.atTime t).rejectStrata 0xE 0xFF 0) := by
  have hrun : (s.atTime t).inRun = false := by simpa [State.inRun] using h
  change execStrataReloadGo _ _ _ _ = _
  simp only [execStrataReloadGo, State.iff_false, hrun]
  rfl

variable (hp : s.rd R.DEV_STATUS_PHASE = 4)
include hp

theorem exec_strataReloadGo_busy (h : s.rd R.STRATA_STATUS_RELOAD ≠ 0) :
    exec (.strataReloadGo sig false t) s = .next ((s.atTime t).rejectStrata 4 0xFF 0) := by
  have hrun : (s.atTime t).inRun = true := by simpa [State.inRun] using hp
  change execStrataReloadGo _ _ _ _ = _
  simp [execStrataReloadGo, hrun, h]

/-- A GO in IDLE: the first failing check rejects it, else the file is held. -/
theorem exec_strataReloadGo_idle (hidle : s.rd R.STRATA_STATUS_RELOAD = 0) (hagate : s.agateUp = true) {f : StrataFile}
    (hf : f = s.ownerFile (s.rd R.STRATA_RELOAD_ADDR_ADDR)) {r i d : Nat} (hcode : (s.atTime t).reloadCode f sig = (r, i, d)) :
    exec (.strataReloadGo sig false t) s =
      .next (if r ≠ 0 then (s.atTime t).rejectStrata r i d else (s.atTime t).holdFile f) := by
  have hrun : (s.atTime t).inRun = true := by simpa [State.inRun] using hp
  have hag : (s.atTime t).agateUp = true := hagate
  subst hf
  have hcode' : (s.atTime t).reloadCode ((s.atTime t).ownerFile (s.rd R.STRATA_RELOAD_ADDR_ADDR)) sig = (r, i, d) := hcode
  change execStrataReloadGo _ _ _ _ = _
  simp only [execStrataReloadGo, State.iff_false, hrun, hag, hcode', State.atTime_rd, hidle, ne_eq, not_true_eq_false,
    decide_false, Bool.not_true, Bool.or_self, Bool.false_eq_true, if_false]
  rfl

end

/-! STAGED and ABORT -/

theorem State.regsOnly_putGroup {A : Nat → Prop} {dst : Nat} (hd : A dst) (a : Nat) (w : RegWord) :
    RegsOnly A s (s.putGroup dst a w) := (RegsOnly.refl _ s).wrWord hd _

/-- Staging a section writes shadow registers and the bank of its table that is not active. -/
theorem State.stageSection_keeps (l : List Section) (x : Section) :
    (s.stageSection l x).mem = s.mem ∧ ∀ id, (s.stageSection l x).activeBank id = s.activeBank id := by
  have hregs : RegsOnly AnyReg s (s.each x.regs fun t e => t.putGroup (e.1 + halfPage e.1) e.1 (BitVec.ofNat 64 e.2)) :=
    (RegsOnly.refl _ s).each fun u e _ => u.regsOnly_putGroup trivial _ _
  have htable (id : Nat) : (s.each x.regs fun t e => t.putGroup (e.1 + halfPage e.1) e.1 (BitVec.ofNat 64 e.2)).table id =
      s.table id := by rw [State.table, hregs.strata]; rfl
  unfold State.stageSection
  dsimp only
  split
  · exact ⟨hregs.mem, fun id => by rw [State.activeBank, htable]; rfl⟩
  next n _ =>
    refine ⟨hregs.mem, fun id => ?_⟩
    simp only [State.activeBank]
    by_cases hid : id = n
    · subst hid
      rw [State.setTable_table_same, htable]
      cases (s.table id).active1 <;> simp [TableState.bank]
    · rw [State.setTable_table_ne _ _ hid, htable]

/-- STAGED: what the sections hold stands beside what is active. -/
theorem exec_strataStaged {f : StrataFile} {t : Nat} (hf : s.strata.file = some f) (hr : s.rd R.STRATA_STATUS_RELOAD = 1) :
    ∃ u : State, exec (.strataStaged t) s = .next ((({ u with strata := { u.strata with staged := f.sections } } : State).wr
        R.STRATA_STATUS_RELOAD 2).flag R.STRATA_EVENT_STAGED) ∧
      u.mem = s.mem ∧ ∀ id, u.activeBank id = s.activeBank id := by
  have hfile : (s.atTime t).strata.file = some f := hf
  have hre : ¬ (s.atTime t).rd R.STRATA_STATUS_RELOAD ≠ 1 := not_not.2 hr
  refine ⟨(s.atTime t).each f.sections fun t x => t.stageSection f.sections x, ?_, ?_, fun id => ?_⟩
  · change execStrataStaged _ _ = _
    simp only [execStrataStaged, hfile, if_neg hre]
  · exact State.each_keeps (·.mem) fun u x _ => (u.stageSection_keeps f.sections x).1
  · exact State.each_keeps (·.activeBank id) fun u x _ => (u.stageSection_keeps f.sections x).2 id

theorem State.unstage_shows :
    s.unstage.rd R.STRATA_STATUS_RELOAD = 0 ∧ s.unstage.strata.staged = [] ∧ s.unstage.strata.file = none ∧
      s.unstage.strata.tables = s.strata.tables ∧ s.unstage.mem = s.mem := by
  have hregs : RegsOnly AnyReg s (s.each s.strata.staged fun t x =>
      t.each x.regs fun t e => t.putGroup (e.1 + halfPage e.1) e.1 (regWord t.regs e.1)) :=
    (RegsOnly.refl _ s).each fun u x _ => (RegsOnly.refl _ u).each fun v e _ => v.regsOnly_putGroup trivial _ _
  refine ⟨State.rd_wr_fits _ (by decide) (by decide), rfl, rfl, ?_, hregs.mem⟩
  exact congrArg (·.tables) hregs.strata

end

/-- Settles O7: a GO turns on its checks, and neither STAGED nor ABORT touches an active bank. -/
theorem strataReloadCompletes : Obligations.StrataReloadCompletes := by
  intro s f sig t
  refine ⟨fun hp hidle hagate hf => ⟨fun r i d hcode => ?go, fun hmagic => ?magic⟩, exec_strataReloadGo_notRun sig,
    exec_strataReloadGo_busy sig, fun hf hr => ?staged, fun hbusy hdue => ?abort, fun h3 hdue => ?late⟩
  case go =>
    refine ⟨_, exec_strataReloadGo_idle sig hp hidle hagate hf hcode, ?_⟩
    by_cases hr : r = 0
    · subst hr
      have hd : d = 0 := by
        obtain h | h := (s.atTime t).reloadCode_cases f sig <;> rw [hcode] at h
        · exact absurd rfl h
        · cases h; rfl
      subst hd
      obtain ⟨hreason, hdetail, hreload⟩ := (s.atTime t).holdFile_shows f
      exact ⟨hreason, hdetail, rfl, rfl, fun _ => ⟨hreload, rfl⟩, fun h => absurd rfl h⟩
    · obtain ⟨hreason, hdetail, hevent⟩ := (s.atTime t).rejectStrata_shows r i d
      have hregs := (s.atTime t).regsOnly_rejectStrata r i d
      rw [if_pos hr]
      exact ⟨hreason, hdetail, congrArg (·.tables) hregs.strata, hregs.mem, fun h => absurd h hr,
        fun _ => ⟨(hregs.rd (by decide)).trans hidle, hevent⟩⟩
  case magic =>
    exact ⟨_, exec_strataReloadGo_idle sig hp hidle hagate hf ((s.atTime t).reloadCode_magic sig hmagic),
      ((s.atTime t).rejectStrata_shows 1 0xFF 0).1⟩
  case staged =>
    obtain ⟨u, he, hmem, hbank⟩ := exec_strataStaged s (t := t) hf hr
    refine ⟨_, he, ?_, State.rd_wr_fits _ (by decide) (by decide), rfl, hbank, hmem⟩
    rw [State.flag_eq, State.rd_wr_apart _ _ (by decide)]
    exact State.rd_wr_fits _ (by decide) (by decide)
  case abort =>
    have hacts : ((s.atTime t).rd R.STRATA_STATUS_RELOAD = 0 ||
        ((s.atTime t).rd R.STRATA_STATUS_RELOAD = 3 && (s.atTime t).switchDue) : Bool) = false := by
      rw [Bool.or_eq_false_iff, Bool.and_eq_false_iff, decide_eq_false_iff_not, decide_eq_false_iff_not]
      exact ⟨hbusy, (em (s.rd R.STRATA_STATUS_RELOAD = 3)).elim (fun h => .inr (hdue h)) .inl⟩
    refine ⟨(s.atTime t).unstage, ?_, (s.atTime t).unstage_shows⟩
    change execStrataReloadAbort _ _ = _
    simp only [execStrataReloadAbort, State.abortReload, hacts]
    rfl
  case late =>
    have hnone : ((s.atTime t).rd R.STRATA_STATUS_RELOAD = 0 ||
        ((s.atTime t).rd R.STRATA_STATUS_RELOAD = 3 && (s.atTime t).switchDue) : Bool) = true := by
      rw [State.atTime_rd, h3, hdue]; rfl
    change execStrataReloadAbort _ _ = _
    simp only [execStrataReloadAbort, State.abortReload, hnone]
    rfl

end Sys2Proof.Machine
end

section
/-! PROOFS. Commits: the snapshot, the check, the act point and the discard (R65 to R67, R84). -/

namespace Sys2Proof.Machine

section
variable (s : State)

/-! What a snapshot writes -/

theorem State.regWord_putGroup_same (a : Nat) (w : RegWord) (dst : Nat) :
    regWord (s.putGroup dst a w).regs dst = (regWord s.regs dst &&& ~~~ maskAt a) ||| (w &&& maskAt a) :=
  tblGet_set_same _ _ _ _

theorem State.regWord_putGroup_ne {a dst b : Nat} (w : RegWord) (h : b ≠ dst) :
    regWord (s.putGroup dst a w).regs b = regWord s.regs b :=
  (s.regsOnly_putGroup (A := (· = dst)) rfl a w).word b h

/-- The group's bits of a register are the snapshot's after it has moved there. -/
theorem State.mask_putGroup (a : Nat) (w : RegWord) (dst : Nat) :
    regWord (s.putGroup dst a w).regs dst &&& maskAt a = w &&& maskAt a := by
  rw [s.regWord_putGroup_same]
  ext i
  simp only [BitVec.getElem_and, BitVec.getElem_or, BitVec.getElem_not]
  grind

/-- A snapshot moves into the registers it lists and no other. -/
theorem State.regsOnly_applySnap (l : List (Nat × RegWord)) : RegsOnly (fun a => ∃ e ∈ l, e.1 = a) s (s.applySnap l) :=
  (RegsOnly.refl _ s).each fun u e he => u.regsOnly_putGroup ⟨e, he, rfl⟩ _ _

theorem State.regsOnly_actSnap (l : List (Nat × RegWord)) : RegsOnly AnyReg s (s.actSnap l) :=
  (RegsOnly.refl _ s).each fun u _ _ => (u.regsOnly_putGroup trivial _ _).trans (State.regsOnly_putGroup _ trivial _ _)

/-! The commands of a control -/

variable {who group btype inst t : Nat}

theorem exec_cgCommit {b : BlockDef} {i : Nat} (ticket : Nat) (hwho : who < 65) (hreach : (s.atTime t).cgReached who = true)
    (hidle : s.checkOf who = none) (hgroup : groupAt who btype inst group = some (b, i)) :
    exec (.cgCommit who group btype inst ticket t) s =
      .next (({ s.atTime t with strata := { s.strata with checking := s.strata.checking ++
        [Commit.mk (cgSlice who) group btype inst ticket (s.takeSnap b i group) (max s.now t)] } }).flag
        (cgFld R.CG_STATUS_CHECKING R.SLICE_CG_STATUS_CHECKING who)) := by
  have hcheck : (s.atTime t).checkOf who = none := hidle
  change execCgCommit _ _ _ _ _ _ _ = _
  simp only [execCgCommit, hwho, decide_true, onUnit_true, hreach, hcheck, hgroup]
  rfl

/-- The state once a check has ended: the commit is no longer under check, and its result shows. -/
def State.checkEnded (s : State) (who : Nat) (c : Commit) (r d : Nat) : State :=
  (({ s with strata := { s.strata with checking := s.strata.checking.filter fun d => d.slice != c.slice } }).wr
    (cgFld R.CG_STATUS_CHECKING R.SLICE_CG_STATUS_CHECKING who) 0).cgReport who r d c.ticket

/-- The end of a check: its result shows; a commit that passes acts now or waits. -/
theorem exec_cgCheckDone {c : Commit} {r d : Nat} (hwho : who < 65) (hc : s.checkOf who = some c)
    (hcode : (s.atTime t).commitCode c = (r, d)) :
    exec (.cgCheckDone who t) s = .next (if r ≠ 0 then (s.atTime t).checkEnded who c r d else
      let w := ((s.atTime t).checkEnded who c r d).supersede who c
      (if w.actsLater c then w.waitCommit c else w.actCommit c).showPending c.slice) := by
  have hcheck : (s.atTime t).checkOf who = some c := hc
  change execCgCheckDone _ _ _ = _
  simp only [execCgCheckDone, hwho, decide_true, onUnit_true, hcheck, hcode]
  rfl

theorem exec_cgAct {c : Commit} (hwait : s.waitingFor none btype inst group = some c) (h40 : btype ≠ 0x40) (h41 : btype ≠ 0x41)
    (hact : (s.atTime t).actPoint c = true) :
    exec (.cgAct btype inst group t) s =
      .next ((((s.atTime t).dropWaiting none btype inst group).actCommit c).showPending none) := by
  have hfor : (s.atTime t).waitingFor none btype inst group = some c := hwait
  change execCgAct _ _ _ _ _ = _
  simp [execCgAct, hfor, h40, h41, hact]

theorem exec_cgDiscard {b : BlockDef} {i : Nat} (hwho : who < 65) (hreach : (s.atTime t).cgReached who = true)
    (hidle : s.checkOf who = none) (hgroup : groupAt who btype inst group = some (b, i)) (hon : s.instOn btype inst = true)
    (hwait : s.waitingFor (cgSlice who) btype inst group = none) :
    exec (.cgDiscard who group btype inst t) s = .next (((s.atTime t).discardGroup b i group).cgReport who 0 0 0) := by
  have hcheck : (s.atTime t).checkOf who = none := hidle
  have hunit : (s.atTime t).instOn btype inst = true := hon
  have hfor : (s.atTime t).waitingFor (cgSlice who) btype inst group = none := hwait
  change execCgDiscard _ _ _ _ _ _ = _
  simp [execCgDiscard, hwho, hreach, hcheck, hgroup, hunit, hfor]

end

/-- Settles O9: the four commands of a control, and the bits that a snapshot writes. -/
theorem commitsAndSnapshotsComplete : Obligations.CommitsAndSnapshotsComplete := by
  refine ⟨fun s who group btype inst ticket t hwho => ⟨fun b i => exec_cgCommit s ticket hwho, ?done, ?failed, fun c => exec_cgAct s,
    fun b i => exec_cgDiscard s hwho⟩, fun s a w => ⟨s.regWord_putGroup_same a w a, fun b => s.regWord_putGroup_ne w, ?apply, ?act, ?both⟩⟩
  case done =>
    rintro c w hc hcode rfl
    exact exec_cgCheckDone s hwho hc hcode
  case failed =>
    intro c r d hc hcode hr
    rw [exec_cgCheckDone s hwho hc hcode, if_pos hr]
    rfl
  case apply =>
    exact fun l hl => (s.regsOnly_applySnap l).word a fun ⟨e, he, hea⟩ => hl e he hea
  case act =>
    intro l
    rw [(s.regsOnly_actSnap l).rest]
  case both =>
    intro hhalf
    have hne : a ≠ a + halfPage a := by omega
    change regWord ((s.putGroup a a w).putGroup (a + halfPage a) a w).regs a &&& maskAt a = _ ∧
      regWord ((s.putGroup a a w).putGroup (a + halfPage a) a w).regs (a + halfPage a) &&& maskAt a = _
    rw [State.regWord_putGroup_ne _ _ hne]
    exact ⟨s.mask_putGroup a w a, State.mask_putGroup _ a w _⟩

end Sys2Proof.Machine
end

section
/-! PROOFS. Slices: their states, creation and the end of a reset (R539, R544, R551). -/

namespace Sys2Proof.Machine

/-- The shadow copy of a register lies within 1 MiB after it. -/
theorem halfPage_le (a : Nat) : halfPage a ≤ 0x100000 := by
  have hall : regBlocks.all (fun b => decide (b.half ≤ 0x100000)) = true := by decide
  unfold halfPage
  split
  next b hb => exact of_decide_eq_true (List.all_eq_true.1 hall b (List.mem_of_find?_eq_some hb))
  next => exact Nat.zero_le _

section
variable (s : State) {x : Nat}

/-! What shows of a slice -/

theorem State.regsOnly_setSliceState (x st : Nat) :
    RegsOnly (fun a => a = (R.SLICE_STATE_STATE x).addr ∨ a = R.SLICECTL_STATUS_OPEN.addr) s (s.setSliceState x st) :=
  ((RegsOnly.refl _ s).wr (.inl rfl) st).wrs (by simp [R.SLICECTL_STATUS_OPEN, R.SLICECTL_STATUS_ACTIVE])

theorem State.rd_setSliceState (x : Nat) {st : Nat} (h : st < 8) : (s.setSliceState x st).rd (R.SLICE_STATE_STATE x) = st := by
  have hshow : RegsOnly (· = R.SLICECTL_STATUS_OPEN.addr) (s.wr (R.SLICE_STATE_STATE x) st) (s.setSliceState x st) :=
    (RegsOnly.refl _ _).wrs (by simp [R.SLICECTL_STATUS_OPEN, R.SLICECTL_STATUS_ACTIVE])
  rw [hshow.rd (by simp only [R.SLICE_STATE_STATE, R.SLICECTL_STATUS_OPEN]; omega)]
  exact State.rd_wr_fits _ (by decide : 0 + 3 ≤ 64) h

/-- A slice's limits and its quota show in other registers of its window. -/
theorem State.regsOnly_showLimits (x : Nat) :
    RegsOnly (fun a => a = (R.SLICE_LIMITS_QUEUES x).addr) s (s.showLimits x) :=
  (RegsOnly.refl _ s).wrs (by simp [R.SLICE_LIMITS_QUEUES, R.SLICE_LIMITS_JOB_TILES_MAX, R.SLICE_LIMITS_SEQ_SHARE])

theorem State.regsOnly_showQuota (x : Nat) :
    RegsOnly (fun a => a = (R.MEM_Q_LIMITS_FLOOR x).addr ∨ a = (R.MEM_Q_T3_T3_CEIL x).addr) s (s.showQuota x) :=
  (RegsOnly.refl _ s).wrs (by simp [R.MEM_Q_LIMITS_FLOOR, R.MEM_Q_LIMITS_CEIL, R.MEM_Q_T3_T3_CEIL, R.MEM_Q_T3_GUARANTEED])

/-! CREATE -/

/-- Clearing the registers of a range leaves the ones outside it. -/
theorem RegsOnly.resetRegs {A : Nat → Prop} {u : State} (h : RegsOnly A s u) {lo hi : Nat}
    (hA : ∀ a, lo ≤ a → a < hi → A a) : RegsOnly A s (u.resetRegs lo hi) := by
  refine h.trans ⟨rfl, fun a ha => ?_⟩
  have hout : ¬ (lo ≤ a ∧ a < hi) := fun ⟨h₁, h₂⟩ => ha (hA a h₁ h₂)
  simp only [regWord, tblGet, State.resetRegs, tblFind_clear, if_neg hout]

theorem RegsOnly.wrBoth {A : Nat → Prop} {u : State} (h : RegsOnly A s u) {f : Fld} (hf : A f.addr) (hs : A f.shadow.addr) (v : Nat) :
    RegsOnly A s (u.wrBoth f v) := (h.wr hf v).wr hs v

/-- What a creation writes outside SLICE_IDENT, SLICE_GEN and SLICE_STATE: the owner's registers, and higher ones of the
window. -/
def createAddr (x a : Nat) : Prop := a < 0x1000_0000 ∨ 0x1000_000C + 0x10_0000 * x ≤ a

theorem State.rd_bumpGen (hx : x < 64) : (s.bumpGen x).rd (R.SLICE_GEN_GEN x) = nextGen (s.gen x) % 0x1_0000 := by
  have h : RegsOnly (createAddr x) (s.wr (R.SLICE_GEN_GEN x) (nextGen (s.gen x))) (s.bumpGen x) :=
    (RegsOnly.refl _ _).resetRegs _ fun a h₁ _ => .inr (by omega)
  rw [h.rd (by simp only [createAddr, R.SLICE_GEN_GEN]; omega)]
  exact State.rd_wr_same _ _ _ (by decide : 0 + 16 ≤ 64)

/-- What a creation copies from the template into the slice's registers (R544). -/
def State.createWrites (s : State) (x k : Nat) : List (Fld × Nat) :=
  [(R.MEM_QUOTA_FLOOR x, s.template k 0 2), (R.MEM_QUOTA_CEIL x, s.template k 2 2),
    (R.MEM_QUOTA_T3_T3_CEIL x, s.template k 4 2), (R.SC_LIMITS_QUEUES x, s.template k 8 1),
    (R.SC_LIMITS_JOB_TILES_MAX x, s.template k 9 1), (R.SC_SEQ_SEQ_BASE x, (s.seqPlace x (s.template k 6 2)).getD 0),
    (R.SC_SEQ_SEQ_SHARE x, s.template k 6 2)]

theorem State.createSlice_eq (x k : Nat) : s.createSlice x k =
    ((((((s.bumpGen x).each (s.createWrites x k) fun t e => t.wrBoth e.1 e.2).wr (R.SLICE_IDENT_TEMPLATE x) k).showLimits
      x).showQuota x).setSliceState x 1) := rfl

theorem State.createWrites_addr (k : Nat) (hx : x < 64) : ∀ e ∈ s.createWrites x k, e.1.addr < 0xFF0_0000 := by
  simp only [State.createWrites, List.forall_mem_cons, R.MEM_QUOTA_FLOOR, R.MEM_QUOTA_CEIL, R.MEM_QUOTA_T3_T3_CEIL,
    R.SC_LIMITS_QUEUES, R.SC_LIMITS_JOB_TILES_MAX, R.SC_SEQ_SEQ_BASE, R.SC_SEQ_SEQ_SHARE]
  refine ⟨?_, ?_, ?_, ?_, ?_, ?_, ?_, by simp⟩ <;> omega

theorem State.regsOnly_createWrites (k : Nat) (hx : x < 64) (u : State) :
    RegsOnly (createAddr x) u (u.each (s.createWrites x k) fun t e => t.wrBoth e.1 e.2) := by
  refine (RegsOnly.refl _ u).each fun v e he => (RegsOnly.refl _ v).wrBoth _ ?_ ?_ _
  · have := s.createWrites_addr k hx e he
    exact .inl (by omega)
  · have := s.createWrites_addr k hx e he
    have := halfPage_le e.1.addr
    exact .inl (by simp only [Fld.shadow]; omega)

theorem State.regsOnly_createViews (x : Nat) : RegsOnly (createAddr x) s ((s.showLimits x).showQuota x) := by
  refine ((s.regsOnly_showLimits x).weaken ?_).trans ((State.regsOnly_showQuota _ x).weaken ?_)
  · rintro a rfl
    exact .inr (by simp only [R.SLICE_LIMITS_QUEUES]; omega)
  · rintro a (rfl | rfl) <;> exact .inr (by simp only [R.MEM_Q_LIMITS_FLOOR, R.MEM_Q_T3_T3_CEIL]; omega)

/-- A created slice: OPENING, its template and its new GEN; nothing is stored. -/
theorem State.createSlice_shows (k : Nat) (hx : x < 64) :
    (s.createSlice x k).rd (R.SLICE_STATE_STATE x) = 1 ∧ (s.createSlice x k).rd (R.SLICE_IDENT_TEMPLATE x) = k % 16 ∧
      (s.createSlice x k).rd (R.SLICE_GEN_GEN x) = nextGen (s.gen x) % 0x1_0000 ∧ (s.createSlice x k).mem = s.mem := by
  rw [s.createSlice_eq]
  have hstate (u : State) := u.regsOnly_setSliceState x 1
  have hboth := s.regsOnly_createWrites k hx (s.bumpGen x)
  refine ⟨State.rd_setSliceState _ x (by decide), ?_, ?_, ?_⟩
  · rw [(hstate _).rd (by simp only [R.SLICE_STATE_STATE, R.SLICECTL_STATUS_OPEN, R.SLICE_IDENT_TEMPLATE]; omega),
      (State.regsOnly_createViews _ x).rd (by simp only [createAddr, R.SLICE_IDENT_TEMPLATE]; omega)]
    exact State.rd_wr_same _ _ _ (by decide : 8 + 4 ≤ 64)
  · rw [(hstate _).rd (by simp only [R.SLICE_STATE_STATE, R.SLICECTL_STATUS_OPEN, R.SLICE_GEN_GEN]; omega),
      (State.regsOnly_createViews _ x).rd (by simp only [createAddr, R.SLICE_GEN_GEN]; omega),
      State.rd_wr_addr _ _ _ _ (by simp only [R.SLICE_IDENT_TEMPLATE, R.SLICE_GEN_GEN]; omega),
      hboth.rd (by simp only [createAddr, R.SLICE_GEN_GEN]; omega), s.rd_bumpGen hx]
  · rw [(hstate _).mem, (State.regsOnly_createViews _ x).mem, State.wr_mem, hboth.mem]
    rfl

/-! The commands -/

/-- A slice of which nothing is left to clear: its next state, and how long that took. -/
def State.clearedSlice (s : State) (x st : Nat) : State :=
  ((s.setSliceState x st).wrs [(R.SC_LAST_RESET_NS_NS x, min (s.now - (s.slice x).since) 0xFFFF_FFFF),
    (R.SLICECTL_EVENT_DONE, 1)]).setSlice x .reset

variable {t : Nat} (hx : x < 64)
include hx

theorem exec_sliceCreate {k : Nat} (hk : k < 16) (hp : s.rd R.DEV_STATUS_PHASE = 4) (hfree : s.rd (R.SLICE_STATE_STATE x) = 0)
    (hcode : s.createCode x k = 0) :
    exec (.sliceCreate x k t) s = .next (((s.atTime t).createSlice x k).sliceResult x 0) := by
  have hcheck : (s.atTime t).sliceCheck x 0 false = 0 := by simp [State.sliceCheck, State.inRun, hp, hfree]
  have hnone : (s.atTime t).createCode x k = 0 := hcode
  change execSliceCreate _ _ _ _ = _
  simp [execSliceCreate, hx, hk, hcheck, hnone]

theorem exec_sliceOpened (hst : s.rd (R.SLICE_STATE_STATE x) = 1) (hup : s.jasperDown = false) :
    exec (.sliceOpened x t) s = .next ((((({ s.atTime t with dev := { s.dev with served := s.dev.served || s.inRun } }).setSliceState
      x 2).showGroups x).showTiles x).showAdmit.decision) := by
  have hjasper : (s.atTime t).jasperDown = false := hup
  change execSliceOpened _ _ _ = _
  simp only [execSliceOpened, hx, decide_true, onUnit_true, hst, hjasper, State.atTime_rd]
  rfl

omit hx in
theorem State.sliceCheck_open (hp : s.rd R.DEV_STATUS_PHASE = 4) (hst : s.rd (R.SLICE_STATE_STATE x) = 2)
    (hact : s.rd R.SLICECTL_STATUS_ACTIVE < 4) : (s.atTime t).sliceCheck x 2 true = 0 := by
  have : ¬ 4 ≤ s.rd R.SLICECTL_STATUS_ACTIVE := Nat.not_le.2 hact
  simp [State.sliceCheck, State.inRun, hp, hst, this]

theorem exec_sliceResetDone_removed (hst : s.rd (R.SLICE_STATE_STATE x) = 4) (hclear : s.sliceClear x = true) :
    exec (.sliceResetDone x t) s = .next ((s.atTime t).clearedSlice x 0) := by
  have hcl : (s.atTime t).sliceClear x = true := hclear
  change execSliceResetDone _ _ _ = _
  simp only [execSliceResetDone, hx, decide_true, onUnit_true, hcl, State.atTime_rd, hst, show ¬ 4 < 3 by decide, decide_false,
    Bool.not_true, Bool.or_self, Bool.false_eq_true, if_false, show ¬ 4 = 3 by decide, State.clearedSlice]

theorem exec_sliceResetDone_reset (hst : s.rd (R.SLICE_STATE_STATE x) = 3) (hclear : s.sliceClear x = true) :
    exec (.sliceResetDone x t) s = .next ((((((s.atTime t).clearedSlice x 2).actWaiting none 0x31 0 x).showQuota x).evictExcess
      x).serveAll).decision := by
  have hcl : (s.atTime t).sliceClear x = true := hclear
  change execSliceResetDone _ _ _ = _
  simp only [execSliceResetDone, hx, decide_true, onUnit_true, hcl, State.atTime_rd, hst, Nat.lt_irrefl, decide_false,
    Bool.not_true, Bool.or_self, Bool.false_eq_true, if_false, if_true, State.clearedSlice]

/-- A removed slice is FREE, with nothing of its own left. -/
theorem State.clearedSlice_shows : (s.clearedSlice x 0).rd (R.SLICE_STATE_STATE x) = 0 ∧
    (s.clearedSlice x 0).rd R.SLICECTL_EVENT_DONE = 1 ∧ (s.clearedSlice x 0).slice x = .reset ∧
    (s.clearedSlice x 0).mem = s.mem := by
  have hmem := (s.regsOnly_setSliceState x 0).mem
  simp only [State.clearedSlice, State.setSlice_rd, State.setSlice_mem, State.wrs_cons, State.wrs_nil]
  refine ⟨?_, State.rd_wr_fits _ (by decide) (by decide), State.setSlice_slice_same _ _ _, hmem⟩
  rw [State.rd_wr_addr _ _ _ _ (by simp only [R.SLICE_STATE_STATE, R.SLICECTL_EVENT_DONE]; omega),
    State.rd_wr_addr _ _ _ _ (by simp only [R.SLICE_STATE_STATE, R.SC_LAST_RESET_NS_NS]; omega)]
  exact s.rd_setSliceState x (by decide)

end

/-- Settles O10: each command checks the slice's state, and shows the next one. -/
theorem sliceCommandsComplete : Obligations.SliceCommandsComplete := by
  intro s x k cyc t hx
  refine ⟨exec_sliceCreate s hx, exec_sliceOpened s hx, fun hp hst hact => ?close, fun hst hclear => ?removed,
    fun hst hclear => ?reset, fun st => s.rd_setSliceState x, s.createSlice_shows k hx⟩
  case close =>
    have hcheck := s.sliceCheck_open (t := t) hp hst hact
    constructor
    · change execSliceReset _ _ _ _ = _
      simp [execSliceReset, hx, hcheck]
    · change execSliceRemove _ _ _ _ = _
      simp [execSliceRemove, hx, hcheck]
  case removed => exact ⟨_, exec_sliceResetDone_removed s hx hst hclear, (s.atTime t).clearedSlice_shows hx⟩
  case reset => exact exec_sliceResetDone_reset s hx hst hclear

end Sys2Proof.Machine
end

section
/-! PROOFS. Issue of a tile command (R146 to R154, R180). -/

namespace Sys2Proof.Machine

section
variable {s : State} {site q cyc : Nat}

theorem State.failing_of_fail (h : (s.tile site).fail = none) : s.failing site cyc = none := by
  rw [State.failing, h]; rfl

/-- Whether a queue waits shows in its status alone. -/
theorem State.regsOnly_showWait (s : State) (site q : Nat) :
    RegsOnly (· = (R.TILE_CMDQ_STATUS_STATE site q).addr) s (s.showWait site q) := by
  unfold State.showWait
  dsimp only
  split
  · exact (RegsOnly.refl (· = (R.TILE_CMDQ_STATUS_STATE site q).addr) s).wr rfl _
  · exact RegsOnly.refl _ s

theorem RegsOnly.tile {A : Nat → Prop} {t : State} (h : RegsOnly A s t) (k : Nat) : t.tile k = s.tile k :=
  h.keeps (·.tile k) fun _ _ => rfl

theorem RegsOnly.queue {A : Nat → Prop} {t : State} (h : RegsOnly A s t) (site q : Nat) : t.queue site q = s.queue site q :=
  h.keeps (·.queue site q) fun _ _ => rfl

theorem RegsOnly.pending {A : Nat → Prop} {t : State} (h : RegsOnly A s t) : t.pending = s.pending :=
  h.keeps (·.pending) fun _ _ => rfl

/-! A queue set -/

theorem TileState.queue_setQueue (x : TileState) (q : Nat) (c : CmdQueue) : (x.setQueue q c).queue q = c := by
  match q with
  | 0 | 1 | 2 | _ + 3 => rfl

/-- Of its tile nothing changes but the queue. -/
theorem TileState.setQueue_keeps (x : TileState) (q : Nat) (c : CmdQueue) :
    (x.setQueue q c).running = x.running ∧ (x.setQueue q c).fail = x.fail ∧ (x.setQueue q c).xfers = x.xfers ∧
      (x.setQueue q c).job = x.job := by
  match q with
  | 0 | 1 | 2 | _ + 3 => exact ⟨rfl, rfl, rfl, rfl⟩

/-- The head leaves a queue of a tile that has not failed: the queue moves on, and its status shows whether it waits. -/
theorem State.takeHead_of_fail (h : (s.tile site).fail = none) :
    s.takeHead site q cyc = (s.setQueue site q ((s.queue site q).take cyc)).showWait site q := by
  rw [State.takeHead, State.failing_of_fail h]

theorem State.takeHead_tile (h : (s.tile site).fail = none) :
    (s.takeHead site q cyc).tile site = (s.tile site).setQueue q ((s.queue site q).take cyc) := by
  rw [State.takeHead_of_fail h, (State.regsOnly_showWait _ site q).tile]
  exact State.setTile_tile_same _ _ _

theorem State.takeHead_tile_ne (h : (s.tile site).fail = none) {k : Nat} (hk : k ≠ site) :
    (s.takeHead site q cyc).tile k = s.tile k := by
  rw [State.takeHead_of_fail h, (State.regsOnly_showWait _ site q).tile]
  exact State.setTile_tile_ne _ _ hk

/-- Taking a head changes tiles and the queue's status, and nothing else. -/
theorem State.takeHead_keeps (h : (s.tile site).fail = none) :
    (s.takeHead site q cyc).mem = s.mem ∧ (s.takeHead site q cyc).acc = s.acc ∧ (s.takeHead site q cyc).pending = s.pending ∧
      ∀ f : Fld, f.addr ≠ (R.TILE_CMDQ_STATUS_STATE site q).addr → (s.takeHead site q cyc).rd f = s.rd f := by
  have hshow := State.regsOnly_showWait (s.setQueue site q ((s.queue site q).take cyc)) site q
  rw [State.takeHead_of_fail h]
  exact ⟨hshow.mem, hshow.acc, hshow.pending, fun f hf => hshow.rd hf⟩

theorem State.stopLate_of_fail (h : (s.tile site).fail = none) : s.stopLate site cyc = s := by
  rw [State.stopLate, State.failing_of_fail h]
  rfl

/-! What starts -/

section
variable {i : Inst} {p : Plan}

/-- The tile on which a command has started to run. -/
def TileState.runs (x : TileState) (q : Nat) (c : RunCmd) : TileState :=
  { x with running := x.running ++ [c], served := (c.unit, q) :: x.served.filter fun e => e.1 != c.unit }

theorem TileState.queue_runs (x : TileState) (q : Nat) (c : RunCmd) (k : Nat) : (x.runs q c).queue k = x.queue k := by
  match k with
  | 0 | 1 | 2 | _ + 3 => rfl

/-- A command of a tile that has not failed stands on its unit. -/
theorem State.started_run {c : RunCmd} (hrun : p.run = some c) (hfail : ((p.effect s).tile site).fail = none) :
    s.started site q cyc i p = ((p.effect s).takeHead site q cyc).setTile site
      ((((p.effect s).takeHead site q cyc).tile site).runs q c) := by
  have hlate : ((((p.effect s).takeHead site q cyc).setTile site
      ((((p.effect s).takeHead site q cyc).tile site).runs q c)).tile site).fail = none := by
    rw [State.setTile_tile_same, State.takeHead_tile hfail]
    exact (TileState.setQueue_keeps _ _ _).2.1.trans hfail
  simp only [State.started, hrun]
  exact State.stopLate_of_fail hlate

/-- What a command does as it starts to run is its plan's effect; besides, its entry leaves the queue and it stands on its
unit. -/
theorem State.started_shows {c : RunCmd} (hrun : p.run = some c) (hfail : ((p.effect s).tile site).fail = none) :
    (s.started site q cyc i p).mem = (p.effect s).mem ∧ (s.started site q cyc i p).acc = (p.effect s).acc ∧
      (∀ f : Fld, f.addr ≠ (R.TILE_CMDQ_STATUS_STATE site q).addr → (s.started site q cyc i p).rd f = (p.effect s).rd f) ∧
      (p.effect s).issuedAs (s.started site q cyc i p) site q cyc c := by
  obtain ⟨hmem, hacc, hpending, hrd⟩ := State.takeHead_keeps (q := q) (cyc := cyc) hfail
  have htile := State.takeHead_tile (q := q) (cyc := cyc) hfail
  rw [State.started_run hrun hfail]
  refine ⟨hmem, hacc, hrd, ?_, ?_, fun k hk => ?_, hpending⟩
  · rw [State.setTile_tile_same, htile]
    exact congrArg (· ++ [c]) (TileState.setQueue_keeps _ _ _).1
  · rw [State.queue, State.setTile_tile_same, htile]
    rw [TileState.queue_runs, TileState.queue_setQueue]
  · rw [State.setTile_tile_ne _ _ hk, State.takeHead_tile_ne hfail hk]

/-! What issues -/

variable {j : TileJob} {mine : QEntry → Bool} {plan : State → Nat → TileJob → Inst → Option Plan}

/-- A head that is mine and not held: its first failing check stops the tile, else it starts unless another queue's turn comes
first. -/
theorem State.issue_of_headReady (h : s.headReady site q cyc j i) (hmine : mine i.e = true) (hplan : plan s q j i = some p)
    (hhold : p.hold = false) :
    s.issue site q cyc mine plan = match p.code with
      | some c => s.failCmd site q cyc c i.e.tag i.e.index
      | none => if (p.run.map fun c => s.outranked site q cyc j c.unit plan).getD false then s
        else s.started site q cyc i p := by
  obtain ⟨-, -, hjob, -, hready, hlisted⟩ := h
  simp only [State.issue, hready, hjob, hlisted, hmine, hplan, hhold]
  rfl

theorem State.issue_started (h : s.headReady site q cyc j i) (hmine : mine i.e = true) (hplan : plan s q j i = some p)
    (hpass : p.passes) (hturn : ∀ c, p.run = some c → s.outranked site q cyc j c.unit plan = false) :
    s.issue site q cyc mine plan = s.started site q cyc i p := by
  rw [State.issue_of_headReady h hmine hplan hpass.2, hpass.1]
  refine if_neg ?_
  cases hrun : p.run with
  | none => exact Bool.false_ne_true
  | some c => simp [hturn c hrun]

end
end

/-- Settles O11: a head that passes starts, one that fails a check stops its tile. -/
theorem issuedCommandLeavesQueue : Obligations.IssuedCommandLeavesQueue := by
  intro s site q cyc j i p mine plan hready hmine hplan hhold
  refine ⟨fun c hcode hrun hturn => ?_, fun hcode hrun => ?_, fun c hcode => ?_, fun c => State.started_shows⟩
  · refine State.issue_started hready hmine hplan ⟨hcode, hhold⟩ fun c' hrun' => ?_
    cases hrun.symm.trans hrun'
    exact hturn
  · exact State.issue_started hready hmine hplan ⟨hcode, hhold⟩ fun c' hrun' => by rw [hrun] at hrun'; cases hrun'
  · rw [State.issue_of_headReady hready hmine hplan hhold, hcode]

end Sys2Proof.Machine
end

section
/-! PROOFS. COPY, SCALE_LOAD, XFER and SYNC (R161, R166 to R169, R221). -/

namespace Sys2Proof.Machine

section
variable {s : State} {site q cyc : Nat} {j : TileJob} {i : Inst}

/-- A command at a head that is ready names a tile and a queue that this part has. -/
theorem State.headReady.onUnit (h : s.headReady site q cyc j i) (t : State) :
    onUnit (s.tileOn site && q < 4) t = .next t := by
  obtain ⟨hon, hq, -⟩ := h
  simp [hon, hq]

theorem State.headReady.site_lt (h : s.headReady site q cyc j i) : site < 136 := by
  have hon := h.1
  simp only [State.tileOn, Bool.and_eq_true, decide_eq_true_eq] at hon
  exact hon.1.1

theorem State.queueIn_of_fail (h : (s.tile site).fail = none) : s.queueIn site q cyc = s.queue site q := by
  rw [State.queueIn, State.failing_of_fail h]

/-- A queue that may issue is not stopping (R150). -/
theorem State.headReady.not_stopping (h : s.headReady site q cyc j i) : (s.queue site q).stopping = false := by
  obtain ⟨-, -, -, hfail, hready, -⟩ := h
  have hmay := (Option.filter_eq_some_iff.1 hready).2
  simp only [State.mayIssue, State.queueIn_of_fail hfail, Bool.and_eq_true, Bool.not_eq_eq_eq_not, Bool.not_true] at hmay
  exact hmay.1.1.1.2

theorem CmdQueue.stopping_take (c : CmdQueue) (cyc : Nat) : (c.take cyc).stopping = c.stopping := by
  unfold CmdQueue.take
  split
  · rfl
  · dsimp only
    split <;> rfl

/-- A command whose plan writes registers alone at issue: it stands on its unit, and what changes besides is those registers
and the queue's status. -/
theorem State.issue_runs_regs {A : Nat → Prop} {p : Plan} {c : RunCmd} {mine : QEntry → Bool}
    {plan : State → Nat → TileJob → Inst → Option Plan} (h : s.headReady site q cyc j i) (hmine : mine i.e = true)
    (hplan : plan s q j i = some p) (hpass : p.passes) (hrun : p.run = some c)
    (hturn : s.outranked site q cyc j c.unit plan = false) (heff : RegsOnly A s (p.effect s)) :
    s.issuedAs (s.issue site q cyc mine plan) site q cyc c ∧ (s.issue site q cyc mine plan).mem = s.mem ∧
      (s.issue site q cyc mine plan).acc = s.acc ∧
      ∀ f : Fld, f.addr ≠ (R.TILE_CMDQ_STATUS_STATE site q).addr → (s.issue site q cyc mine plan).rd f = (p.effect s).rd f := by
  have hfail : ((p.effect s).tile site).fail = none := (congrArg _ (heff.tile site)).trans h.2.2.2.1
  have hone : ∀ c', p.run = some c' → s.outranked site q cyc j c'.unit plan = false := by
    intro c' hc'
    cases hrun.symm.trans hc'
    exact hturn
  rw [State.issue_started h hmine hplan hpass hone]
  obtain ⟨hmem, hacc, hrd, hrunning, hqueue, htiles, hpending⟩ := State.started_shows (q := q) (cyc := cyc) (i := i) hrun hfail
  rw [heff.tile] at hrunning
  rw [heff.queue] at hqueue
  exact ⟨⟨hrunning, hqueue, fun k hk => (htiles k hk).trans (heff.tile k), hpending.trans heff.pending⟩, hmem.trans heff.mem,
    hacc.trans heff.acc, hrd⟩

/-- A command whose plan does nothing at issue: it stands on its unit, and nothing else changes. -/
theorem State.issue_runs {p : Plan} {c : RunCmd} {mine : QEntry → Bool} {plan : State → Nat → TileJob → Inst → Option Plan}
    (h : s.headReady site q cyc j i) (hmine : mine i.e = true) (hplan : plan s q j i = some p) (hpass : p.passes)
    (hrun : p.run = some c) (hturn : s.outranked site q cyc j c.unit plan = false) (heff : p.effect s = s) :
    s.issuedAs (s.issue site q cyc mine plan) site q cyc c ∧ (s.issue site q cyc mine plan).mem = s.mem ∧
      (s.issue site q cyc mine plan).acc = s.acc ∧
      ∀ f : Fld, f.addr ≠ (R.TILE_CMDQ_STATUS_STATE site q).addr → (s.issue site q cyc mine plan).rd f = s.rd f := by
  have hregs := State.issue_runs_regs (A := AnyReg) h hmine hplan hpass hrun hturn (heff.symm ▸ RegsOnly.refl _ s)
  rwa [heff] at hregs

/-! Signals -/

theorem State.land_fail (s : State) (site n inc cyc k : Nat) : ((s.land site n inc cyc).tile k).fail = (s.tile k).fail := by
  unfold State.land
  dsimp only
  rw [State.each_keeps (·.tile k) fun u p _ => (u.regsOnly_showWait site p).tile k, State.bump, State.wr_tile]
  by_cases hk : k = site
  · subst hk; rw [State.setTile_tile_same]
  · rw [State.setTile_tile_ne _ _ hk]

theorem State.regsOnly_showDraining (s : State) : RegsOnly (· = R.STRATA_STATUS_ANY_DRAINING.addr) s s.showDraining :=
  (RegsOnly.refl (· = R.STRATA_STATUS_ANY_DRAINING.addr) s).wr rfl _

theorem State.offer_tile (s : State) (plane stop k : Nat) : (s.offer plane stop).2.tile k = s.tile k := by
  unfold State.offer
  split
  · exact (State.regsOnly_showDraining _).tile k
  · rfl

theorem State.signal_fail (s : State) (site cyc : Nat) (g : Signal) (k : Nat) :
    ((s.signal site cyc g).tile k).fail = (s.tile k).fail := by
  unfold State.signal
  split
  · rfl
  split
  · exact s.land_fail site _ _ cyc k
  split
  · rfl
  split
  · rfl
  next d _ =>
    have htile := s.offer_tile 1 (meshStop site)
    split
    next t hoffer => rw [← htile k, hoffer]
    next r t hoffer =>
      rw [hoffer] at htile
      by_cases hk : k = d
      · subst hk
        rw [State.setTile_tile_same, ← htile k]
      · rw [State.setTile_tile_ne _ _ hk, ← htile k]

theorem State.regsOnly_checkStop (s : State) (site q : Nat) : RegsOnly AnyReg s (s.checkStop site q) := by
  unfold State.checkStop
  split
  · exact ((RegsOnly.refl _ s).wr trivial _).bump trivial _
  · exact RegsOnly.refl _ s

theorem State.doneOk_fail (s : State) (site q cyc : Nat) (g : Signal) (k : Nat) :
    ((s.doneOk site q cyc g).tile k).fail = (s.tile k).fail := by
  rw [State.doneOk, (State.regsOnly_checkStop _ site q).tile, State.signal_fail, State.bump, State.wr_tile]

/-- A command that is done at once: its entry leaves the queue, DONE advances, and SYNC alone signals. -/
theorem State.started_done {p : Plan} (hrun : p.run = none) (hfail : ((p.effect s).tile site).fail = none) :
    s.started site q cyc i p = ((p.effect s).takeHead site q cyc).doneOk site q cyc
      { i.e.signal with enable := i.e.signal.enable && i.e.opcode == 0x0C } := by
  have hlate (g : Signal) : ((((p.effect s).takeHead site q cyc).doneOk site q cyc g).tile site).fail = none := by
    rw [State.doneOk_fail, State.takeHead_tile hfail]
    exact (TileState.setQueue_keeps _ _ _).2.1.trans hfail
  simp only [State.started, hrun]
  exact State.stopLate_of_fail (hlate _)

/-- What is left of a command that is done at once without a signal, on a queue that does not stop. -/
theorem State.doneOk_quiet {g : Signal} (hg : g.enable = false) (hstop : (s.queue site q).stopping = false) :
    s.doneOk site q cyc g = s.bump (R.TILE_CMDQ_DONE_DONE site q) 1 := by
  have hsig : (s.bump (R.TILE_CMDQ_DONE_DONE site q) 1).signal site cyc g = s.bump (R.TILE_CMDQ_DONE_DONE site q) 1 := by
    simp [State.signal, hg]
  have hqueue : ((s.bump (R.TILE_CMDQ_DONE_DONE site q) 1).queue site q).stopping = false := hstop
  rw [State.doneOk, hsig, State.checkStop, hqueue]
  rfl

/-! XFER -/

/-- The request an XFER hands to its engine: what XFER's plan does is offer it to the mesh and list it. -/
def xferReq (s : State) (site q : Nat) (out : Bool) (j : TileJob) (i : Inst) : XferRec :=
  ⟨q, i.e.index, i.e.tag, out, (i.slot 0).toNat, i.vaddr.toNat, i.e.fld 0x28 0 22,
    if j.holder < 64 then site / 17 * 2 + (s.tile site).xferTurn else 16 + (j.holder - 64), j.gen,
    (s.offer (if j.holder < 64 then 1 else 0) (meshStop site)).1, i.e.signal⟩

theorem State.xferPlan_effect (out : Bool) : (s.xferPlan site q out j i).effect s =
    (s.offer (if j.holder < 64 then 1 else 0) (meshStop site)).2.setTile site
      { s.tile site with
        xfers := (s.tile site).xfers ++ [xferReq s site q out j i]
        xferTurn := if j.holder < 64 then 1 - (s.tile site).xferTurn else (s.tile site).xferTurn } := by
  rw [← s.offer_tile (if j.holder < 64 then 1 else 0) (meshStop site) site]
  rfl

/-- An offer holds a bank, or counts a violation: no memory, and of the registers only what shows that. -/
theorem State.offer_keeps (s : State) (plane stop : Nat) :
    (s.offer plane stop).2.mem = s.mem ∧ (s.offer plane stop).2.acc = s.acc ∧
      ∀ f : Fld, f.addr ≠ R.STRATA_STATUS_ANY_DRAINING.addr → f.addr ≠ (R.MESH_PLANE_VIOL_COUNT plane stop).addr →
        (s.offer plane stop).2.rd f = s.rd f := by
  unfold State.offer
  split
  · have hregs := State.regsOnly_showDraining (s.setTable (1 + plane) (if s.newBank (1 + plane) then
      { s.table (1 + plane) with fly1 := (s.table (1 + plane)).fly1 + 1 } else
      { s.table (1 + plane) with fly0 := (s.table (1 + plane)).fly0 + 1 }))
    exact ⟨hregs.mem, hregs.acc, fun f hf _ => hregs.rd hf⟩
  · exact ⟨rfl, rfl, fun f _ hf => s.rd_wr_addr _ f _ hf⟩

/-- XFER: the request stands on the tile, its entry has left the queue and DONE has advanced. -/
theorem State.xfer_shows {out : Bool} {u : State} (h : s.headReady site q cyc j i) (hop : i.e.opcode = 0x0A)
    (hu : u = s.started site q cyc i (s.xferPlan site q out j i)) :
    (u.tile site).xfers = (s.tile site).xfers ++ [xferReq s site q out j i] ∧ u.mem = s.mem ∧ u.acc = s.acc ∧
      u.rd (R.TILE_CMDQ_DONE_DONE site q) = (s.rd (R.TILE_CMDQ_DONE_DONE site q) + 1) % 2 ^ (R.TILE_CMDQ_DONE_DONE site q).width ∧
      u.queue site q = (s.queue site q).take cyc ∧
      ∀ f : Fld, f.addr ≠ (R.TILE_CMDQ_STATUS_STATE site q).addr → f.addr ≠ (R.TILE_CMDQ_DONE_DONE site q).addr →
        u.rd f = (s.offer (if j.holder < 64 then 1 else 0) (meshStop site)).2.rd f := by
  have hsite := h.site_lt
  have hq : q < 4 := h.2.1
  obtain ⟨x, hx⟩ : ∃ x, x = (s.xferPlan site q out j i).effect s := ⟨_, rfl⟩
  have htile : x.tile site = { s.tile site with
      xfers := (s.tile site).xfers ++ [xferReq s site q out j i]
      xferTurn := if j.holder < 64 then 1 - (s.tile site).xferTurn else (s.tile site).xferTurn } := by
    rw [hx, State.xferPlan_effect, State.setTile_tile_same]
  have hqueue : x.queue site q = s.queue site q := by
    rw [State.queue, htile]
    match q with
    | 0 | 1 | 2 | _ + 3 => rfl
  have hfail : (x.tile site).fail = none := by rw [htile]; exact h.2.2.2.1
  have htaken : (x.takeHead site q cyc).queue site q = (s.queue site q).take cyc := by
    rw [State.queue, State.takeHead_tile hfail, TileState.queue_setQueue, hqueue]
  have hquiet := State.doneOk_quiet (s := x.takeHead site q cyc) (site := site) (q := q) (cyc := cyc)
    (g := { i.e.signal with enable := i.e.signal.enable && i.e.opcode == 0x0C }) (by simp [hop])
    (by rw [htaken, CmdQueue.stopping_take]; exact h.not_stopping)
  rw [State.started_done rfl (hx ▸ hfail), ← hx, hquiet] at hu
  obtain ⟨hmem, hacc, -, hrd⟩ := State.takeHead_keeps (q := q) (cyc := cyc) hfail
  obtain ⟨hmem', hacc', hrd'⟩ := s.offer_keeps (if j.holder < 64 then 1 else 0) (meshStop site)
  have hxoffer : x.mem = s.mem ∧ x.acc = s.acc ∧ ∀ f, x.rd f = (s.offer (if j.holder < 64 then 1 else 0) (meshStop site)).2.rd f := by
    rw [hx, State.xferPlan_effect]
    exact ⟨hmem', hacc', fun _ => rfl⟩
  obtain ⟨hxmem, hxacc, hxrd⟩ := hxoffer
  subst hu
  refine ⟨?_, hmem.trans hxmem, hacc.trans hxacc, ?_, htaken, fun f hf hf' => ?_⟩
  · change ((x.takeHead site q cyc).tile site).xfers = _
    rw [State.takeHead_tile hfail, (TileState.setQueue_keeps _ _ _).2.2.1, htile]
  · rw [State.bump, State.rd_wr_same _ _ _ (by decide : 0 + 32 ≤ 64)]
    congr 2
    rw [hrd _ (by simp only [R.TILE_CMDQ_DONE_DONE, R.TILE_CMDQ_STATUS_STATE]; omega), hxrd]
    refine hrd' _ ?_ ?_
    · simp only [R.TILE_CMDQ_DONE_DONE, R.STRATA_STATUS_ANY_DRAINING]; omega
    · simp only [R.TILE_CMDQ_DONE_DONE, R.MESH_PLANE_VIOL_COUNT]; omega
  · rw [State.bump, State.rd_wr_addr _ _ _ _ hf', hrd f hf, hxrd]

/-- The mesh takes a packet on a plane that is assigned to the stop, else it counts it (R34, R60). -/
theorem State.offer_enabled {plane stop : Nat} (h : s.rd (R.MESH_STOP_CTRL_ENABLED plane stop) = 1) :
    (s.offer plane stop).1 = some (1 + plane, s.newBank (1 + plane)) := by
  simp [State.offer, h]

theorem State.offer_dropped {plane stop : Nat} (h : s.rd (R.MESH_STOP_CTRL_ENABLED plane stop) ≠ 1) :
    (s.offer plane stop).1 = none ∧ (s.offer plane stop).2.rd (R.MESH_PLANE_VIOL_COUNT plane stop) =
      min (s.rd (R.MESH_PLANE_VIOL_COUNT plane stop) + 1) 0xFFFF_FFFF := by
  rw [State.offer, if_neg h]
  exact ⟨rfl, State.rd_sat_one s (f := R.MESH_PLANE_VIOL_COUNT plane stop) (by decide : 0 + 32 ≤ 64)⟩

end

/-- Settles O12: COPY and SCALE_LOAD run, an XFER is handed to the mesh, SYNC is done at once. -/
theorem tileMovesComplete : Obligations.TileMovesComplete := by
  intro s site q cyc j i h
  refine ⟨fun hop hpass hturn => ?copy, fun hop hpass hturn => ?scale, fun out c hc hop hdir hpass => ?xfer, fun hop hpass => ?sync⟩
  case copy =>
    obtain ⟨hissued, hmem, hacc, hrd⟩ := State.issue_runs (mine := fun e => e.opcode == 0x09)
      (plan := fun s q j i => if i.e.opcode = 0x09 then some (s.copyPlan site q cyc j i) else none) h (by simp [hop])
      (if_pos hop) hpass rfl hturn rfl
    exact ⟨_, _, h.onUnit _, hissued, rfl, rfl, rfl, hmem, hacc, hrd⟩
  case scale =>
    obtain ⟨hissued, hmem, hacc, hrd⟩ := State.issue_runs (mine := fun e => e.opcode == 0x04)
      (plan := fun s q j i => s.quantiserPlan site q cyc j i) h (by simp [hop]) (by simp [State.quantiserPlan, hop]) hpass rfl
      hturn rfl
    exact ⟨_, _, h.onUnit _, hissued, rfl, rfl, rfl, rfl, rfl, hmem, hacc, hrd⟩
  case xfer =>
    intro plane
    obtain ⟨hxfers, hmem, hacc, hdone, hqueue, hrd⟩ := State.xfer_shows (out := out) h hop rfl
    have hissue : s.xfer site q cyc out = s.started site q cyc i (s.xferPlan site q out j i) := by
      refine State.issue_started h ?_ rfl hpass fun _ hnone => by cases hnone
      cases out <;> simp_all
    have hexec : exec c s = .next (s.started site q cyc i (s.xferPlan site q out j i)) := by
      rw [← hissue]
      simp only [List.mem_cons, Prod.mk.injEq, List.not_mem_nil, or_false] at hc
      obtain ⟨rfl, rfl⟩ | ⟨rfl, rfl⟩ := hc <;> exact h.onUnit _
    refine ⟨_, _, hexec, hxfers, rfl, rfl, rfl, rfl, rfl, rfl, rfl, hmem, hacc, hdone, hqueue, State.offer_enabled, fun hoff => ?_⟩
    obtain ⟨hnone, hcount⟩ := State.offer_dropped hoff
    refine ⟨hnone, (hrd _ ?_ ?_).trans hcount⟩ <;>
      (have := h.site_lt
       have := h.2.1
       simp only [R.MESH_PLANE_VIOL_COUNT, R.TILE_CMDQ_STATUS_STATE, R.TILE_CMDQ_DONE_DONE]; omega)
  case sync =>
    have hissue : s.issue site q cyc (fun e => e.opcode == 0x0C) (fun _ _ j i => some (syncPlan j i)) =
        s.started site q cyc i (syncPlan j i) :=
      State.issue_started h (by simp [hop]) rfl hpass fun _ hnone => by cases hnone
    refine ⟨(h.onUnit _).trans (congrArg _ hissue), ?_⟩
    have hsig : ({ i.e.signal with enable := i.e.signal.enable && i.e.opcode == 0x0C } : Signal) = i.e.signal := by simp [hop]
    rw [State.started_done rfl h.2.2.2.1, hsig]
    rfl

end Sys2Proof.Machine
end

section
/-! PROOFS. VEC, SFU, SOFTMAX, NORM and QUANT (R104 to R113, R159, R213 to R231). -/

namespace Sys2Proof.Machine

section
variable {s : State} {site q cyc : Nat} {j : TileJob} {i : Inst}

/-! The plans -/

/-- A special function writes one row for each row it reads (R216). -/
theorem State.sfuPlan_run {fn : Nat} (hfn : fn ≠ 0x0A) : ∃ r, (s.sfuPlan site q cyc fn j i).run = some r ∧ r.unit = .sfu ∧
    r.outs = (List.range (i.e.fld 0x24 0 16 + 1)).map fun row =>
      [⟨(i.slot 1).toNat + 32 * i.e.fld 0x28 16 16 * row, packCodes (i.e.fld 0x20 12 4)
        ((List.range (i.e.fld 0x24 16 16 + 1)).map fun k => fromF32 (i.e.fld 0x20 12 4) (sfuEval j.compat fn
          (let z := toF32 (i.e.fld 0x20 8 4) (s.elem site ((i.slot 0).toNat + 32 * i.e.fld 0x28 0 16 * row) (i.e.fld 0x20 8 4) k)
          if i.e.fld 0x20 16 1 = 1 then f32Mul z (i.e.fld 0x2C 0 32) else z)))⟩] := by
  have hsoft : (fn == 0x0A) = false := by simpa using hfn
  refine ⟨_, rfl, rfl, List.map_congr_left fun row _ => ?_⟩
  simp only [hsoft, List.map_map, Function.comp_def, beq_iff_eq, Bool.false_eq_true, if_false]

/-- A SOFTMAX without scaling and without statistics writes one row for each row it reads (R220). -/
theorem State.softmaxPlan_run (hpre : i.e.fld 0x20 16 1 = 0) (hstat : i.e.fld 0x20 17 1 = 0) :
    ∃ r, (s.sfuPlan site q cyc 0x0A j i).run = some r ∧ r.unit = .sfu ∧
    r.outs = (List.range (i.e.fld 0x24 0 16 + 1)).map fun row =>
      [⟨(i.slot 1).toNat + 32 * i.e.fld 0x28 16 16 * row, packCodes (i.e.fld 0x20 12 4)
        ((softmaxRow j.compat ((List.range (i.e.fld 0x24 16 16 + 1)).map fun k => toF32 (i.e.fld 0x20 8 4)
          (s.elem site ((i.slot 0).toNat + 32 * i.e.fld 0x28 0 16 * row) (i.e.fld 0x20 8 4) k))).1.map
            (fromF32 (i.e.fld 0x20 12 4)))⟩] := by
  refine ⟨_, rfl, rfl, List.map_congr_left fun row _ => ?_⟩
  simp only [hpre, hstat]
  rfl

/-- What a QUANT writes: its rows, then its record where it keeps statistics (R111, R158). -/
theorem State.quantPlan_run : ∃ r, (s.quantPlan site q cyc j i).run = some r ∧ r.unit = .quant ∧
    r.outs.take i.quant.rows = (List.range i.quant.rows).map (fun k =>
      [⟨i.quant.dst.toNat + 32 * i.quant.dstStride * k, packCodes i.quant.dstFmt
        ((List.range i.quant.cols).map fun c => (s.quantOut site i.quant k c).1)⟩]) ∧
    (i.quant.statsEn = true → r.record = s.quantStats site i.quant ∧
      r.outs.drop i.quant.rows = [[⟨i.quant.stats.toNat, s.quantStats site i.quant⟩]]) ∧
    (i.quant.statsEn = false → r.record = [] ∧ r.outs.length = i.quant.rows) := by
  refine ⟨_, rfl, rfl, List.take_left' (by simp), fun hen => ?_, fun hen => ?_⟩
  · simp only [hen, if_true]
    exact ⟨trivial, List.drop_left' (by simp)⟩
  · simp [hen, Inst.onUnit]

end

/-- Settles O13: each command's plan names its results, and issuing it changes nothing else. -/
theorem vectorAndFunctionCommandsComplete : Obligations.VectorAndFunctionCommandsComplete := by
  refine ⟨fun s site q cyc op c j i h hc hop hfn hpass hturn => ?vec, fun s site q cyc j i h =>
    ⟨fun fn c hc hop hfn hpass hturn => ?sfu, fun hop hfn hpre hstat hpass hturn => ?softmax, fun hop hpass hturn => ?norm,
      fun hop hpass hturn => ?quant⟩⟩
  case vec =>
    intro el
    obtain ⟨hissued, hmem, hacc, hrd⟩ := State.issue_runs (mine := fun e => e.opcode == 0x06 && (e.fld 0x20 0 4 == op || 9 < e.fld 0x20 0 4))
      (plan := fun s q j i => s.vectorPlan site q cyc j i) h (by simp [hop, hfn]) (by simp [State.vectorPlan, hop, hfn]) hpass rfl
      hturn rfl
    have hexec : exec c s = .next (s.vec site q cyc op) := by
      simp only [List.mem_cons, Prod.mk.injEq, List.not_mem_nil, or_false] at hc
      rcases hc with ⟨rfl, rfl⟩ | ⟨rfl, rfl⟩ | ⟨rfl, rfl⟩ | ⟨rfl, rfl⟩ | ⟨rfl, rfl⟩ | ⟨rfl, rfl⟩ | ⟨rfl, rfl⟩ | ⟨rfl, rfl⟩ |
        ⟨rfl, rfl⟩ | ⟨rfl, rfl⟩ <;> exact h.onUnit _
    exact ⟨_, _, hexec, hissued, rfl, rfl, rfl, hmem, hacc, hrd⟩
  case sfu =>
    intro fi x
    have hne : fn ≠ 0x0A := by
      simp only [List.mem_cons, Prod.mk.injEq, List.not_mem_nil, or_false] at hc
      omega
    obtain ⟨r, hrun, hunit, houts⟩ := State.sfuPlan_run (s := s) (site := site) (q := q) (cyc := cyc) (j := j) (i := i) hne
    obtain ⟨hissued, hmem, hacc, -⟩ := State.issue_runs_regs (mine := fun e => e.opcode == 0x07 && (e.fld 0x20 0 5 == fn || 0x0A < e.fld 0x20 0 5))
      (plan := fun s q j i => if i.e.opcode = 0x07 then some (s.sfuPlan site q cyc (i.e.fld 0x20 0 5) j i) else none) h
      (by simp [hop, hfn]) (by simp only [hop, hfn, if_true]) hpass hrun (hunit ▸ hturn) (s.regsOnly_wrs _)
    have hexec : exec c s = .next (s.sfu site q cyc fn) := by
      simp only [List.mem_cons, Prod.mk.injEq, List.not_mem_nil, or_false] at hc
      rcases hc with ⟨rfl, rfl⟩ | ⟨rfl, rfl⟩ | ⟨rfl, rfl⟩ | ⟨rfl, rfl⟩ | ⟨rfl, rfl⟩ | ⟨rfl, rfl⟩ | ⟨rfl, rfl⟩ | ⟨rfl, rfl⟩ |
        ⟨rfl, rfl⟩ | ⟨rfl, rfl⟩ <;> exact h.onUnit _
    exact ⟨_, r, hexec, hissued, hunit, hmem, hacc, houts⟩
  case softmax =>
    obtain ⟨r, hrun, hunit, houts⟩ := State.softmaxPlan_run (s := s) (site := site) (q := q) (cyc := cyc) (j := j) hpre hstat
    obtain ⟨hissued, hmem, hacc, -⟩ := State.issue_runs_regs (mine := fun e => e.opcode == 0x07 && (e.fld 0x20 0 5 == 0x0A || 0x0A < e.fld 0x20 0 5))
      (plan := fun s q j i => if i.e.opcode = 0x07 then some (s.sfuPlan site q cyc (i.e.fld 0x20 0 5) j i) else none) h
      (by simp [hop, hfn]) (by simp only [hop, hfn, if_true]) hpass hrun (hunit ▸ hturn) (s.regsOnly_wrs _)
    exact ⟨_, r, h.onUnit _, hissued, hunit, hmem, hacc, houts⟩
  case norm =>
    obtain ⟨hissued, hmem, hacc, hrd⟩ := State.issue_runs_regs (A := AnyReg) (mine := fun e => e.opcode == 0x08)
      (plan := fun s q j i => s.vectorPlan site q cyc j i) h (by simp [hop]) (by simp [State.vectorPlan, hop]) hpass rfl
      hturn ((RegsOnly.refl _ s).flag trivial)
    refine ⟨_, _, h.onUnit _, hissued, rfl, rfl, hmem, hacc, (hrd _ ?_).trans ?_⟩
    · have := h.2.1
      simp only [R.TILE_SFU_STATUS_NORM_BUSY, R.TILE_CMDQ_STATUS_STATE]; omega
    · exact State.rd_wr_fits _ (by decide : 1 + 1 ≤ 64) (by decide : 1 < 2 ^ 1)
  case quant =>
    obtain ⟨r, hrun, hunit, hrows, hstats, hnone⟩ := State.quantPlan_run (s := s) (site := site) (q := q) (cyc := cyc) (j := j) (i := i)
    obtain ⟨hissued, hmem, hacc, hrd⟩ := State.issue_runs (mine := fun e => e.opcode == 0x05)
      (plan := fun s q j i => s.quantiserPlan site q cyc j i) h (by simp [hop]) (by simp [State.quantiserPlan, hop]) hpass hrun
      (hunit ▸ hturn) rfl
    exact ⟨_, r, h.onUnit _, hissued, hunit, hrows, hstats, hnone, hmem, hacc, hrd⟩

end Sys2Proof.Machine
end

section
/-! PROOFS. MATMUL, ACC_READ, ACC_LOAD and SEAM (R115 to R132, R155, R156, R184 to R203). -/

namespace Sys2Proof.Machine

/-- A tile on which the same commands run, the same queues stand, and which has failed alike. -/
structure TileState.SameWork (x y : TileState) : Prop where
  running : y.running = x.running
  fail : y.fail = x.fail
  q0 : y.q0 = x.q0
  q1 : y.q1 = x.q1
  q2 : y.q2 = x.q2
  q3 : y.q3 = x.q3

theorem TileState.SameWork.queue {x y : TileState} (h : x.SameWork y) (q : Nat) : y.queue q = x.queue q := by
  match q with
  | 0 => exact h.q0
  | 1 => exact h.q1
  | 2 => exact h.q2
  | _ + 3 => exact h.q3

/-- Memory and accumulators as before, and the same work on every tile. -/
structure SameWork (s t : State) : Prop where
  mem : t.mem = s.mem
  acc : t.acc = s.acc
  tile : ∀ k, (s.tile k).SameWork (t.tile k)

section
variable {s t u : State} {site q cyc : Nat}

theorem TileState.SameWork.refl (x : TileState) : x.SameWork x := ⟨rfl, rfl, rfl, rfl, rfl, rfl⟩

theorem TileState.SameWork.trans {x y z : TileState} (h : x.SameWork y) (k : y.SameWork z) : x.SameWork z :=
  ⟨k.running.trans h.running, k.fail.trans h.fail, k.q0.trans h.q0, k.q1.trans h.q1, k.q2.trans h.q2, k.q3.trans h.q3⟩

theorem SameWork.refl (s : State) : SameWork s s := ⟨rfl, rfl, fun _ => .refl _⟩

theorem SameWork.trans (h : SameWork s t) (k : SameWork t u) : SameWork s u where
  mem := k.mem.trans h.mem
  acc := k.acc.trans h.acc
  tile n := (h.tile n).trans (k.tile n)

theorem RegsOnly.sameWork {A : Nat → Prop} (h : RegsOnly A s t) : SameWork s t :=
  ⟨h.mem, h.acc, fun k => h.tile k ▸ .refl _⟩

theorem SameWork.setTile (h : SameWork s t) {x : TileState} (hx : (t.tile site).SameWork x) : SameWork s (t.setTile site x) := by
  refine h.trans ⟨rfl, rfl, fun k => ?_⟩
  by_cases hk : k = site
  · subst hk
    rwa [State.setTile_tile_same]
  · rw [State.setTile_tile_ne _ _ hk]
    exact .refl _

theorem SameWork.iff {g : State → State} {b : Bool} (h : SameWork s t) (hg : ∀ u, SameWork u (g u)) : SameWork s (t.iff b g) := by
  cases b
  · exact h
  · exact h.trans (hg t)

theorem SameWork.regs (h : SameWork s t) (k : RegsOnly AnyReg t u) : SameWork s u := h.trans k.sameWork

theorem SameWork.queue (h : SameWork s t) (site q : Nat) : t.queue site q = s.queue site q := (h.tile site).queue q

/-! What the array does at issue -/

theorem State.sameWork_dummyRows (s : State) (site n : Nat) : SameWork s (s.dummyRows site n) := by
  refine SameWork.regs (SameWork.setTile (.refl s) ?_) ((RegsOnly.refl _ _).bump trivial _)
  exact ⟨rfl, rfl, rfl, rfl, rfl, rfl⟩

theorem State.sameWork_tallyGap (s : State) (site upto : Nat) : SameWork s (s.tallyGap site upto) := by
  unfold State.tallyGap
  dsimp only
  split
  · exact .refl s
  · refine SameWork.trans (SameWork.setTile (.refl s) ?_) (State.sameWork_dummyRows _ site _)
    exact ⟨rfl, rfl, rfl, rfl, rfl, rfl⟩

theorem State.sameWork_beginRows (s : State) (site : Nat) (r : RowRun) : SameWork s (s.beginRows site r) := by
  refine SameWork.regs (SameWork.setTile (s.sameWork_tallyGap site r.first) ?_) ((RegsOnly.refl _ _).wr trivial _)
  exact ⟨rfl, rfl, rfl, rfl, rfl, rfl⟩

theorem State.sameWork_fillBanks (s : State) (site : Nat) (o : MatOp) (k : Nat) : SameWork s (s.fillBanks site o k) := by
  unfold State.fillBanks
  dsimp only
  refine SameWork.iff (SameWork.setTile (.refl s) ?_) fun u => SameWork.regs (.refl u) ((RegsOnly.refl _ u).wr trivial _)
  split <;> exact ⟨rfl, rfl, rfl, rfl, rfl, rfl⟩

/-- A captured sample is listed, counted and nothing else (R627). -/
theorem State.sameWork_capture (s : State) (site : Nat) (e : QEntry) (seam compat : Bool) (inputs : List Byte) (rows : List Nat) :
    SameWork s (s.capture site e seam compat inputs rows) := by
  unfold State.capture
  split
  · exact .refl s
  split
  · exact SameWork.regs (.refl s) ((RegsOnly.refl _ s).sat trivial _)
  · exact ⟨rfl, rfl, fun _ => .refl _⟩

theorem State.rd_capture (s : State) (site : Nat) (e : QEntry) (seam compat : Bool) (inputs : List Byte) (rows : List Nat) {f : Fld}
    (h₁ : f.addr ≠ R.ASSAY_DROPPED_COUNT.addr) (h₂ : f.addr ≠ R.ASSAY_SAMPLED_COUNT.addr) (h₃ : f.addr ≠ R.ASSAY_STATUS_PENDING.addr) :
    (s.capture site e seam compat inputs rows).rd f = s.rd f := by
  unfold State.capture
  split
  · rfl
  split
  · exact s.rd_wr_addr _ f _ h₁
  · dsimp only
    rw [State.rd_wr_addr _ _ f _ h₃, State.sat, State.rd_wr_addr _ _ f _ h₂]
    rfl

/-- The results of a MATMUL go to the accumulator file and nowhere else. -/
theorem State.putMat_keeps (s : State) (site : Nat) (o : MatOp) (l : List Nat) :
    (s.putMat site o l).mem = s.mem ∧ (s.putMat site o l).tiles = s.tiles :=
  ⟨State.each_keeps (·.mem) fun _ _ _ => rfl, State.each_keeps (·.tiles) fun _ _ _ => rfl⟩

/-! The commands of the array and its port -/

section
variable {j : TileJob} {i : Inst}

/-- What MATMUL does at issue: its results, and the array runs (R122, R129). -/
theorem State.matmulPlan_effect {par : Nat} {sampled : Bool} {E : State}
    (hE : E = (s.matmulPlan site q cyc par sampled j i).effect s) :
    E.acc = (s.putMat site i.mat (s.matAll site j.compat
      (i.mat.start == 1 || (i.mat.start == 2 && firstPass (s.queue site q).frames)) i.mat)).acc ∧
    E.mem = s.mem ∧ (∀ k, (s.tile k).SameWork (E.tile k)) ∧ E.rd (R.TILE_ARRAY_STATUS_STATE site) = 3 := by
  generalize hl : s.matAll site j.compat (i.mat.start == 1 || (i.mat.start == 2 && firstPass (s.queue site q).frames)) i.mat = l
  obtain ⟨hmem, htiles⟩ := s.putMat_keeps site i.mat l
  obtain ⟨P, hP⟩ : ∃ P, P = s.putMat site i.mat l := ⟨_, rfl⟩
  obtain ⟨B, hB⟩ : ∃ B, B = (P.fillBanks site i.mat (s.nextStat site)).beginRows site (i.mat.run j.compat (cyc + i.mat.fill)) := ⟨_, rfl⟩
  have hbanks : SameWork P B := hB ▸ (P.sameWork_fillBanks site i.mat _).trans (State.sameWork_beginRows _ site _)
  have hstate : B.rd (R.TILE_ARRAY_STATUS_STATE site) = 3 := hB ▸ State.rd_wr_fits _ (by decide : 0 + 3 ≤ 64) (by decide : 3 < 2 ^ 3)
  have hEB : ∃ b inputs, E = B.iff b fun u => u.capture site i.e false j.compat inputs l := by
    subst hE hB hP hl
    exact ⟨_, _, rfl⟩
  obtain ⟨b, inputs, rfl⟩ := hEB
  have hwork : SameWork P (B.iff b fun u => u.capture site i.e false j.compat inputs l) :=
    hbanks.iff fun u => u.sameWork_capture site i.e false j.compat inputs l
  refine ⟨hP ▸ hwork.acc, hwork.mem.trans (hP ▸ hmem), fun k => ?_, ?_⟩
  · have htile : P.tile k = s.tile k := by rw [State.tile, State.tile, hP, htiles]
    exact htile ▸ hwork.tile k
  · cases b
    · exact hstate
    · refine (State.rd_capture _ _ _ _ _ _ _ ?_ ?_ ?_).trans hstate <;>
        simp only [R.TILE_ARRAY_STATUS_STATE, R.ASSAY_DROPPED_COUNT, R.ASSAY_SAMPLED_COUNT, R.ASSAY_STATUS_PENDING] <;> omega

theorem State.accAt_setAcc_same (s : State) (site row col v : Nat) : (s.setAcc site row col v).accAt site row col = v % 2 ^ 32 := by
  rw [State.accAt, State.setAcc, tblGet_set_same, BitVec.toNat_ofNat]

theorem State.accAt_setAcc_ne (s : State) (site v : Nat) {row col row' col' : Nat} (hcol : col < 128) (hcol' : col' < 128)
    (h : ¬ (row = row' ∧ col = col')) : (s.setAcc site row' col' v).accAt site row col = s.accAt site row col := by
  rw [State.accAt, State.setAcc, tblGet_set_ne _ _ _ _ (by simp only [accKey]; omega), State.accAt]

/-- Accumulators written one element after the other, row by row, read back: none of them is written twice. -/
theorem State.accAt_setAccs {f : State → Nat → State} {g : Nat → Nat → Nat} {row n : Nat} (hn : n ≤ 128)
    (hf : ∀ t k, t.mem = s.mem → f t k = t.setAcc site (row + k / n) (k % n) (g (k / n) (k % n))) (m : Nat) :
    (s.each (List.range m) f).mem = s.mem ∧
      ∀ r c, c < n → r * n + c < m → (s.each (List.range m) f).accAt site (row + r) c = g r c % 2 ^ 32 := by
  induction m with
  | zero => exact ⟨rfl, fun r c _ h => absurd h (Nat.not_lt_zero _)⟩
  | succ m ih =>
    obtain ⟨hmem, hacc⟩ := ih
    have hlast : s.each (List.range (m + 1)) f =
        (s.each (List.range m) f).setAcc site (row + m / n) (m % n) (g (m / n) (m % n)) := by
      rw [← hf _ _ hmem, State.each, List.range_succ, List.foldl_append]
      rfl
    rw [hlast]
    refine ⟨hmem, fun r c hc hlt => ?_⟩
    have hmod : m % n < n := Nat.mod_lt _ (by omega)
    by_cases hm : r * n + c = m
    · have hdiv : m / n = r := by rw [← hm, Nat.mul_comm, Nat.mul_add_div (by omega), Nat.div_eq_of_lt hc, Nat.add_zero]
      have hrem : m % n = c := by rw [← hm, Nat.mul_comm, Nat.mul_add_mod, Nat.mod_eq_of_lt hc]
      rw [hdiv, hrem, State.accAt_setAcc_same]
    · rw [State.accAt_setAcc_ne _ _ _ (by omega) (by omega), hacc r c hc (by omega)]
      rintro ⟨hrow, rfl⟩
      have hr : r = m / n := by omega
      exact hm (by rw [hr, Nat.mul_comm]; exact Nat.div_add_mod m n)

/-- What a command is as it starts to run does not show in anything but registers and tiles. -/
theorem State.started_keeps {β : Type} {p : Plan} {c : RunCmd} (g : State → β) (hregs : ∀ (u : State) r, g { u with regs := r } = g u)
    (htiles : ∀ (u : State) r, g { u with tiles := r } = g u) (hrun : p.run = some c) (hfail : ((p.effect s).tile site).fail = none) :
    g (s.started site q cyc i p) = g (p.effect s) := by
  rw [State.started_run hrun hfail, State.takeHead_of_fail hfail]
  refine (htiles _ _).trans ?_
  rw [(State.regsOnly_showWait _ site q).keeps g hregs]
  exact htiles _ _

/-! SEAM -/

/-- A touch marks homes and what the host has cached, and leaves pins, vaults and tiles (R189). -/
theorem State.touch_keeps (s : State) (x va n : Nat) :
    (s.touch x va n).mm.pins = s.mm.pins ∧ (s.touch x va n).vaults = s.vaults ∧ SameWork s (s.touch x va n) := by
  have hstep (t : State) (k : Nat) {β : Type} (g : State → β) (hhost : ∀ (u : State) r, g { u with host := r } = g u)
      (hhome : ∀ (u : State) k h, g (u.setHome x k h) = g u) :
      g (if 2 ^ 35 ≤ k then t.cacheHost x k else if (t.home x k).state == .unmapped then t
        else t.setHome x k { t.home x k with touched := t.now }) = g t := by
    split
    · unfold State.cacheHost
      split
      · rfl
      · exact hhost _ _
    split
    · rfl
    · exact hhome _ _ _
  refine ⟨State.each_keeps (·.mm.pins) fun t k _ => hstep t k (·.mm.pins) (fun _ _ => rfl) fun _ _ _ => rfl,
    State.each_keeps (·.vaults) fun t k _ => hstep t k (·.vaults) (fun _ _ => rfl) fun _ _ _ => rfl,
    State.each_keeps (·.mem) fun t k _ => hstep t k (·.mem) (fun _ _ => rfl) fun _ _ _ => rfl,
    State.each_keeps (·.acc) fun t k _ => hstep t k (·.acc) (fun _ _ => rfl) fun _ _ _ => rfl, fun k => ?_⟩
  have htiles : (s.touch x va n).tiles = s.tiles :=
    State.each_keeps (·.tiles) fun t k _ => hstep t k (·.tiles) (fun _ _ => rfl) fun _ _ _ => rfl
  rw [State.tile, State.tile, htiles]
  exact .refl _

theorem State.capture_keeps (s : State) (site : Nat) (e : QEntry) (seam compat : Bool) (inputs : List Byte) (rows : List Nat) :
    (s.capture site e seam compat inputs rows).mm = s.mm ∧ (s.capture site e seam compat inputs rows).vaults = s.vaults := by
  unfold State.capture
  split
  · exact ⟨rfl, rfl⟩
  split <;> exact ⟨rfl, rfl⟩

/-- What a SEAM does at issue: it holds a buffer of its engine and pins its weights (R192, R195). -/
theorem State.seamPlan_effect {yields : Nat} {sampled : Bool} {E : State} {v : Nat} (hv : v = s.seamVault site i.seam.sel - 1)
    (hE : E = (s.seamPlan site q cyc yields sampled j i).effect s) :
    SameWork s E ∧ (E.vault v).held = (s.vault v).held ++ [site] ∧
      E.mm.pins = s.mm.pins ++ (slabsOf i.seam.wbase.toNat i.seam.region).map fun k => (j.holder, k) := by
  obtain ⟨T, hT⟩ : ∃ T, T = s.touch j.holder i.seam.wbase.toNat i.seam.region := ⟨_, rfl⟩
  obtain ⟨hpins, hvaults, hwork⟩ := s.touch_keeps j.holder i.seam.wbase.toNat i.seam.region
  rw [← hT] at hpins hvaults hwork
  obtain ⟨H, hH⟩ : ∃ H, H = ({ T with mm := { T.mm with
      pins := T.mm.pins ++ (slabsOf i.seam.wbase.toNat i.seam.region).map fun k => (j.holder, k) } } : State).setVault v
        { T.vault v with held := (T.vault v).held ++ [site] } := ⟨_, rfl⟩
  obtain ⟨W, hW⟩ : ∃ W, W = H.wrs [(R.VAULT_SEAM_STATUS_QUEUED v, (H.vault v).held.length), (R.VAULT_SEAM_STATUS_STATE v,
    if (H.vault v).held.length = 1 then 2 else H.rd (R.VAULT_SEAM_STATUS_STATE v))] := ⟨_, rfl⟩
  have hEW : ∃ b inputs rows, E = W.iff b fun u => u.capture site i.e true j.compat inputs rows := by
    subst hE hW hH hT hv
    exact ⟨_, _, _, rfl⟩
  obtain ⟨b, inputs, rows, rfl⟩ := hEW
  have hregs : RegsOnly AnyReg H W := hW ▸ H.regsOnly_wrs _
  have hHwork : SameWork s H := hH ▸ hwork.trans ⟨rfl, rfl, fun _ => .refl _⟩
  have hkeep : (W.iff b fun u => u.capture site i.e true j.compat inputs rows).mm = W.mm ∧
      (W.iff b fun u => u.capture site i.e true j.compat inputs rows).vaults = W.vaults := by
    cases b
    · exact ⟨rfl, rfl⟩
    · exact W.capture_keeps site i.e true j.compat inputs rows
  refine ⟨(hHwork.regs hregs).iff fun u => u.sameWork_capture site i.e true j.compat inputs rows, ?_, ?_⟩
  · rw [State.vault, hkeep.2, hregs.keeps (·.vaults) fun _ _ => rfl, hH]
    change (State.vault (State.setVault _ _ _) v).held = _
    rw [State.setVault_vault_same, State.vault, hvaults]
    rfl
  · rw [hkeep.1, hregs.keeps (·.mm) fun _ _ => rfl, hH]
    exact congrArg (· ++ _) hpins

end
end

/-- Settles O14: what each plan does at issue, and the record its command runs as. -/
theorem arrayAndSeamCommandsComplete : Obligations.ArrayAndSeamCommandsComplete := by
  refine ⟨fun s site q cyc par sampled j i h => ⟨fun hop hpass hturn => ?matmul, fun hop hpass hturn => ?read, fun hop hpass hturn => ?load⟩,
    fun s site q cyc yields sampled j i h hop hpass hgood => ?seam⟩
  case matmul =>
    obtain ⟨E, hE⟩ : ∃ E, E = (s.matmulPlan site q cyc par sampled j i).effect s := ⟨_, rfl⟩
    obtain ⟨hacc, hmem, hwork, hstate⟩ := State.matmulPlan_effect hE
    have hfail : (((s.matmulPlan site q cyc par sampled j i).effect s).tile site).fail = none := by
      rw [← hE, (hwork site).fail]; exact h.2.2.2.1
    have hissue := State.issue_started (mine := fun e => e.opcode == 0x01) (plan := fun s q j i => if i.e.opcode = 0x01 then
      some (s.matmulPlan site q cyc par sampled j i) else none) h (by simp [hop]) (if_pos hop) hpass fun c hc => by cases hc; exact hturn
    obtain ⟨hmem', hacc', hrd, hrunning, hqueue, -, -⟩ := State.started_shows (q := q) (cyc := cyc) (i := i) rfl hfail
    rw [← hE] at hmem' hacc' hrd hrunning hqueue
    refine ⟨_, _, (h.onUnit _).trans (congrArg _ hissue), hacc'.trans hacc, hmem'.trans hmem, (hrd _ ?_).trans hstate,
      hqueue.trans (congrArg (·.take cyc) ((hwork site).queue q)), hrunning.trans (congrArg (· ++ _) (hwork site).running), rfl, rfl, rfl, rfl⟩
    have := h.2.1
    simp only [R.TILE_ARRAY_STATUS_STATE, R.TILE_CMDQ_STATUS_STATE]; omega
  case read =>
    obtain ⟨hissued, hmem, hacc, -⟩ := State.issue_runs (p := (s.accReadPlan site q cyc j i).meets par) (mine := fun e => e.opcode == 0x02)
      (plan := fun s q j i => s.portPlan site q cyc par j i) h (by simp [hop]) (by simp [State.portPlan, hop]) hpass rfl hturn rfl
    exact ⟨_, _, h.onUnit _, hissued, rfl, rfl, rfl, rfl, hmem, hacc⟩
  case load =>
    have hn : i.e.fld 0x20 8 7 + 1 ≤ 128 := Nat.mod_lt _ (by decide)
    obtain ⟨E, hE⟩ : ∃ E, E = (s.accLoadPlan site q cyc j i).effect s := ⟨_, rfl⟩
    have htiles : E.tiles = s.tiles := by
      rw [hE]
      exact State.each_keeps (·.tiles) fun _ _ _ => rfl
    obtain ⟨hmem, hacc⟩ := State.accAt_setAccs (s := s) (site := site) (row := (i.slot 2).toNat)
      (g := fun r c => f32Canon (s.elem site (i.accRows.getD r ⟨0, 0⟩).addr 6 c)) (f := fun t k =>
        t.setAcc site ((i.slot 2).toNat + k / (i.e.fld 0x20 8 7 + 1)) (k % (i.e.fld 0x20 8 7 + 1))
          (f32Canon (t.elem site (i.accRows.getD (k / (i.e.fld 0x20 8 7 + 1)) ⟨0, 0⟩).addr 6 (k % (i.e.fld 0x20 8 7 + 1))))) hn
      (fun t k hk => by simp only [State.elem, State.byte, hk]) (i.accRows.length * (i.e.fld 0x20 8 7 + 1))
    have hfail : (((s.accLoadPlan site q cyc j i).effect s).tile site).fail = none := by
      rw [← hE, State.tile, htiles]; exact h.2.2.2.1
    have hissue := State.issue_started (mine := fun e => e.opcode == 0x03) (plan := fun s q j i => s.portPlan site q cyc 0 j i) h
      (by simp [hop]) (by simp [State.portPlan, hop]) hpass fun c hc => by cases hc; exact hturn
    obtain ⟨hmem', hacc', -, -, hqueue, -, -⟩ := State.started_shows (q := q) (cyc := cyc) (i := i) rfl hfail
    refine ⟨_, (h.onUnit _).trans (congrArg _ hissue), fun r c hr hc => ?_, hmem'.trans hmem, hqueue.trans ?_⟩
    · rw [State.accAt, hacc', ← State.accAt]
      refine hacc r c hc ?_
      calc r * (i.e.fld 0x20 8 7 + 1) + c < r * (i.e.fld 0x20 8 7 + 1) + (i.e.fld 0x20 8 7 + 1) := Nat.add_lt_add_left hc _
        _ = (r + 1) * (i.e.fld 0x20 8 7 + 1) := (Nat.succ_mul _ _).symm
        _ ≤ _ := Nat.mul_le_mul_right _ hr
    · rw [← hE, State.queue, State.tile, htiles]
      rfl
  case seam =>
    obtain ⟨E, hE⟩ : ∃ E, E = (s.seamPlan site q cyc yields sampled j i).effect s := ⟨_, rfl⟩
    obtain ⟨hwork, hheld, hpins⟩ := State.seamPlan_effect rfl hE
    have hfail : (((s.seamPlan site q cyc yields sampled j i).effect s).tile site).fail = none := by
      rw [← hE, (hwork.tile site).fail]; exact h.2.2.2.1
    have hissue := State.issue_started (mine := fun e => e.opcode == 0x0B) (plan := fun s q j i => some (s.seamPlan site q cyc yields sampled j i)) h
      (by simp [hop]) rfl hpass fun c hc => by cases hc; rfl
    obtain ⟨hmem', hacc', -, hrunning, hqueue, -, -⟩ := State.started_shows (q := q) (cyc := cyc) (i := i) rfl hfail
    have hvault := State.started_keeps (q := q) (cyc := cyc) (i := i) (·.vaults) (fun _ _ => rfl) (fun _ _ => rfl) rfl hfail
    have hmm := State.started_keeps (q := q) (cyc := cyc) (i := i) (·.mm) (fun _ _ => rfl) (fun _ _ => rfl) rfl hfail
    rw [← hE] at hmem' hacc' hrunning hqueue hvault hmm
    refine ⟨_, _, (h.onUnit _).trans (congrArg _ hissue), rfl, ?_, hrunning.trans (congrArg (· ++ _) (hwork.tile site).running), ?_,
      hmem'.trans hwork.mem, hacc'.trans hwork.acc, ?_, ?_, hqueue.trans (congrArg (·.take cyc) (hwork.queue site q))⟩
    · simp only [hgood]; rfl
    · simp only [hgood]; rfl
    · rw [State.vault, hvault]; exact hheld
    · rw [hmm]; exact hpins

end Sys2Proof.Machine
end

section
/-! PROOFS. LOOP, STOP, BANKS and the events of a tile (R131 to R134, R147, R150, R162 to R168, R176, R232). -/

namespace Sys2Proof.Machine

section
variable {s : State} {site q cyc : Nat}

/-! LOOP and STOP -/

section
variable {j : TileJob} {i : Inst}

theorem State.headReady.inst (h : s.headReady site q cyc j i) : (s.queue site q).inst = some i ∧ s.mayIssue site q cyc = true := by
  obtain ⟨-, -, -, hfail, hready, -⟩ := h
  obtain ⟨hinst, hmay⟩ := Option.filter_eq_some_iff.1 hready
  rw [State.queueIn_of_fail hfail] at hinst
  simp only [Bool.and_eq_true] at hmay
  exact ⟨hinst, hmay.1.1⟩

theorem State.setQueue_queue (s : State) (site q : Nat) (c : CmdQueue) : (s.setQueue site q c).queue site q = c := by
  rw [State.queue, State.setQueue, State.setTile_tile_same, TileState.queue_setQueue]

theorem State.exec_loopBody (h : s.headReady site q cyc j i) (hheader : i.e.headerBad = false) (hbare : i.e.bareBad = false)
    (hop : i.e.opcode = 0x0D) (hlen : i.e.fld 0x10 16 6 ≠ 0) (hframes : (s.queue site q).frames = [])
    (hclear : i.e.clearBut [(0x10, 0, 22), (0x14, 0, 24), (0x18, 0, 24), (0x1C, 0, 24), (0x20, 0, 24), (0x24, 0, 16)] = true) :
    exec (.loopBody site q cyc) s = .next ((s.setQueue site q ((s.queue site q).openLoop fun b => ⟨b, i.e.fld 0x10 16 6,
      i.e.fld 0x10 0 16 + 1, 0, signedOf 24 (i.e.fld 0x14 0 24), signedOf 24 (i.e.fld 0x18 0 24), signedOf 24 (i.e.fld 0x1C 0 24),
      signedOf 24 (i.e.fld 0x20 0 24), signedOf 16 (i.e.fld 0x24 0 16)⟩)).showWait site q) := by
  obtain ⟨hinst, hmay⟩ := h.inst
  have hlisted := h.2.2.2.2.2
  refine Eq.trans (b := onUnit (s.tileOn site && q < 4) _) rfl ((h.onUnit _).trans ?_)
  simp only [State.queueIn_of_fail h.2.2.2.1, hinst, hmay, hlisted, hop, hframes, hheader, hbare, hclear]
  simp [firstCode, hlen]

theorem State.exec_stopQueue (h : s.headReady site q cyc j i) (hheader : i.e.headerBad = false) (hbare : i.e.bareBad = false)
    (hop : i.e.opcode = 0x0E) (hclear : i.e.clearBut [] = true) :
    exec (.stopQueue site q cyc) s =
      .next (((s.setQueue site q { (s.queue site q).take cyc with stopping := true }).showWait site q).checkStop site q) := by
  obtain ⟨hinst, hmay⟩ := h.inst
  have hlisted := h.2.2.2.2.2
  refine Eq.trans (b := onUnit (s.tileOn site && q < 4) _) rfl ((h.onUnit _).trans ?_)
  simp only [State.queueIn_of_fail h.2.2.2.1, hinst, hmay, hlisted, hop, hheader, hbare, hclear]
  rfl

/-- A queue that is stopping with nothing left is STOPPED (R150). -/
theorem State.checkStop_drained (hstop : (s.queue site q).stopping = true) (hdrained : s.queueDrained site q = true) :
    (s.checkStop site q).rd (R.TILE_CMDQ_STATUS_STATE site q) = 3 := by
  unfold State.checkStop
  split
  · rw [State.bump, State.rd_wr_addr _ _ _ _ (by simp only [R.TILE_CMDQ_DONE_DONE, R.TILE_CMDQ_STATUS_STATE]; omega)]
    exact State.rd_wr_fits _ (by decide : 0 + 3 ≤ 64) (by decide : 3 < 2 ^ 3)
  next hne => simpa [hstop, hdrained] using hne

end

/-! BANKS -/

/-- A bank that starts to move shows that it moves; another bank of the tile shows what it showed. -/
theorem State.rd_each_bank {f : State → Nat → State} (hf : ∀ t b, ∃ u : State, f t b = u.wr (bankFld site b) 3 ∧ u.regs = t.regs)
    {b : Nat} : ∀ {l : List Nat} {s : State}, (∀ n ∈ l, n < 32) → b < 32 → (b ∈ l ∨ s.rd (bankFld site b) = 3) →
      (s.each l f).rd (bankFld site b) = 3
  | [], _, _, _, h => h.resolve_left List.not_mem_nil
  | n :: l, s, hl, hb, h => by
    obtain ⟨hn, hl⟩ := List.forall_mem_cons.1 hl
    obtain ⟨u, hu, hregs⟩ := hf s n
    refine State.rd_each_bank (s := f s n) hf hl hb ?_
    by_cases hbn : b = n
    · refine .inr ?_
      rw [hu, hbn]
      exact State.rd_wr_fits _ (by simp only [bankFld, R.TILE_SRAM_BANK_STATE_BANK0]; omega) (by decide : 3 < 2 ^ 2)
    · refine (h.imp (fun hmem => (List.mem_cons.1 hmem).resolve_left hbn) fun h3 => ?_)
      rw [hu, State.rd_wr_bits _ _ _ _ (by simp only [bankFld, R.TILE_SRAM_BANK_STATE_BANK0]; omega)
        (by simp only [bankFld, R.TILE_SRAM_BANK_STATE_BANK0]; omega), State.rd_congr hregs]
      exact h3

/-- Every named bank that is not yet in the target state moves (R162, R176). -/
theorem State.rd_banksPlan {j : TileJob} {i : Inst} {tgt b : Nat} (hb : b < 24) (hnamed : i.e.fld 0x20 b 1 = 1)
    (hst : s.rd (bankFld site b) ≠ tgt) : ((s.banksPlan site q cyc tgt j i).effect s).rd (bankFld site b) = 3 := by
  have hmoving : b ∈ ((List.range 24).filter fun b => i.e.fld 0x20 b 1 == 1).filter fun b => s.rd (bankFld site b) != tgt := by
    simp [hb, hnamed, hst]
  have hlt : ∀ n ∈ ((List.range 24).filter fun b => i.e.fld 0x20 b 1 == 1).filter (fun b => s.rd (bankFld site b) != tgt), n < 32 := by
    intro n hn
    have := List.mem_range.1 (List.mem_of_mem_filter (List.mem_of_mem_filter hn))
    omega
  exact State.rd_each_bank (fun t n => ⟨t.setTile site { t.tile site with bankMoves := (t.tile site).bankMoves ++
    [⟨n, tgt, cyc, bankCycles (t.rd (bankFld site n)) tgt⟩] }, rfl, rfl⟩) hlt (by omega) (.inl hmoving)

/-! Fetch -/

theorem State.fetch_succ (h n : Nat) (hne : s.rd (R.TILE_CMDQ_HEAD_HEAD site q) ≠ s.rd (R.TILE_CMDQ_TAIL_TAIL site q))
    (hmap : s.hMapped h (s.ringEntry site q (s.rd (R.TILE_CMDQ_HEAD_HEAD site q))) 64 = true)
    (hgood : s.hFirstBad h (s.ringEntry site q (s.rd (R.TILE_CMDQ_HEAD_HEAD site q))) 64 = none) :
    s.fetch site q cyc h (n + 1) = ((((s.setQueue site q { s.queue site q with
      buf := (s.queue site q).buf ++ [⟨s.rd (R.TILE_CMDQ_HEAD_HEAD site q),
        BitVec.ofNat 512 (ofBytes (s.hBytes h (s.ringEntry site q (s.rd (R.TILE_CMDQ_HEAD_HEAD site q))) 64))⟩],
      headAt := if (s.queue site q).head.isNone then cyc else (s.queue site q).headAt }).bump
      (R.TILE_CMDQ_HEAD_HEAD site q) 1).showWait site q).fetch site q cyc h n) := by
  rw [State.fetch]
  simp only [hne, hmap, hgood]
  rfl

/-! The end of a command -/

theorem State.setBytes_mem_congr {s t : State} (h : s.mem = t.mem) (k : Nat) (l : List Byte) : (s.setBytes k l).mem = (t.setBytes k l).mem := by
  induction l generalizing s t k with
  | nil => exact h
  | cons b l ih => exact ih (congrArg (tblSet unwritten · k b) h) (k + 1)

/-- What a list of writes leaves in memory depends on the memory before alone. -/
theorem State.writes_mem_congr {s t : State} (h : s.mem = t.mem) (l : List Put) :
    (s.each l fun t p => t.write site p).mem = (t.each l fun t p => t.setBytes (tileKey site p.addr) p.data).mem := by
  induction l generalizing s t with
  | nil => exact h
  | cons p l ih => exact ih (State.setBytes_mem_congr h _ p.data)

/-- A command that has no scales, no record and no engine leaves its outputs and nothing else. -/
theorem State.finish_plain {c : RunCmd} (hscale : c.scaleOut = false) (hrec : c.record = []) (hseam : c.seam = none) :
    s.finish site q cyc c = s.each c.outs.flatten fun t p => t.write site p := by
  simp [State.finish, State.writeStats, hscale, hrec, hseam, State.iff]

/-- A running command whose time has come ends: what it leaves, its unit free, DONE and its signal. -/
theorem exec_commandComplete {index corr bad vcorr : Nat} {c : RunCmd} (hon : s.tileOn site = true) (hq : q < 4)
    (hc : (s.tile site).running.find? (fun c => c.queue == q && c.index == index && c.unit != .banks) = some c)
    (hdue : c.cyc + c.dur ≤ cyc) (hcode : c.code = 0) (hpar : c.parityOf = 0) (hbad : c.ins = [] ∨ bad = 0)
    (hwait : ∀ e, c.seam = some e → s.seamWaits site c e = false) :
    exec (.commandComplete site q index cyc corr bad vcorr) s = .next (((((s.sat (R.TILE_SRAM_ECC_CORR_COUNT site) corr).iff
      c.seam.isSome (fun s => s.sat (R.VAULT_ECC_CORR_COUNT ((c.seam.map (·.vault)).getD 0)) vcorr)).finish site q cyc c).retire site
        cyc ((c.seam.map (·.total)).getD 0) c).checkPool.doneOk site q cyc c.sig) := by
  have hrun : s.runOf site q index cyc = some (c, false) := by simp only [State.runOf, hc]
  have hread : (if c.ins.isEmpty then 0 else bad) = 0 := by obtain h | h := hbad <;> simp [h]
  have hlate : ¬ cyc < c.cyc + c.dur := Nat.not_lt.2 hdue
  change execCommandComplete _ _ _ _ _ _ _ _ = _
  unfold execCommandComplete
  simp only [hon, hq, decide_true, Bool.and_self, onUnit_true, hrun, hread, hpar]
  cases hs : c.seam with
  | none => simp [hlate, hcode, State.iff]
  | some e =>
    have hw := hwait e hs
    have hw' : ∀ v, State.seamWaits ((s.sat (R.TILE_SRAM_ECC_CORR_COUNT site) corr).sat v vcorr) site c e = false := fun _ => hw
    simp [hlate, hcode, State.iff, hw']

/-! Transfers -/

theorem State.xferOf_stands {index : Nat} {r : XferRec} {j : TileJob} (hj : (s.tile site).job = some j) (hon : s.tileOn site = true)
    (hq : q < 4) (hx : s.xferOf site q index cyc = some (r, false)) (hgen : j.holder < 64 → s.gen j.holder = r.gen) :
    (r.toMemory = true ∨ s.hFirstBad j.holder r.vaddr r.len = none → ∀ corr, exec (.xferArrival site q index cyc corr) s =
      .next (((((s.xferCorr site j.holder r corr).moveXfer site j.holder r).leaveXfer site cyc r false).signal site cyc
        r.sig).checkStop site q)) ∧
    (r.toMemory = true → ∀ addr, exec (.xferFaultReport site q index cyc false addr 0 0) s =
      .next ((((s.sat (R.TILE_SRAM_ECC_CORR_COUNT site) 0).leaveXfer site cyc r false).cancelXfer site
        { r with route := none }).failCmd site q cyc 0x19 r.tag index)) := by
  have hstale : (decide (j.holder < 64) && decide (s.gen j.holder ≠ r.gen)) = false := by
    by_cases hh : j.holder < 64 <;> simp [hh, hgen]
  constructor
  · intro hgood corr
    have hbad : (!r.toMemory && (s.hFirstBad j.holder r.vaddr r.len).isSome) = false := by
      obtain h | h := hgood <;> simp [h]
    change execXferArrival _ _ _ _ _ _ = _
    unfold execXferArrival
    simp only [hon, hq, decide_true, Bool.and_self, onUnit_true, hx, hj, hstale, hbad]
    rfl
  · intro hto addr
    change execXferFaultReport _ _ _ _ _ _ _ _ _ = _
    unfold execXferFaultReport
    have hcorr : s.xferCorr site j.holder r 0 = s.sat (R.TILE_SRAM_ECC_CORR_COUNT site) 0 := by simp [State.xferCorr, hto]
    simp only [hon, hq, decide_true, Bool.and_self, onUnit_true, hx, hj, hstale, hcorr, Bool.false_and, Bool.false_eq_true,
      if_false, Bool.or_false, if_true, hto]
    cases (s.sat (R.TILE_SRAM_ECC_CORR_COUNT site) 0).hFirstBad j.holder r.vaddr r.len <;> rfl

/-! Banks -/

theorem State.zeroBank_tile (b k : Nat) : (s.zeroBank site b).tile k = s.tile k := rfl

theorem exec_bankTransitionDone {bank : Nat} {m : BankMove} (hon : s.tileOn site = true) (hb : bank < 24)
    (hm : (s.tile site).bankMoves.find? (fun m => m.bank == bank) = some m) (hfree : s.bankInUse site bank = false)
    (hdue : m.since + m.dur ≤ cyc) (hidle : (s.tile site).running = []) :
    exec (.bankTransitionDone site bank cyc) s = .next (((if m.target = 2 then s.zeroBank site bank else s).setTile site
      { s.tile site with bankMoves := (s.tile site).bankMoves.erase m, running := [] }).wr (bankFld site bank) m.target) := by
  have hlate : ¬ cyc < m.since + m.dur := Nat.not_lt.2 hdue
  have htile : (if m.target = 2 then s.zeroBank site bank else s).tile site = s.tile site := by split <;> rfl
  change execBankTransitionDone _ _ _ _ = _
  unfold execBankTransitionDone
  simp only [hon, hb, decide_true, Bool.and_self, onUnit_true, hm, hfree, hlate, htile, hidle]
  rfl

/-! The level of the array (R131 to R134) -/

/-- What the engines show lies in the vaults' registers. -/
theorem State.regsOnly_showEngines (s : State) (site cyc : Nat) : RegsOnly (0xA0_0000 ≤ ·) s (s.showEngines site cyc) := by
  refine (RegsOnly.refl _ s).each fun u v _ => ?_
  split
  · refine (RegsOnly.refl _ u).wrs fun e he => ?_
    simp only [List.mem_cons, List.not_mem_nil, or_false] at he
    obtain rfl | rfl := he <;> simp only [R.VAULT_SEAM_STATUS_QUEUED, R.VAULT_SEAM_STATUS_STATE] <;> omega
  · exact RegsOnly.refl _ u

/-- Settling the dummy rows of a gap leaves the level, and of the tile the hold level. -/
theorem State.tallyGap_level (s : State) (site upto : Nat) :
    (s.tallyGap site upto).rd (R.TILE_ARRAY_STATUS_LEVEL site) = s.rd (R.TILE_ARRAY_STATUS_LEVEL site) ∧
      ((s.tallyGap site upto).tile site).hold = (s.tile site).hold := by
  unfold State.tallyGap
  dsimp only
  split
  · exact ⟨rfl, rfl⟩
  · rw [State.dummyRows]
    refine ⟨State.rd_wr_addr _ _ _ _ ?_, ?_⟩
    · simp only [R.TILE_ARRAY_STATUS_LEVEL, R.TILE_ARRAY_DUMMY_CYC_COUNT]; omega
    · rw [State.bump, State.wr_tile]
      simp only [State.setTile_tile_same]

/-- Sampling the shaping register leaves the level and stores nothing (R134). -/
theorem State.sampleShaping_level (s : State) (site cyc : Nat) :
    (s.sampleShaping site cyc).rd (R.TILE_ARRAY_STATUS_LEVEL site) = s.rd (R.TILE_ARRAY_STATUS_LEVEL site) :=
  State.rd_wr_bits _ _ _ _ (by decide : 9 + 1 ≤ 64) (.inr (by decide : 3 + 5 ≤ 9))

/-- Showing that a scrub is due leaves the level. -/
theorem State.regsOnly_showScrub (s : State) (site : Nat) : RegsOnly AnyReg s (s.showScrub site) ∧
    (s.showScrub site).rd (R.TILE_ARRAY_STATUS_LEVEL site) = s.rd (R.TILE_ARRAY_STATUS_LEVEL site) := by
  unfold State.showScrub
  dsimp only
  have hstate (v : Nat) : (s.wr (R.TILE_ARRAY_STATUS_STATE site) v).rd (R.TILE_ARRAY_STATUS_LEVEL site) =
      s.rd (R.TILE_ARRAY_STATUS_LEVEL site) :=
    State.rd_wr_bits _ _ _ _ (by decide : 0 + 3 ≤ 64) (.inl (by decide : 0 + 3 ≤ 3))
  split
  · refine ⟨((RegsOnly.refl _ s).wr trivial _).iff fun u hu => hu.wr trivial _, ?_⟩
    cases !s.sched.claims.any fun c => c.site == site
    · exact hstate 7
    · refine (State.rd_wr_addr _ _ _ _ ?_).trans (hstate 7)
      simp only [R.TILE_ARRAY_STATUS_LEVEL, R.SCHED_TILE_STATE]; omega
  · exact ⟨RegsOnly.refl _ s, rfl⟩

/-- The tile as it stands when the interval of cycle `cyc` begins: its gap settled, and the shaping register sampled where the
gap starts. -/
def State.gapTallied (s : State) (site cyc : Nat) : State :=
  let x := s.tile site
  (s.tallyGap site cyc).iff (x.lastInt < x.gapFrom || (cyc - x.gapFrom) / 16 == 0) fun t => t.sampleShaping site x.gapFrom

theorem State.gapTallied_shows (s : State) (site cyc : Nat) :
    (s.gapTallied site cyc).rd (R.TILE_ARRAY_STATUS_LEVEL site) = s.rd (R.TILE_ARRAY_STATUS_LEVEL site) ∧
      (s.gapTallied site cyc).mem = s.mem ∧ (s.gapTallied site cyc).acc = s.acc ∧
      ((s.tile site).gapFrom ≤ (s.tile site).lastInt → 16 ≤ cyc - (s.tile site).gapFrom →
        ((s.gapTallied site cyc).tile site).hold = (s.tile site).hold) := by
  obtain ⟨hlevel, hhold⟩ := s.tallyGap_level site cyc
  have hwork := s.sameWork_tallyGap site cyc
  unfold State.gapTallied
  dsimp only
  cases hb : (decide ((s.tile site).lastInt < (s.tile site).gapFrom) || (cyc - (s.tile site).gapFrom) / 16 == 0)
  · exact ⟨hlevel, hwork.mem, hwork.acc, fun _ _ => hhold⟩
  · refine ⟨(State.sampleShaping_level _ site _).trans hlevel, hwork.mem, hwork.acc, fun hle h16 => ?_⟩
    simp only [Bool.or_eq_true, decide_eq_true_eq, beq_iff_eq] at hb
    omega

/-- A gap's interval begins: the dummy rows are settled and the level moves. -/
theorem State.exec_shapingInterval {S : State} {x : TileState} (hS : S = s.showEngines site cyc) (hx : x = S.tile site)
    (hon : s.tileOn site = true) (hgap : x.gapFrom ≤ cyc) (hstart : (cyc - x.gapFrom) % 16 = 0) (hlast : x.lastInt < cyc) {m : Nat}
    (hm : m = nextLevel x.rampUp x.rampEnd ((S.gapTallied site cyc).tile site).hold ((cyc - x.gapFrom) / 16)
      (s.rd (R.TILE_ARRAY_STATUS_LEVEL site))) :
    ∃ u, exec (.shapingInterval site cyc) s = .next u ∧ (0 < m → u.mem = s.mem ∧ u.acc = s.acc ∧ (u.tile site).lastInt = cyc ∧
      u.rd (R.TILE_ARRAY_STATUS_LEVEL site) = m % 32) := by
  have hsite : site < 136 := by
    simp only [State.tileOn, Bool.and_eq_true, decide_eq_true_eq] at hon
    exact hon.1.1
  have hengines := s.regsOnly_showEngines site cyc
  obtain ⟨hlevel, hmem, hacc, -⟩ := S.gapTallied_shows site cyc
  have hlevel' : (S.gapTallied site cyc).rd (R.TILE_ARRAY_STATUS_LEVEL site) = s.rd (R.TILE_ARRAY_STATUS_LEVEL site) := by
    rw [hlevel, hS, hengines.rd (by simp only [R.TILE_ARRAY_STATUS_LEVEL]; omega)]
  rw [← hlevel'] at hm
  rw [← hS] at hengines
  obtain ⟨T, hT⟩ : ∃ T, T = (S.gapTallied site cyc) := ⟨_, rfl⟩
  rw [← hT] at hm hmem hacc
  obtain ⟨L, hL⟩ : ∃ L, L = (T.setTile site { T.tile site with
    lastInt := cyc, dummyTo := cyc, fullFrom := if x.rampUp && m == 16 && T.rd (R.TILE_ARRAY_STATUS_LEVEL site) != 16 then cyc
      else x.fullFrom }).wr (R.TILE_ARRAY_STATUS_LEVEL site) m := ⟨_, rfl⟩
  obtain ⟨A, hA⟩ : ∃ A, A = (if L.rd (R.TILE_ARRAY_STATUS_STATE site) = 6 then L else L.wr (R.TILE_ARRAY_STATUS_STATE site)
    (if x.rampUp then 2 else if m = 0 then 1 else if x.rampEnd || 4 ≤ (cyc - x.gapFrom) / 16 then 5 else 4)) := ⟨_, rfl⟩
  obtain ⟨freed, hfreed⟩ : ∃ b, b = (m == 0 && A.rd (R.SCHED_TILE_STATE site) == 4 && (A.tile site).job.isNone) := ⟨_, rfl⟩
  refine ⟨((A.iff freed (·.wr (R.SCHED_TILE_STATE site) 1)).showScrub site).iff freed State.decision, ?_, fun hpos => ?_⟩
  · have hgo : ¬ cyc < x.gapFrom := Nat.not_lt.2 hgap
    have hnew : (decide ((cyc - x.gapFrom) % 16 ≠ 0) || (decide (x.gapFrom ≤ x.lastInt) && decide (cyc ≤ x.lastInt) &&
        decide (x.lastInt ≠ 0))) = false := by simp [hstart, Nat.not_le.2 hlast]
    subst hfreed hA hL hm hT hx hS
    change execShapingInterval _ _ _ = _
    unfold execShapingInterval
    simp only [hon, onUnit_true]
    rw [if_neg hgo, if_neg (by rw [hnew]; exact Bool.false_ne_true)]
    rfl
  · have hfalse : freed = false := by
      have : (m == 0) = false := by simpa using Nat.pos_iff_ne_zero.1 hpos
      rw [hfreed, this]
      rfl
    rw [hfalse]
    obtain ⟨hregs, hrd⟩ := A.regsOnly_showScrub site
    have hLA : RegsOnly AnyReg L A := by
      rw [hA]
      exact RegsOnly.ite (RegsOnly.refl _ L) ((RegsOnly.refl _ L).wr trivial _)
    have hALevel : A.rd (R.TILE_ARRAY_STATUS_LEVEL site) = L.rd (R.TILE_ARRAY_STATUS_LEVEL site) := by
      rw [hA]
      split
      · rfl
      · exact State.rd_wr_bits _ _ _ _ (by decide : 0 + 3 ≤ 64) (.inl (by decide : 0 + 3 ≤ 3))
    refine ⟨hregs.mem.trans (hLA.mem.trans ?_), hregs.acc.trans (hLA.acc.trans ?_), ?_, hrd.trans (hALevel.trans ?_)⟩
    · rw [hL]; exact hmem.trans hengines.mem
    · rw [hL]; exact hacc.trans hengines.acc
    · change ((A.showScrub site).tile site).lastInt = cyc
      rw [hregs.tile, hLA.tile, hL, State.wr_tile, State.setTile_tile_same]
    · rw [hL]
      exact State.rd_wr_same _ _ _ (by decide : 3 + 5 ≤ 64)

end

/-- Settles O15: each control command and each event of a tile in turn. -/
theorem tileControlAndEventsComplete : Obligations.TileControlAndEventsComplete := by
  refine ⟨fun s site q cyc j i h hheader hbare => ⟨fun hop hlen hframes hclear => ?loop, fun hop hclear => ?stop,
    fun tgt c hc hop htgt hpass => ?banks⟩, fun s site q cyc hon hq => ⟨fun j hj hmay hfail => ?fetch,
    fun h n hne hmap hgood => ?more, fun index c corr bad vcorr w hc hdue hcode hpar hbad hwait hw => ?complete,
    fun index r j corr hx hj hgen hgood => (State.xferOf_stands hj hon hq hx hgen).1 hgood corr,
    fun index r j addr hx hj hgen hto => (State.xferOf_stands hj hon hq hx hgen).2 hto addr,
    fun counter r hcounter hr => ?signal,
    fun bank m hb hm hfree hdue => exec_bankTransitionDone hon hb hm hfree hdue, fun x hx hgap hstart hlast => ?shaping⟩⟩
  case loop =>
    have hregs := State.regsOnly_showWait (s.setQueue site q ((s.queue site q).openLoop fun b => ⟨b, i.e.fld 0x10 16 6,
      i.e.fld 0x10 0 16 + 1, 0, signedOf 24 (i.e.fld 0x14 0 24), signedOf 24 (i.e.fld 0x18 0 24), signedOf 24 (i.e.fld 0x1C 0 24),
      signedOf 24 (i.e.fld 0x20 0 24), signedOf 16 (i.e.fld 0x24 0 16)⟩)) site q
    exact ⟨_, _, State.exec_loopBody h hheader hbare hop hlen hframes hclear, (hregs.queue site q).trans (s.setQueue_queue site q _),
      fun b => ⟨rfl, rfl, rfl, rfl⟩, hregs.mem, hregs.acc⟩
  case stop =>
    obtain ⟨S, hS⟩ : ∃ S, S = s.setQueue site q { (s.queue site q).take cyc with stopping := true } := ⟨_, rfl⟩
    have hshow := S.regsOnly_showWait site q
    have hcheck := (S.showWait site q).regsOnly_checkStop site q
    have hqueue : (S.showWait site q).queue site q = { (s.queue site q).take cyc with stopping := true } :=
      (hshow.queue site q).trans (hS ▸ s.setQueue_queue site q _)
    have htile : (S.showWait site q).tile site = (s.tile site).setQueue q { (s.queue site q).take cyc with stopping := true } :=
      (hshow.tile site).trans (hS ▸ State.setTile_tile_same _ _ _)
    refine ⟨_, hS ▸ State.exec_stopQueue h hheader hbare hop hclear, ?_, hcheck.mem.trans (hshow.mem.trans (hS ▸ rfl)),
      hcheck.acc.trans (hshow.acc.trans (hS ▸ rfl)), fun hdrained => ?_⟩
    · rw [hcheck.queue, hqueue]
    · refine State.checkStop_drained (by rw [hqueue]) ?_
      obtain ⟨hrunning, -, hxfers, -⟩ := TileState.setQueue_keeps (s.tile site) q { (s.queue site q).take cyc with stopping := true }
      rw [State.queueDrained, htile, hrunning, hxfers]
      exact hdrained
  case banks =>
    have hissue : s.banks site q cyc tgt = s.started site q cyc i (s.banksPlan site q cyc tgt j i) := by
      refine State.issue_started h (by simp [hop, htgt]) rfl hpass fun c hc => ?_
      have hunit : c.unit = .banks := by
        simp only [State.banksPlan] at hc
        split at hc
        · cases hc
        · cases hc; rfl
      simp [State.outranked, hunit, TileUnit.fair]
    refine ⟨?_, fun b hb hnamed hst => State.rd_banksPlan hb hnamed hst⟩
    rw [← hissue]
    simp only [List.mem_cons, Prod.mk.injEq, List.not_mem_nil, or_false] at hc
    rcases hc with ⟨rfl, rfl⟩ | ⟨rfl, rfl⟩ | ⟨rfl, rfl⟩ <;> exact h.onUnit _
  case fetch =>
    change execCmdFetch _ _ _ _ = _
    simp [execCmdFetch, hon, hq, hj, hmay, hfail]
  case more => exact State.fetch_succ h n hne hmap hgood
  case complete =>
    subst hw
    refine ⟨exec_commandComplete hon hq hc hdue hcode hpar hbad hwait, fun hscale hrec hseam => ?_⟩
    rw [State.finish_plain hscale hrec hseam]
    refine ⟨State.writes_mem_congr ?_ _, (State.each_keeps (·.acc) fun u p _ => u.setBytes_acc _ _).trans ?_⟩ <;>
      simp only [hseam, Option.isSome_none, State.iff] <;> rfl
  case signal =>
    change execRemoteSignalArrival _ _ _ _ = _
    unfold execRemoteSignalArrival
    simp only [hon, hcounter, decide_true, Bool.and_self, onUnit_true, hr]
  case shaping =>
    obtain ⟨u, hexec, hshow⟩ := State.exec_shapingInterval rfl hx hon hgap hstart hlast rfl
    exact ⟨u, _, _, hexec, rfl, hx ▸ ((s.showEngines site cyc).gapTallied_shows site cyc).2.2.2, hshow⟩

end Sys2Proof.Machine
end

section
/-! PROOFS. The port, the refresh and the patrol of a vault (R200, R208, R266, R267). -/

namespace Sys2Proof.Machine

section
variable (s : State) {v t : Nat}

/-- A port that starts to relock shows it; its other fields, memory and the vault's queues stay. -/
theorem State.relock_shows (v : Nat) :
    (s.relock v).rd (R.VAULT_PORT_MODE_RELOCK v) = 1 ∧ (s.relock v).vault v = { s.vault v with relockAt := s.now } ∧
      (s.relock v).mem = s.mem :=
  ⟨State.rd_wr_fits _ (by decide : 2 + 1 ≤ 64) (by decide : 1 < 2 ^ 1), State.setVault_vault_same _ _ _, rfl⟩

/-- The three fields of PORT_MODE have bits of their own. -/
theorem State.rd_portWindow_wr_relock (v x : Nat) :
    (s.wr (R.VAULT_PORT_MODE_RELOCK v) x).rd (R.VAULT_PORT_MODE_WINDOW v) = s.rd (R.VAULT_PORT_MODE_WINDOW v) :=
  s.rd_wr_bits _ _ _ (by decide : 2 + 1 ≤ 64) (.inr (by decide : 1 + 1 ≤ 2))

theorem State.rd_portRelock_wr_window (v x : Nat) :
    (s.wr (R.VAULT_PORT_MODE_WINDOW v) x).rd (R.VAULT_PORT_MODE_RELOCK v) = s.rd (R.VAULT_PORT_MODE_RELOCK v) :=
  s.rd_wr_bits _ _ _ (by decide : 1 + 1 ≤ 64) (.inl (by decide : 1 + 1 ≤ 2))

theorem State.rd_portRate_wr_relock (v x : Nat) :
    (s.wr (R.VAULT_PORT_MODE_RELOCK v) x).rd (R.VAULT_PORT_MODE_RATE v) = s.rd (R.VAULT_PORT_MODE_RATE v) :=
  s.rd_wr_bits _ _ _ (by decide : 2 + 1 ≤ 64) (.inr (by decide : 0 + 1 ≤ 2))

theorem State.rd_portBit (f : Nat → Fld) (hlo : (f v).lo + (f v).width ≤ 64) (hw : (f v).width = 1) {b : Nat} (hb : b < 2) :
    (s.wr (f v) b).rd (f v) = b := State.rd_wr_fits _ hlo (by rw [hw]; exact hb)

variable (hon : s.vaultOn v = true)
include hon

/-! A write window -/

theorem exec_seamWriteWindow_opens (hw : s.rd (R.VAULT_PORT_MODE_WINDOW v) = 0) (hr : s.rd (R.VAULT_PORT_MODE_RELOCK v) = 0)
    (hrate : s.rd (R.VAULT_PORT_MODE_RATE v) = 1) (hdue : (s.atTime t).windowDue v = true) :
    exec (.seamWriteWindow v t) s = .next ((((s.atTime t).setVault v { s.vault v with drained := false }).relock v).wr
      (R.VAULT_PORT_MODE_WINDOW v) 1) := by
  change execSeamWriteWindow _ _ _ = _
  simp [execSeamWriteWindow, hon, hw, hr, hrate, hdue]

theorem exec_seamWriteWindow_relocked (hw : s.rd (R.VAULT_PORT_MODE_WINDOW v) = 1) (hr : s.rd (R.VAULT_PORT_MODE_RELOCK v) = 1)
    (hdone : (s.atTime t).relocked v = true) :
    exec (.seamWriteWindow v t) s = .next ((s.atTime t).wrs [(R.VAULT_PORT_MODE_RELOCK v, 0),
      (R.VAULT_PORT_MODE_WINDOW v, if (s.vault v).drained then 0 else 1)]) := by
  change execSeamWriteWindow _ _ _ = _
  simp [execSeamWriteWindow, hon, hw, hr, hdone]
  rfl

theorem exec_seamWriteWindow_drains (hw : s.rd (R.VAULT_PORT_MODE_WINDOW v) = 1) (hr : s.rd (R.VAULT_PORT_MODE_RELOCK v) = 0) :
    exec (.seamWriteWindow v t) s =
      .next (((s.atTime t).setWq v { s.vault v with wq := [], behind := [], drained := true }).relock v) := by
  change execSeamWriteWindow _ _ _ = _
  simp [execSeamWriteWindow, hon, hw, hr]

/-! A rate change -/

section
variable (hidle : (s.vault v).held = []) (hready : (s.vault v).wantStream = true ∨ ((s.vault v).wq = [] ∧ (s.vault v).behind = []))
  (hw : s.rd (R.VAULT_PORT_MODE_WINDOW v) = 0)
include hidle hready hw

theorem exec_portRateChange_begins (hr : s.rd (R.VAULT_PORT_MODE_RELOCK v) = 0)
    (hrate : s.rd (R.VAULT_PORT_MODE_RATE v) ≠ if (s.vault v).wantStream then 1 else 0) :
    exec (.portRateChange v t) s = .next ((s.atTime t).relock v) := by
  change execPortRateChange _ _ _ = _
  obtain h | ⟨hq, hb⟩ := hready
  · simp [execPortRateChange, hon, hidle, h, hw, hr, by simpa [h] using hrate]
  · simp [execPortRateChange, hon, hidle, hq, hb, hw, hr]
    exact if_neg hrate

theorem exec_portRateChange_ends (hr : s.rd (R.VAULT_PORT_MODE_RELOCK v) = 1) (hdone : (s.atTime t).relocked v = true) :
    exec (.portRateChange v t) s = .next ((s.atTime t).wrs [(R.VAULT_PORT_MODE_RATE v, if (s.vault v).wantStream then 1 else 0),
      (R.VAULT_PORT_MODE_RELOCK v, 0)]) := by
  change execPortRateChange _ _ _ = _
  obtain h | ⟨hq, hb⟩ := hready
  · simp [execPortRateChange, hon, hidle, h, hw, hr, hdone]
  · simp [execPortRateChange, hon, hidle, hq, hb, hw, hr, hdone]
    rfl

end

/-! Refresh and patrol -/

theorem exec_vaultRefresh : exec (.vaultRefresh v t) s = .next (
    (((s.atTime t).setVault v { s.vault v with doubled := s.rd (R.HUB_THERM_STATE_LEVEL (v / 19)) != 0 }).wr
      (R.VAULT_STATUS_REFRESH_2X v) (if s.rd (R.HUB_THERM_STATE_LEVEL (v / 19)) != 0 then 1 else 0)).iff
      (!(s.vault v).held.isEmpty) (·.bump (R.VAULT_SEAM_REFRESH_CYC_COUNT v) 4)) := by
  change execVaultRefresh _ _ _ = _
  simp only [execVaultRefresh, hon, onUnit_true]
  rfl

/-- The patrol reads a codeword that holds no error but `found`, at most a correctable symbol. -/
theorem exec_patrolScrub {found next : Nat} (hgood : s.badAt v (s.vault v).patrolAt = 0) (hf : found < 2)
    (hnext : next = ((s.vault v).patrolAt + 1) % vaultWords) :
    exec (.patrolScrub v found t) s = .next (
      (((s.atTime t).iff (found == 1) (·.sat (R.VAULT_ECC_CORR_COUNT v) 1)).setVault v { s.vault v with patrolAt := next }).iff
        (next == 0) (·.bump (R.VAULT_PATROL_PASS_COUNT v) 1)) := by
  have hbad : (s.atTime t).badAt v (s.vault v).patrolAt = 0 := hgood
  subst hnext
  change execPatrolScrub _ _ _ _ = _
  obtain rfl | rfl : found = 0 ∨ found = 1 := by omega
  · simp [execPatrolScrub, hon, hbad, State.iff]
  · simp [execPatrolScrub, hon, hbad, State.iff]
    rfl

end

/-- Settles O16: each event of a vault is one of the steps above. -/
theorem vaultEventsComplete : Obligations.VaultEventsComplete := by
  intro s v t hon
  refine ⟨fun hw hr hrate hdue => ?opens, fun hw hr hdone => ?relocked, fun hw hr => ?drains,
    fun hidle hready hw => ⟨fun hr hrate => ?begins, fun hr hdone => ?ends⟩, fun hot hhot => ?refresh, fun hgood hlt => ⟨?clean, ?corrected⟩,
    fun hgood hend => ?pass⟩
  case opens =>
    obtain ⟨hrelock, hvault, hmem⟩ := State.relock_shows ((s.atTime t).setVault v { s.vault v with drained := false }) v
    refine ⟨_, exec_seamWriteWindow_opens s hon hw hr hrate hdue,
      State.rd_portBit _ R.VAULT_PORT_MODE_WINDOW (by decide : 1 + 1 ≤ 64) rfl (by decide),
      (State.rd_portRelock_wr_window _ v 1).trans hrelock, ?_, hmem⟩
    rw [State.wr_vault, hvault, State.setVault_vault_same]
  case relocked =>
    refine ⟨_, exec_seamWriteWindow_relocked s hon hw hr hdone, ?_, ?_, rfl⟩
    · rw [State.wrs_cons, State.wrs_cons, State.wrs_nil, State.rd_portRelock_wr_window]
      exact State.rd_portBit _ R.VAULT_PORT_MODE_RELOCK (by decide : 2 + 1 ≤ 64) rfl (by decide)
    · exact State.rd_portBit _ R.VAULT_PORT_MODE_WINDOW (by decide : 1 + 1 ≤ 64) rfl (by split <;> decide)
  case drains =>
    obtain ⟨u, hu⟩ : ∃ u, u = (s.atTime t).setWq v { s.vault v with wq := [], behind := [], drained := true } := ⟨_, rfl⟩
    obtain ⟨hrelock, hvault, hmem⟩ := u.relock_shows v
    have hset : u.vault v = { s.vault v with wq := [], behind := [], drained := true } := hu ▸ State.setVault_vault_same _ _ _
    have hlevel : u.rd (R.VAULT_WQ_LEVEL_BYTES v) = 0 := by
      rw [hu]
      exact State.rd_wr_same _ (R.VAULT_WQ_LEVEL_BYTES v) _ (by decide : 0 + 17 ≤ 64)
    rw [hset] at hvault
    refine ⟨u.relock v, hu ▸ exec_seamWriteWindow_drains s hon hw hr, by rw [hvault], by rw [hvault], by rw [hvault], ?_, hrelock,
      hmem.trans (hu ▸ rfl)⟩
    rw [State.relock, State.rd_wr_addr _ _ _ _ (by simp only [R.VAULT_WQ_LEVEL_BYTES, R.VAULT_PORT_MODE_RELOCK]; omega)]
    exact hlevel
  case begins =>
    obtain ⟨hrelock, hvault, hmem⟩ := (s.atTime t).relock_shows v
    exact ⟨_, exec_portRateChange_begins s hon hidle hready hw hr hrate, hrelock, by rw [hvault]; rfl, hmem⟩
  case ends =>
    refine ⟨_, exec_portRateChange_ends s hon hidle hready hw hr hdone,
      State.rd_portBit _ R.VAULT_PORT_MODE_RELOCK (by decide : 2 + 1 ≤ 64) rfl (by decide), ?_, rfl⟩
    rw [State.wrs_cons, State.wrs_cons, State.wrs_nil, State.rd_portRate_wr_relock]
    exact State.rd_portBit _ R.VAULT_PORT_MODE_RATE (by decide : 0 + 1 ≤ 64) rfl (by split <;> decide)
  case refresh =>
    subst hhot
    refine ⟨_, exec_vaultRefresh s hon, ?_⟩
    have hvault : ((s.atTime t).setVault v { s.vault v with doubled := s.rd (R.HUB_THERM_STATE_LEVEL (v / 19)) != 0 }).vault v =
        { s.vault v with doubled := s.rd (R.HUB_THERM_STATE_LEVEL (v / 19)) != 0 } := State.setVault_vault_same _ _ _
    have hcount (n : Nat) : (State.wr ((s.atTime t).setVault v { s.vault v with doubled := s.rd (R.HUB_THERM_STATE_LEVEL (v / 19)) != 0 })
        (R.VAULT_STATUS_REFRESH_2X v) n).rd (R.VAULT_SEAM_REFRESH_CYC_COUNT v) = s.rd (R.VAULT_SEAM_REFRESH_CYC_COUNT v) :=
      State.rd_wr_addr _ _ _ _ (by simp only [R.VAULT_SEAM_REFRESH_CYC_COUNT, R.VAULT_STATUS_REFRESH_2X]; omega)
    have hshow (b : Bool) (u : State) : (u.wr (R.VAULT_STATUS_REFRESH_2X v) (if b then 1 else 0)).rd (R.VAULT_STATUS_REFRESH_2X v) =
        if b then 1 else 0 := State.rd_portBit u R.VAULT_STATUS_REFRESH_2X (by decide : 12 + 1 ≤ 64) rfl (by split <;> decide)
    cases hheld : (s.vault v).held with
    | nil =>
      refine ⟨congrArg VaultState.doubled hvault, hshow _ _, (hcount _).trans (Nat.mod_eq_of_lt ?_).symm, rfl⟩
      exact State.rd_lt s (R.VAULT_SEAM_REFRESH_CYC_COUNT v)
    | cons k l =>
      refine ⟨congrArg VaultState.doubled hvault, ?_, ?_, rfl⟩
      · exact (State.rd_wr_addr _ _ _ _ (by simp only [R.VAULT_SEAM_REFRESH_CYC_COUNT, R.VAULT_STATUS_REFRESH_2X]; omega)).trans (hshow _ _)
      · refine (State.rd_wr_same _ _ _ (by decide : 0 + 64 ≤ 64)).trans ?_
        rw [hcount]
        rfl
  case clean =>
    have hne : ((s.vault v).patrolAt + 1) % vaultWords = (s.vault v).patrolAt + 1 := Nat.mod_eq_of_lt hlt
    exact exec_patrolScrub s hon hgood (by decide) hne.symm
  case corrected =>
    have hne : ((s.vault v).patrolAt + 1) % vaultWords = (s.vault v).patrolAt + 1 := Nat.mod_eq_of_lt hlt
    exact exec_patrolScrub s hon hgood (by decide) hne.symm
  case pass =>
    have hzero : ((s.vault v).patrolAt + 1) % vaultWords = 0 := by rw [hend]; rfl
    exact exec_patrolScrub s hon hgood (by decide) hzero.symm

end Sys2Proof.Machine
end

section
/-! PROOFS. Requests of the memory manager (R282, R287, R288). -/

namespace Sys2Proof.Machine

section
variable {s w : State} {x n op : Nat}

/-! Serving -/

/-- Where no slice holds more than its ceiling nothing is evicted (R282). -/
theorem State.evictOver_of_le (h : ∀ y, y < 64 → s.used y ≤ s.rd (R.MEM_QUOTA_CEIL y)) : s.evictOver = s := by
  have hnone : allSlices.filter (fun x => s.rd (R.MEM_QUOTA_CEIL x) < s.used x) = [] := by
    refine List.filter_eq_nil_iff.2 fun y hy => ?_
    simpa using h y (List.mem_range.1 hy)
  rw [State.evictOver, hnone]
  rfl

/-- The waiting request that stands alone, in a state in which no other waits. -/
def State.withReq (w : State) (q : MemReq) : State := { w with mm := { w.mm with reqs := [q] } }

/-- A single request waits: it is served, and once it has been nothing else waits (R287). -/
theorem State.serveAll_withReq {t : State} (hreqs : w.mm.reqs = []) (hup : w.jasperDown = false)
    (hceil : ∀ y, y < 64 → w.used y ≤ w.rd (R.MEM_QUOTA_CEIL y))
    (hserve : w.serve (MemReq.mk x n op 0 0 0 false) = (t, true)) :
    (w.withReq (MemReq.mk x n op 0 0 0 false)).serveAll = t.serveReqs 1 := by
  have hover : (w.withReq (MemReq.mk x n op 0 0 0 false)).evictOver = w.withReq (MemReq.mk x n op 0 0 0 false) :=
    State.evictOver_of_le hceil
  have hdown : (w.withReq (MemReq.mk x n op 0 0 0 false)).jasperDown = false := hup
  have hmm : ({ w.mm with reqs := [] } : MemState) = w.mm := by rw [← hreqs]
  have hback : ({ w.withReq (MemReq.mk x n op 0 0 0 false) with mm := { w.mm with reqs := [] } } : State) = w := by
    rw [hmm]
    rfl
  rw [State.serveAll, hover]
  change State.serveReqs _ (1 + 1) = _
  rw [State.serveReqs]
  simp only [hdown, Bool.false_eq_true, if_false]
  simp only [State.withReq, List.find?_cons, Bool.not_false, List.filter_cons, beq_self_eq_true, Bool.and_self, Bool.not_true,
    Bool.or_self, Bool.false_eq_true, if_false, List.filter_nil]
  rw [show ({ w with mm := { w.mm with reqs := [] } } : State) = w from hback, hserve]
  rfl

/-- What a request that passes its checks comes to, by its OP (R288). -/
def State.served (w : State) (x n op : Nat) : State :=
  match op with
  | 1 => w.grant x n
  | 2 => (w.freeObject x ((w.reqFields x n).handle % 4096)).endReq x n 0 0
  | 3 => (w.setObject x ((w.reqFields x n).handle % 4096) { w.object x ((w.reqFields x n).handle % 4096) with
      hint := (w.reqFields x n).hint, target := (w.reqFields x n).target }).endReq x n 0 0
  | _ => w.migrate x n

/-- A request whose checks pass, and for which no eviction is wanted, takes effect (R288). -/
theorem State.serve_passes (hcode : w.reqCheck x n op = 0)
    (hroom : op = 1 → (w.reqFields x n).hint = 5 ∨ w.shortBy x (w.reqFields x n).count = 0) :
    w.serve (MemReq.mk x n op 0 0 0 false) = (w.served x n op, true) := by
  have hshort : (if (decide (op = 1) && (w.reqFields x n).hint != 5 && w.inRun) = true then w.shortBy x (w.reqFields x n).count else 0) = 0 := by
    by_cases hop : op = 1
    · obtain h | h := hroom hop <;> simp [h]
    · simp [hop]
  unfold State.serve State.served
  simp only [hcode, Nat.lt_irrefl, decide_false, Bool.and_false, Bool.false_and, Bool.false_eq_true, if_false]
  rw [show (if (decide (op = 1) && (w.reqFields x n).hint != 5 && w.inRun) = true then w.shortBy x (w.reqFields x n).count else 0) = 0
    from hshort]
  simp only [bne_self_eq_false, Bool.and_false, Bool.false_and, Bool.false_eq_true, if_false]
  rcases op with _ | _ | _ | _ | _ <;> rfl

/-! GO -/

/-- The request slot once a GO has been written (R287). -/
def State.goWritten (s : State) (x n op ticket hint : Nat) : State :=
  s.wrs [(R.MEM_REQ_CTRL_OP x n, op), (R.MEM_REQ_CTRL_TICKET x n, ticket), (R.MEM_REQ_CTRL_HINT x n, hint), (R.MEM_REQ_CTRL_GO x n, 1)]

theorem State.memGo_eq {ticket hint : Nat} (hopen : s.sliceOpen x = true) (hfree : s.rd (R.MEM_REQ_CTRL_GO x n) = 0)
    (hreqs : s.mm.reqs = []) :
    s.memGo x n op ticket hint = ((s.goWritten x n op ticket hint).withReq (MemReq.mk x n op 0 0 0 false)).serveAll := by
  have hmm : (s.goWritten x n op ticket hint).mm = s.mm := (s.regsOnly_wrs _).keeps (·.mm) fun _ _ => rfl
  simp only [State.memGo, hopen, hfree]
  change State.serveAll { s.goWritten x n op ticket hint with mm := { (s.goWritten x n op ticket hint).mm with
    reqs := (s.goWritten x n op ticket hint).mm.reqs ++ [MemReq.mk x n op 0 0 0 false] } } = _
  rw [hmm, hreqs, List.nil_append, State.withReq, hmm]

/-- What the request's slot holds after GO: its hint and its ticket. -/
theorem State.rd_goWritten (x n op ticket hint : Nat) :
    (s.goWritten x n op ticket hint).rd (R.MEM_REQ_CTRL_HINT x n) = hint % 16 ∧
      (s.goWritten x n op ticket hint).rd (R.MEM_REQ_CTRL_TICKET x n) = ticket % 256 := by
  simp only [State.goWritten, State.wrs_cons, State.wrs_nil]
  constructor
  · rw [State.rd_wr_bits _ _ _ _ (by decide : 31 + 1 ≤ 64) (.inr (by decide : 16 + 4 ≤ 31))]
    exact State.rd_wr_same _ _ _ (by decide : 16 + 4 ≤ 64)
  · rw [State.rd_wr_bits _ _ _ _ (by decide : 31 + 1 ≤ 64) (.inr (by decide : 8 + 8 ≤ 31)),
      State.rd_wr_bits _ _ _ _ (by decide : 16 + 4 ≤ 64) (.inr (by decide : 8 + 8 ≤ 16))]
    exact State.rd_wr_same _ _ _ (by decide : 8 + 8 ≤ 64)

/-- The end of a request: its code, its ticket echoed, its slot free; nothing is stored (R287). -/
theorem State.endReq_shows {code : Nat} (done : Nat) (hcode : code < 256) :
    (s.endReq x n code done).rd (R.MEM_REQ_STATUS_STATUS x n) = code ∧
      (s.endReq x n code done).rd (R.MEM_REQ_STATUS_TICKET_ECHO x n) = s.rd (R.MEM_REQ_CTRL_TICKET x n) ∧
      (s.endReq x n code done).rd (R.MEM_REQ_CTRL_GO x n) = 0 ∧ (s.endReq x n code done).mem = s.mem := by
  refine ⟨?_, ?_, State.rd_wr_fits _ (by decide : 31 + 1 ≤ 64) (by decide : 0 < 2 ^ 1), (s.regsOnly_wrs _).mem⟩
  · simp only [State.endReq, State.wrs_cons, State.wrs_nil]
    rw [State.rd_wr_addr _ _ _ _ (by simp only [R.MEM_REQ_STATUS_STATUS, R.MEM_REQ_CTRL_GO]; omega),
      State.rd_wr_bits _ _ _ _ (by decide : 16 + 16 ≤ 64) (.inr (by decide : 0 + 8 ≤ 16)),
      State.rd_wr_bits _ _ _ _ (by decide : 8 + 8 ≤ 64) (.inr (by decide : 0 + 8 ≤ 8))]
    exact State.rd_wr_fits _ (by decide : 0 + 8 ≤ 64) hcode
  · simp only [State.endReq, State.wrs_cons, State.wrs_nil]
    rw [State.rd_wr_addr _ _ _ _ (by simp only [R.MEM_REQ_STATUS_TICKET_ECHO, R.MEM_REQ_CTRL_GO]; omega),
      State.rd_wr_bits _ _ _ _ (by decide : 16 + 16 ≤ 64) (.inr (by decide : 8 + 8 ≤ 16))]
    exact State.rd_wr_fits _ (by decide : 8 + 8 ≤ 64) (State.rd_lt s (R.MEM_REQ_CTRL_TICKET x n))

section
variable {ticket hint t : Nat} (hx : x < 64) (hn : n < 16) (hopen : s.sliceOpen x = true) (hfree : s.rd (R.MEM_REQ_CTRL_GO x n) = 0)
  (hreqs : s.mm.reqs = [])
include hx hn hopen hfree hreqs

/-- A GO in a free slot of an open window: its request waits, and what waits is served. -/
theorem State.exec_memGo {c : Instr} (hw : w = (s.atTime t).goWritten x n op ticket hint)
    (hc : (op, c) ∈ [(1, Instr.memAlloc x n ticket hint t), (2, .memFree x n ticket hint t), (3, .memHint x n ticket hint t),
      (4, .memMigrate x n ticket hint t)]) :
    exec c s = .next (w.withReq (MemReq.mk x n op 0 0 0 false)).serveAll := by
  rw [hw, ← State.memGo_eq (s := s.atTime t) hopen hfree hreqs]
  have hunit : (decide (x < 64) && decide (n < 16)) = true := by simp [hx, hn]
  simp only [List.mem_cons, Prod.mk.injEq, List.not_mem_nil, or_false] at hc
  rcases hc with ⟨rfl, rfl⟩ | ⟨rfl, rfl⟩ | ⟨rfl, rfl⟩ | ⟨rfl, rfl⟩ <;> exact (congrArg (onUnit · _) hunit).trans (onUnit_true _)

/-- A request whose checks pass takes effect at its GO. -/
theorem State.exec_memGo_serves {c : Instr} {u : State} (hw : w = (s.atTime t).goWritten x n op ticket hint)
    (hc : (op, c) ∈ [(1, Instr.memAlloc x n ticket hint t), (2, .memFree x n ticket hint t), (3, .memHint x n ticket hint t),
      (4, .memMigrate x n ticket hint t)]) (hup : w.jasperDown = false)
    (hceil : ∀ y, y < 64 → w.used y ≤ w.rd (R.MEM_QUOTA_CEIL y)) (hserve : w.serve (MemReq.mk x n op 0 0 0 false) = (u, true)) :
    exec c s = .next (u.serveReqs 1) := by
  have hwreqs : w.mm.reqs = [] := by
    rw [hw, State.goWritten, (State.regsOnly_wrs _ _).keeps (·.mm) fun _ _ => rfl]
    exact hreqs
  rw [State.exec_memGo hx hn hopen hfree hreqs hw hc, State.serveAll_withReq hwreqs hup hceil hserve]

end
end

/-- Settles O17: a GO queues its request, which is served at once and ends with its ticket. -/
theorem memoryRequestsComplete : Obligations.MemoryRequestsComplete := by
  intro s x n ticket hint t op w hx hn hopen hfree hreqs hw hup hcode hceil
  have hserves {c : Instr} {u : State} := State.exec_memGo_serves (c := c) (u := u) hx hn hopen hfree hreqs hw
  refine ⟨fun hop hroom => ?_, fun hop => ?_, fun hop => ?_, fun hop => ?_, fun c hc => State.exec_memGo hx hn hopen hfree hreqs hw hc,
    fun code done hlt => ?ends⟩
  case ends =>
    obtain ⟨hstatus, hticket, hgo, hmem⟩ := State.endReq_shows (s := w) (x := x) (n := n) done hlt
    have hecho : w.rd (R.MEM_REQ_CTRL_TICKET x n) = ticket % 256 := hw ▸ (State.rd_goWritten x n op ticket hint).2
    exact ⟨hstatus, hticket.trans hecho, hgo, hmem.trans (hw ▸ (State.regsOnly_wrs _ _).mem)⟩
  all_goals subst hop
  · refine hserves (by simp) hup hceil (State.serve_passes hcode fun _ => hroom.imp_left fun h => ?_)
    have hhint : w.rd (R.MEM_REQ_CTRL_HINT x n) = hint % 16 := hw ▸ (State.rd_goWritten x n 1 ticket hint).1
    exact hhint.trans h
  · exact hserves (by simp) hup hceil (State.serve_passes hcode (by simp))
  · exact hserves (by simp) hup hceil (State.serve_passes hcode (by simp))
  · exact hserves (by simp) hup hceil (State.serve_passes hcode (by simp))

end Sys2Proof.Machine
end

section
/-! PROOFS. Moves, regions and lends of the memory manager (R274 to R285), and what memory and register fields read back. -/

namespace Sys2Proof.Machine

/-- A command of a unit the part has comes to the state it is carried out to. -/
theorem onUnit_of {b : Bool} {s u : State} (h : b = true) (hu : s = u) : onUnit b s = .next u := by
  rw [h, hu]
  exact onUnit_true u

/-- The same of one operand in range. -/
theorem onUnit_of_lt {p : Prop} [Decidable p] {s u : State} (hp : p) (hu : s = u) : onUnit (decide p) s = .next u :=
  onUnit_of (by simp [hp]) hu

/-- The same of two operands in range. -/
theorem onUnit_of_and {p q : Prop} [Decidable p] [Decidable q] {s u : State} (hp : p) (hq : q) (hu : s = u) :
    onUnit (decide p && decide q) s = .next u := onUnit_of (by simp [hp, hq]) hu

section
variable (s : State)

/-! Memory and register fields -/

theorem State.zeroKeys_byte (lo hi a : Nat) : (s.zeroKeys lo hi).byte a = if lo ≤ a ∧ a < hi then unwritten else s.byte a := by
  simp only [State.byte, State.zeroKeys, tblGet, tblFind_clear]
  split <;> rfl

theorem State.wf_setBytes_mem (k : Nat) (l : List Byte) (h : Memory.wf s.mem = true) : Memory.wf (s.setBytes k l).mem = true := by
  induction l generalizing k s with
  | nil => exact h
  | cons b l ih => exact ih _ _ (tblWf_set _ _ _ _ h)

theorem State.wf_wr_regs (f : Fld) (v : Nat) (h : RegFile.wf s.regs = true) : RegFile.wf (s.wr f v).regs = true :=
  tblWf_set _ _ _ _ h

/-! A region that has been zeroed -/

/-- The lines of a region's zeroing queue on its vault's port, if its rate is one. -/
theorem State.queueLines_keeps {β : Type} (p : State → β) (v a n : Nat)
    (hvaults : ∀ (u : State) l, p { u with vaults := l } = p u) (hwr : ∀ (u : State) x, p (u.wr (R.VAULT_WQ_LEVEL_BYTES v) x) = p u) :
    p (s.queueLines v a n) = p s := by
  unfold State.queueLines
  dsimp only
  split
  · rfl
  · rw [State.setWq, hwr]
    exact hvaults _ _

/-- The region as it stands zeroed, but for what waits for memory. -/
def State.zeroedRegion (s : State) (v i : Nat) : State :=
  let h : HomeEntry := ⟨.resident, false, v, i, false, 0, 0, 0⟩
  let w := (((s.zeroKeys h.key (h.key + 0x20_0000)).clearMarks h).queueSlab h 0).setRegion v i .free
  let w := { w with mm := { w.mm with old := w.mm.old.filter fun o => !(o.vault == v && o.index == i) } }
  ((w.drop R.MEM_POOL_HELD_SLABS 1).bump R.MEM_POOL_FREE_SLABS 1).bump (R.VAULT_FREE_SLABS_SLABS v) 1

theorem vaultKey_region (v i : Nat) : vaultKey v (i * 0x20_0000) + 0x20_0000 = vaultKey v ((i + 1) * 0x20_0000) := by
  simp only [vaultKey]
  omega

theorem State.zeroedRegion_byte (v i k : Nat) : (s.zeroedRegion v i).byte k =
    if vaultKey v (i * 0x20_0000) ≤ k ∧ k < vaultKey v ((i + 1) * 0x20_0000) then unwritten else s.byte k := by
  rw [← vaultKey_region, ← State.zeroKeys_byte]
  change State.byte (State.queueLines _ v (i * 0x20_0000) (32768 + 0)) k = _
  rw [State.queueLines_keeps _ (·.byte k) _ _ _ (fun _ _ => rfl) fun _ _ => rfl]
  rfl

theorem State.zeroedRegion_mm (v i : Nat) : (s.zeroedRegion v i).region v i = .free ∧
    ∀ o : OldRegion, o ∈ (s.zeroedRegion v i).mm.old → ¬ (o.vault = v ∧ o.index = i) := by
  constructor
  · change tblGet Region.free (tblSet Region.free _ (v * 384 + i) Region.free) (v * 384 + i) = _
    exact tblGet_set_same _ _ _ _
  · intro o ho
    have hleft := (List.mem_filter.1 ho).2
    rintro ⟨hv, hi⟩
    simp [hv, hi] at hleft

/-- The pool's counts once a region is free again (R281). -/
theorem State.zeroedRegion_pool {v : Nat} (i : Nat) (hv : v < 152) :
    (s.zeroedRegion v i).rd R.MEM_POOL_FREE_SLABS = (s.rd R.MEM_POOL_FREE_SLABS + 1) % 2 ^ R.MEM_POOL_FREE_SLABS.width ∧
      (s.zeroedRegion v i).rd R.MEM_POOL_HELD_SLABS = s.rd R.MEM_POOL_HELD_SLABS - 1 := by
  obtain ⟨w, hw, heq⟩ : ∃ w : State, (∀ f : Fld, f.addr ≠ (R.VAULT_WQ_LEVEL_BYTES v).addr → w.rd f = s.rd f) ∧
      s.zeroedRegion v i = ((w.drop R.MEM_POOL_HELD_SLABS 1).bump R.MEM_POOL_FREE_SLABS 1).bump (R.VAULT_FREE_SLABS_SLABS v) 1 := by
    refine ⟨_, fun f hf => ?_, rfl⟩
    change (State.queueLines _ v (i * 0x20_0000) (32768 + 0)).rd f = _
    rw [State.queueLines_keeps _ (·.rd f) _ _ _ (fun _ _ => rfl) fun u x => u.rd_wr_addr _ _ _ hf]
    rfl
  have hfree : R.MEM_POOL_FREE_SLABS.addr ≠ (R.VAULT_FREE_SLABS_SLABS v).addr := by
    simp only [R.MEM_POOL_FREE_SLABS, R.VAULT_FREE_SLABS_SLABS]; omega
  have hheld : R.MEM_POOL_HELD_SLABS.addr ≠ (R.VAULT_FREE_SLABS_SLABS v).addr := by
    simp only [R.MEM_POOL_HELD_SLABS, R.VAULT_FREE_SLABS_SLABS]; omega
  have hfreeQ : R.MEM_POOL_FREE_SLABS.addr ≠ (R.VAULT_WQ_LEVEL_BYTES v).addr := by
    simp only [R.MEM_POOL_FREE_SLABS, R.VAULT_WQ_LEVEL_BYTES]; omega
  have hheldQ : R.MEM_POOL_HELD_SLABS.addr ≠ (R.VAULT_WQ_LEVEL_BYTES v).addr := by
    simp only [R.MEM_POOL_HELD_SLABS, R.VAULT_WQ_LEVEL_BYTES]; omega
  rw [heq, State.bump, State.rd_wr_addr _ _ _ _ hfree, State.rd_wr_addr _ _ _ _ hheld]
  constructor
  · rw [State.bump, State.rd_wr_same _ _ _ (by decide), State.drop, State.rd_wr_addr _ _ _ _ (by decide), hw _ hfreeQ]
  · rw [State.bump, State.rd_wr_addr _ _ _ _ (by decide), State.drop, hw _ hheldQ]
    exact State.rd_wr_fits _ (by decide) (Nat.lt_of_le_of_lt (Nat.sub_le _ _) (State.rd_lt s _))

end

section
variable {s : State} {t v i d : Nat}

theorem exec_regionZeroed (hv : v < 152) (hi : i < 384)
    (hold : ∃ o : OldRegion, o ∈ s.mm.old ∧ o.vault = v ∧ o.index = i ∧ o.released = true) :
    exec (.regionZeroed v i t) s = .next ((s.atTime t).zeroedRegion v i).serveAll := by
  have hany : (s.atTime t).mm.old.any (fun o => o.vault == v && o.index == i && o.released) = true := by
    obtain ⟨o, ho, hov, hoi, hor⟩ := hold
    exact List.any_eq_true.2 ⟨o, ho, by simp [hov, hoi, hor]⟩
  exact onUnit_of_and hv hi (if_pos hany)

theorem exec_oldRegionRelease (hv : v < 152) (hi : i < 384) : exec (.oldRegionRelease v i t) s =
    .next ((s.atTime t).mapOld v i fun o => { o with released := o.released || !(o.flights.any s.inFlight) }) :=
  onUnit_of_and hv hi rfl

/-- Regions whose flights are all over are released (R278). -/
theorem State.mapOld_released (h : ∀ o : OldRegion, o ∈ s.mm.old → ∀ f ∈ o.flights, s.inFlight f = false) :
    (s.mm.old.map fun o => if o.vault == v && o.index == i then { o with released := o.released || !(o.flights.any s.inFlight) } else o) =
      s.mm.old.map fun (o : OldRegion) => if o.vault == v && o.index == i then { o with released := true } else o := by
  refine List.map_congr_left fun o ho => ?_
  have hnone : o.flights.any s.inFlight = false := by simpa using h o ho
  simp [hnone]

/-- Regions with a flight under way stay as they are. -/
theorem State.mapOld_waiting (h : ∀ o : OldRegion, o ∈ s.mm.old → ∃ f ∈ o.flights, s.inFlight f = true) :
    (s.mm.old.map fun o => if o.vault == v && o.index == i then { o with released := o.released || !(o.flights.any s.inFlight) } else o) =
      s.mm.old := by
  refine (List.map_congr_left fun o ho => ?_).trans (List.map_id _)
  have hsome : o.flights.any s.inFlight = true := List.any_eq_true.2 (h o ho)
  simp [hsome]

end

/-- Settles O18: each command of moves, regions and lends is its one case. -/
theorem movesAndRegionsComplete : Obligations.MovesAndRegionsComplete := by
  intro s t
  refine ⟨fun x slab hx => onUnit_of_lt hx rfl, fun sector m hsector hfew hnext => onUnit_of_lt hsector ?start,
    fun x slab m hx hmove hpin => ⟨onUnit_of_lt hx ?freeze, onUnit_of_lt hx ?switch⟩, fun v i hv hi hidle => ?release,
    fun v i hv hi hbusy => ?waits, fun v i hv hi hold => ?zeroed, fun v i hv hi hold => onUnit_of_and hv hi ?stall,
    fun d n hd hnone => onUnit_of_lt hd ?lend, fun d k n hd hk hvalid hdev => onUnit_of_lt hd ?homed⟩
  case start =>
    have hnext' : (s.atTime t).nextMove sector = some m := hnext
    refine (if_pos hfew).trans ?_
    rw [hnext']
  case freeze =>
    have hmove' : (s.atTime t).moveOf x slab = some m := hmove
    have hpin' : (s.atTime t).mm.pins.contains (x, slab) = false := by simpa using hpin
    rw [hmove']
    dsimp only
    rw [hpin']
    rfl
  case switch =>
    have hmove' : (s.atTime t).moveOf x slab = some m := hmove
    have hpin' : (s.atTime t).mm.pins.contains (x, slab) = false := by simpa using hpin
    rw [hmove']
    dsimp only
    rw [hpin']
    rfl
  case release =>
    rw [exec_oldRegionRelease hv hi, ← State.mapOld_released hidle]
    rfl
  case waits =>
    rw [exec_oldRegionRelease hv hi, State.mapOld]
    dsimp only [State.atTime_mm]
    rw [State.mapOld_waiting hbusy]
    rfl
  case zeroed =>
    refine ⟨(s.atTime t).zeroedRegion v i, exec_regionZeroed hv hi hold, fun k hlo hhi => ?_, fun k hk => ?_,
      ((s.atTime t).zeroedRegion_mm v i).1, ((s.atTime t).zeroedRegion_mm v i).2, (s.atTime t).zeroedRegion_pool i hv⟩
    · rw [State.zeroedRegion_byte, if_pos ⟨hlo, hhi⟩]
    · rw [State.zeroedRegion_byte, if_neg (by omega)]
      rfl
  case stall =>
    refine if_pos ?_
    obtain ⟨o, ho, hov, hoi, hom, hor, hlate⟩ := hold
    exact List.any_eq_true.2 ⟨o, ho, by simpa [hov, hoi, hom, hor, State.atTime] using hlate⟩
  case lend =>
    change State.serveAll (State.lendHeard (s.atTime t) d n) = _
    have hnone' : (s.atTime t).lendOf d = none := hnone
    rw [State.lendHeard, hnone']
    rfl
  case homed =>
    change (s.atTime t).homedHeard d (k, n) = _
    refine if_pos ?_
    have hvalid' : (s.atTime t).rd (R.MEM_LEND_VALID k) = 1 := hvalid
    have hdev' : (s.atTime t).rd (R.MEM_LEND_DEVICE k) = d := hdev
    simp [hk, hvalid', hdev']

/-- Settles O19: memory and register fields are tables, read at the key written or at another. -/
theorem storesAndFieldWritesReadBack : Obligations.StoresAndFieldWritesReadBack := by
  intro s
  refine ⟨fun k l => ⟨fun i h => s.setBytes_byte_in k l h, fun a h => s.setBytes_byte_out k l h, s.setBytes_regs k l,
    s.wf_setBytes_mem k l⟩, fun f v hf => ⟨s.rd_wr_same f v hf, rfl, fun g hg => ?_, s.wf_wr_regs f v⟩, s.zeroKeys_byte⟩
  obtain haddr | hbits := hg
  · exact s.rd_wr_addr f g v haddr
  · exact s.rd_wr_bits f g v hf hbits

end Sys2Proof.Machine
end

section
/-! PROOFS. Job queues, jobs and their deadlines (R254 to R318). -/

namespace Sys2Proof.Machine

/-- Settles O20: a doorbell, a flush and the completion writer in the case each clause gives. -/
theorem jobQueueCommandsComplete : Obligations.JobQueueCommandsComplete := by
  intro s x q decode t hq hdecode
  refine ⟨fun tail hx hopen hroom => onUnit_of_and hx hq ?bell, fun hx hopen => onUnit_of_and hx hq ?flush,
    fun j u hx hj hgen hhgen hbase hfree hu => onUnit_of ?unit ?ring, fun j hlo hhi hj hkind hok => onUnit_of ?radioUnit ?radio⟩
  case unit =>
    have hx80 : x < 80 := by omega
    simp [hx80, hq, hdecode]
  case radioUnit => simp [hhi, hq, hdecode]
  case bell =>
    have hopen' : (s.atTime t).sliceOpen x = true := hopen
    dsimp only
    rw [hopen']
    exact if_neg (Nat.not_lt.2 hroom)
  case flush =>
    have hopen' : (s.atTime t).sliceOpen x = true := hopen
    dsimp only
    rw [hopen']
    rfl
  case ring =>
    have hj' : (s.atTime t).sched.jobs.find? (fun j => j.slice == x && j.queue == q && j.phase == .ended) = some j := hj
    have hx64 : ¬ 64 ≤ x := by omega
    have hbase' : ¬ 2 ^ 56 ≤ (s.atTime t).rd (R.CQ_BASE_ADDR x q) * 32 := Nat.not_le.2 hbase
    have hroom : ¬ 2 ^ (s.atTime t).rd (R.CQ_SIZE_SIZE_LOG2 x q) ≤ (s.atTime t).cqUsed x q := Nat.not_le.2 hfree
    dsimp only
    rw [hj']
    refine (if_neg hx64).trans ((if_neg (not_not.2 hgen)).trans ((if_neg (by rw [decide_eq_false hbase']; simp [hhgen])).trans ((if_neg hroom).trans ?_)))
    rw [hu]
    rfl
  case radio =>
    dsimp only [State.atTime_sched]
    rw [hj]
    dsimp only
    rw [if_pos hlo]
    simp [State.iff, hkind, hok]

section
variable {s w : State} {job cyc t : Nat} {j : JobRec}

/-- A launch job whose tiles are ready starts at LAUNCH_TIME (R256). -/
theorem exec_jobLaunch {binds : List (Nat × Nat)} (hw : w = s.atTime t) (hjob : s.job job = some j) (hheld : j.phase = .held)
    (hdue : w.untilWord j.launch ≤ 0) (hup : w.jasperDown = false)
    (hlock : j.mode / 16 % 2 = 0 ∨ w.rd R.DEV_STATUS_TIME_LOCK = 1 ∨ w.clk.lostAt = w.now + 1)
    (hslack : j.slack = 0 ∨ (-(w.untilWord j.launch)).toNat ≤ j.slack) (hhalt : w.tilesHalt j = false)
    (hfree : (if j.slice < 64 then j.tiles.all (w.tileFree j.slice) else w.mayLoad j) = true)
    (hhost : j.hgen = 0 ∨ w.rd R.HB_SESSION_STATUS_STATE ≠ 2) :
    ∃ v, v = (w.each j.tiles fun s k => s.wr (R.SCHED_TILE_LAUNCH_PLANNED k) 0) ∧
      exec (.jobLaunch job cyc t binds) s =
        .next (((((v.put j.slice (j.policy + 0x40) (toBytes 4 (ofBytes (v.hBytes j.slice (j.policy + 0x40) 4) % 4 + 4 +
            (if w.untilWord j.launch = 0 then 0 else 8)))).put j.slice (j.policy + 0x48)
          (toBytes 4 (min (-(w.untilWord j.launch)).toNat 0xFFFF_FFFF))).standIns j.slice j.tiles binds).startJob
            { j with launched := true } cyc).showTiles j.slice) := by
  refine ⟨_, rfl, ?_⟩
  have hjob' : w.job job = some j := hw ▸ hjob
  have hnotWaiting : ¬ (j.phase != .held || decide (0 < w.untilWord j.launch) || w.jasperDown) = true := by
    simp [hheld, hup, Int.not_lt.2 hdue]
  have hlocked : ¬ (decide (j.mode / 16 % 2 = 1) && decide (w.rd R.DEV_STATUS_TIME_LOCK = 0) && decide (w.clk.lostAt ≠ w.now + 1)) = true := by
    simp only [Bool.and_eq_true, decide_eq_true_eq]
    omega
  have hlate : ¬ (decide (j.slack ≠ 0) && decide (j.slack < (-(w.untilWord j.launch)).toNat)) = true := by
    simp only [Bool.and_eq_true, decide_eq_true_eq]
    omega
  have hready : ¬ (w.tilesHalt j || !(if j.slice < 64 then j.tiles.all (w.tileFree j.slice) else w.mayLoad j) ||
      decide (w.rd R.HB_SESSION_STATUS_STATE = 2) && decide (j.hgen ≠ 0)) = true := by
    obtain h | h := hhost <;> simp [hhalt, hfree, h]
  have hexact : ((-(w.untilWord j.launch)).toNat = 0) = (w.untilWord j.launch = 0) := by
    refine propext ?_
    omega
  change execJobLaunch job cyc t s binds = _
  unfold execJobLaunch
  rw [← hw]
  dsimp only
  rw [hjob']
  dsimp only
  rw [if_neg hnotWaiting, if_neg hlocked, if_neg hlate, if_neg hready]
  simp only [hexact]

end

/-- Settles O21: the commands of a job's life, each in the case its clause gives. -/
theorem jobsRunAndLaunch : Obligations.JobsRunAndLaunch := by
  refine ⟨fun s job cyc t binds j hj => ⟨fun hphase hhalt hload => ?start, fun hphase hfail hstatus hstopped => ?finish,
    fun hphase hfail hstopped hlate => ⟨fun hplain => ?abort, fun hreal hprim => ?replace⟩, fun hreal => ?begin⟩,
    fun s w job cyc t binds j hw hj hheld => ⟨fun hnear => ?close,
      fun hdue hup hlock hslack hhalt hfree hhost => exec_jobLaunch hw hj hheld hdue hup hlock hslack hhalt hfree hhost,
      fun hslack hlate => ?missed⟩⟩
  case start =>
    have hj' : (s.atTime t).job job = some j := hj
    change execJobStart job cyc t binds s = _
    unfold execJobStart
    dsimp only
    rw [hj']
    simp [hphase, hhalt, hload]
  case finish =>
    have hj' : (s.atTime t).job job = some j := hj
    have hfail' : (s.atTime t).firstFail j = none := hfail
    have hstopped' : (s.atTime t).allStopped j = true := hstopped
    change execJobEnd job cyc t s = _
    unfold execJobEnd
    dsimp only
    rw [hj']
    simp [hphase, hfail', hstatus, hstopped']
  case abort =>
    have hj' : (s.atTime t).job job = some j := hj
    have hfail' : (s.atTime t).firstFail j = none := hfail
    have hstopped' : (s.atTime t).allStopped j = false := hstopped
    have hlate' : ¬ (s.atTime t).now < j.startNs + j.bound := Nat.not_lt.2 hlate
    change execJobBoundExpiry job cyc t s = _
    unfold execJobBoundExpiry
    dsimp only
    rw [hj']
    dsimp only
    rw [if_neg (by simp [hphase, hfail', hstopped', hlate']), if_neg (by obtain h | h := hplain <;> simp [h])]
  case replace =>
    have hj' : (s.atTime t).job job = some j := hj
    have hfail' : (s.atTime t).firstFail j = none := hfail
    have hstopped' : (s.atTime t).allStopped j = false := hstopped
    have hlate' : ¬ (s.atTime t).now < j.startNs + j.bound := Nat.not_lt.2 hlate
    change execJobBoundExpiry job cyc t s = _
    unfold execJobBoundExpiry
    dsimp only
    rw [hj']
    dsimp only
    rw [if_neg (by simp [hphase, hfail', hstopped', hlate']), if_pos (by simp [hreal, hprim])]
  case begin =>
    rw [State.startJob, hreal]
    rfl
  case close =>
    have hj' : w.job job = some j := hw ▸ hj
    change execLaunchPlanClose job t s = _
    unfold execLaunchPlanClose
    rw [← hw]
    dsimp only
    rw [hj']
    simp [hheld, hnear]
  case missed =>
    have hj' : w.job job = some j := hw ▸ hj
    change execLaunchSlackExpiry job t s = _
    unfold execLaunchSlackExpiry
    rw [← hw]
    dsimp only
    rw [hj']
    simp [hheld, hslack, hlate]

/-! Deadlines and supplies -/

/-- Rounded-down shares add up to no more than the whole. -/
theorem sum_shares_mul_le (u total : Nat) (weight : Nat → Nat) (l : List Nat) :
    (l.map fun g => u * weight g / total).sum * total ≤ u * (l.map weight).sum := by
  induction l with
  | nil => simp
  | cons g l ih =>
    simp only [List.map_cons, List.sum_cons, Nat.add_mul, Nat.mul_add]
    exact Nat.add_le_add (Nat.div_mul_le_self _ _) ih

theorem sum_shares_le {u : Nat} {weight : Nat → Nat} {l : List Nat} (h : (l.map weight).sum ≠ 0) :
    (l.map fun g => u * weight g / (l.map weight).sum).sum ≤ u :=
  Nat.le_of_mul_le_mul_right (sum_shares_mul_le u _ weight l) (Nat.pos_of_ne_zero h)

/-- What is left over goes to the first of a list: the sum grows by it. -/
theorem sum_map_add_head {l : List Nat} (f : Nat → Nat) (r : Nat) (hne : l ≠ []) (hnodup : l.Nodup) :
    (l.map fun g => f g + if l.head? == some g then r else 0).sum = (l.map f).sum + r := by
  obtain _ | ⟨a, l⟩ := l
  · exact absurd rfl hne
  · have hrest : l.map (fun g => f g + if (a :: l).head? == some g then r else 0) = l.map f := by
      refine List.map_congr_left fun g hg => ?_
      have hother : a ≠ g := fun h => (List.nodup_cons.1 hnodup).1 (h ▸ hg)
      simp [hother]
    rw [List.map_cons, List.sum_cons, hrest, List.map_cons, List.sum_cons]
    simp
    omega

/-- Settles O22: checkpoints and fall-backs in the case each clause gives; the supply is divided by rounded-down shares and
the remainder goes to the first active group. -/
theorem deadlinesAndSuppliesComplete : Obligations.DeadlinesAndSuppliesComplete := by
  refine ⟨fun s w job i cyc t j hw hj => ?deadlines, fun s w v t act total hw hnew hv hact htotal => ?supply⟩
  case deadlines =>
    have hj' : w.job job = some j := hw ▸ hj
    refine ⟨fun hwaits hreached hroom => ?_, fun hwaits hreached hlate => ?_, fun hwaits hreached hlate => ?_, fun hdue hidle => ?_,
      fun hclass hroom => ?_, fun hclass hlate => ?_⟩
    · change execCheckpointReached job i cyc t s = _
      unfold execCheckpointReached
      rw [← hw]
      dsimp only
      rw [hj']
      simp [hwaits, hreached, Int.not_lt.2 hroom]
    · change execCheckpointReached job i cyc t s = _
      unfold execCheckpointReached
      rw [← hw]
      dsimp only
      rw [hj']
      simp [hwaits, hreached, hlate]
    · change execCheckpointTimeout job i cyc t s = _
      unfold execCheckpointTimeout
      rw [← hw]
      dsimp only
      rw [hj']
      simp [hwaits, hreached, Int.not_lt.2 hlate]
    · have hall : (j.tiles.all fun k => w.rd (R.TILE_ARRAY_STATUS_LEVEL k) == 0 && (w.tile k).job.isNone) = true := by
        refine List.all_eq_true.2 fun k hk => ?_
        obtain ⟨hlevel, hjob⟩ := hidle k hk
        simp [hw, hlevel, hjob]
      change execFallbackStart job cyc t s = _
      unfold execFallbackStart
      rw [← hw]
      dsimp only
      rw [hj']
      dsimp only
      rw [if_pos (by rw [hdue, hall]; rfl)]
    · change execClassicalDoneSignal job t s = _
      unfold execClassicalDoneSignal
      rw [← hw]
      dsimp only
      rw [hj']
      simp [hclass, hroom]
    · change execDeadlineExpiry job t s = _
      unfold execDeadlineExpiry
      rw [← hw]
      dsimp only
      rw [hj']
      simp [hclass, hlate]
  case supply =>
    obtain ⟨share, hshare⟩ : ∃ share : Nat → Nat, share = fun g => if total = 0 then 0 else
      w.sched.supply * w.rd (R.SCHED_SG_WEIGHT_WEIGHT g) / total := ⟨_, rfl⟩
    refine ⟨fun g => share g + if act.head? == some g then w.sched.supply - (act.map share).sum else 0, ?_, fun g _ hhead hne => ?_,
      fun hne => ?_⟩
    · change execAccountingPeriod t s = _
      unfold execAccountingPeriod
      rw [← hw]
      dsimp only
      rw [if_neg hnew, ← hv]
      have hweight : ∀ f, v.rd f = w.rd f := fun f => by rw [hv]; rfl
      simp only [← hact, hweight, ← htotal, hshare]
    · have hother : (act.head? == some g) = false := by simpa using hhead
      simp [hother, hshare, hne]
    · have hsum : (act.map fun g => w.rd (R.SCHED_SG_WEIGHT_WEIGHT g)).sum ≠ 0 := htotal ▸ hne
      have hle : (act.map share).sum ≤ w.sched.supply := by
        have hdivides : share = fun g => w.sched.supply * w.rd (R.SCHED_SG_WEIGHT_WEIGHT g) / total := by simp [hshare, hne]
        rw [hdivides, htotal]
        exact sum_shares_le hsum
      have hnonempty : act ≠ [] := by
        rintro rfl
        exact hsum rfl
      rw [sum_map_add_head share _ hnonempty (hact ▸ List.nodup_range.filter _)]
      omega

/-- Settles O23: the writes of a FREE entry, and a step that passes its checks. -/
theorem sequenceCommandsComplete : Obligations.SequenceCommandsComplete := by
  intro s x t hx hopen
  have hopen' : (s.atTime t).sliceOpen x = true := hopen
  refine ⟨fun i v hi hfree => ?entry, fun m dec pre l w ops hm hwork hen hup hdone hsome hl hlen hw hlist hdesc => onUnit_of_and hx hm ?step⟩
  case entry =>
    have hshare : ¬ (!(s.atTime t).sliceOpen x || decide ((s.atTime t).rd (R.SC_SEQ_SEQ_SHARE x) ≤ i)) = true := by
      have hi' : ¬ (s.atTime t).rd (R.SC_SEQ_SEQ_SHARE x) ≤ i := Nat.not_le.2 hi
      rw [hopen', decide_eq_false hi']
      simp
    have hstate : ¬ (s.atTime t).rd (R.SEQ_STATE_STATE x i) ≠ 0 := not_not.2 hfree
    refine ⟨onUnit_of_and hx (by decide : 1 < 4) ?_, onUnit_of_and hx (by decide : 2 < 4) ?_, onUnit_of_and hx (by decide : 3 < 4) ?_,
      onUnit_of_and hx (by decide : 0 < 4) ?_⟩ <;>
    exact (if_neg hshare).trans (if_neg hstate)
  case step =>
    have hwork' : (s.atTime t).workList x m = (dec, pre) := hwork
    have hidle : (s.atTime t).sched.jobs.any (fun j => j.slice == x && j.model == m + 1 && j.phase != .ended) = false := by
      refine List.any_eq_false.2 fun j hj => ?_
      by_cases hmine : j.slice = x ∧ j.model = m + 1
      · simp [hdone j hj hmine.1 hmine.2]
      · simp only [Bool.and_eq_true, beq_iff_eq]
        tauto
    have hwants : ¬ (!(s.atTime t).sliceOpen x || decide ((s.atTime t).rd (R.MODEL_CTRL_ENABLE x m) = 0) ||
        (s.atTime t).sched.jobs.any (fun j => j.slice == x && j.model == m + 1 && j.phase != .ended) || (s.atTime t).jasperDown
        || (dec.isEmpty && pre.isEmpty)) = true := by
      have hen' : ¬ (s.atTime t).rd (R.MODEL_CTRL_ENABLE x m) = 0 := by
        rw [State.atTime_rd, hen]
        decide
      have hup' : (s.atTime t).jasperDown = false := hup
      rw [hopen', hidle, hup', decide_eq_false hen']
      obtain h | h := hsome <;> simp [h]
    have hpasses : ¬ (decide (w.rd (R.MODEL_WLIST_LEN_BYTES x m) < l.length) || !w.addrOk x (w.rd (R.MODEL_WLIST_ADDR x m)) 64 l.length ||
        !w.addrOk x (w.rd (R.MODEL_STEP_DESC x m)) 64 128) = true := by
      have hlen' : ¬ w.rd (R.MODEL_WLIST_LEN_BYTES x m) < l.length := Nat.not_lt.2 (hw ▸ hlen)
      have hlist' : w.addrOk x (w.rd (R.MODEL_WLIST_ADDR x m)) 64 l.length = true := hw ▸ hlist
      have hdesc' : w.addrOk x (w.rd (R.MODEL_STEP_DESC x m)) 64 128 = true := hw ▸ hdesc
      rw [decide_eq_false hlen', hlist', hdesc']
      decide
    have hkinds : (if dec.isEmpty then (x * 16 + m) :: (s.atTime t).sched.lastPrefill.filter (fun k => k != x * 16 + m)
        else (s.atTime t).sched.lastPrefill.filter (fun k => k != x * 16 + m)) =
        (if dec.isEmpty then [x * 16 + m] else []) ++ s.sched.lastPrefill.filter (fun k => k != x * 16 + m) := by
      split <;> rfl
    dsimp only
    rw [hwork']
    refine (if_neg hwants).trans ?_
    rw [hkinds]
    have hw' : ({ s.atTime t with sched := { (s.atTime t).sched with lastPrefill :=
      (if dec.isEmpty then [x * 16 + m] else []) ++ s.sched.lastPrefill.filter (fun k => k != x * 16 + m) } } : State) = w := hw.symm
    rw [hw']
    have hl' : (s.atTime t).workBytes x m ((s.atTime t).policyMode x ((s.atTime t).vbytes x ((s.atTime t).rd (R.MODEL_STEP_DESC x m)) 128) % 4 == 1)
      dec pre = l := hl.symm
    rw [hl']
    have hat : s.rd (R.MODEL_WLIST_ADDR x m) = w.rd (R.MODEL_WLIST_ADDR x m) := by rw [hw]; rfl
    have hof : s.rd (R.MODEL_STEP_DESC x m) = w.rd (R.MODEL_STEP_DESC x m) := by rw [hw]; rfl
    rw [State.atTime_rd, State.atTime_rd, hat, hof, if_neg hpasses]

end Sys2Proof.Machine
end

section
/-! PROOFS. Claims of tiles and the full scrub (R178, R320 to R322). -/

namespace Sys2Proof.Machine

/-! The scale file at reset -/

/-- The tiles' block (R73). -/
def tileBlock : BlockDef := ⟨.tile, 0x100000, [⟨136, 65536⟩], 0x8000, 0x10, regsTile1 ++ regsTile2⟩

/-- TILE_SCALE's row: RO fields that reset to 0. -/
def tileScaleReg : RegDef := ⟨"TILE_SCALE", 0x7000, [⟨1024, 4⟩], 4, .none,
  [⟨0, 8, .ro, 0, none⟩, ⟨8, 8, .ro, 0, none⟩, ⟨16, 8, .ro, 0, none⟩, ⟨24, 8, .ro, 0, none⟩]⟩

theorem regMatch_tileScale {k : Nat} (hk : k < 1024) : regMatch tileScaleReg (0x7000 + 4 * k) = some [k] := by
  have hoff : 0x7000 + 4 * k - 0x7000 = 4 * k := Nat.add_sub_cancel_left _ _
  have hdiv : 4 * k / 4 = k := Nat.mul_div_cancel_left _ (by decide)
  have hmod : 4 * k % 4 = 0 := Nat.mul_mod_right _ _
  unfold regMatch
  rw [if_pos (show tileScaleReg.off ≤ 0x7000 + 4 * k from Nat.le_add_right _ _), show tileScaleReg.off = 0x7000 from rfl, hoff]
  simp [tileScaleReg, dimSplit, hdiv, hmod, hk]

theorem regLookup_tileScale {k : Nat} (hk : k < 1024) : regLookup tileBlock.regs (0x7000 + 4 * k) = some (tileScaleReg, [k]) := by
  have hrows : tileBlock.regs = tileScaleReg :: tileBlock.regs.tail := rfl
  rw [hrows, regLookup, regMatch_tileScale hk]

section
variable {site : Nat} (hsite : site < 136)
include hsite

theorem blockMatch_tile {off : Nat} (h : off < 65536) : blockMatch tileBlock (tileBlock.base + (65536 * site + off)) = some ([site], off) := by
  have hdiv : (65536 * site + off) / 65536 = site := by omega
  have hmod : (65536 * site + off) % 65536 = off := by omega
  refine blockMatch_base_add ?_ (by decide) h
  simp [tileBlock, dimSplit, hdiv, hmod, hsite]

theorem regFind_tileScale {k : Nat} (hk : k < 1024) :
    regFind (R.TILE_SCALE_ENTRY0 site k).addr = some ⟨tileBlock, [site], tileScaleReg, [k], false⟩ := by
  have ha : (R.TILE_SCALE_ENTRY0 site k).addr = tileBlock.base + (65536 * site + (0x7000 + 4 * k)) := by
    simp only [R.TILE_SCALE_ENTRY0, tileBlock]; omega
  have hbelow : ∀ b ∈ regBlocks.take 7, b.spaced = true ∧ b.bound ≤ tileBlock.base := by decide
  have hsplit : regBlocks = regBlocks.take 7 ++ tileBlock :: regBlocks.drop 8 := rfl
  rw [ha, regFind, hsplit, regFindIn_append_of_bound_le _ _ fun b hb => (hbelow b hb).imp_right (·.trans (Nat.le_add_right _ _)),
    regFindIn, blockMatch_tile hsite (by omega)]
  simp only [regLookup_tileScale hk]

theorem regReset_tileScale {k : Nat} (hk : k < 1024) : regReset (R.TILE_SCALE_ENTRY0 site k).addr = 0 := by
  rw [regReset, regFind_tileScale hsite hk]
  rfl

end

/-! What the scrubs leave alone -/

section
variable (s : State) (site cyc : Nat)

theorem State.retire_mem (n : Nat) (c : RunCmd) : (s.retire site cyc n c).mem = s.mem := by
  have htally : ∀ w : ArrayWork, (s.tallyArray site cyc w).mem = s.mem := fun w => by
    unfold State.tallyArray
    dsimp only
    split <;> rfl
  have hleave : ∀ (u : State) (w : SeamWork), (u.leaveEngine site cyc n c w).mem = u.mem := fun u w => by
    simp only [State.leaveEngine, State.showEngine, State.bump, State.wr_mem, State.wrs_mem, State.setVault_mem]
  unfold State.retire
  cases c.seam <;> cases c.unit <;> cases c.array <;>
    simp only [hleave, htally, State.bump, State.wr_mem, State.setTile_mem]

theorem State.jobEndScrub_mem : (s.jobEndScrub site cyc).mem = s.mem := by
  have hland : ∀ (u : State) (r : Option (Nat × Bool)), (u.landPackets r).mem = u.mem := fun u r => by
    cases r <;> rfl
  have hramp : ∀ u : State, (u.rampDown site cyc).mem = u.mem := fun u => by
    unfold State.rampDown
    dsimp only
    split <;> rfl
  unfold State.jobEndScrub
  dsimp only
  rw [State.wr_mem, State.each_keeps (·.mem) fun u n _ => u.wr_mem _ _, State.each_keeps (·.mem) fun u q _ => u.wr_mem _ _,
    State.setTile_mem, hramp, State.each_keeps (·.mem) fun u r _ => hland u _, State.each_keeps (·.mem) fun u r _ => hland u _,
    State.each_keeps (·.mem) fun u c _ => u.retire_mem site cyc 0 c]

/-- Cleared accumulators read zero. -/
theorem State.accAt_cleared {row col : Nat} (hrow : row < 512) (hcol : col < 128) :
    ({ s with acc := tblClear s.acc (accKey site 0 0) (accKey site 512 0) } : State).accAt site row col = 0 := by
  have hin : accKey site 0 0 ≤ accKey site row col ∧ accKey site row col < accKey site 512 0 := by
    simp only [accKey]
    omega
  simp only [State.accAt, tblGet, tblFind_clear, if_pos hin]
  rfl

/-- What the full scrub writes last: the level and the bank the array shows. -/
def scrubWrites (site : Nat) : List (Fld × Nat) :=
  [(R.TILE_ARRAY_STATUS_STATE site, 1), (R.TILE_ARRAY_STATUS_LEVEL site, 0), (R.TILE_ARRAY_STATUS_STAT_BANK site, 0)]

theorem State.rd_level_scrubWrites : (s.wrs (scrubWrites site)).rd (R.TILE_ARRAY_STATUS_LEVEL site) = 0 := by
  simp only [scrubWrites, State.wrs_cons, State.wrs_nil]
  rw [State.rd_wr_bits _ _ _ _ (by decide : 8 + 1 ≤ 64) (.inr (by decide : 3 + 5 ≤ 8))]
  exact State.rd_wr_fits _ (by decide : 3 + 5 ≤ 64) (by decide : 0 < 2 ^ 5)

/-- The full scrub before its last writes: everything of the tile cleared. -/
def State.scrubbed (s : State) (site cyc : Nat) : State :=
  let t := s.jobEndScrub site cyc
  let t := t.zeroKeys (tileKey site 0) (tileKey site sramSize)
  let x := t.tile site
  let t := t.setTile site { x with bankMoves := [], running := [], dummySteps := 0, stat0 := [], stat1 := [] }
  let b := 0x100000 + 65536 * site
  let t := ((t.resetRegs (b + 0x2000) (b + 0x2008)).resetRegs (b + 0x6000) (b + 0x6C00)).resetRegs (b + 0x7000) (b + 0x8000)
  { t with acc := tblClear t.acc (accKey site 0 0) (accKey site 512 0) }

theorem State.fullScrub_eq : s.fullScrub site cyc = (s.scrubbed site cyc).wrs (scrubWrites site) := rfl

theorem State.fullScrub_byte (k : Nat) : (s.fullScrub site cyc).byte k =
    if tileKey site 0 ≤ k ∧ k < tileKey site sramSize then unwritten else s.byte k := by
  have hbyte : (s.jobEndScrub site cyc).byte k = s.byte k := State.byte_congr (s.jobEndScrub_mem site cyc) k
  rw [← hbyte, ← State.zeroKeys_byte]
  have hmem : (s.scrubbed site cyc).mem = ((s.jobEndScrub site cyc).zeroKeys (tileKey site 0) (tileKey site sramSize)).mem := rfl
  rw [State.fullScrub_eq, State.byte_congr (State.wrs_mem _ _) k, State.byte_congr hmem k]

theorem State.fullScrub_accAt {row col : Nat} (hrow : row < 512) (hcol : col < 128) : (s.fullScrub site cyc).accAt site row col = 0 := by
  have hacc : (s.fullScrub site cyc).acc = (s.scrubbed site cyc).acc := State.wrs_acc _ _
  rw [State.accAt, hacc]
  exact State.accAt_cleared _ _ hrow hcol

/-- The scale file is at reset after the full scrub. -/
theorem State.fullScrub_scale {n : Nat} (hsite : site < 136) (hn : n < 4096) : (s.fullScrub site cyc).rd (scaleFld site n) = 0 := by
  have hk : n / 4 < 1024 := by omega
  have hother : (scaleFld site n).addr ∉ (scrubWrites site).map (·.1.addr) := by
    simp only [scrubWrites, scaleFld, R.TILE_SCALE_ENTRY0, R.TILE_ARRAY_STATUS_STATE, R.TILE_ARRAY_STATUS_LEVEL, R.TILE_ARRAY_STATUS_STAT_BANK,
      List.map_cons, List.map_nil, List.mem_cons, List.not_mem_nil, or_false]
    omega
  have hin : 0x100000 + 65536 * site + 0x7000 ≤ (scaleFld site n).addr ∧ (scaleFld site n).addr < 0x100000 + 65536 * site + 0x8000 := by
    simp only [scaleFld, R.TILE_SCALE_ENTRY0]
    omega
  have hword : regWord (s.scrubbed site cyc).regs (scaleFld site n).addr = 0 := by
    change tblGet _ (tblClear _ (0x100000 + 65536 * site + 0x7000) (0x100000 + 65536 * site + 0x8000)) _ = _
    rw [tblGet, tblFind_clear, if_pos hin]
    exact regReset_tileScale hsite hk
  rw [State.fullScrub_eq, State.rd_wrs_of_notMem _ hother, State.rd, fldGet, hword]
  simp [bitsOf]

end

section
variable {s w : State} {site cyc t : Nat}

theorem exec_claim {cluster : Nat} (hsite : site < 136) (hcluster : cluster < 16) (hw : w = s.atTime t) (hup : s.flintUp = true)
    (hshed : s.rd R.POWER_STATUS_SHED_STEP < 7) (hon : s.tileOn site = true) (hswing : s.rd (R.SCHED_TILE_SWING site) = 1)
    (hholder : s.rd (R.SCHED_TILE_HOLDER site) < 64 ∨ s.rd (R.SCHED_TILE_HOLDER site) = 0x7E) (hnone : s.claimOf site = none) :
    exec (.claim site cluster t) s =
      .next ((({ w.unplace site with sched := { (w.unplace site).sched with
        claims := (w.unplace site).sched.claims ++ [Claim.mk site cluster (w.unplace site).now false false false] } }.sat
        R.SCHED_CLAIM_COUNT_COUNT 1).wr (R.SCHED_TILE_STATE site) 3).showScrub site) := by
  rw [hw]
  have hup' : (s.atTime t).flintUp = true := hup
  have hon' : (s.atTime t).tileOn site = true := hon
  have hnone' : (s.atTime t).claimOf site = none := hnone
  have hshed' : ¬ 7 ≤ (s.atTime t).rd R.POWER_STATUS_SHED_STEP := Nat.not_le.2 hshed
  have hswing' : ¬ (s.atTime t).rd (R.SCHED_TILE_SWING site) = 0 := by
    rw [State.atTime_rd, hswing]
    decide
  have hholder' : (decide ((s.atTime t).rd (R.SCHED_TILE_HOLDER site) < 64) || (s.atTime t).rd (R.SCHED_TILE_HOLDER site) == 0x7E) = true := by
    rw [State.atTime_rd]
    obtain h | h := hholder <;> simp [h]
  refine onUnit_of_and hsite hcluster (if_neg ?_)
  rw [hup', hon', hnone', decide_eq_false hshed', decide_eq_false hswing', hholder']
  decide

end

/-- Settles O24: claims in the case each clause gives; the full scrub clears the tile's SRAM, accumulators and scale file. -/
theorem claimsAndScrubsComplete : Obligations.ClaimsAndScrubsComplete := by
  refine ⟨fun s w site cluster cyc t hsite hw => ⟨fun hcluster hup hshed hon hswing hholder hnone =>
      exec_claim hsite hcluster hw hup hshed hon hswing hholder hnone, fun c hc hdone hrel hten hjob hlevel => ?complete,
      fun c hc hdone hover hlate => onUnit_of_lt hsite ?overrun, fun c hc => ⟨fun hbusy => onUnit_of_lt hsite ?early,
        fun hdone hjobOn hjob hlevel => onUnit_of_lt hsite ?release⟩, fun hon hjobOn hjob hlevel => ⟨fun c hc hdone hrel => onUnit_of hon ?back,
          fun hdue hres hnone => ?moved⟩⟩,
    fun s site cyc hsite => ⟨fun a ha => ?sram, fun k hk => ?others, fun row col hrow hcol => s.fullScrub_accAt site cyc hrow hcol,
      fun n hn => s.fullScrub_scale site cyc hsite hn, ?level⟩⟩
  case complete =>
    have hc' : w.claimOf site = some c := hw ▸ hc
    have hten' : w.tenantOn site = false := hw ▸ hten
    have hjob' : (w.tile site).job = none := hw ▸ hjob
    have hlevel' : ¬ w.rd (R.TILE_ARRAY_STATUS_LEVEL site) ≠ 0 := not_not.2 (hw ▸ hlevel)
    refine ⟨_, _, onUnit_of_lt hsite ?_, rfl, rfl⟩
    rw [← hw]
    dsimp only
    rw [hc']
    dsimp only
    rw [if_neg (by rw [hdone, hten', hjob', decide_eq_false hlevel']; decide), hrel]
    rfl
  case overrun =>
    have hc' : w.claimOf site = some c := hw ▸ hc
    have hlate' : ¬ w.now < c.since + 250_000 := Nat.not_lt.2 (hw ▸ hlate)
    rw [← hw]
    dsimp only
    rw [hc']
    dsimp only
    rw [if_neg (by rw [hdone, hover, decide_eq_false hlate']; decide)]
  case early =>
    have hc' : w.claimOf site = some c := hw ▸ hc
    rw [← hw]
    dsimp only
    rw [hc']
    refine if_pos ?_
    subst hw
    rcases hbusy with h | h | h | h
    · simp [h]
    · have h' : (s.atTime t).jobOn site = true := h
      simp [h']
    · simp [Option.isSome_iff_ne_none, h]
    · simp [h]
  case release =>
    have hc' : w.claimOf site = some c := hw ▸ hc
    rw [← hw]
    dsimp only
    rw [hc']
    refine if_neg ?_
    subst hw
    have h' : (s.atTime t).jobOn site = false := hjobOn
    simp [hdone, h', hjob, hlevel]
  case back =>
    have hc' : w.claimOf site = some c := hw ▸ hc
    have hjobOn' : w.jobOn site = false := hw ▸ hjobOn
    have hjob' : (w.tile site).job = none := hw ▸ hjob
    have hlevel' : ¬ w.rd (R.TILE_ARRAY_STATUS_LEVEL site) ≠ 0 := not_not.2 (hw ▸ hlevel)
    rw [← hw]
    dsimp only
    rw [if_neg (by rw [hjobOn', hjob', decide_eq_false hlevel']; decide), hc', if_pos (by simp [hdone, hrel])]
  case moved =>
    have hnone' : w.claimOf site = none := hw ▸ hnone
    have hres' : w.inReserve site = false := hw ▸ hres
    have hjobOn' : w.jobOn site = false := hw ▸ hjobOn
    have hjob' : (w.tile site).job = none := hw ▸ hjob
    have hlevel' : ¬ w.rd (R.TILE_ARRAY_STATUS_LEVEL site) ≠ 0 := not_not.2 (hw ▸ hlevel)
    have hdue' : (w.sched.scrubDue.contains site || w.rd (R.SCHED_TILE_HOLDER site) != w.planHolder site) = true := by
      obtain h | h := hdue
      · have hin : w.sched.scrubDue.contains site = true := by rw [hw]; simpa using h
        rw [hin]
        rfl
      · have hne : w.rd (R.SCHED_TILE_HOLDER site) ≠ w.planHolder site := hw ▸ h
        simp [hne]
    refine ⟨_, _, onUnit_of hon ?_, rfl, rfl⟩
    rw [← hw]
    dsimp only
    rw [if_neg (by rw [hjobOn', hjob', decide_eq_false hlevel']; decide), hnone', if_neg (by simp), hdue', hres', if_neg (by simp)]
  case sram =>
    rw [State.fullScrub_byte, if_pos]
    simp only [tileKey, sramSize] at ha ⊢
    omega
  case others => rw [State.fullScrub_byte, if_neg (by omega)]
  case level => rw [State.fullScrub_eq, State.rd_level_scrubWrites]

end Sys2Proof.Machine
end

section
/-! PROOFS. Slot tables: built, run, and their FAPI requests (R331 to R344). -/

namespace Sys2Proof.Machine

/-- The table a seal adds to its cluster (R339). -/
def State.sealedTable (w : State) (c n : Nat) (bytes : List (BitVec 8)) : SlotTable :=
  let s := (w.carriersAtSeal c n).showAir
  { slot := n, id := bankNum bytes 0 4, skel := entriesOf ((bytes.drop 64).take (16 * bankNum bytes 4 2)), patch := [],
    carriers := bankNum bytes 8 2, patched := 0, neural := bankNum bytes 0xC 2,
    nulls := maskOf fun i => match s.carrierAt c i with
      | some k => !s.carrierServes k || n < (s.carrier k).startAt
      | none => false
    settings := (List.range 16).map fun i => (i, s.rxSettings c i), phase := 0, entries := [],
    aborted := [], fellBack := [], pusch := [], pucch := [], used := [], bank7 := false, bank8 := false }

section
variable {s w : State} {c t : Nat}

/-- A table that passes or fails its checks, by their code. -/
theorem exec_tableSeal {bytes : List (BitVec 8)} {id n count : Nat} {works : List (Nat × List (BitVec 8))} {late wrong : Bool}
    (hc : c < 16) (hw : w = s.airTime t) (hid : id = bankNum bytes 0 4) (hn : n = w.slotOf (w.clusterMu c) id)
    (hcount : count = bankNum bytes 4 2) (hlate : late = decide (fireNs (w.clusterMu c) n ≤ w.gpsNs))
    (hwrong : wrong = (w.clusterMu c == 3 || id != slotId (w.clusterMu c) n ||
      n != (if late then n else max (w.cluster c).next (w.slotNow (w.clusterMu c) + 3)) ||
      decide (w.gpsNs < (n - 9) * slotNs (w.clusterMu c)))) (hup : w.flintUp = true) (hhalt : w.radioHalted = false) {code : Nat}
    (hcode : w.entryCode c (w.clusterMu c) n count (entriesOf ((bytes.drop 64).take (16 * count))) late wrong = code) :
    (code = 0 → ∃ (v : State) (tab : SlotTable), v = (w.carriersAtSeal c n).showAir ∧ tab.slot = n ∧ tab.id = id ∧
      tab.skel = entriesOf ((bytes.drop 64).take (16 * count)) ∧ tab.patch = [] ∧ tab.pusch = [] ∧ tab.pucch = [] ∧
      tab.carriers = bankNum bytes 8 2 ∧ tab.neural = bankNum bytes 0xC 2 ∧ tab.phase = 0 ∧ tab.patched = 0 ∧
      exec (.tableSeal c bytes t works) s = .next (((v.setCluster c { v.cluster c with next := n + 1 }).setTables c
        ((w.cluster c).tables ++ [tab])).submitWorks c tab works)) ∧
    (code ≠ 0 → exec (.tableSeal c bytes t works) s = .next (w.tableReject c id code)) := by
  subst hid hn hcount hlate hwrong
  have hasks : (w.flintUp && !w.radioHalted) = true := by rw [hup, hhalt]; rfl
  simp only [decide_eq_true_eq] at hcode
  constructor
  · rintro rfl
    refine ⟨_, w.sealedTable c (w.slotOf (w.clusterMu c) (bankNum bytes 0 4)) bytes, rfl, rfl, rfl, rfl, rfl, rfl, rfl, rfl, rfl, rfl, rfl,
      onUnit_of_lt hc ?_⟩
    rw [← hw]
    dsimp only
    rw [if_pos hasks, hcode]
    rfl
  · intro hne
    refine onUnit_of_lt hc ?_
    rw [← hw]
    dsimp only
    rw [if_pos hasks, hcode]
    cases code with
    | zero => exact absurd rfl hne
    | succ n => rfl

end

/-- Settles O25: a table sealed or rejected by its code, patched before its cut-off and closed at it. -/
theorem tablesAreBuilt : Obligations.TablesAreBuilt := by
  intro s w c t hc hw
  refine ⟨fun bytes id n count works late wrong hid hn hcount hlate hwrong hup hhalt =>
    exec_tableSeal hc hw hid hn hcount hlate hwrong hup hhalt rfl,
    fun l id bytes done tab hl htab hphase hcut hcode => onUnit_of_and hc hl ?patch, fun id tab htab hphase hcut => onUnit_of_lt hc ?close⟩
  case patch =>
    rw [← hw]
    dsimp only
    rw [htab]
    dsimp only
    rw [hphase, hcut]
    change (match w.entryCode c (w.clusterMu c) (w.slotOf (w.clusterMu c) id) (tab.skel.length + tab.patch.length + (entriesOf bytes).length)
        (entriesOf bytes) false false with | 0 => _ | _ => _) = _
    rw [hcode]
    rfl
  case close =>
    rw [← hw]
    dsimp only
    rw [htab]
    dsimp only
    rw [if_pos (by simp [hphase, hcut])]

/-- Settles O26: a table fires, a slot is missed, entries and conditional entries fire. -/
theorem tablesRun : Obligations.TablesRun := by
  intro s w c id n t hc hw hn
  refine ⟨fun z v m mu tab b7 b8 null hz hmu hm h7 h8 htab hphase hfrom hto hready hnull hv => onUnit_of_lt hc ?fire,
    fun hmu hfrom hnone hnext hready => onUnit_of_lt hc ?missed, fun tab i e htab he hstage htrig hfirst => ?entry,
    fun tab l hit hl htab hnot hstands hhit => onUnit_of_and hc hl ?cond⟩
  case fire =>
    rw [← hw, ← hz]
    dsimp only
    rw [← hmu, ← hm, htab]
    dsimp only
    rw [hv, hnull, h7, h8]
    exact if_neg (by simp [hphase, Nat.not_lt.2 hfrom, Nat.not_le.2 hto, hready])
  case missed =>
    rw [← hw]
    dsimp only
    rw [← hn, if_neg (by simp [hmu, Nat.not_lt.2 hfrom, hnone, Nat.not_lt.2 hnext, hready])]
  case entry =>
    have hwaits : ¬ (e.stage != 0 || decide (w.airUnits < e.trig) || (tab.entries.take i).any fun d => d.stage == 0) = true := by
      have hnone : ((tab.entries.take i).any fun d => d.stage == 0) = false := by
        refine List.any_eq_false.2 fun d hd => ?_
        simpa using hfirst d hd
      rw [hnone, hstage, decide_eq_false (Nat.not_lt.2 htrig)]
      decide
    have hexec : ∀ {u : State}, (let go := !entCond e.bits || tab.aborted.contains (entLocal e.bits)
        let tab' := { tab with entries := tab.entries.set i { e with stage := if go then 2 else 1 },
                               fellBack := if go && entCond e.bits then entLocal e.bits :: tab.fellBack else tab.fellBack }
        if go then (w.putTable c tab').fireEntry c n e.bits else w.putTable c tab') = u →
        exec (.entryTrigger c id i [] t) s = .next u := by
      intro u hu
      refine onUnit_of_lt hc ?_
      rw [← hw]
      dsimp only
      rw [← hn, htab]
      dsimp only
      rw [he]
      dsimp only
      rw [if_neg hwaits]
      exact hu
    refine ⟨fun hplain => hexec ?_, fun hcond hstands => hexec ?_, fun hcond habort => hexec ?_⟩
    · simp [hplain]
    · simp only [hcond, hstands]
      rfl
    · simp only [hcond, habort]
      rfl
  case cond =>
    subst hhit
    rw [← hw]
    dsimp only
    rw [← hn, hstands, if_neg (by decide), htab]
    dsimp only
    rw [if_neg (by simpa using hnot)]

section
variable {s w : State} {k t : Nat}

/-- A slot request before the cut-off reaches its slot's table (R331). -/
theorem State.fapiRequest_reaches {id n msg : Nat} {tab : SlotTable} {go : State → Nat → State} (hvalid : w.carrierValid k = true)
    (hup : w.endpointUp k = true) (hn : n = w.slotOf (w.clusterMu (w.carrierCluster k)) id)
    (hcut : w.pastCutoff (w.clusterMu (w.carrierCluster k)) n = false) (htab : w.slotTable (w.carrierCluster k) n = some tab)
    (hnull : hasBit tab.nulls (w.carrierLocal k) = false) : w.fapiRequest k id msg go = go w n := by
  unfold State.fapiRequest
  dsimp only
  rw [← hn, htab, hvalid, hup, hcut]
  simp [hnull]

end

/-- Settles O28: each request of a carrier whose endpoint runs, in the case its clause gives. -/
theorem fapiRequestsComplete : Obligations.FapiRequestsComplete := by
  intro s w k t hk hw hvalid hup
  have hserved : ¬ (!w.carrierValid k || !w.endpointUp k) = true := by rw [hvalid, hup]; decide
  refine ⟨onUnit_of_lt hk ?param, fun mhz prbs dl ul hstate hband hdl hul hprbs => onUnit_of_lt hk ?config,
    fun hstate hready hhalt => onUnit_of_lt hk ?start, fun hstarted => ⟨fun tab htab => onUnit_of_lt hk ?stop, fun hnone => onUnit_of_lt hk ?off⟩,
    fun id n tab hn hcut htab hnull => ?slot, fun c hc => onUnit_of_lt hc ?indication⟩
  case param =>
    rw [← hw]
    exact if_neg hserved
  case config =>
    rw [← hw]
    dsimp only
    rw [if_neg hserved, if_neg]
    simp [Nat.not_lt.2 hstate, hband, Nat.not_lt.2 hdl, Nat.not_lt.2 hul]
    exact hprbs
  case start =>
    rw [← hw]
    dsimp only
    rw [if_neg hserved, if_neg]
    simp [hstate, hready, hhalt]
  case stop =>
    rw [← hw]
    dsimp only
    rw [if_neg hserved, hstarted, if_neg (by decide), htab]
  case off =>
    have hlast : (w.cluster (w.carrierCluster k)).tables.getLast? = none := by rw [hnone]; rfl
    rw [← hw]
    dsimp only
    rw [if_neg hserved, hstarted, if_neg (by decide), hlast]
  case slot =>
    have hreaches {msg : Nat} {go : State → Nat → State} : (s.airTime t).fapiRequest k id msg go = go w n :=
      hw ▸ State.fapiRequest_reaches hvalid hup hn hcut htab hnull
    exact ⟨fun pdus => ⟨onUnit_of_lt hk hreaches, onUnit_of_lt hk hreaches, onUnit_of_lt hk hreaches⟩, fun data => onUnit_of_lt hk hreaches⟩
  case indication =>
    rw [← hw]

end Sys2Proof.Machine
end

section
/-! PROOFS. Fronthaul reception and the life of a radio unit (R348, R353). -/

namespace Sys2Proof.Machine

section
variable {s w : State} {e k c id sym total addr t a : Nat}

/-- A good packet of a port's eAxC: what its instant says becomes of it. -/
theorem exec_fhUlPacket {port eaxc prb : Nat} {data : List (BitVec 8)} {u : State} (hw : w = s.airTime t) (hk : k = eaxcCarrier (w.eaxc e))
    (hc : c = w.carrierCluster k) (ha : a = 14 * w.slotOf (w.carrierMu k) id + sym) (hport : port < 32)
    (he : w.uplinkEntry port eaxc = some e)
    (hu : (if w.airUnits < symbolStart (w.carrierMu k) a + w.rd (R.AIR_FH_TA4_MIN_NS (w.carrierMu k)) * 30_720 then
        w.sat (R.AIR_FH_UL_EARLY_COUNT c) 1
      else if symbolStart (w.carrierMu k) a + w.rd (R.AIR_FH_TA4_MAX_NS (w.carrierMu k)) * 30_720 < w.airUnits then
        w.sat (R.AIR_FH_UL_LATE_COUNT c) 1
      else
        let r := w.rxSymbol e a
        let new := ((List.range (data.length / prbBytes)).map (· + prb)).filter fun p => p < total && !r.prbs.contains p
        let s := (w.setBytes (clusterKey c (addr + prbBytes * prb)) data).setRx { r with prbs := r.prbs ++ new }
        let s := s.setCarrier k { s.carrier k with lastUl := s.now }
        if !new.isEmpty && r.prbs.length + new.length == total then s.radioCount c (eaxcCounter (w.eaxc e)) 1 else s) = u) :
    exec (.fhUlPacket port eaxc id sym prb total addr data true t) s = .next u := by
  refine onUnit_of_lt hport ?_
  rw [← hw]
  dsimp only
  rw [he]
  subst hk hc ha
  dsimp only at hu ⊢
  rw [if_neg (by decide)]
  exact hu

theorem exec_fhWindowClose {miss : List Nat} {u : State} (hw : w = s.airTime t) (hk : k = eaxcCarrier (w.eaxc e))
    (hc : c = w.carrierCluster k) (ha : a = 14 * w.slotOf (w.carrierMu k) id + sym) (hin : e < 4096) (hvalid : eaxcValid (w.eaxc e) = true)
    (hover : symbolStart (w.carrierMu k) a + w.rd (R.AIR_FH_TA4_MAX_NS (w.carrierMu k)) * 30_720 ≤ w.airUnits)
    (hmiss : miss = (List.range total).filter (fun p => !(w.rxSymbol e a).prbs.contains p)) (hne : miss ≠ [])
    (hu : u = ((w.each miss fun u p => u.setBytes (clusterKey c (addr + prbBytes * p)) (List.replicate prbBytes 0)).setRx
      { w.rxSymbol e a with prbs := (w.rxSymbol e a).prbs ++ miss }).sat (R.AIR_FH_PRB_MISSING_COUNT c) miss.length) :
    exec (.fhWindowClose e id sym total addr t) s =
      .next (({ u with air := { u.air with erased := u.air.erased ++ miss.map fun p => (e, a, p) } } : State).radioCount c
        (eaxcCounter (w.eaxc e)) 1) := by
  refine onUnit_of_lt hin ?_
  have hempty : miss.isEmpty = false := by simpa using hne
  rw [← hw]
  subst hk hc ha
  dsimp only
  rw [hvalid, decide_eq_false (Nat.not_lt.2 hover), if_neg (by decide), ← hmiss, hempty, if_neg (by decide), ← hu]

end

section
variable {s w : State} {r t : Nat}

/-- A radio unit that an eAxC of the port names calls home (R353). -/
theorem exec_ruCallHome {port mac : Nat} (hr : r < 64) (hw : w = s.airTime t) (hport : port < 32)
    (hnamed : ∃ e, e ∈ w.eaxcRange ∧ eaxcValid (w.eaxc e) = true ∧ eaxcRu (w.eaxc e) = r ∧ eaxcPort (w.eaxc e) = port)
    (hst : w.rd (R.AIR_RU_STATE_STATE r) = 0 ∨ w.rd (R.AIR_RU_STATE_STATE r) = 4) :
    exec (.ruCallHome r port mac t) s =
      .next (w.wrs [(R.AIR_RU_STATE_STATE r, 1), (R.AIR_RU_STATE_PORT r, port), (R.AIR_RU_MAC_MAC r, mac)]) := by
  have hany : ((w.eaxcRange.map w.eaxc).any fun x => eaxcValid x && eaxcRu x == r && eaxcPort x == port) = true := by
    obtain ⟨e, he, hvalid, hru, hp⟩ := hnamed
    exact List.any_eq_true.2 ⟨w.eaxc e, List.mem_map_of_mem he, by simp [hvalid, hru, hp]⟩
  refine onUnit_of_and hr hport ?_
  rw [← hw]
  refine if_neg ?_
  rw [hany]
  obtain h | h := hst <;> simp [h]

end

/-- Settles O29: fronthaul packets by their instant, the end of their window, and the states of a radio unit. -/
theorem fronthaulAndRadioUnitsComplete : Obligations.FronthaulAndRadioUnitsComplete := by
  refine ⟨fun s w e k c id sym total addr t a hw hk hc ha => ⟨fun port eaxc prb data hport he => ⟨fun hearly => ?early, fun hmin hlate => ?late,
      fun new u v hmin hmax hnew hu hv => ?inside⟩,
      fun miss u hin hvalid hover hmiss hne hu => exec_fhWindowClose hw hk hc ha hin hvalid hover hmiss hne hu⟩,
    fun s w r t hr hw => ⟨fun port mac hport hnamed hst => exec_ruCallHome hr hw hport hnamed hst, fun hst => onUnit_of_lt hr ?session,
      fun catB hst => onUnit_of_lt hr ?configured, fun inRow hst => onUnit_of_lt hr ?supervision,
      fun k hk hru hrun hst hsilent => onUnit_of_lt hk ?silence⟩⟩
  case early => exact exec_fhUlPacket hw hk hc ha hport he (if_pos hearly)
  case late => exact exec_fhUlPacket hw hk hc ha hport he ((if_neg (Nat.not_lt.2 hmin)).trans (if_pos hlate))
  case inside =>
    refine exec_fhUlPacket hw hk hc ha hport he ((if_neg (Nat.not_lt.2 hmin)).trans ((if_neg (Nat.not_lt.2 hmax)).trans ?_))
    dsimp only
    rw [← hnew, ← hu, ← hv]
    by_cases hwhole : new ≠ [] ∧ (w.rxSymbol e a).prbs.length + new.length = total
    · rw [if_pos hwhole, if_pos (by simp [hwhole.1, hwhole.2])]
    · rw [if_neg hwhole, if_neg]
      simpa using hwhole
  case session =>
    rw [← hw]
    refine if_neg ?_
    simp [hst]
  case configured =>
    rw [← hw]
    refine if_neg ?_
    simp [hst]
  case supervision =>
    rw [← hw]
    refine if_neg ?_
    simp [hst]
  case silence =>
    rw [← hw]
    dsimp only
    rw [hru]
    refine if_neg ?_
    simp [hrun, hst, Nat.not_lt.2 hsilent]

end Sys2Proof.Machine
end

section
/-! PROOFS. The commands of a Mica core (R366 to R375). -/

namespace Sys2Proof.Machine

/-- What becomes of a core's stream by what its command does (R366). -/
def State.micaGoes (v : State) (c u : Nat) (r : StreamRun) : MicaRes → State
  | .fails code => v.failStream c u code 0
  | .waits => v.streamWaits c u r
  | .ends x => x.streamDone c u
  | .done x outs => x.micaNext c u r outs

section
variable {s w v : State} {c u corr t op : Nat} {r : StreamRun} {e : BitVec 128}

/-- A core that stands at a command of the row's opcode carries it out. -/
theorem State.micaStep_eq {f : State → BitVec 128 → StreamRun → MicaRes} {x : MicaRes} (hw : w = s.airTime t)
    (hat : w.micaAt c u op r e) (hv : v = w.micaBegin c u r e corr) (hlo : 1 ≤ op) (hhi : op ≤ 0xF) (hf : f v e r = x) :
    s.micaStep c u op corr 0 t f = .next (v.micaGoes c u r x) := by
  obtain ⟨hc, hu, hrun, hstart, hfetch, hop⟩ := hat
  refine onUnit_of_and hc hu ?_
  have haligned : ¬ (r.pc == 0 && !r.waits && r.trig.stream % 16 != 0) = true := by
    simp only [Bool.and_eq_true, beq_iff_eq, Bool.not_eq_true', bne_iff_ne]
    rintro ⟨⟨hpc, hwaits⟩, hstream⟩
    exact hstream (hstart hpc hwaits).1
  have hgood : ¬ (r.pc == 0 && !r.waits && r.trig.bad) = true := by
    simp only [Bool.and_eq_true, beq_iff_eq, Bool.not_eq_true']
    rintro ⟨⟨hpc, hwaits⟩, hbad⟩
    simp [(hstart hpc hwaits).2] at hbad
  have hknown : (decide (1 ≤ cmdOp e) && decide (cmdOp e ≤ 0xF)) = true := by simp [hop, hlo, hhi]
  rw [← hw]
  dsimp only
  rw [hrun]
  dsimp only
  rw [if_neg haligned, if_neg hgood, hfetch]
  dsimp only
  rw [if_neg (by simp [hop]), if_neg (by decide), hknown, if_neg (by decide), ← hv, hf]
  cases x <;> rfl

variable (hw : w = s.airTime t) (hat : w.micaAt c u op r e) (hv : v = w.micaBegin c u r e corr)
include hw hat hv

theorem State.micaStep_done {f : State → BitVec 128 → StreamRun → MicaRes} {x : State} {outs : List Span} (hlo : 1 ≤ op) (hhi : op ≤ 0xF)
    (hf : f v e r = .done x outs) : s.micaStep c u op corr 0 t f = .next (x.micaNext c u r outs) :=
  State.micaStep_eq hw hat hv hlo hhi hf

theorem State.micaStep_waits {f : State → BitVec 128 → StreamRun → MicaRes} (hlo : 1 ≤ op) (hhi : op ≤ 0xF)
    (hf : f v e r = .waits) : s.micaStep c u op corr 0 t f = .next (v.streamWaits c u r) :=
  State.micaStep_eq hw hat hv hlo hhi hf

theorem State.micaStep_ends {f : State → BitVec 128 → StreamRun → MicaRes} {x : State} (hlo : 1 ≤ op) (hhi : op ≤ 0xF)
    (hf : f v e r = .ends x) : s.micaStep c u op corr 0 t f = .next (x.streamDone c u) :=
  State.micaStep_eq hw hat hv hlo hhi hf

/-- A command that only changes its core. -/
theorem State.micaStep_micaDone {f : State → BitVec 128 → StreamRun → MicaRes} {k : MicaState} {n : Nat} (hlo : 1 ≤ op) (hhi : op ≤ 0xF)
    (hf : f v e r = v.micaDone c u k n) :
    s.micaStep c u op corr 0 t f = .next (((v.setMica c u k).sat (R.RADIO_MICA_SAT_COUNT c) n).micaNext c u r []) :=
  State.micaStep_eq hw hat hv hlo hhi hf

end

section
variable {s w v : State} {c u corr t op : Nat} {r : StreamRun} {e : BitVec 128} {m : MicaState}
  (hw : w = s.airTime t) (hat : w.micaAt c u op r e) (hv : v = w.micaBegin c u r e corr) (hm : m = v.mica c u)
include hw hat hv hm

/-- A vector command, whose lanes `f` are shifted, saturated and written to V[D] (R369). -/
theorem State.micaStep_vectorOut {f : State → BitVec 128 → StreamRun → MicaRes} {g : MicaState → Nat → Int × Int} (hlo : 1 ≤ op) (hhi : op ≤ 0xF)
    (hf : f v e r = v.vectorOut c u e g) : s.micaStep c u op corr 0 t f =
      .next (((v.setMica c u (m.setV (cmdD e) fun i => (((List.range 32).map fun i =>
          outSample (cmdShift e) (g m i).1 (g m i).2).getD i (0, 0)).1)).sat (R.RADIO_MICA_SAT_COUNT c)
        (((List.range 32).map fun i => outSample (cmdShift e) (g m i).1 (g m i).2).map (·.2)).sum).micaNext c u r []) := by
  subst hm
  exact State.micaStep_micaDone hw hat hv hlo hhi hf

theorem exec_minmax {k : Int} {i : Nat} {g : AddrGen} (hop : op = 0xA) (honly : onlyBits e [(20, 3), (32, 24), (64, 16)] = true)
    (hkind : cmdImm e / 2 % 4 ≠ 3) (hplace : cmdImm e / 8 % 2 ^ 21 * 8 + 8 ≤ clusterBytes)
    (hscan : v.minmaxScan c (cmdImm e / 2 % 4) (cmdImm e % 2 == 1) (m.gen (cmdAg e)) 0 none (cmdExt e + 1) = some (k, i, g)) :
    exec (.minmax c u corr 0 t) s = .next ((((v.setMica c u (m.setGen (cmdAg e) g)).setNum
      (clusterKey c (cmdImm e / 8 % 2 ^ 21 * 8)) 4 (toField 32 k)).setNum (clusterKey c (cmdImm e / 8 % 2 ^ 21 * 8 + 4)) 4
        i).micaNext c u r [Span.mk (cmdImm e / 8 % 2 ^ 21 * 8) 8]) := by
  subst hop hm
  change execMinmax c u corr 0 t s = .next _
  unfold execMinmax
  refine State.micaStep_done hw hat hv (by decide) (by decide) ?_
  dsimp only
  rw [honly, decide_eq_false hkind, if_neg (by decide), if_neg (Nat.not_lt.2 hplace), hscan]

theorem exec_agset {mode bits len : Nat} {inc : Int} (hop : op = 0xB) (hmode : mode = cmdExt e % 4)
    (hinc : inc = signedOf 16 (cmdExt e / 4 % 65536)) (hbits : bits = cmdExt e / 2 ^ 18 % 16 + 1)
    (hlen : len = cmdD e * 256 + cmdA e * 16 + cmdB e + 1)
    (honly : onlyBits e [(8, 4), (12, 4), (16, 4), (20, 3), (32, 21), (64, 22)] = true) (h3 : mode ≠ 3) (h1 : mode = 1 → inc.natAbs < len)
    (h2 : mode = 2 → 1 ≤ inc ∧ inc ≤ (2 ^ bits - 1 : Nat)) :
    exec (.agset c u corr 0 t) s = .next (((v.setMica c u (m.setGen (cmdAg e)
      ⟨cmdImm e + r.trig.reloc, 0, mode, inc, bits, len⟩)).sat (R.RADIO_MICA_SAT_COUNT c) 0).micaNext c u r []) := by
  subst hop hm
  change execAgset c u corr 0 t s = .next _
  unfold execAgset
  refine State.micaStep_micaDone hw hat hv (by decide) (by decide) ?_
  dsimp only
  rw [← hmode, ← hinc, ← hbits, ← hlen, if_neg]
  simp only [honly, Bool.or_eq_true, Bool.and_eq_true, decide_eq_true_eq, not_or, not_and, Bool.not_true]
  exact ⟨⟨⟨by decide, h3⟩, fun h => Nat.not_le.2 (h1 h)⟩, fun h => by have := h2 h; omega⟩

theorem exec_repeatBody {body : Nat} (hop : op = 0xC) (hbody : body = cmdExt e / 2 ^ 16 % 64)
    (honly : onlyBits e [(32, 4), (48, 16), (64, 22)] = true) (hne : body ≠ 0) (hroom : m.loops.length ≠ 4)
    (hinside : ∀ l, m.loops.head? = some l → r.pc + body ≤ l.last) :
    exec (.repeatBody c u corr 0 t) s = .next (((v.setMica c u { m with
      loops := ⟨r.pc + 1, r.pc + body, cmdExt e % 65536 + 1, cmdImm e % 8, cmdImm e / 8 % 2 == 1,
        signedOf 16 (cmdImm e / 65536)⟩ :: m.loops,
      buf := if m.loops.isEmpty then [] else m.buf }).sat (R.RADIO_MICA_SAT_COUNT c) 0).micaNext c u r []) := by
  have hpast : (match m.loops with | l :: _ => decide (l.last < r.pc + body) | [] => false) = false := by
    cases hl : m.loops with
    | nil => rfl
    | cons l ls => exact decide_eq_false (Nat.not_lt.2 (hinside l (by rw [hl]; rfl)))
  subst hop hm
  change execRepeatBody c u corr 0 t s = .next _
  unfold execRepeatBody
  refine State.micaStep_micaDone hw hat hv (by decide) (by decide) ?_
  dsimp only
  rw [← hbody, honly, decide_eq_false hne, if_neg (by decide)]
  refine if_neg ?_
  rw [decide_eq_false hroom]
  exact Bool.eq_false_iff.1 hpast

end

/-- Settles O30: each command of a core by its opcode. -/
theorem micaCommandsComplete : Obligations.MicaCommandsComplete := by
  refine ⟨fun s w v c u corr t op r e m fin vec hw hat hv hm hfin hvec => ?vectors,
    fun s w v c u corr t op r e m fin hw hat hv hm hfin => ?control⟩
  case vectors =>
    subst hvec hfin
    refine ⟨fun l g hop honly hwalk => ?vld, fun l g hop honly hwalk => ?vst, fun hop honly => ?vadd, fun hop honly => ?vsub,
      fun hop honly => ?cmul, fun hop honly => ?cmac, fun hop honly himm => ?accout, fun hop honly => ?accclr, fun hop honly => ?mag2,
      fun k i g hop honly hkind hplace hscan => exec_minmax hw hat hv hm hop honly hkind hplace hscan⟩ <;> try subst hop
    case vld =>
      change execVld c u corr 0 t s = .next _
      unfold execVld
      subst hm
      refine State.micaStep_micaDone hw hat hv (by decide) (by decide) ?_
      dsimp only
      rw [honly, if_neg (by decide), hwalk]
    case vst =>
      change execVst c u corr 0 t s = .next _
      unfold execVst
      subst hm
      refine State.micaStep_done hw hat hv (by decide) (by decide) ?_
      dsimp only
      rw [honly, if_neg (by decide), hwalk]
    case vadd =>
      change execVadd c u corr 0 t s = .next _
      unfold execVadd
      refine State.micaStep_vectorOut (g := fun m i => (reOf (m.lane (cmdA e) i) + (bPart m e i).1, imOf (m.lane (cmdA e) i) + (bPart m e i).2))
        hw hat hv hm (by decide) (by decide) ?_
      rw [honly]
      rfl
    case vsub =>
      change execVsub c u corr 0 t s = .next _
      unfold execVsub
      refine State.micaStep_vectorOut (g := fun m i => (reOf (m.lane (cmdA e) i) - (bPart m e i).1, imOf (m.lane (cmdA e) i) - (bPart m e i).2))
        hw hat hv hm (by decide) (by decide) ?_
      rw [honly]
      rfl
    case cmul =>
      change execCmul c u corr 0 t s = .next _
      unfold execCmul
      refine State.micaStep_vectorOut (g := fun m i => laneProduct m e i) hw hat hv hm (by decide) (by decide) ?_
      rw [honly]
      rfl
    case accout =>
      change execAccout c u corr 0 t s = .next _
      unfold execAccout
      refine State.micaStep_vectorOut (g := fun m i => (m.accPart (cmdBits e 12 2) i 0, m.accPart (cmdBits e 12 2) i 1))
        hw hat hv hm (by decide) (by decide) ?_
      dsimp only
      rw [honly, if_neg (by decide)]
      simp only [State.vectorOut, State.micaDone, if_neg himm]
    case cmac =>
      change execCmac c u corr 0 t s = .next _
      unfold execCmac
      subst hm
      refine State.micaStep_micaDone hw hat hv (by decide) (by decide) ?_
      rw [honly]
      rfl
    case accclr =>
      change execAccclr c u corr 0 t s = .next _
      unfold execAccclr
      subst hm
      refine State.micaStep_micaDone hw hat hv (by decide) (by decide) ?_
      rw [honly]
      rfl
    case mag2 =>
      change execMag2 c u corr 0 t s = .next _
      unfold execMag2
      subst hm
      refine State.micaStep_micaDone hw hat hv (by decide) (by decide) ?_
      rw [honly]
      rfl
  case control =>
    subst hfin
    refine ⟨fun mode inc bits len hop hmode hinc hbits hlen honly h3 h1 h2 =>
        exec_agset hw hat hv hm hop hmode hinc hbits hlen honly h3 h1 h2,
      fun body hop hbody honly hne hroom hinside => exec_repeatBody hw hat hv hm hop hbody honly hne hroom hinside,
      fun hop honly => ?wait, fun hop honly hne => ?signal, fun hop honly => ?ends⟩ <;> try subst hop
    case wait =>
      change execWaitCounter c u corr 0 t s = _
      unfold execWaitCounter
      by_cases hreached : countReached (v.rd (R.RADIO_CNT_VALUE c (cmdImm e))) (cmdExt e) = true
      · rw [if_pos hreached]
        refine State.micaStep_done hw hat hv (by decide) (by decide) ?_
        rw [honly, if_neg (by decide), if_pos hreached]
      · rw [if_neg hreached]
        refine State.micaStep_waits hw hat hv (by decide) (by decide) ?_
        rw [honly, if_neg (by decide), if_neg hreached]
    case signal =>
      change execSignalCounter c u corr 0 t s = .next _
      unfold execSignalCounter
      refine State.micaStep_done hw hat hv (by decide) (by decide) ?_
      rw [honly, decide_eq_false hne, if_neg (by decide)]
    case ends =>
      change execEndStream c u corr 0 t s = .next _
      unfold execEndStream
      refine State.micaStep_ends hw hat hv (by decide) (by decide) ?_
      rw [honly]
      rfl

end Sys2Proof.Machine
end

section
/-! PROOFS. The engines' descriptors of a radio cluster (R376 to R387). -/

namespace Sys2Proof.Machine

section
variable {s w v x : State} {c u kind kinds corr t : Nat} {r : StreamRun} {d : Desc} {o : List Span}

/-- An engine that stands at a descriptor of the row's KIND carries it out (R376). -/
theorem State.engineStep_ok {f : State → Desc → StreamRun → EngineRes} (hw : w = s.airTime t)
    (hv : v = w.sat (R.RADIO_SRAM_ECC_CORR_COUNT c) corr) (hat : w.engineAt c u kind r d) (hlo : 1 ≤ kind) (hhi : kind ≤ kinds)
    (hf : f v d r = .ok (x, o)) : s.engineStep c u kind kinds corr 0 t f = .next (x.engineNext c u d r o) := by
  obtain ⟨hc, hrun, halign, hbad, hrange, hd, hkind, hwait, hzero, hinc, htag, hsignal⟩ := hat
  refine onUnit_of_lt hc ?_
  have hknown : (decide (1 ≤ d.fld 0 0 8) && decide (d.fld 0 0 8 ≤ kinds)) = true := by simp [hkind, hlo, hhi]
  have hready : ¬ (decide (d.fld 0 14 1 = 1) && !countReached (w.rd (R.RADIO_CNT_VALUE c (d.fld 0 8 6))) (d.fld 4 0 32)) = true := by
    by_cases h : d.fld 0 14 1 = 1
    · simp [hwait h]
    · simp [h]
  have hheader : ¬ (d.fld 0 23 9 != 0 || d.fld 8 16 16 != 0 || d.fld 0xC 8 24 != 0 ||
      (decide (d.fld 0 22 1 = 1) && decide (d.fld 8 0 16 = 0))) = true := by
    simpa [hzero, hinc, htag] using hsignal
  rw [← hw]
  dsimp only
  rw [hrun]
  dsimp only
  rw [if_neg (by simp [halign]), if_neg (by simp [hbad]), if_neg (Nat.not_lt.2 hrange), ← hd, if_neg (by simp [hkind]), if_neg hready,
    if_neg (by decide), hknown, if_neg (by decide), if_neg hheader, ← hv, hf]

end

/-- Ranges that stay within cluster SRAM. -/
theorem leavesSram_cons (p : Nat × Nat) (l : List (Nat × Nat)) (h : p.1 + p.2 ≤ clusterBytes) : leavesSram (p :: l) = leavesSram l := by
  simp [leavesSram, Nat.not_lt.2 h]

theorem leavesSram_nil : leavesSram [] = false := rfl

/-- A descriptor whose checks all pass. -/
theorem engineCheck_none {a b e f : Bool} (ha : a = false) (hb : b = false) (he : e = false) (hf : f = false) : engineCheck a b e f = none := by
  rw [ha, hb, he, hf]
  rfl

section
variable {s w v x : State} {c corr vcorr t : Nat} {r : StreamRun} {d : Desc} {o : List Span} (hw : w = s.airTime t)
  (hv : v = w.sat (R.RADIO_SRAM_ECC_CORR_COUNT c) corr)
include hw hv

/-! LDPC and polar -/

section
variable {b : LdpcBody} (hb : b = ldpcBody d r) (hgood : b.bad = false) (hin : b.inAddr % 64 = 0) (hout : b.outAddr % 64 = 0)
include hb hgood hin hout

theorem exec_ldpcDecode (hstat : b.statAddr % 8 = 0) (hinTo : b.inAddr + b.inStride * (b.blocks - 1) + b.cols * b.z ≤ clusterBytes)
    (houtTo : b.outAddr + b.outStride * (b.blocks - 1) + bitBytes b.info ≤ clusterBytes)
    (hstatTo : b.statAddr + 8 * b.blocks ≤ clusterBytes) (hat : w.engineAt c 8 1 r d) :
    exec (.ldpcDecode c corr 0 t) s =
      .next ((v.each (List.range b.blocks) fun t i => t.ldpcBlock c b i).engineNext c 8 d r (Span.mk b.statAddr (8 * b.blocks) ::
        (List.range b.blocks).map fun i => Span.mk (b.outAddr + b.outStride * i) (bitBytes b.info))) := by
  change execLdpcDecode c corr 0 t s = _
  refine State.engineStep_ok hw hv hat (by decide) (by decide) ?_
  dsimp only
  rw [← hb, engineCheck_none hgood _ _ rfl]
  · rw [leavesSram_cons _ _ hinTo, leavesSram_cons _ _ houtTo, leavesSram_cons _ _ hstatTo, leavesSram_nil]
  · simp [hin, hout, hstat]

theorem exec_ldpcEncode (hinTo : b.inAddr + b.inStride * (b.blocks - 1) + bitBytes b.info ≤ clusterBytes)
    (houtTo : b.outAddr + b.outStride * (b.blocks - 1) + bitBytes (b.cols * b.z) ≤ clusterBytes) (hat : w.engineAt c 8 2 r d) :
    exec (.ldpcEncode c corr 0 t) s =
      .next ((v.each (List.range b.blocks) fun t i => t.setNum (clusterKey c (b.outAddr + b.outStride * i)) (bitBytes (b.cols * b.z))
          (Config.ldpcEncode b.key (t.bytes (clusterKey c (b.inAddr + b.inStride * i)) (bitBytes b.info)))).engineNext c 8 d r
        ((List.range b.blocks).map fun i => Span.mk (b.outAddr + b.outStride * i) (bitBytes (b.cols * b.z)))) := by
  change execLdpcEncode c corr 0 t s = _
  refine State.engineStep_ok hw hv hat (by decide) (by decide) ?_
  dsimp only
  rw [← hb, engineCheck_none hgood _ _ rfl]
  · rw [leavesSram_cons _ _ hinTo, leavesSram_cons _ _ houtTo, leavesSram_nil]
  · simp [hin, hout]

end

section
variable {k n i q : Nat} (hk : k = d.fld 0x20 4 11 + 1) (hn : n = d.fld 0x20 16 14 + 1) (hi : i = r.place d 0x10) (hq : q = r.place d 0x14)
  (hgood : polarBad d = false)
include hk hn hi hq hgood

theorem exec_polarDecode (hinTo : i + n ≤ clusterBytes) (houtTo : q + (bitBytes k + 1) ≤ clusterBytes) (hat : w.engineAt c 9 1 r d)
    {bits : Nat} {ok : Bool} (hdec : Config.polarDecode (polarKey d) (v.bytes (clusterKey c i) n) = (bits, ok)) :
    exec (.polarDecode c corr 0 t) s =
      .next (((v.setNum (clusterKey c q) (bitBytes k) (bits % 2 ^ k)).setNum (clusterKey c (q + bitBytes k)) 1
        ((v.byte (clusterKey c (q + bitBytes k))).toNat / 2 * 2 + if ok then 1 else 0)).engineNext c 9 d r
          [Span.mk q (bitBytes k + 1)]) := by
  change execPolarDecode c corr 0 t s = _
  refine State.engineStep_ok hw hv hat (by decide) (by decide) ?_
  dsimp only
  rw [← hk, ← hn, ← hi, ← hq, engineCheck_none hgood _ rfl rfl]
  · dsimp only
    rw [hdec]
  · rw [leavesSram_cons _ _ hinTo, leavesSram_cons _ _ houtTo, leavesSram_nil]

theorem exec_polarEncode (hinTo : i + bitBytes k ≤ clusterBytes) (houtTo : q + bitBytes n ≤ clusterBytes) (hat : w.engineAt c 9 2 r d) :
    exec (.polarEncode c corr 0 t) s = .next ((v.setNum (clusterKey c q) (bitBytes n)
      (Config.polarEncode (polarKey d) (v.bytes (clusterKey c i) (bitBytes k)) % 2 ^ n)).engineNext c 9 d r [Span.mk q (bitBytes n)]) := by
  change execPolarEncode c corr 0 t s = _
  refine State.engineStep_ok hw hv hat (by decide) (by decide) ?_
  dsimp only
  rw [← hk, ← hn, ← hi, ← hq, engineCheck_none hgood _ rfl rfl]
  rw [leavesSram_cons _ _ hinTo, leavesSram_cons _ _ houtTo, leavesSram_nil]

end

/-! PRACH correlation -/

theorem exec_prachCorrelate {lra p root ants reps roots i q : Nat} {f : List (BitVec 8)} (hsize : prachSize (d.fld 0x20 10 1) = (lra, p))
    (hroot : root = d.fld 0x20 0 10) (hants : ants = d.fld 0x20 11 5 + 1) (hreps : reps = d.fld 0x20 16 4 + 1)
    (hroots : roots = d.fld 0x20 20 6 + 1) (hi : i = r.place d 0x10) (hq : q = r.place d 0x14) (hzero : d.fld 0x20 26 6 = 0)
    (hreps12 : reps ≤ 12) (hrootLe : root ≤ lra - 2) (hi4 : i % 4 = 0) (hq4 : q % 4 = 0)
    (hinTo : i + (64 * d.fld 0x24 0 16 * (ants - 1) + 64 * d.fld 0x24 16 16 * (reps - 1) + 4 * lra) ≤ clusterBytes)
    (houtTo : q + 4 * p * roots ≤ clusterBytes) (hat : w.engineAt c 11 1 r d)
    (hf : f = ((List.range ants).flatMap fun a => (List.range reps).flatMap fun z =>
      v.bytes (clusterKey c (i + 64 * d.fld 0x24 0 16 * a + 64 * d.fld 0x24 16 16 * z)) (4 * lra))) :
    exec (.prachCorrelate c corr 0 t) s = .next ((v.each (List.range (roots * p)) fun t k => t.setNum (clusterKey c (q + 4 * k)) 4
      (min (Config.prachBin [root, lra, ants, reps] f (k / p) (k % p)) 0xFFFF_FFFF)).engineNext c 11 d r
        [Span.mk q (4 * p * roots)]) := by
  change execPrachCorrelate c corr 0 t s = _
  refine State.engineStep_ok hw hv hat (by decide) (by decide) ?_
  dsimp only
  rw [hsize]
  dsimp only
  rw [← hroot, ← hants, ← hreps, ← hroots, ← hi, ← hq, engineCheck_none _ _ _ rfl]
  · dsimp only
    rw [← hf]
  · simp [hzero, Nat.not_lt.2 hreps12, Nat.not_lt.2 hrootLe]
  · rw [leavesSram_cons _ _ hinTo, leavesSram_cons _ _ houtTo, leavesSram_nil]
  · simp [hi4, hq4]

end

/-! Cluster DMA -/

section
variable {v : State} {c n : Nat} {r : StreamRun} {d : Desc} (hn : n = dmaLen d) (hgood : dmaBad d = false) (halign : r.place d 0x10 % 64 = 0)
  (hto : r.place d 0x10 + n ≤ clusterBytes) (hon : v.rd (R.MESH_STOP_CTRL_ENABLED 0 (clusterStop c)) ≠ 0)
include hn hgood halign hto hon

/-- A transfer with a vault that keeps its rules (R386). -/
theorem State.dmaVault_ok (hva : d.fld 0x20 0 57 % 64 = 0) (hmap : v.hMapped (64 + c) (d.fld 0x20 0 57) n = true)
    (hclean : v.hFirstBad (64 + c) (d.fld 0x20 0 57) n = none) :
    v.dmaVault c true d r = .ok (v.setBytes (clusterKey c (r.place d 0x10)) (v.hBytes (64 + c) (d.fld 0x20 0 57) n),
      [Span.mk (r.place d 0x10) n]) ∧
    v.dmaVault c false d r = .ok (v.hStore (64 + c) (d.fld 0x20 0 57) (v.bytes (clusterKey c (r.place d 0x10)) n), []) := by
  constructor <;>
  · unfold State.dmaVault
    dsimp only
    rw [← hn, engineCheck_none hgood (by rw [leavesSram_cons _ _ hto, leavesSram_nil]) (by simp [halign, hva]) (by simp [hmap])]
    dsimp only
    rw [if_neg hon]
    simp [hclean]

/-- A transfer with a tile of the cluster that keeps its rules (R386). -/
theorem State.dmaTile_ok {k : Nat} (hta : d.fld 0x20 0 22 % 64 = 0) (hin : d.fld 0x20 0 22 + n ≤ sramSize)
    (hsite : (v.clusterTiles c)[d.fld 0x20 22 2]? = some k) :
    v.dmaTile c true d r = .ok (v.setBytes (clusterKey c (r.place d 0x10)) (v.bytes (tileKey k (d.fld 0x20 0 22)) n),
      [Span.mk (r.place d 0x10) n]) ∧
    v.dmaTile c false d r = .ok (v.setBytes (tileKey k (d.fld 0x20 0 22)) (v.bytes (clusterKey c (r.place d 0x10)) n), []) := by
  constructor <;>
  · unfold State.dmaTile
    dsimp only
    rw [← hn, hsite, engineCheck_none hgood (by rw [leavesSram_cons _ _ hto, leavesSram_nil, decide_eq_false (Nat.not_lt.2 hin)]; rfl)
      (by simp [halign, hta]) Option.isNone_some]
    dsimp only
    rw [if_neg hon]
    simp

end

/-- What a transform that keeps its rules writes (R382, R383). -/
theorem State.fftDesc_eq {v x : State} {c n count : Nat} {inv : Bool} {r : StreamRun} {d : Desc} {o : List Span} (hn : n = d.fld 0x20 0 12 + 1)
    (hcount : count = d.fld 0x20 12 16 + 1) (h : v.fftDesc c inv d r = .ok (x, o)) :
    x = v.each (List.range count) (fun t k => (t.setNum (clusterKey c (r.place d 0x14 + 64 * d.fld 0x24 16 16 * k)) (4 * n)
      (Config.fft inv n (t.bytes (clusterKey c (r.place d 0x10 + 64 * d.fld 0x24 0 16 * k)) (4 * n))).1).setNum
        (clusterKey c (r.place d 0x18 + k)) 1
        (Config.fft inv n (t.bytes (clusterKey c (r.place d 0x10 + 64 * d.fld 0x24 0 16 * k)) (4 * n))).2) := by
  unfold State.fftDesc at h
  dsimp only at h
  rw [← hn, ← hcount] at h
  split at h
  · cases h
  · simp only [Except.ok.injEq, Prod.mk.injEq] at h
    exact h.1.symm

/-- Settles O31: each descriptor that keeps its rules writes what its body names. -/
theorem engineDescriptorsComplete : Obligations.EngineDescriptorsComplete := by
  refine ⟨fun s w v c corr t r d hw hv => ⟨fun b hb hgood hin hout => ⟨fun hstat hinTo houtTo hstatTo hat =>
        exec_ldpcDecode hw hv hb hgood hin hout hstat hinTo houtTo hstatTo hat,
      fun hinTo houtTo hat => exec_ldpcEncode hw hv hb hgood hin hout hinTo houtTo hat⟩,
      fun k n i q hk hn hi hq hgood => ⟨fun hinTo houtTo hat bits ok hdec => exec_polarDecode hw hv hk hn hi hq hgood hinTo houtTo hat hdec,
        fun hinTo houtTo hat => exec_polarEncode hw hv hk hn hi hq hgood hinTo houtTo hat⟩⟩,
    fun s w v x c corr vcorr t r d o hw hv => ⟨fun hat hok => ?forward, fun hat hok => ?inverse,
      fun inv n count hn hcount hok => State.fftDesc_eq hn hcount hok,
      fun lra p root ants reps roots i q f hsize hroot hants hreps hroots hi hq hzero hreps12 hrootLe hi4 hq4 hinTo houtTo hat hf =>
        exec_prachCorrelate hw hv hsize hroot hants hreps hroots hi hq hzero hreps12 hrootLe hi4 hq4 hinTo houtTo hat hf,
      fun hok hat => ?vaultToSram, fun hok hat => ?sramToVault, fun hok hat => ?tileToCluster, fun hok hat => ?clusterToTile,
      fun n hn hgood halign hto hon => ⟨fun hva hmap hclean => State.dmaVault_ok hn hgood halign hto hon hva hmap hclean,
        fun k hta hin hsite => State.dmaTile_ok hn hgood halign hto hon hta hin hsite⟩⟩⟩
  case forward =>
    change execFftForward c corr 0 t s = _
    exact State.engineStep_ok hw hv hat (by decide) (by decide) hok
  case inverse =>
    change execFftInverse c corr 0 t s = _
    exact State.engineStep_ok hw hv hat (by decide) (by decide) hok
  case vaultToSram =>
    change execDmaVaultToSram c corr 0 t s vcorr = _
    exact State.engineStep_ok hw hv hat (by decide) (by decide) (by rw [hok]; rfl)
  case sramToVault =>
    change execDmaSramToVault c corr 0 t s = _
    exact State.engineStep_ok hw hv hat (by decide) (by decide) hok
  case tileToCluster =>
    change execDmaTileToCluster c corr 0 t s = _
    exact State.engineStep_ok hw hv hat (by decide) (by decide) hok
  case clusterToTile =>
    change execDmaClusterToTile c corr 0 t s = _
    exact State.engineStep_ok hw hv hat (by decide) (by decide) hok

end Sys2Proof.Machine
end

section
/-! PROOFS. Time: PTP, pulses, the device clock and synchronous Ethernet (R417 to R441). -/

namespace Sys2Proof.Machine

theorem State.setDom_now (s : State) (d : Nat) (x : DomState) : (s.setDom d x).now = s.now := by
  unfold State.setDom
  split <;> rfl

theorem State.setDom_rd (s : State) (d : Nat) (x : DomState) (f : Fld) : (s.setDom d x).rd f = s.rd f := by
  unfold State.setDom
  split <;> rfl

/-- Settles O33: PTP messages in the case each clause gives, and the three timeouts of a domain in TRACKING. -/
theorem ptpAndTimeoutsComplete : Obligations.PtpAndTimeoutsComplete := by
  refine ⟨fun s w x d port t hd hport hw => ⟨fun origin p hslave huse hx hp => onUnit_of_and hd hport ?sync,
      fun delay a hslave ha hx => ⟨fun p hp huse => onUnit_of_and hd hport ?delay, fun hother => onUnit_of_and hd hport ?delayOther⟩,
      fun identity cls accuracy y hslave hx hy => ⟨onUnit_of_and hd hport ?announce, onUnit_of_and hd hport ?chosen⟩⟩,
    fun s w d t hd hw hst => ⟨fun hsource => ⟨fun hlate => onUnit_of_lt hd ?announceTimeout, fun hlate => onUnit_of_lt hd ?syncTimeout⟩,
      fun hsource hlate => onUnit_of_lt hd ?ppsTimeout⟩⟩
  case sync =>
    rw [← hw]
    dsimp only
    have hnow : x.now = w.now := hx ▸ State.setDom_now _ _ _
    rw [hslave, huse, if_neg (by simp), ← hx, hp]
    dsimp only
    rw [hnow]
  case delay =>
    have ha' : signedOf 32 ((s.atTime t).rd (R.TIME_PORT_ASYM_ASYM port)) = a := ha.symm
    have hport' : x.rd (R.TIME_DOM_STATUS_PORT d) = port := hx ▸ (State.setDom_rd _ _ _ _).trans huse
    dsimp only
    rw [hslave, if_neg (by simp), ha', ← hx, hp]
    dsimp only
    rw [hport', if_pos (by simp)]
  case delayOther =>
    have ha' : signedOf 32 ((s.atTime t).rd (R.TIME_PORT_ASYM_ASYM port)) = a := ha.symm
    have hport' : x.rd (R.TIME_DOM_STATUS_PORT d) ≠ port := hx ▸ (State.setDom_rd _ _ _ _).trans_ne hother
    dsimp only
    rw [hslave, if_neg (by simp), ha', ← hx]
    cases x.meanPath d port with
    | none => rfl
    | some p => exact if_neg (by simpa using hport')
  case announce =>
    rw [← hw]
    dsimp only
    rw [hslave, if_neg (by simp), ← hx]
    rfl
  case chosen =>
    rw [← hw]
    dsimp only
    rw [hslave, if_neg (by simp), ← hx, if_neg (by decide), ← hy]
    cases y.meanPath d port <;> rfl
  case announceTimeout =>
    rw [← hw]
    exact if_neg (by simp [hsource, hst, Nat.not_lt.2 hlate])
  case syncTimeout =>
    rw [← hw]
    exact if_neg (by simp [hsource, hst, Nat.not_lt.2 hlate])
  case ppsTimeout =>
    rw [← hw]
    exact if_neg (by simp [hsource, hst, Nat.not_lt.2 hlate])

/-- Settles O34: pulses, frames, the holdover's expiry, the closed gap and the capture. -/
theorem pulsesAndDeviceClockComplete : Obligations.PulsesAndDeviceClockComplete := by
  refine ⟨fun s w u t hw => ⟨fun pin hpin hrole hu => onUnit_of_lt hpin ?edge,
      fun frame rate good hrole hgood => ⟨fun hok => ?frame, fun hbad => ?badFrame⟩, ?pps⟩,
    fun s w t hw => ⟨fun u limit hlimit hlock hexp hfrom hover hu => ?expiry, ?slew, fun c hc => ?capture⟩⟩
  case edge =>
    have hinput : ¬ (decide (pin = 0) && w.rd R.TIME_TOD_STATUS_ROLE != 2) = true := by
      simpa using hrole
    rw [← hw]
    dsimp only
    rw [if_neg hinput, ← hu]
  case frame =>
    rw [hok] at hgood
    change execTodFrameRx frame rate t s = _
    unfold execTodFrameRx
    simp only [bne, beq_eq_decide, decide_not] at hgood ⊢
    exact (if_neg (by simp [hrole])).trans (if_pos hgood.symm)
  case badFrame =>
    rw [hbad] at hgood
    change execTodFrameRx frame rate t s = _
    unfold execTodFrameRx
    simp only [bne, beq_eq_decide, decide_not] at hgood ⊢
    exact (if_neg (by simp [hrole])).trans (if_neg (Bool.eq_false_iff.1 hgood.symm))
  case pps =>
    rw [hw]
    rfl
  case expiry =>
    have hnot : ¬ (decide (w.rd R.TIME_STATUS_TIME_LOCK = 1) || decide (w.rd R.TIME_STATUS_HO_EXPIRED = 1) || w.clk.hoFrom.isNone ||
        decide (w.rd R.TIME_HO_ELAPSED_SECONDS < limit)) = true := by
      simp [hlock, hexp, hfrom, Nat.not_lt.2 hover]
    change execHoldoverBudgetExpiry t s = _
    unfold execHoldoverBudgetExpiry
    rw [← hw]
    dsimp only
    rw [← hlimit, if_neg hnot, ← hu]
    split <;> rfl
  case slew =>
    rw [hw]
    rfl
  case capture =>
    rw [hc, hw]
    rfl

/-- Settles O35: references are chosen and locked to, and the interval's messages go out. -/
theorem synceAndTimeMessagesComplete : Obligations.SynceAndTimeMessagesComplete := by
  refine ⟨fun s w t hw => ⟨fun port ql hport => onUnit_of_lt hport (by rw [hw]), fun n since hn hheld hin => onUnit_of_lt hn ?fail,
      fun n since hn hheld hin => onUnit_of_lt hn ?recover, fun p hp => ?lock⟩,
    fun s w u v t hw => ⟨fun htwo hu hv => ?oneStep, fun htwo hu hv => ?twoStep, fun hlock => ?esmcLocked, fun hfree => ?esmcFree⟩⟩
  case fail =>
    rw [← hw]
    exact if_neg (by simp [Nat.not_lt.2 hheld, hin])
  case recover =>
    rw [← hw]
    exact if_neg (by simp [Nat.not_lt.2 hheld, hin])
  case lock =>
    change execEecLocked t s = _
    unfold execEecLocked
    rw [← hw]
    dsimp only
    rw [hp]
  case oneStep =>
    change execPtpTransmit t s = _
    unfold execPtpTransmit
    rw [← hw]
    simp only [htwo, State.iff, hv, hu]
    by_cases heven : w.clk.txCount % 2 = 0
    · simp [heven]
    · simp [heven]
  case twoStep =>
    change execPtpTransmit t s = _
    unfold execPtpTransmit
    rw [← hw]
    simp only [htwo, State.iff, hv, hu]
    by_cases heven : w.clk.txCount % 2 = 0
    · simp [heven]
    · simp [heven]
  case esmcLocked =>
    change execEsmcTransmit t s = _
    unfold execEsmcTransmit
    simp [hlock, State.iff, bne]
  case esmcFree =>
    change execEsmcTransmit t s = _
    have hnot : ((s.atTime t).rd R.TIME_STATUS_SYNCE_STATE == 1) = false := by simpa using hfree
    unfold execEsmcTransmit
    simp only [hnot, State.iff, Bool.false_and, Bool.not_false, List.filter_true, Bool.false_eq_true, if_false]

end Sys2Proof.Machine
end

section
/-! PROOFS. Ethernet ports: frames, queues, shapers, policers, gates and links (R444 to R466). -/

namespace Sys2Proof.Machine

section
variable {s w : State} {port t : Nat} {f : EthFrame}

/-- What becomes of a frame on a port that is up (R446, R448, R459). -/
theorem exec_ethRxFrame {u : State} (hport : port < 40) (hw : w = s.atTime t) (hup : w.rd (R.PORT_STATUS_LINK port) = 2)
    (hu : (if f.len < 64 ∨ w.rd (R.PORT_CTRL_MTU port) < f.len then w.sat (R.PORT_RX_LEN_ERR_COUNT port) 1
      else if f.fcsOk = false then w.sat (R.PORT_RX_FCS_ERR_COUNT port) 1
      else if f.etype = 0x8808 then w.sat (R.PORT_RX_PAUSE_COUNT port) 1
      else if w.consumer port f < 2 then w.deliver port f (if (f.tag.map (·.2.1)).getD false then 1 else 0)
      else
        let r := w.colour port ((f.tag.map (·.1)).getD 0) (8 * f.len) ((f.tag.map (·.2.1)).getD false)
        let s := r.2.countColour port ((f.tag.map (·.1)).getD 0) r.1
        if r.1 = 2 ∨ r.1 = 1 ∧ s.rd (R.PORT_POL_CIR_YELLOW_DROP port ((f.tag.map (·.1)).getD 0)) = 1 then s
        else s.deliver port f (if r.1 = 1 then 1 else if (f.tag.map (·.2.1)).getD false then 1 else 0)) = u) :
    exec (.ethRxFrame port f t) s = .next u := by
  refine onUnit_of_lt hport ?_
  rw [← hw, ← hu]
  simp only [hup, bne_self_eq_false, Bool.false_eq_true, if_false, Bool.or_eq_true, decide_eq_true_eq, Bool.not_eq_true', Bool.and_eq_true,
    beq_iff_eq]

end

/-- Settles O36: frames, queues, shapers, policers, gates and links in the case each clause gives. -/
theorem ethernetCommandsComplete : Obligations.EthernetCommandsComplete := by
  refine ⟨fun s w port t hport hw => ⟨fun f hup => ⟨fun hlen => ?length, fun hmin hmax hfcs => ?fcs, fun hmin hmax hfcs hpause hcons => ?plain,
        fun k v pcp hmin hmax hfcs hpause hcons hpcp hcolour => ?policed⟩,
      fun id len q pcp latest hq hlimit hroom => onUnit_of_lt hport ?enqueue, fun ps hidle hup => onUnit_of_lt hport ?send⟩,
    fun s w port t hport hw => ⟨onUnit_of_lt hport (by rw [hw]), onUnit_of_lt hport (by rw [hw]), onUnit_of_lt hport (by rw [hw]),
      fun g hnext hstart => onUnit_of_lt hport ?gate, fun since hlink hbundled hheld => onUnit_of_lt hport ?up,
      fun hlink => onUnit_of_lt hport ?loss⟩⟩
  case length => exact exec_ethRxFrame hport hw hup (if_pos hlen)
  case fcs =>
    have hlen : ¬ (f.len < 64 ∨ w.rd (R.PORT_CTRL_MTU port) < f.len) := by omega
    exact exec_ethRxFrame hport hw hup ((if_neg hlen).trans (if_pos hfcs))
  case plain =>
    have hlen : ¬ (f.len < 64 ∨ w.rd (R.PORT_CTRL_MTU port) < f.len) := by omega
    refine exec_ethRxFrame hport hw hup ?_
    rw [if_neg hlen, if_neg (by simp [hfcs]), if_neg hpause, if_pos hcons]
  case policed =>
    have hlen : ¬ (f.len < 64 ∨ w.rd (R.PORT_CTRL_MTU port) < f.len) := by omega
    refine exec_ethRxFrame hport hw hup ?_
    rw [if_neg hlen, if_neg (by simp [hfcs]), if_neg hpause, if_neg (Nat.not_lt.2 hcons), ← hpcp, hcolour]
  case enqueue =>
    rw [← hw]
    dsimp only
    rw [← hq]
    exact if_neg (by simp [Nat.not_lt.2 hlimit, Nat.not_lt.2 hroom])
  case send =>
    rw [← hw]
    dsimp only
    rw [hidle]
    dsimp only
    rw [if_neg (by decide), hup]
    rfl
  case gate =>
    rw [← hw]
    dsimp only
    rw [hnext]
    exact if_neg (Nat.not_lt.2 hstart)
  case up =>
    rw [← hw]
    exact if_neg (by simp [hlink, hbundled, Nat.not_lt.2 hheld])
  case loss =>
    rw [← hw]
    exact if_neg hlink

end Sys2Proof.Machine
end

section
/-! PROOFS. Fabric links: flits received, replays, training, lanes and credits (R469 to R481, R512 to R516, R530). -/

namespace Sys2Proof.Machine

section
variable {s w v x y : State} {l t warn : Nat} {f : FlitTail} {fec : Nat × Nat} {sym : List Nat}

/-- A flit on a link that is UP: what its CRC, IDLE and SEQ make of it (R471 to R475). -/
theorem exec_flitRx {u : State} (hl : l < 6) (hw : w = s.atTime t) (hup : w.linkUp l = true)
    (hv : v = (w.bump (R.FAB_LINK_FEC_CORR_COUNT l) fec.1).sat (R.FAB_LINK_FEC_UNCORR_COUNT l) fec.2)
    (hwarn : warn = ((List.range 8).map fun i => if v.rd R.FAB_DETECT_WARN_WARN_SYM < sym.getD i 0 then 2 ^ i else 0).sum)
    (hx : x = (v.wr (R.FAB_LANE_WARN_WARN l) warn).iff ((List.range 8).any fun i =>
      warn / 2 ^ i % 2 == 1 && v.rd (R.FAB_LANE_WARN_WARN l) / 2 ^ i % 2 == 0) (·.flag R.FAB_FAULT_EVENT_LANE_WARN))
    (hy : y = ((match f.ack with
      | some a => x.acked l a
      | none => x).each f.credits fun u c => u.wr (creditFld l c.1) (min (u.rd (creditFld l c.1) + c.2) (vcSize c.1))))
    (hu : (if (!f.crcOk) = true then
        (if (x.link l).naking = true then x.sat (R.FAB_LINK_CRC_ERR_COUNT l) 1
          else (x.sat (R.FAB_LINK_CRC_ERR_COUNT l) 1).putIdle l true)
      else if (!f.idle && f.seq != (x.link l).rxNext) = true then (if (x.link l).naking = true then x else x.putIdle l true)
      else
        let z := y.pump l (y.link l).wait.length
        if f.idle = true then z.checkMemCredits
        else
          let u := z.setLink l { z.link l with
            rxNext := ((z.link l).rxNext + 1) % 4096, naking := false, lastFlit := z.now,
            rxBuf := tblSet 0 (z.link l).rxBuf f.vc (tblGet 0 (z.link l).rxBuf f.vc + 1) }
          (if (decide (f.kind = 0) || decide (0x0F < f.kind)) = true then (u.sat R.FAB_BAD_FLIT_COUNT 1).freeBuf l f.vc
            else u.putIdle l false).checkMemCredits) = u) :
    exec (.flitRx l f fec sym t) s = .next u := by
  refine onUnit_of_lt hl ?_
  rw [← hu, ← hw]
  dsimp only
  rw [hup, if_neg (by decide), ← hv, ← hwarn, ← hx]
  cases hack : f.ack <;>
  · rw [hack] at hy
    dsimp only at hy ⊢
    rw [← hy]

end

section
variable {s w : State} {l t : Nat} (hl : l < 6) (hw : w = s.atTime t)
include hl hw

/-- A link to a device directly: it comes up with full credits (R469, R473, R480). -/
theorem exec_fabLinkUp {p : Partner} {since : Nat} {v : State} (hst : w.rd (R.FAB_LINK_STATUS_STATE l) = 1)
    (hheld : w.rd (R.FAB_LINK_PARK_HELD l) ≠ 1) (hlong : since + 1_000_000 ≤ w.now) (hdirect : p.switch_ = false)
    (hv : v = (w.setLink l { LinkState.reset with charges := (w.link l).charges, pod := p.pod, port := p.port, lastFlit := w.now, progress := w.now }).wrs
      [(R.FAB_LINK_STATUS_STATE l, 2), (R.FAB_LINK_STATUS_SWITCH l, 0), (R.FAB_LINK_STATUS_PARTNER_PORT l, p.port),
        (R.FAB_LINK_STATUS_LANES l, w.lanesOf l p.parked), (creditFld l 0, 192), (creditFld l 1, 192), (creditFld l 2, 96),
        (creditFld l 3, 32)]) :
    exec (.fabLinkUp l p since t) s = .next ((v.wrs [(R.FAB_STATUS_POD, if v.rd R.FAB_CFG_DIRECT = 1 then v.rd R.FAB_CFG_DIRECT_POD
      else p.pod), (R.FAB_STATUS_DEV, if v.rd R.FAB_CFG_DIRECT = 1 then v.rd R.FAB_CFG_DIRECT_DEV else p.port),
        (R.FAB_STATUS_NUMBERED, 1)]).manage l 0x0A p.pod p.port 0 0 0 []) := by
  have hlanes : ∀ y : LinkState, (w.setLink l y).lanesOf l p.parked = w.lanesOf l p.parked := fun _ => rfl
  have hready : ¬ (w.rd (R.FAB_LINK_STATUS_STATE l) != 1 || w.rd (R.FAB_LINK_PARK_HELD l) == 1 || decide (w.now < since + 1_000_000)) = true := by
    simp [hst, hheld, Nat.not_lt.2 hlong]
  refine onUnit_of_lt hl ?_
  rw [← hw]
  dsimp only
  rw [if_neg hready, hdirect, hlanes]
  simp only [Bool.false_and, Bool.false_eq_true, if_false, Bool.and_false, List.filter_false, beq_iff_eq]
  rw [← hv]
  rfl

/-- A lane is freed on a link that is not UP (R515). -/
theorem exec_unpark {u : State} (hparked : w.rd (R.FAB_LINK_PARK_PARKED l) ≠ 0 ∨ w.rd (R.FAB_LINK_PARK_HELD l) ≠ 0)
    (hu : u = w.wrs [(R.FAB_LINK_PARK_PARKED l, 0), (R.FAB_LINK_PARK_LANE l, 0), (R.FAB_LINK_PARK_HELD l, 0)])
    (hdown : ((u.setLink l { u.link l with charges := [] }).showCharges l).linkUp l = false) :
    exec (.unpark l t) s =
      .next (((u.setLink l { u.link l with charges := [] }).showCharges l).wr (R.FAB_LINK_STATUS_STATE l) 1) := by
  have hnot : ¬ (decide (w.rd (R.FAB_LINK_PARK_PARKED l) = 0) && decide (w.rd (R.FAB_LINK_PARK_HELD l) = 0)) = true := by
    obtain h | h := hparked <;> simp [h]
  refine onUnit_of_lt hl ?_
  rw [← hw]
  dsimp only
  rw [if_neg hnot, ← hu, hdown]
  rfl

theorem exec_fabLinkDown {started : Bool} {lost sym : List Nat} (hup : w.linkUp l = true) :
    exec (.fabLinkDown l started lost sym t) s = .next (if started = true then w.linkDrop l none else
      match (List.range 8).find? lost.contains with
      | some i => w.linkDrop l (some i)
      | none => w.linkDrop l (worstLane (sym.take 8))) := by
  refine onUnit_of_lt hl ?_
  rw [← hw]
  dsimp only
  rw [hup]
  rfl

theorem exec_creditLeak {vc : Nat} (hup : w.linkUp l = true) (hidle : (w.link l).lastFlit + 2_000 ≤ w.now) (hvc : vc < 4)
    (hlost : w.rd (creditFld l vc) ≠ vcSize vc ∨ tblGet 0 (w.link l).rxBuf vc ≠ 0 ∨ tblGet 0 (w.link l).owed vc ≠ 0) :
    exec (.creditLeak l t) s = .next ((w.flag R.FAB_FAULT_EVENT_CREDIT_LEAK).linkDrop l none) := by
  have hbad : ((List.range 4).all fun vc => w.rd (creditFld l vc) == vcSize vc && tblGet 0 (w.link l).rxBuf vc == 0 &&
      tblGet 0 (w.link l).owed vc == 0) = false := by
    refine List.all_eq_false.2 ⟨vc, List.mem_range.2 hvc, ?_⟩
    simp only [Bool.and_eq_true, beq_iff_eq]
    tauto
  refine onUnit_of_lt hl ?_
  rw [← hw]
  dsimp only
  rw [hbad, hup, decide_eq_true hidle]
  rfl

end

/-- Settles O37: a flit by its CRC, IDLE and SEQ; each event of a link in the case its clause gives. -/
theorem flitsAndLinksComplete : Obligations.FlitsAndLinksComplete := by
  refine ⟨fun s w v x y l t warn f fec sym hl hw hup hv hwarn hx => ⟨fun hcrc => ?badCrc, fun hcrc hidle hseq => ?badSeq,
      fun hcrc hnext hy => ⟨fun hidle => ?idle, fun z u hidle hz hu => ?data⟩⟩,
    fun s w l t hl hw => ⟨fun ack hup => onUnit_of_lt hl ?nak, fun hup hlate => onUnit_of_lt hl ?replay,
      fun sym e hup he hlate => onUnit_of_lt hl ?delivery, fun lost sym hup => ⟨?started, fun hnone => ?symbols, fun i hi => ?lane⟩,
      fun p since v hst hheld hlong hdirect hv => exec_fabLinkUp hl hw hst hheld hlong hdirect hv,
      fun u hparked hu hdown => exec_unpark hl hw hparked hu hdown, onUnit_of_lt hl (by rw [hw]),
      fun vc hup hidle hvc hlost => exec_creditLeak hl hw hup hidle hvc hlost⟩⟩
  case badCrc => exact exec_flitRx hl hw hup hv hwarn hx rfl (by rw [hcrc]; rfl)
  case badSeq =>
    refine exec_flitRx hl hw hup hv hwarn hx rfl ?_
    rw [hcrc, hidle, if_neg (by decide), if_pos (by simpa using hseq)]
  case idle =>
    refine exec_flitRx hl hw hup hv hwarn hx hy ?_
    rw [hcrc, hidle, if_neg (by decide), if_neg (by simp)]
    rfl
  case data =>
    have hseq : f.seq = (x.link l).rxNext := hnext.resolve_left (by simp [hidle])
    refine exec_flitRx hl hw hup hv hwarn hx hy ?_
    rw [hcrc, hidle, if_neg (by decide), if_neg (by simp [hseq])]
    dsimp only
    rw [← hz, ← hu]
    simp only [Bool.false_eq_true, if_false, Bool.or_eq_true, decide_eq_true_eq]
  case nak =>
    rw [← hw]
    exact if_pos hup
  case replay =>
    rw [← hw]
    exact if_pos (by simp [hup, hlate])
  case delivery =>
    rw [← hw]
    refine if_pos ?_
    rw [hup]
    exact List.any_eq_true.2 ⟨e, he, by simpa using hlate⟩
  case started => exact exec_fabLinkDown hl hw hup
  case symbols =>
    rw [exec_fabLinkDown hl hw hup, hnone]
    rfl
  case lane =>
    rw [exec_fabLinkDown hl hw hup, hi]
    rfl

end Sys2Proof.Machine
end

section
/-! PROOFS. Fabric operations and requests (R484 to R506). -/

namespace Sys2Proof.Machine

section
variable {w v : State} {q h : Nat} {d : List (BitVec 8)} (hhead : w.opqHead q = some (h, d))
  (hphase : w.rd R.DEV_STATUS_PHASE = 4 ∨ w.rd R.DEV_STATUS_PHASE = 5) (hv : v = w.bump (R.FAB_OPQ_HEAD_HEAD q) 1)
include hhead hphase hv

/-- The descriptor at HEAD is issued by the command of its OP: it starts, or ends with the code of its failed check. -/
theorem State.issueOp_eq (hready : w.issueCode q d ≠ 0 ∨ w.issueWaits q d = false) : w.issueOp (dOp d) q =
    if w.issueCode q d ≠ 0 then v.writeDone q h d 0 (w.issueCode q d) 0 else (v.setFab { v.fab with nextOp := v.fab.nextOp + 1 }).startOp
      ⟨v.fab.nextOp, q, h, if v.opqOwner q then 0 else v.gen (v.opqSlice q), d, 0, 0, 0, 0⟩ := by
  have hwaits : ¬ (decide (w.issueCode q d = 0) && w.issueWaits q d) = true := by
    obtain hcode | hwait := hready
    · simp [hcode]
    · simp [hwait]
  have hruns : ¬ ((decide (1 ≤ dOp d) && decide (dOp d ≤ 15)) && dOp d != dOp d ||
      (w.rd R.DEV_STATUS_PHASE != 4 && w.rd R.DEV_STATUS_PHASE != 5)) = true := by
    obtain hp | hp := hphase <;> simp [hp]
  unfold State.issueOp
  rw [hhead]
  dsimp only
  rw [if_neg hruns, if_neg hwaits, ← hv]

end

/-- The fifteen operations by their OP. -/
theorem exec_fabOp {s : State} {q t op : Nat} {c : Instr} (hq : q < 32)
    (hc : (c, op) ∈ [(Instr.fabLoad q t, 1), (Instr.fabStore q t, 2), (Instr.fabStoreWord q t, 3), (Instr.fabGet q t, 4),
      (Instr.fabPut q t, 5), (Instr.fabFetchAdd q t, 6), (Instr.fabSwap q t, 7), (Instr.fabCswap q t, 8), (Instr.fabMin q t, 9),
      (Instr.fabMax q t, 10), (Instr.fabInv q t, 11), (Instr.fabInvPod q t, 12), (Instr.fabInvLocal q t, 13), (Instr.fabMsg q t, 14),
      (Instr.fabFenceOp q t, 15)]) : exec c s = .next ((s.atTime t).issueOp op q) := by
  simp only [List.mem_cons, Prod.mk.injEq, List.not_mem_nil, or_false] at hc
  rcases hc with ⟨rfl, rfl⟩ | ⟨rfl, rfl⟩ | ⟨rfl, rfl⟩ | ⟨rfl, rfl⟩ | ⟨rfl, rfl⟩ | ⟨rfl, rfl⟩ | ⟨rfl, rfl⟩ | ⟨rfl, rfl⟩ | ⟨rfl, rfl⟩ | ⟨rfl, rfl⟩ |
    ⟨rfl, rfl⟩ | ⟨rfl, rfl⟩ | ⟨rfl, rfl⟩ | ⟨rfl, rfl⟩ | ⟨rfl, rfl⟩ <;> exact onUnit_of_lt hq rfl

/-- Settles O38: each operation's command is the issue of its OP. -/
theorem fabricOperationsIssue : Obligations.FabricOperationsIssue := by
  intro s w v q t h d c hq hw hhead hphase hc hv
  rw [exec_fabOp hq hc, ← hw]
  refine ⟨fun hcode => ?_, fun hcode hwait => ?_⟩
  · rw [State.issueOp_eq hhead hphase hv (.inl hcode), if_pos hcode]
  · rw [State.issueOp_eq hhead hphase hv (.inr hwait), if_neg (not_not.2 hcode)]

/-! Responses -/

section
variable {s w u : State} {t code : Nat} {r : FabReq} {h : FabHdr} {data : List (BitVec 8)} {evict : List Nat} {o : FabOp}

/-- A response to an outstanding request of a descriptor in progress, of which no line enters the cache (R484, R491). -/
theorem exec_fabResponseRx {x : State} (hw : w = s.atTime t) (hl : h.link < 6) (hu : u = w.freeBuf h.link 1) (hr : u.reqOf h.tag = some r)
    (hdev : r.dev = h.dev) (hpod : r.flit.pod = h.pod) (ho : u.fabOp r.op = some o)
    (hx : (if (decide (r.kind = 1) && decide (code = 0) && (u.opqOwner o.queue || u.gen (u.opqSlice o.queue) == o.gen)) = true then
        u.opqStore o.queue (dLocal o.desc + 64 * r.line) (data.take (64 * r.lines))
      else if (decide (r.kind = 4) && decide (code = 0)) = true then
        u.putOp { o with result := bankNum data 0 (if dSize8 o.desc then 8 else 4) }
      else u) = x) :
    exec (.fabResponseRx h code data false evict t) s = .next (((if (decide (r.kind = 7) && (decide (code = 4) || decide (code = 5) ||
      decide (code = 0x0C))) = true then x.setSpent r.flit.pod r.dev r.flit.window (·.dropLast) else x).endFabReq r code).pumpOps) := by
  refine onUnit_of_lt hl ?_
  rw [← hw]
  dsimp only
  rw [← hu, hr]
  dsimp only
  rw [if_neg (by simp [hdev, hpod]), ho]
  dsimp only
  rw [Bool.false_and, Bool.false_and, if_neg Bool.false_ne_true, hx]

end

/-- Settles O39: responses, retries and time limits in the case each clause gives. -/
theorem fabricRequestsComplete : Obligations.FabricRequestsComplete := by
  intro s w tag t r hw
  refine ⟨fun h code data evict o u hl hu hr hdev hpod ho => ⟨fun hcode hkind => ?failed, fun hkind hcode => ?message,
      fun hcode hkind hfresh => ?load, fun hcode hkind => ?atomic⟩,
    fun hr => ⟨fun n u o hkind hfirst hlate htag ho => ?retry, fun hdue => ?timeout, fun q hkind hfirst hlate hq => ?again,
      fun hkind hlate => ?unknown⟩⟩
  case failed =>
    rw [exec_fabResponseRx hw hl hu hr hdev hpod ho (x := u) (by simp [hcode])]
    simp [hkind]
  case message =>
    rw [exec_fabResponseRx hw hl hu hr hdev hpod ho (x := u) (by simp [hkind])]
    rw [if_pos]
    simp only [hkind, Bool.and_eq_true, Bool.or_eq_true, decide_eq_true_eq]
    tauto
  case load =>
    have hcurrent : (u.opqOwner o.queue || u.gen (u.opqSlice o.queue) == o.gen) = true := by
      obtain h | h := hfresh <;> simp [h]
    rw [exec_fabResponseRx hw hl hu hr hdev hpod ho rfl, hcurrent, hkind, hcode]
    rfl
  case atomic =>
    rw [exec_fabResponseRx hw hl hu hr hdev hpod ho rfl, hkind, hcode]
    rfl
  case retry =>
    change execLoadRetryTimeout tag t s = _
    unfold execLoadRetryTimeout
    have hops : ∀ g : List FabReq, (u.setFab { u.fab with reqs := g }).fabOp r.op = some o := fun _ => ho
    rw [← hw]
    dsimp only
    rw [hr]
    dsimp only
    rw [if_neg (by simp [hkind, hfirst, Nat.not_lt.2 hlate]), htag]
    dsimp only
    rw [hops]
  case timeout =>
    change execRequestTimeout tag t s = _
    unfold execRequestTimeout
    rw [← hw]
    dsimp only
    rw [hr]
    obtain ⟨hkind, hretried, hlate⟩ | ⟨hload, hatomic, hlate⟩ := hdue
    · simp [hkind, hretried, hlate]
    · simp [hload, hatomic, hlate]
  case again =>
    change execAtomicRetry tag t s = _
    unfold execAtomicRetry
    rw [← hw]
    dsimp only
    rw [hr]
    dsimp only
    rw [if_neg (by simp [hkind, hfirst, Nat.not_lt.2 hlate]), hq]
  case unknown =>
    change execAtomicUnknown tag t s = _
    unfold execAtomicUnknown
    rw [← hw]
    dsimp only
    rw [hr]
    dsimp only
    rw [if_neg (by simp [hkind, Nat.not_lt.2 hlate])]

end Sys2Proof.Machine
end

section
/-! PROOFS. The home of fabric requests and its stores (R482 to R502, R531). -/

namespace Sys2Proof.Machine

/-! Requests at their home -/

section
variable {s w : State} {h : FabHdr} {kind len t : Nat} {formOk : Bool} {g : State → State}
  (hw : w = s.freeBuf h.link (if kind = 7 then 2 else 0)) (hform : formOk = true)
include hw hform

/-- A request in its row's form that passes the checks is served. -/
theorem State.atHome_ok (hcode : w.homeCode h kind len = 0) : s.atHome h kind len formOk g = g w := by
  unfold State.atHome
  rw [← hw, hform]
  exact if_neg (not_not.2 hcode)

/-- A request in its row's form that fails a check is turned away. -/
theorem State.atHome_turned (hcode : w.homeCode h kind len ≠ 0) :
    s.atHome h kind len formOk g = w.turnAway h kind (w.homeCode h kind len) := by
  unfold State.atHome
  rw [← hw, hform]
  exact if_pos hcode

end

/-- No codeword of the lines is uncorrectable: none is found. -/
theorem State.findBad_none {x : State} {l : List (Nat × Nat)} (hgood : ∀ p, p ∈ l → ∀ i, i < 2 → x.badAt p.1 (p.2 / 32 + i) = 0) :
    (l.findSome? fun p => ([0, 1].find? fun i => x.badAt p.1 (p.2 / 32 + i) != 0).map fun i => (p.1, p.2 / 32 + i)) = none := by
  refine List.findSome?_eq_none_iff.2 fun p hp => ?_
  have hlow : x.badAt p.1 (p.2 / 32) = 0 := hgood p hp 0 (by decide)
  simp [hlow, hgood p hp 1 (by decide)]

/-- Settles O40: a home's checks pass and the request's own work is done. -/
theorem homeRequestsComplete : Obligations.HomeRequestsComplete := by
  intro s w h t hl
  have lineForm : ∀ {n : Nat} {b : Bool}, 1 ≤ n → n ≤ 3 → h.offset % 64 = 0 → b = true →
      (decide (1 ≤ n) && decide (n ≤ 3) && h.offset % 64 == 0 && b) = true := by
    rintro n b h1 h3 h0 rfl
    simp [h1, h3, h0]
  refine ⟨fun lines corr l x hw h1 h3 h0 => ⟨fun hcode => ?turned, fun hcode hlines hx hgood => ?load⟩,
    fun data masks hw h1 h3 h0 hlen hcode => ?store, fun size8 v n hw hn h0 hcode => ?word,
    fun o n corr hw hn h0 hlow hhigh hcode hepoch => ⟨fun hfirst hroom => ?atomic, fun e hretry hseen => ?replay⟩,
    fun data masks copy cyc sig hw h1 h3 h0 hlen hcode => ⟨fun hbefore hafter hroom => ?memory, fun site hbefore hafter htile hon => ?tile⟩,
    fun lines hw hpos hmax hfresh => ?inv, fun msg hw h1 h222 hcode => ?msg⟩
  case turned =>
    refine onUnit_of_lt hl (State.atHome_turned hw ?_ hcode)
    simp [h1, h3, h0]
  case load =>
    refine onUnit_of_lt hl ((State.atHome_ok hw (by simp [h1, h3, h0]) hcode).trans ?_)
    dsimp only
    rw [← hlines, ← hx, State.findBad_none hgood]
  case store => exact onUnit_of_lt hl (State.atHome_ok hw (lineForm h1 h3 h0 (beq_iff_eq.2 hlen)) hcode)
  case word =>
    subst hn
    exact onUnit_of_lt hl (State.atHome_ok hw (beq_iff_eq.2 h0) hcode)
  case atomic =>
    subst hn
    refine onUnit_of_lt hl ((State.atHome_ok hw (by simp [h0, hlow, hhigh]) hcode).trans ?_)
    dsimp only
    rw [if_neg (by simp [hepoch]), hfirst]
    exact if_neg (Nat.not_le.2 hroom)
  case replay =>
    subst hn
    refine onUnit_of_lt hl ((State.atHome_ok hw (by simp [h0, hlow, hhigh]) hcode).trans ?_)
    dsimp only
    rw [if_neg (by simp [hepoch]), hretry, hseen]
  case memory =>
    refine onUnit_of_lt hl ?_
    dsimp only
    have hfits : ¬ 3076 < ((s.atTime t).fab.cairn.filter fun e => e.kind == 5).length + masks.length := Nat.not_lt.2 hroom
    rw [if_neg (by rw [decide_eq_false hfits, Bool.and_false]; decide),
      State.atHome_ok hw (lineForm h1 h3 h0 (beq_iff_eq.2 hlen)) hcode, if_pos hafter]
  case tile =>
    refine onUnit_of_lt hl ?_
    dsimp only
    have hother : ¬ (s.atTime t).rd (R.FAB_WIN_CTRL_KIND h.window) = 1 := hbefore
    rw [if_neg (by rw [decide_eq_false hother, Bool.false_and]; decide),
      State.atHome_ok hw (lineForm h1 h3 h0 (beq_iff_eq.2 hlen)) hcode, if_neg hafter, htile]
    dsimp only
    rw [hon]
    rfl
  case inv =>
    refine onUnit_of_lt hl ?_
    rw [← hw]
    dsimp only
    rw [if_neg, if_neg]
    · simpa using hfresh
    · simp only [Bool.or_eq_true, decide_eq_true_eq]
      omega
  case msg => exact onUnit_of_lt hl (State.atHome_ok hw (by simp [h1, h222]) hcode)

/-! The cairn queue -/

/-- Counting corrected symbols changes nothing of the fabric's own state. -/
theorem State.corrAt_fab (s : State) (p : Option (Nat × Nat)) (n : Nat) : (s.corrAt p n).fab = s.fab := by
  cases p <;> rfl

/-- Counting corrected symbols makes no codeword bad. -/
theorem State.corrAt_mergeBad (s : State) (p : Option (Nat × Nat)) (n v a mask : Nat) :
    (s.corrAt p n).mergeBad v a mask = s.mergeBad v a mask := by
  cases p <;> rfl

/-- An entry with no older one of its line, whose merge meets no bad codeword, is applied. -/
theorem State.applyEntry_good {x : State} {i : Nat} {e : CairnEntry} (he : x.fab.cairn[i]? = some e)
    (hfirst : ∀ c, c ∈ x.fab.cairn.take i → ¬ (c.vault = e.vault ∧ c.addr = e.addr)) (hgood : x.mergeBad e.vault e.addr e.mask = []) :
    x.applyEntry i = (((x.setFab { x.fab with cairn := x.fab.cairn.eraseIdx i }).writeLine e.vault e.addr e.data e.mask).ackStore
      e).showCairn 0 := by
  unfold State.applyEntry
  dsimp only
  rw [he]
  dsimp only
  rw [if_neg, hgood]
  · rfl
  · simpa using hfirst

/-- Settles O41: the stores of the home in the case each clause gives. -/
theorem fabricStoresComplete : Obligations.FabricStoresComplete := by
  intro s w t hw
  refine ⟨fun i corr e x he hfirst hx hgood => ?apply, fun l hl => ?expire, ?invalidate, ?invalidated, fun h n hl => ?credit,
    fun i head n l u hi hn hl hu => ?consume, fun pod dev hpod hdev => ?send, fun h u hl hwin hu => ?query,
    fun pod dev win count l c x u hpod hdev hwin hc hx hold hl hu => ?resync⟩
  case apply =>
    change execCairnApply i t s corr = _
    unfold execCairnApply
    have hfab : x.fab = w.fab := by rw [hx, State.corrAt_fab]
    rw [← hw]
    dsimp only
    rw [he]
    dsimp only [Option.bind]
    rw [← hx, State.applyEntry_good (hfab ▸ he) (hfab ▸ hfirst) (by rw [hx, State.corrAt_mergeBad, hgood])]
  case expire => subst hw; exact onUnit_of_lt hl rfl
  case invalidate => subst hw; rfl
  case invalidated => subst hw; rfl
  case credit => subst hw; exact onUnit_of_lt hl rfl
  case consume => subst hw hn hl hu; exact onUnit_of_lt hi rfl
  case send => subst hw; exact onUnit_of_and hpod hdev rfl
  case query => subst hw hu; exact onUnit_of_and hl hwin rfl
  case resync =>
    refine onUnit_of (by simp [hpod, hdev, hwin]) ?_
    rw [← hw]
    dsimp only
    rw [hc]
    dsimp only
    rw [if_neg, hl, hu]
    simp only [Bool.not_eq_true', Bool.not_eq_false, List.any_eq_true, decide_eq_true_eq]
    exact ⟨x, hx, hold⟩

end Sys2Proof.Machine
end

section
/-! PROOFS. Pod membership and the service cores (R480, R518 to R530, R564 to R575). -/

namespace Sys2Proof.Machine

/-- Settles O42: membership, fences and the books in the case each clause gives. -/
theorem fencingCompletes : Obligations.FencingCompletes := by
  intro s w t cyc hw
  refine ⟨fun hnum => ?hello, fun l dev named u hl hdev hnamed hu => ?linkState,
    fun l dev epoch windows pairs u v hl hdev hu hfresh hv => ?heard, ?detector, fun dev hdev => ?owner,
    fun l src dev epoch hl hsrc hdev => ?named, fun hup hsilent => ?selfFence, fun u hfenced hu => ?rejoin,
    fun i dev n hi hdev hn hroom hkind => ?notice, fun qty index a b c hqty hbooks => ?books⟩
  case hello =>
    change execHelloSend t s = _
    unfold execHelloSend
    rw [← hw]
    exact if_neg hnum
  case linkState =>
    subst hw hu
    exact onUnit_of (by simp [hl, hdev, hnamed]) rfl
  case heard =>
    subst hw
    refine onUnit_of_and hl hdev ?_
    dsimp only
    rw [← hu, if_neg (by rw [hfresh]; decide), ← hv]
  case detector => subst hw; rfl
  case owner => subst hw; exact onUnit_of_lt hdev rfl
  case named =>
    subst hw
    exact onUnit_of (by simp [hl, hsrc, hdev]) rfl
  case selfFence =>
    change execHelloSilenceSelfFence cyc t s = _
    unfold execHelloSilenceSelfFence
    rw [← hw]
    exact if_pos (by simp [hup, hsilent])
  case rejoin =>
    change execRejoin t s = _
    unfold execRejoin
    rw [← hw]
    dsimp only
    rw [if_neg (by simp [hfenced]), ← hu]
  case notice =>
    refine onUnit_of_and hi hdev ?_
    rw [← hw]
    dsimp only
    rw [hn]
    exact if_neg (by simp [hkind, Nat.not_le.2 hroom])
  case books =>
    change execFabBooksSnap qty index t s = _
    unfold execFabBooksSnap
    rw [← hw]
    dsimp only
    rw [hbooks]
    dsimp only
    rw [if_neg hqty]

/-! Service cores -/

/-- A command of a running service core is carried out. -/
theorem State.coreRuns_not {w : State} {c : Nat} {b : Bool} (hruns : w.coreRuns c = true) (hb : b = false) :
    ¬ (!w.coreRuns c || b) = true := by
  simp [hruns, hb]

/-- An owner's RESTART of a core in a state that can restart. -/
theorem exec_fwCoreRestart {s w : State} {c t took slot : Nat} {ok : Bool} (hw : w = s.atTime t) (hc : c < 23)
    (hphase : 4 ≤ w.rd R.DEV_STATUS_PHASE) (hstate : w.rd (R.FW_CORE_STATUS_STATE c) = 1 ∨ w.rd (R.FW_CORE_STATUS_STATE c) = 3 ∨
      w.rd (R.FW_CORE_STATUS_STATE c) = 4) :
    exec (.fwCoreRestart c ok took slot t) s = .next (((if w.rd (R.FW_CORE_STATUS_STATE c) = 3 then
      { w with fw := { w.fw with crashes := tblErase w.fw.crashes (coreClass c) } } else w).restartCore c ok).coreStopped c took slot) := by
  change execFwCoreRestart c ok took slot t s = _
  unfold execFwCoreRestart
  rw [← hw]
  dsimp only
  rw [if_neg]
  simp only [Bool.or_eq_true, Bool.and_eq_true, decide_eq_true_eq]
  omega

/-- Settles O43: the service cores in the case each clause gives. -/
theorem firmwareCommandsComplete : Obligations.FirmwareCommandsComplete := by
  intro s w c t hw
  refine ⟨fun hc hruns => ⟨?kick, fun mcause mepc mtval ok took slot hlate => ?watchdog,
      fun cause mcause mepc mtval ok took slot hcause => ?crash, fun level trace args hlevel hpos hmax => ?log⟩,
    fun hc hphase => ⟨fun ok took slot hstate => ?restart, fun ok took slot hheld => ?release⟩,
    fun slot u v x y hc hstate hu hv hx hy => ?done, fun n b hb => ?select, fun on u hu hon hne hroute hdue hfw hnow => ?notify⟩
  case kick =>
    refine onUnit_of_lt hc ?_
    rw [← hw]
    exact if_neg (by simp [hruns])
  case watchdog =>
    refine onUnit_of_lt hc ?_
    rw [← hw]
    exact if_neg (State.coreRuns_not hruns (decide_eq_false (Nat.not_lt.2 hlate)))
  case crash =>
    refine onUnit_of_lt hc ?_
    rw [← hw]
    refine if_neg (State.coreRuns_not hruns ?_)
    obtain rfl | rfl := hcause <;> rfl
  case log =>
    refine onUnit_of_lt hc ?_
    rw [← hw]
    refine if_neg ?_
    simp only [hruns, Bool.not_true, Bool.false_or, Bool.or_eq_true, decide_eq_true_eq]
    omega
  case restart =>
    rw [exec_fwCoreRestart hw hc hphase (by tauto), if_neg (by omega)]
  case release =>
    rw [exec_fwCoreRestart hw hc hphase (.inr (.inl hheld)), if_pos hheld]
  case done =>
    refine onUnit_of_lt hc ?_
    rw [← hw]
    dsimp only
    rw [if_neg (not_not.2 hstate), ← hu, ← hv]
    have hclass : v.iff (coreClass c == 1) (fun s => s.wr R.SCHED_STATUS_RESTARTING 0) = x := by
      rw [hx]
      by_cases hjasper : coreClass c = 1
      · rw [if_pos hjasper, hjasper]; rfl
      · rw [if_neg hjasper, beq_false_of_ne hjasper]; rfl
    rw [hclass, ← hy]
  case select =>
    subst hw hb
    rfl
  case notify =>
    change execNotifySend t s = _
    unfold execNotifySend
    rw [← hw]
    dsimp only
    rw [← hu, ← hon, if_neg, hfw, hnow]
    rw [hfw, hnow]
    simp only [Bool.or_eq_true, Bool.and_eq_true, decide_eq_true_eq]
    obtain hrisen | hlate := hdue
    · exact fun h => h.elim (fun h => h.elim hne hroute) fun h => hrisen h.1
    · exact fun h => h.elim (fun h => h.elim hne hroute) fun h => absurd h.2 (Nat.not_lt.2 hlate)

end Sys2Proof.Machine
end

section
/-! PROOFS. The host link and security (R576 to R588, R604 to R615). -/

namespace Sys2Proof.Machine

/-- Settles O44: the host link and its session in the case each clause gives. -/
theorem hostCommandsComplete : Obligations.HostCommandsComplete := by
  intro s w t hw
  refine ⟨fun width rate hstrap hpos hmax hrate => ?up, ?down, fun id hup => ?config,
    fun hreach => ⟨fun level => ?opens, ?closes, fun x base hx => ?attach, fun v u hmatch hu => ?beat, fun v hother => ?badBeat⟩,
    fun hlate => ?silent, fun hlost hlate => ?expired, fun kind u hstrap hu => ?reset, fun entries => ?invalidate⟩
  case up =>
    change execPcieLinkUp width rate t s = _
    unfold execPcieLinkUp
    rw [← hw]
    dsimp only
    rw [if_neg]
    simp only [Bool.or_eq_true, decide_eq_true_eq]
    omega
  case down => subst hw; rfl
  case config =>
    change execPcieConfigRequest id t s = _
    unfold execPcieConfigRequest
    rw [← hw]
    dsimp only
    rw [if_neg (by simp [hup])]
  case opens =>
    change execHbSessionOpen level t s = _
    unfold execHbSessionOpen
    rw [← hw]
    dsimp only
    rw [if_neg (by simp [hreach])]
  case closes =>
    change execHbSessionClose t s = _
    unfold execHbSessionClose
    rw [← hw]
    dsimp only
    rw [if_neg (by simp [hreach])]
  case attach =>
    refine onUnit_of_lt hx ?_
    rw [← hw]
    exact if_neg (by simp [hreach])
  case beat =>
    change execHbHeartbeat v t s = _
    unfold execHbHeartbeat
    rw [← hw]
    dsimp only
    rw [if_neg (by simp [hreach]), if_neg (not_not.2 hmatch), ← hu, hu]
    rfl
  case badBeat =>
    change execHbHeartbeat v t s = _
    unfold execHbHeartbeat
    rw [← hw]
    dsimp only
    rw [if_neg (by simp [hreach]), if_pos hother]
  case silent =>
    change execHeartbeatTimeout t s = _
    unfold execHeartbeatTimeout
    rw [← hw]
    dsimp only
    rw [if_neg (Nat.not_lt.2 hlate)]
  case expired =>
    change execSessionLostExpiry t s = _
    unfold execSessionLostExpiry
    rw [← hw]
    dsimp only
    rw [if_neg (by simp [hlost, Nat.not_lt.2 hlate])]
  case reset =>
    change execPcieFunctionReset kind t s = _
    unfold execPcieFunctionReset
    rw [← hw]
    dsimp only
    rw [if_neg (by simpa using hstrap), ← hu]
  case invalidate => subst hw; rfl

/-! Security -/

/-- A GO with a record in mapped memory, with no other check going on, is answered by its check's code. -/
theorem State.enrolGo_checked {w u : State} {op took : Nat} {r : EnrolRec} (hagate : w.agateUp = true) (hrun : w.inRun = true)
    (hidle : w.sec.checkUntil ≤ w.now) (hmapped : r.mapped = true)
    (hu : u = ({ w with sec := { w.sec with checkUntil := w.now + min took 5_000_000 } } : State)) :
    w.enrolGo op r took = if u.enrolCode op r = 0 then (u.enrol op r).enrolResult 0 else u.enrolResult (u.enrolCode op r) := by
  unfold State.enrolGo
  rw [if_neg (by simp [hagate]), if_neg (by simp [hrun]), if_neg (Nat.not_lt.2 hidle)]
  dsimp only
  rw [← hu, if_neg (by simp [hmapped])]

/-- A GO of a free request slot in RUN queues the request. -/
theorem State.reqGo_queues {w u : State} {who k op ticket : Nat} (hopen : 0 < who → w.sliceOpen (who - 1) = true) (hrun : w.inRun = true)
    (hfree : w.rd (reqFld R.REQ_CTRL_GO R.SREQ_CTRL_GO who k) ≠ 1)
    (hu : u = w.wrs [(reqFld R.REQ_CTRL_OP R.SREQ_CTRL_OP who k, op), (reqFld R.REQ_CTRL_TICKET R.SREQ_CTRL_TICKET who k, ticket)]) :
    w.reqGo who k op ticket = ({ u with sec := { u.sec with
      reqs := u.sec.reqs ++ [SecReq.mk who k (if who = 0 then 0 else w.gen (who - 1))] } } : State).wr
        (reqFld R.REQ_CTRL_GO R.SREQ_CTRL_GO who k) 1 := by
  unfold State.reqGo
  rw [if_neg (by simpa using hopen), if_neg hfree]
  dsimp only
  rw [← hu, if_neg (by simp [hrun])]

/-- Settles O45: enrolment, extends, requests and customer images in the case each clause gives. -/
theorem securityCommandsComplete : Obligations.SecurityCommandsComplete := by
  intro s w t hw
  refine ⟨fun r took op c u hagate hrun hidle hmapped hu hc => ?enrol, fun mr hlow hhigh => ?extend, fun x hx hopen => ?slice,
    fun i => ?select, fun who k ticket op c u hunit hopen hrun hfree hc hu => ?submit, fun mapped r hagate hr => ?serve,
    fun core x lo hi digest hx hlow hhigh hstate hopen => ⟨fun hfits => ?image, ?refused⟩⟩
  case enrol =>
    rw [← State.enrolGo_checked hagate hrun hidle hmapped hu]
    simp only [List.mem_cons, Prod.mk.injEq, List.not_mem_nil, or_false] at hc
    subst hw
    rcases hc with ⟨rfl, rfl⟩ | ⟨rfl, rfl⟩ | ⟨rfl, rfl⟩ | ⟨rfl, rfl⟩ <;> rfl
  case extend =>
    change execSecExtend mr t s = _
    unfold execSecExtend
    rw [← hw]
    dsimp only
    rw [if_pos (by simp [hlow, hhigh])]
  case slice =>
    refine onUnit_of_lt hx ?_
    rw [← hw]
    exact if_neg (by simp [hopen])
  case select => subst hw; rfl
  case submit =>
    rw [← State.reqGo_queues hopen hrun hfree hu]
    simp only [List.mem_cons, Prod.mk.injEq, List.not_mem_nil, or_false] at hc
    subst hw
    rcases hc with ⟨rfl, rfl⟩ | ⟨rfl, rfl⟩ <;> exact onUnit_of hunit rfl
  case serve =>
    change execQuoteService mapped t s = _
    unfold execQuoteService
    rw [← hw]
    dsimp only
    rw [if_neg (by simp [hagate]), hr]
  case image =>
    refine onUnit_of (by simp [hx, hlow, hhigh]) ?_
    rw [← hw]
    dsimp only
    rw [if_neg (by simp [hstate, hopen]), if_pos (by simp only [Bool.true_and, decide_eq_true_eq]; exact hfits)]
  case refused =>
    refine onUnit_of (by simp [hx, hlow, hhigh]) ?_
    rw [← hw]
    dsimp only
    rw [if_neg (by simp [hstate, hopen]), Bool.false_and, if_neg Bool.false_ne_true]

end Sys2Proof.Machine
end

section
/-! PROOFS. Power, temperature, the assay and the flash (R286, R616 to R640, R652, R655). -/

namespace Sys2Proof.Machine

/-! Temperature -/

/-- A temperature's highest value is another register than `g`. -/
theorem State.topTemp_rd (s : State) {f g : Fld} (v : Int) (h : g.addr ≠ f.addr) : (s.topTemp f v).rd g = s.rd g := by
  unfold State.topTemp
  split
  · exact s.rd_wr_addr f g _ h
  · rfl

section
variable {s w u x : State} {n cyc t : Nat} {v : Int}

/-- A valid junction temperature below every limit: the sector is held no longer and runs. -/
theorem exec_junctionTempSample_cool (hw : w = s.atTime t) (hn : n < 8) (hcool : v < 392)
    (hthrottle : v < 4 * w.rd R.POWER_MODE_CFG_TJ_THROTTLE - 12)
    (hu : u = ((({ w with pow := { w.pow with badTj := tblSet 0 w.pow.badTj n 0 } } : State).wrs [(R.POWER_SECTOR_TJ n, toField 12 v),
      (R.POWER_SECTOR_TJ_VALID n, 1)]).topTemp (R.POWER_SECTOR_TJMAX_TJ n) v))
    (hx : x = (({ u with pow := { u.pow with thermHeld := member u.pow.thermHeld n false } } : State).wr (R.POWER_SECTOR_HALTED n) 0)) :
    exec (.junctionTempSample n (some v) cyc t) s = .next (if u.rd (R.POWER_SECTOR_HALTED n) = 1 ∧ x.rd (R.POWER_SECTOR_HALTED n) = 0
      then x.decision else x) := by
  have hheld : ∀ b : Bool, (decide ((4 * w.rd R.POWER_MODE_CFG_TJ_THROTTLE : Int) ≤ v) ||
      (b && decide ((4 * w.rd R.POWER_MODE_CFG_TJ_THROTTLE : Int) - 12 < v))) = false := by
    intro b
    rw [decide_eq_false (by omega), decide_eq_false (by omega), Bool.and_false]
    rfl
  refine onUnit_of_lt hn ?_
  rw [← hw]
  have hruns : v ≤ 392 := by omega
  have hstay : ¬ 408 ≤ v := by omega
  have hgo : ¬ 420 ≤ v := by omega
  dsimp only [Option.isSome, Option.isNone, Option.getD]
  rw [if_pos rfl, ← hu]
  simp only [hheld, Bool.false_and, Bool.true_and, decide_eq_false hstay, decide_eq_false hgo, Bool.false_eq_true, if_false, if_pos hruns,
    State.iff, Bool.and_eq_true, decide_eq_true_eq]
  rw [← hx]
  rfl

/-- A valid DRAM temperature below every limit: the sector is at level 0 and its vaults run unthrottled. -/
theorem exec_dramTempSample_cool (hw : w = s.atTime t) (hn : n < 8) (hcool : v ≤ 340) (hlevel : w.rd (R.HUB_THERM_STATE_LEVEL n) ≠ 3)
    (hu : u = ((({ w with mm := { w.mm with badSensor := tblSet 0 w.mm.badSensor n 0 } } : State).wrs
      [(R.HUB_DRAM_TEMP_TEMP n, toField 12 v), (R.HUB_DRAM_TEMP_VALID n, 1)]).topTemp (R.HUB_TEMP_MAX_TEMP n) v))
    (hx : x = (({ u with pow := { u.pow with dramHeld := member u.pow.dramHeld n false } } : State).wr (R.HUB_THERM_STATE_LEVEL n) 0)) :
    exec (.dramTempSample n (some v) cyc t) s = .next (x.each (x.inferVaults.filter fun v => sectorOfVault v == n) fun s v =>
      s.wr (R.VAULT_STATUS_THROTTLED v) 0) := by
  have hheld : ∀ b : Bool, (decide ((380 : Int) ≤ v) || (b && decide ((368 : Int) < v))) = false := by
    intro b
    rw [decide_eq_false (by omega), decide_eq_false (by omega), Bool.and_false]
    rfl
  have hrun : ¬ 420 ≤ v := by omega
  have hlow : ¬ 340 < v := by omega
  have hkept : ({ u with pow := { u.pow with dramHeld := member u.pow.dramHeld n false } } : State).rd (R.HUB_THERM_STATE_LEVEL n) ≠ 3 := by
    have hsame : u.rd (R.HUB_THERM_STATE_LEVEL n) = w.rd (R.HUB_THERM_STATE_LEVEL n) := by
      rw [hu, State.topTemp_rd _ _ (by simp only [R.HUB_THERM_STATE_LEVEL, R.HUB_TEMP_MAX_TEMP]; omega)]
      refine State.rd_wrs_of_notMem _ ?_
      simp only [R.HUB_THERM_STATE_LEVEL, R.HUB_DRAM_TEMP_TEMP, R.HUB_DRAM_TEMP_VALID, List.map, List.mem_cons, List.not_mem_nil, or_false]
      omega
    exact hsame ▸ hlevel
  refine onUnit_of_lt hn ?_
  rw [← hw]
  dsimp only [Option.isSome, Option.isNone, Option.getD]
  rw [if_pos rfl, ← hu]
  simp only [hheld, Bool.false_and, Bool.true_and, decide_eq_false hrun, decide_eq_false hkept, Bool.or_false, Bool.false_eq_true,
    if_false, if_neg hlow, State.iff]
  rw [← hx]

end

/-! Power -/

/-- Settles O46: power and temperature in the case each clause gives. -/
theorem powerCommandsComplete : Obligations.PowerCommandsComplete := by
  intro s w cyc t hw
  refine ⟨fun mw sectors vdd u hu => ?sample, fun n v u hn hcool hthrottle hu => ?junction,
    fun n v u x hn hcool hlevel hu hx => ?dram, fun ns hlong hshed => ?warn, fun n uv ns hn hlong hshed hcore hrail => ?rail,
    fun n u hu => ⟨fun hmore => ?oneLeft, fun hlast hsag => ?cleared⟩, fun n hn hshed hsag hmax hlevel hdue => ?entry, ?recovery, ?trip,
    fun hfirst => ?retry, fun hsecond => ?fixed⟩
  case sample => subst hw hu; rfl
  case junction => exact ⟨_, rfl, exec_junctionTempSample_cool hw hn hcool hthrottle hu rfl⟩
  case dram => exact exec_dramTempSample_cool hw hn hcool hlevel hu hx
  case warn =>
    change execPwrWarn ns t s = _
    unfold execPwrWarn
    rw [← hw]
    dsimp only
    rw [if_neg (by simp [hshed, hlong])]
  case rail =>
    refine onUnit_of_lt hn ?_
    rw [← hw]
    dsimp only
    rw [if_neg]
    · simp only [Bool.and_eq_true, decide_eq_true_eq]
    · by_cases hzero : n = 0
      · simp [hshed, hlong, hzero, hcore hzero]
      · simp [hshed, hlong, hzero, hrail hzero]
  case oneLeft =>
    change execSagCleared n t s = _
    unfold execSagCleared
    rw [← hw]
    dsimp only
    rw [if_pos (by simp [hmore]), hu]
  case cleared =>
    change execSagCleared n t s = _
    unfold execSagCleared
    rw [← hw]
    dsimp only
    rw [if_neg, hu]
    simp [hlast, hsag]
  case entry =>
    change execShedStepEntry cyc t s = _
    unfold execShedStepEntry
    rw [← hw]
    dsimp only
    rw [← hn, if_neg, if_neg, if_neg (Nat.not_lt.2 hdue)]
    · simpa using hlevel
    · simp [hshed, hsag, hmax]
  case recovery => subst hw; rfl
  case trip =>
    change execThermtrip t s = _
    unfold execThermtrip
    rw [← hw]
  case retry =>
    change execAvsTimeout t s = _
    unfold execAvsTimeout
    rw [← hw]
    dsimp only
    rw [if_pos hfirst]
  case fixed =>
    change execAvsTimeout t s = _
    unfold execAvsTimeout
    rw [← hw]
    dsimp only
    rw [if_neg hsecond]

/-! The assay and the flash -/

/-- The counts of DEV_INFO are no part of the map. -/
theorem State.showUnits_mapDigest (s : State) : s.showUnits.mapDigest = s.mapDigest := rfl

/-- Settles O47: the assay, retirement and the flash in the case each clause gives. -/
theorem assayAndFlashComplete : Obligations.AssayAndFlashComplete := by
  intro s w cyc t hw
  refine ⟨fun x k hx hrun hstep hk => ?check, fun x rows third u hx hu => ?done, fun x hx hold => ?dropped, fun hrun => ?hour,
    fun i => ?select, fun l u v beams hl hne hu hv => ⟨_, _, _, rfl, rfl, rfl, ?retire⟩,
    fun len n u hidle hn hu hruns hoff hregion hsrc => ?write, fun src off n u hwriting hu => ⟨?written, ?failed⟩, ?lost⟩
  case check =>
    change execAssayCheck t s = _
    unfold execAssayCheck
    rw [← hw]
    dsimp only
    rw [hx]
    dsimp only
    rw [if_neg (by simp [hrun, hstep]), hk]
  case done =>
    change execAssayCheckDone rows third cyc t s = _
    unfold execAssayCheckDone
    rw [← hw]
    dsimp only
    rw [hx]
    dsimp only
    rw [← hu]
  case dropped =>
    change execAssaySampleTimeout t s = _
    unfold execAssaySampleTimeout
    rw [← hw]
    dsimp only
    rw [hx]
    dsimp only
    rw [if_neg (Nat.not_lt.2 hold)]
  case hour =>
    change execStrikeLogHour t s = _
    unfold execStrikeLogHour
    rw [← hw]
    dsimp only
    rw [if_neg (by simp [hrun])]
  case select => subst hw; rfl
  case retire =>
    change execTileRetire beams t s = _
    unfold execTileRetire
    rw [← hw]
    dsimp only
    rw [← hl, if_neg (by simp [hne]), ← State.showUnits_mapDigest, ← hu, ← hv]
  case write =>
    change execFlashWrite len true t s = _
    unfold execFlashWrite
    obtain ⟨hrun, hagate⟩ := Bool.and_eq_true_iff.1 hruns
    rw [← hw]
    dsimp only
    rw [if_neg (by simp [hidle]), ← hu, ← hn, if_neg (by simp [hrun, hagate]), if_neg (by simp [hoff, hregion]), if_neg (by simp [hsrc])]
  case written =>
    change execFlashWriteDone true t s = _
    unfold execFlashWriteDone
    rw [← hw]
    dsimp only
    rw [hwriting]
    dsimp only
    rw [← hu, if_pos rfl]
  case failed =>
    change execFlashWriteDone false t s = _
    unfold execFlashWriteDone
    rw [← hw]
    dsimp only
    rw [hwriting]
    dsimp only
    rw [← hu, if_neg Bool.false_ne_true]
  case lost => subst hw; rfl

end Sys2Proof.Machine
end

section
/-! PROOFS. Measurement registers and the event log (R604, R605). -/

namespace Sys2Proof.Machine

/-! A number in 32-bit registers -/

/-- `f` names 32-bit registers of their own addresses, none of the first sixteen at an address of `l`. -/
structure WordRegs (f : Nat → Fld) (l : List Nat) : Prop where
  word : ∀ i, (f i).lo = 0 ∧ (f i).width = 32
  distinct : ∀ i j, i ≠ j → (f i).addr ≠ (f j).addr
  outside : ∀ i, i < 16 → (f i).addr ∉ l

section
variable (s : State) {f : Nat → Fld} {l : List Nat} (hf : WordRegs f l)

theorem State.putWords_succ (f : Nat → Fld) (n v : Nat) :
    s.putWords f (n + 1) v = (s.putWords f n v).wr (f n) (v / 2 ^ (32 * n)) := by
  simp only [State.putWords, State.each, List.range_succ, List.foldl_append, List.foldl_cons, List.foldl_nil]

theorem State.words_succ (f : Nat → Fld) (n : Nat) : s.words f (n + 1) = s.words f n + s.rd (f n) * 2 ^ (32 * n) := by
  simp [State.words, List.range_succ]

/-- Registers that read the same make the same number. -/
theorem State.words_congr {s t : State} {f : Nat → Fld} {n : Nat} (h : ∀ i, i < n → t.rd (f i) = s.rd (f i)) :
    t.words f n = s.words f n :=
  congrArg List.sum (List.map_congr_left fun i hi => congrArg (· * _) (h i (List.mem_range.1 hi)))

include hf

/-- A register past those written keeps its value. -/
theorem State.putWords_rd_after (n v i : Nat) (hi : n ≤ i) : (s.putWords f n v).rd (f i) = s.rd (f i) := by
  induction n with
  | zero => rfl
  | succ n ih => rw [State.putWords_succ, State.rd_wr_addr _ _ _ _ (hf.distinct i n (by omega)), ih (by omega)]

/-- The number reads back from its registers. -/
theorem State.words_putWords (n v : Nat) : (s.putWords f n v).words f n = v % 2 ^ (32 * n) := by
  have word_last : ∀ m, (s.putWords f (m + 1) v).rd (f m) = v / 2 ^ (32 * m) % 2 ^ 32 := by
    intro m
    obtain ⟨hlo, hwidth⟩ := hf.word m
    rw [State.putWords_succ, State.rd_wr_same _ _ _ (by omega), hwidth]
  have kept : ∀ m k, k ≤ m → (s.putWords f (m + 1) v).words f k = (s.putWords f m v).words f k := by
    intro m k
    induction k with
    | zero => exact fun _ => rfl
    | succ k ih =>
      intro hk
      rw [State.words_succ, State.words_succ, ih (by omega), State.putWords_succ,
        State.rd_wr_addr _ _ _ _ (hf.distinct k m (by omega))]
  induction n with
  | zero => simp [State.words, Nat.mod_one]
  | succ n ih =>
    rw [State.words_succ, kept n n le_rfl, ih, word_last, Nat.mul_succ, pow_add, Nat.mod_mul, Nat.mul_comm (2 ^ (32 * n))]

/-- A digest reads back from its sixteen registers. -/
theorem State.digestAt_putWords (m : BitVec 512) : (s.putWords f 16 m.toNat).digestAt f = m := by
  unfold State.digestAt
  rw [State.words_putWords s hf, show 32 * 16 = 512 from rfl, Nat.mod_eq_of_lt m.isLt, BitVec.ofNat_toNat, BitVec.setWidth_eq]

end

/-! The event log -/

theorem toBytes_length (n v : Nat) : (toBytes n v).length = n := by
  induction n generalizing v with
  | zero => rfl
  | succ n ih => exact congrArg Nat.succ (ih _)

/-- The addresses an event record changes. -/
def eventRegs : List Nat := [R.SEC_STATUS_EVLOG_OVERFLOW.addr, R.SEC_EVLOG_HEAD_COUNT.addr]

/-- An event record leaves every register but the log's own two. -/
theorem State.appendEvent_rd (s : State) (reg src : Nat) (d : BitVec 512) {g : Fld} (hg : g.addr ∉ eventRegs) :
    (s.appendEvent reg src d).rd g = s.rd g := by
  simp only [eventRegs, List.mem_cons, List.not_mem_nil, or_false, not_or] at hg
  obtain ⟨hover, hcount⟩ := hg
  unfold State.appendEvent
  dsimp only
  split
  · exact State.rd_wr_addr _ _ _ _ hover
  · exact State.rd_wr_addr _ _ _ _ hcount

/-- A log with room gets the record. -/
theorem State.appendEvent_room {s : State} (reg src : Nat) (d : BitVec 512) (h : s.sec.log.length < 512) :
    (s.appendEvent reg src d).sec.log = s.sec.log ++ [⟨reg, (Config.evType reg src).toNat, s.devTime, d⟩] := by
  unfold State.appendEvent
  dsimp only
  rw [if_neg (Nat.not_le.2 h)]
  rfl

/-- A full log loses the record and shows it. -/
theorem State.appendEvent_full {s : State} (reg src : Nat) (d : BitVec 512) (h : 512 ≤ s.sec.log.length) :
    s.appendEvent reg src d = s.flag R.SEC_STATUS_EVLOG_OVERFLOW := if_pos h

/-- A record's 80 bytes. -/
theorem EvRec.bytes_eq (reg time : Nat) (kind : BitVec 8) (d : BitVec 512) : (EvRec.mk reg kind.toNat time d).bytes =
    BitVec.ofNat 8 reg :: kind :: List.replicate 6 0 ++ toBytes 8 time ++ digestBytes d := by
  simp [EvRec.bytes, toBytes]

theorem EvRec.bytes_length (r : EvRec) : r.bytes.length = 80 := by
  simp [EvRec.bytes, digestBytes, toBytes_length]

/-! Extends -/

section
variable {s : State} {f : Nat → Fld} {reg src : Nat} {d : BitVec 512}

/-- The digest after an extend chains the old one with `d`. -/
theorem State.extendAt_digest (hf : WordRegs f eventRegs) :
    (s.extendAt f reg src d).digestAt f = Config.sha3 (digestBytes (s.digestAt f) ++ digestBytes d) := by
  have hkept : ∀ t : State, (t.appendEvent reg src d).digestAt f = t.digestAt f := fun t =>
    congrArg (BitVec.ofNat 512) (State.words_congr fun i hi => t.appendEvent_rd reg src d (hf.outside i hi))
  exact (hkept _).trans (State.digestAt_putWords s hf _)

/-- Writing the digest changes nothing of the log and no clock. -/
theorem State.putWords_log (n v : Nat) : (s.putWords f n v).sec = s.sec ∧ (s.putWords f n v).devTime = s.devTime := by
  have hrest := (s.regsOnly_putWords f n v).rest
  exact ⟨by rw [hrest], by rw [hrest]; rfl⟩

/-- An extend of sixteen registers chains the digest and logs its record, or shows that the log is full. -/
theorem State.extendAt_logged (hf : WordRegs f eventRegs) :
    (s.extendAt f reg src d).digestAt f = Config.sha3 (digestBytes (s.digestAt f) ++ digestBytes d) ∧
    (s.sec.log.length < 512 → ∃ (r : EvRec) (kind : BitVec 8), (s.extendAt f reg src d).sec.log = s.sec.log ++ [r] ∧
      r.bytes = BitVec.ofNat 8 reg :: kind :: List.replicate 6 0 ++ toBytes 8 s.devTime ++ digestBytes d ∧ r.bytes.length = 80) ∧
    (512 ≤ s.sec.log.length → (s.extendAt f reg src d).sec.log = s.sec.log ∧
      (s.extendAt f reg src d).rd R.SEC_STATUS_EVLOG_OVERFLOW = 1) := by
  obtain ⟨hsec, htime⟩ := State.putWords_log (s := s) (f := f) 16 (Config.sha3 (digestBytes (s.digestAt f) ++ digestBytes d)).toNat
  refine ⟨State.extendAt_digest hf, fun hroom => ⟨_, Config.evType reg src, ?_, EvRec.bytes_eq reg s.devTime _ d,
    EvRec.bytes_length _⟩, fun hfull => ?_⟩
  · unfold State.extendAt
    rw [State.appendEvent_room reg src d (by rw [hsec]; exact hroom), hsec, htime]
  · unfold State.extendAt
    rw [State.appendEvent_full reg src d (by rw [hsec]; exact hfull)]
    exact ⟨congrArg SecState.log hsec, State.rd_wr_fits _ (by decide) (by decide)⟩

end

/-- The measurement registers. -/
theorem wordRegs_mr {n : Nat} (hn : n < 16) : WordRegs (R.SEC_MR_VALUE n) eventRegs where
  word _ := ⟨rfl, rfl⟩
  distinct i j h := by simp only [R.SEC_MR_VALUE]; omega
  outside i hi := by
    simp only [R.SEC_MR_VALUE, eventRegs, R.SEC_STATUS_EVLOG_OVERFLOW, R.SEC_EVLOG_HEAD_COUNT, List.mem_cons, List.not_mem_nil, or_false]
    omega

/-- A slice's measurement registers. -/
theorem wordRegs_slice (x k : Nat) : WordRegs (if k = 0 then R.SLICE_MR_S0_VALUE x else R.SLICE_MR_S1_VALUE x) eventRegs := by
  split
  · refine ⟨fun _ => ⟨rfl, rfl⟩, fun i j h => ?_, fun i _ => ?_⟩
    · simp only [R.SLICE_MR_S0_VALUE]; omega
    · simp only [R.SLICE_MR_S0_VALUE, eventRegs, R.SEC_STATUS_EVLOG_OVERFLOW, R.SEC_EVLOG_HEAD_COUNT, List.mem_cons, List.not_mem_nil,
        or_false]
      omega
  · refine ⟨fun _ => ⟨rfl, rfl⟩, fun i j h => ?_, fun i _ => ?_⟩
    · simp only [R.SLICE_MR_S1_VALUE]; omega
    · simp only [R.SLICE_MR_S1_VALUE, eventRegs, R.SEC_STATUS_EVLOG_OVERFLOW, R.SEC_EVLOG_HEAD_COUNT, List.mem_cons, List.not_mem_nil,
        or_false]
      omega

/-- Settles O57: both forms are extends of sixteen registers apart from the log's own. -/
theorem extendsAreLogged : Obligations.ExtendsAreLogged := by
  rintro s u f reg src d (⟨n, hn, rfl, rfl, rfl⟩ | ⟨x, k, hx, hk, rfl, rfl, rfl⟩)
  · exact State.extendAt_logged (wordRegs_mr hn)
  · exact State.extendAt_logged (wordRegs_slice x k)

end Sys2Proof.Machine
end

section
/-! PROOFS. The image and control commands where every check of their rule passes (R53 to R65, R544, R560, R597, R656). -/

namespace Sys2Proof.Machine

/-! Checks that pass -/

/-- No section is bad where each is found good. -/
theorem badSection_none {l : List Section} {g : Section → Nat × Nat} (h : ∀ x, x ∈ l → (g x).1 = 0) : badSection l g = none := by
  refine List.findSome?_eq_none_iff.2 fun e he => ?_
  exact if_pos (h e.1 (List.fst_mem_of_mem_zipIdx he))

/-- Values that are all one have at most one among them. -/
theorem eraseDups_length_le {α : Type} [BEq α] [LawfulBEq α] {l : List α} (h : ∀ a b, a ∈ l → b ∈ l → a = b) :
    l.eraseDups.length ≤ 1 := by
  cases l with
  | nil => exact Nat.zero_le 1
  | cons a l =>
    have hrest : l.filter (fun b => !b == a) = [] :=
      List.filter_eq_nil_iff.2 fun b hb => by simp [h b a (List.mem_cons_of_mem a hb) List.mem_cons_self]
    rw [List.eraseDups_cons, hrest]
    exact le_rfl

section
variable {w : State} {f : StrataFile} {k : Nat}

/-- A key slot that may sign and names the file's key is its signer. -/
theorem State.signerOf_isSome (hk : k < 4) (hmay : w.keyMay k 0 = true) (hid : (w.ownerSlot k).id = f.keyId) :
    (w.signerOf f).isSome = true :=
  List.find?_isSome.2 ⟨k, List.mem_range.2 hk, by simp [hmay, hid]⟩

/-- The checks of a full image's copy (R597). -/
theorem State.strataGood_of (hk : k < 4) (hmay : w.keyMay k 0 = true) (hid : (w.ownerSlot k).id = f.keyId) (hcount : w.counter 6 ≤ f.rollback)
    (hheader : headerOk f = true) (hkind : f.kind = 0) (hbase : f.baseDigest = 0) (hdigest : ∀ x, x ∈ f.sections → x.digest = x.found) :
    w.strataGood (f, true) = true := by
  simp only [State.strataGood, State.strataSigned, State.signerOf_isSome hk hmay hid, hheader, hkind, hbase, hcount, decide_true,
    beq_self_eq_true, Bool.and_self, Bool.true_and, List.all_eq_true]
  exact fun x hx => beq_iff_eq.2 (hdigest x hx)

/-- The checks of a full image's sections (R53). -/
theorem State.imageBroken_false (hwhole : sectionsWhole f.sections = true) (hgrade : f.gradeMask / 2 ^ w.dev.map.grade % 2 = 1)
    (hdomain : domainOk f.sections = true)
    (hpin : pinOk f.sections ((w.putRoles f.sections).withSections f.sections).swingSet = true)
    (hsections : ∀ x, x ∈ f.sections → bootListed x = true ∧
      ((w.putRoles f.sections).sectionCode ((w.putRoles f.sections).withSections f.sections) x true).1 = 0) :
    w.imageBroken f = false := by
  have hlisted : f.sections.all bootListed = true := List.all_eq_true.2 fun x hx => (hsections x hx).1
  have hrules : (f.sections.any fun x =>
      ((w.putRoles f.sections).sectionCode ((w.putRoles f.sections).withSections f.sections) x true).1 != 0) = false :=
    List.any_eq_false.2 fun x hx => by simp [(hsections x hx).2]
  simp only [State.imageBroken, hwhole, hgrade, hdomain, hpin, hlisted, hrules]
  rfl

/-- The checks of a section image at a GO (R656). -/
theorem State.reloadCode_passes (haddr : w.rd R.STRATA_RELOAD_ADDR_ADDR % 64 = 0)
    (hfits : w.rd R.STRATA_RELOAD_ADDR_ADDR + f.totalLen ≤ 2 ^ 57) (hheader : headerOk f = true) (hkind : f.kind = 1)
    (hlisted : ∀ x, x ∈ f.sections → entryListed x = true) (hsigner : (w.signerOf f).isSome = true)
    (hdigest : ∀ x, x ∈ f.sections → x.digest = x.found) (hcount : w.counter 6 ≤ f.rollback)
    (hbase : f.baseDigest = w.digestAt R.STRATA_DIGEST_DIGEST)
    (hplane : ∀ x, x ∈ f.sections → x.kind = 3 → x.base = digestBytes (Config.sha3 (w.activeBank (1 + x.plane))))
    (hwarm : ∀ x, x ∈ f.sections → x.kind ≠ 1 ∧ x.kind ≠ 5) (hdown : ∀ x, x ∈ f.sections → x.kind = 4 → w.groupDown x.portGroup = true)
    (hone : ∀ x y, x ∈ f.sections → y ∈ f.sections → sectionBoundary x = sectionBoundary y) (hdouble : doubledAt f.sections = none)
    (hrules : ∀ x, x ∈ f.sections → (w.sectionCode (w.withSections f.sections) x false).1 = 0)
    (hfree : ∀ x id, x ∈ f.sections → sectionTable x = some id → (w.table id).oldFly = 0) :
    w.reloadCode f true = (0, 0, 0) := by
  have hboundary : ¬ 1 < ((f.sections.map sectionBoundary).eraseDups).length := by
    refine Nat.not_lt.2 (eraseDups_length_le ?_)
    simp only [List.mem_map]
    rintro _ _ ⟨x, hx, rfl⟩ ⟨y, hy, rfl⟩
    exact hone x y hx hy
  unfold State.reloadCode
  dsimp only
  have hreach : ¬ 2 ^ 57 < w.rd R.STRATA_RELOAD_ADDR_ADDR + f.totalLen := Nat.not_lt.2 hfits
  rw [if_neg (by rw [decide_eq_false hreach]; simp [haddr, hheader, hkind]), badSection_none ?listed]
  dsimp only
  rw [if_neg (by rw [Option.isNone_eq_false_iff.2 hsigner]; decide), badSection_none ?digest]
  dsimp only
  rw [if_neg (Nat.not_lt.2 hcount), if_neg (not_not.2 hbase), badSection_none ?plane]
  dsimp only
  rw [badSection_none ?warm]
  dsimp only
  rw [badSection_none ?down]
  dsimp only
  rw [if_neg hboundary, hdouble]
  dsimp only
  rw [badSection_none hrules, badSection_none ?free]
  case listed => exact fun x hx => by simp [hlisted x hx]
  case digest => exact fun x hx => by simp [Section.digestOk, hdigest x hx]
  case plane =>
    intro x hx
    by_cases h3 : x.kind = 3
    · simp [hplane x hx h3]
    · simp [h3]
  case warm => exact fun x hx => by simp [hwarm x hx]
  case down =>
    intro x hx
    by_cases h4 : x.kind = 4
    · simp [hdown x hx h4]
    · simp [h4]
  case free =>
    intro x hx
    refine congrArg Prod.fst (if_neg ?_)
    cases h : sectionTable x with
    | none => exact Bool.false_ne_true
    | some id => simp [hfree x id hx h]

/-- Nothing stands against a JOB switch of staged sections of which no present state decides a check (R62). -/
theorem State.switchCode_passes
    (hstaged : ∀ x, x ∈ w.strata.staged → sectionBoundary x = 0 ∧ x.kind ≠ 4 ∧ sectionTable x ∉ [some 5, some 7, some 8])
    (hfree : ∀ x id, x ∈ w.strata.staged → sectionTable x = some id → (w.table id).oldFly = 0) : w.switchCode = (0, 0, 0) := by
  unfold State.switchCode
  dsimp only
  rw [badSection_none ?down]
  dsimp only
  rw [badSection_none ?again]
  dsimp only
  rw [badSection_none ?free]
  case down => exact fun x hx => by simp [(hstaged x hx).2.1]
  case again =>
    intro x hx
    obtain ⟨-, hkind, htable⟩ := hstaged x hx
    have hno : [some 5, some 7, some 8].contains (sectionTable x) = false := by simpa using htable
    refine congrArg Prod.fst (if_neg ?_)
    rw [hno, beq_false_of_ne hkind]
    decide
  case free =>
    intro x hx
    cases h : sectionTable x with
    | none => rfl
    | some id => exact congrArg Prod.fst (if_pos (hfree x id hx h))

end

/-! A commit, a slice, a register -/

/-- The checks of an owner's commit (R65). -/
theorem State.commitCode_passes {w : State} {c : Commit} (howner : c.slice = none) (hrun : w.inRun = true)
    (hgroup : (groupAt 0 c.btype c.inst c.group).isSome = true) (hopen : w.ownSliceOpen c = true) (hon : w.instOn c.btype c.inst = true)
    (hlisted : ∀ e, e ∈ c.snap → wordListed e.1 e.2 = true) (halso : (w.applySnap c.snap).alsoListed c.btype c.inst c.group = true)
    (hown : (w.applySnap c.snap).ownershipOk c.btype c.group = true)
    (hagree : w.agree (w.applySnap c.snap) c.btype c.inst c.group w.sliceOpen = 0)
    (hlend : c.btype = 0x31 → 128 ≤ c.group →
      (w.applySnap c.snap).lendCount (c.group - 128) - w.lendCount (c.group - 128) ≤ w.poolFree) : w.commitCode c = (0, 0) := by
  have hwords : (c.snap.all fun e => wordListed e.1 e.2) = true := List.all_eq_true.2 hlisted
  unfold State.commitCode
  rw [howner]
  dsimp only
  rw [if_neg (by simp [hrun]), if_neg (by simp [hopen]), if_neg (by rw [Option.isNone_eq_false_iff.2 hgroup]; decide), if_neg (by simp [hon]),
    if_neg (by simp only [hwords, halso]; decide), if_neg (by simp [hown]), if_neg (not_not.2 hagree), if_neg]
  simp only [Option.isNone_none, Bool.true_and, Bool.and_eq_true, decide_eq_true_eq, beq_iff_eq, not_and, and_imp]
  exact fun h31 h128 => Nat.not_lt.2 (hlend h31 h128)

/-- The least of a list that is not empty. -/
theorem leastBy_isSome {g : Nat → Nat} {l : List Nat} {a : Nat} (h : a ∈ l) : (leastBy g l).isSome = true := by
  cases l with
  | nil => exact absurd h List.not_mem_nil
  | cons => rfl

/-- The checks of CREATE (R544, R560). -/
theorem State.createCode_passes {s : State} {x k : Nat} (hvalid : s.template k 0xA 2 % 2 = 1)
    (hceil : s.template k 0 2 ≤ s.template k 2 2) (htotal : s.template k 2 2 ≤ s.rd R.MEM_POOL_TOTAL_SLABS)
    (hfloors : ((allSlices.filter (· != x)).map fun y => s.rd (R.MEM_QUOTA_FLOOR y)).sum + s.template k 0 2 ≤
      s.rd R.MEM_POOL_TOTAL_SLABS - s.rd R.MEM_POOL_LENT_SLABS)
    (hplace : s.template k 6 2 = 0 ∨ shareFits (s.shares x) 0 (s.template k 6 2) = true ∨
      ∃ e, e ∈ s.shares x ∧ shareFits (s.shares x) (e.1 + e.2) (s.template k 6 2) = true) : s.createCode x k = 0 := by
  have hquota : s.quotaRule x (s.template k 0 2) (s.template k 2 2) = 0 := by
    unfold State.quotaRule
    dsimp only
    rw [if_neg (Nat.not_lt.2 hceil), if_neg (Nat.not_lt.2 hfloors), if_neg (Nat.not_lt.2 htotal)]
  have hseq : (s.seqPlace x (s.template k 6 2)).isSome = true := by
    unfold State.seqPlace
    split
    · rfl
    next hsome =>
      obtain hzero | hlow | ⟨e, he, hfits⟩ := hplace
      · exact absurd hzero hsome
      · exact leastBy_isSome (List.mem_filter.2 ⟨List.mem_cons_self, hlow⟩)
      · exact leastBy_isSome (List.mem_filter.2 ⟨List.mem_cons_of_mem _ (List.mem_map.2 ⟨e, he, rfl⟩), hfits⟩)
  unfold State.createCode
  rw [if_neg (by rw [hvalid]; decide), if_neg (by rw [hquota]; decide), if_neg (by rw [Option.isNone_eq_false_iff.2 hseq]; decide)]

/-- STRATA_RELOAD_ADDR as the map finds it. -/
def reloadAddrAt : RegAt :=
  ⟨⟨.strata, 0x1000, [], 0x800, 0x2, regsStrata⟩, [], ⟨"STRATA_RELOAD_ADDR", 0x8, [], 8, .none, [⟨0, 64, .rw, 0, none⟩]⟩, [], false⟩

theorem regFind_reloadAddr : regFind R.STRATA_RELOAD_ADDR_ADDR.addr = some reloadAddrAt := by decide

theorem State.regAt_reloadAddr (s : State) : s.regAt .owner R.STRATA_RELOAD_ADDR_ADDR.addr 64 = some reloadAddrAt := by
  unfold State.regAt
  rw [if_neg (by decide), regFind_reloadAddr]
  rfl

/-- What a write leaves in STRATA_RELOAD_ADDR. -/
theorem wordWritten_reloadAddr (v : Nat) (w : RegWord) : bitsOf (wordWritten reloadAddrAt.reg false v w) 0 64 = v % 2 ^ 64 := by
  have hword : wordWritten reloadAddrAt.reg false v w = setBits w 0 64 (bitsOf (BitVec.ofNat 64 v) 0 64) := rfl
  rw [hword, bitsOf_setBits_same _ _ _ _ (by decide)]
  simp [bitsOf]

/-- A write of STRATA_RELOAD_ADDR stores the value there and nowhere else. -/
theorem exec_registerWrite_reloadAddr (s : State) (t v : Nat) :
    exec (.registerWrite .owner R.STRATA_RELOAD_ADDR_ADDR.addr 64 v t) s =
      .next ((s.atTime t).putReg reloadAddrAt R.STRATA_RELOAD_ADDR_ADDR.addr v) := by
  have hodd : (s.atTime t).oddRequest reloadAddrAt v = none := by
    unfold State.oddRequest
    dsimp only
    rw [if_neg (show ¬ reloadAddrAt.reg.name = "MEM_REQ_CTRL" by decide), if_neg (show ¬ reloadAddrAt.reg.name = "REQ_CTRL" by decide),
      if_neg (show ¬ reloadAddrAt.reg.name = "SREQ_CTRL" by decide), if_neg (show ¬ reloadAddrAt.reg.name = "SLICECTL_CMD" by decide),
      ite_self]
  rw [exec_registerWrite s t v s.regAt_reloadAddr, State.regWrite_acts rfl rfl (.inr rfl) hodd fun h => absurd h (by decide),
    State.liveActed_plain _ _ (by decide)]

/-- Settles O59: every check of each rule passes, and the command does its work. -/
theorem controlFormsCompleteByTheRules : Obligations.ControlFormsCompleteByTheRules := by
  intro s w t
  refine ⟨?build, ?go, ?switch, ?commit, ?create, fun v => ⟨_, exec_registerWrite_reloadAddr s t v, ?stored, ?others, rfl⟩, ?turned⟩
  case build =>
    intro f sig2 slabs k hw hruns hphase hagate hstop howned hsel hf hheader hkind hbase hdigest hk hmay hid hcount hwhole hgrade hdomain
      hpin hsections
    have hgood := State.strataGood_of hk hmay hid hcount hheader hkind hbase hdigest
    have hpick : w.pickCopy w.strataGood (w.flashStrata false, true) (w.flashStrata true, sig2) = some ((f, true), false) := by
      rw [← hf]
      exact State.pickCopy_primary w (ok := w.strataGood) (a := (f, true)) _ hsel hgood
    have hwhole : w.imageBroken f = false := State.imageBroken_false hwhole hgrade hdomain hpin hsections
    exact exec_buildDone_good (c := ((f, true), false)) hruns hphase hagate true sig2 slabs hw howned hpick hwhole hstop
  case go =>
    intro f k hw hf hphase hidle hagate haddr hfits hheader hkind hlisted hk hmay hid hdigest hcount hbase hplane hwarm hdown hone hdouble
      hrules hfree
    subst hw
    have hcode := State.reloadCode_passes (w := s.atTime t) haddr hfits hheader hkind hlisted (State.signerOf_isSome hk hmay hid) hdigest hcount hbase hplane
      hwarm hdown hone hdouble hrules hfree
    obtain ⟨hreason, -, hreload⟩ := (s.atTime t).holdFile_shows f
    have hexec := exec_strataReloadGo_idle true hphase hidle hagate hf hcode
    rw [if_neg (not_not.2 rfl)] at hexec
    exact ⟨_, hexec, hreload, hreason, rfl, rfl⟩
  case switch =>
    intro sfn slot hw hphase hstaged hsections hfree
    have hrun : w.inRun = true := beq_iff_eq.2 hphase
    have hjob : (w.strata.staged.any fun x => sectionBoundary x != 0) = false :=
      List.any_eq_false.2 fun x hx => by simp [(hsections x hx).1]
    change execStrataSwitchRequest 0 sfn slot t s = _
    unfold execStrataSwitchRequest
    rw [← hw]
    dsimp only
    rw [if_neg (by simp [hrun]), if_neg (not_not.2 hstaged), if_neg (by simp), hjob, if_neg Bool.false_ne_true,
      State.switchCode_passes hsections hfree]
    rfl
  case commit =>
    intro c v hw hc howner hphase hgroup hopen hon hlisted halso hown hagree hlend hv
    subst hw
    have hcode := State.commitCode_passes (w := s.atTime t) howner (beq_iff_eq.2 hphase) hgroup hopen hon hlisted halso hown hagree hlend
    have hended : ((s.atTime t).checkEnded 0 c 0 0).supersede 0 c = v := by
      rw [hv, State.checkEnded, howner]
      rfl
    rw [exec_cgCheckDone s (by decide) hc hcode, if_neg (not_not.2 rfl)]
    dsimp only
    rw [hended, howner]
  case create =>
    intro x k hx hk hphase hfree hvalid hceil htotal hfloors hplace
    exact exec_sliceCreate s hx hk hphase hfree (State.createCode_passes hvalid hceil htotal hfloors hplace)
  case stored =>
    exact (congrArg (fun w => bitsOf w 0 64) (tblGet_set_same _ _ _ _)).trans (wordWritten_reloadAddr v _)
  case others => exact fun g hg => congrArg (fun w => bitsOf w g.lo g.width) (tblGet_set_ne _ _ _ _ hg)
  case turned =>
    intro x a width ha
    obtain ⟨hreach, hhole⟩ := reaches_outside (who := .slice x) (.inl ⟨x, rfl, .inl ha⟩)
    constructor
    · change execWindowAccessError _ _ _ _ _ _ = _
      simp only [execWindowAccessError, State.regAt_outside _ width hreach, State.turnedAway_counted _ hhole, if_true]
    · change execWindowAccessError _ _ _ _ _ _ = _
      simp only [execWindowAccessError, State.regAt_outside _ width hreach, State.turnedAway_counted _ hhole, Bool.false_eq_true, if_false]

end Sys2Proof.Machine
end

section
/-! PROOFS. Requests where every check of their rule passes (R271, R288, R482, R497, R607 to R609, R382). -/

namespace Sys2Proof.Machine

/-! Memory requests -/

/-- Where no check fails there is no code. -/
theorem lowestCode_zero {l : List (Nat × Bool)} (h : ∀ e, e ∈ l → e.2 = false) : lowestCode l = 0 := by
  induction l with
  | nil => rfl
  | cons e l ih =>
    obtain ⟨he, hl⟩ := List.forall_mem_cons.1 h
    simp [lowestCode, he, ih hl]

section
variable {w : State} {x n : Nat} {f : ReqFields} {o : ObjRec} (hrun : w.inRun = true) (hf : f = w.reqFields x n)
include hrun hf

/-- The checks of an ALLOC with a hint of this device (R271, R288). -/
theorem State.reqCheck_alloc (hhint : f.hint ≠ 5) (hfirst : f.first = 0) (hpos : 1 ≤ f.count) (hmax : f.count ≤ 65536)
    (hrange : w.rangeFree x f = true) (hceil : w.used x + f.count ≤ w.rd (R.MEM_QUOTA_CEIL x)) (hok : w.hintOk f.hint f.target = true)
    (hfree : ∃ i, i < 4096 ∧ (w.object x i).live = false) : w.reqCheck x n 1 = 0 := by
  have hpeer : (f.hint == 5) = false := beq_false_of_ne hhint
  have hroom : ((List.range 4096).all fun i => (w.object x i).live) = false := by
    obtain ⟨i, hi, hdead⟩ := hfree
    exact List.all_eq_false.2 ⟨i, List.mem_range.2 hi, by simp [hdead]⟩
  have hsome : f.count ≠ 0 := by omega
  unfold State.reqCheck
  dsimp only
  rw [← hf, if_neg (by simp [hrun]), if_pos rfl, hpeer]
  refine lowestCode_zero ?_
  simp [hfirst, hsome, hmax, hrange, hceil, hok, hroom]

variable (ho : o = w.object x (f.handle % 4096)) (hlive : o.live = true) (hhandle : f.handle = handleOf x (f.handle % 4096) o.serial)
  (hva : f.vaddr = 0)
include ho hlive hhandle hva

omit hrun hf hva in
/-- The handle names a live object. -/
theorem State.handleIndex_live : (w.handleIndex x f.handle).isNone = false := by
  unfold State.handleIndex
  dsimp only
  rw [← ho, if_pos]
  · rfl
  · rw [hlive, Bool.true_and]
    exact beq_iff_eq.2 hhandle

theorem State.reqCheck_free (hhint : f.hint = 0) (hfirst : f.first = 0) (hcount : f.count = 0) (htarget : f.target = 0) :
    w.reqCheck x n 2 = 0 := by
  unfold State.reqCheck
  dsimp only
  rw [← hf, if_neg (by simp [hrun]), if_neg (by decide), if_pos rfl, State.handleIndex_live ho hlive hhandle]
  refine lowestCode_zero ?_
  simp [hhint, hva, hfirst, hcount, htarget]

theorem State.reqCheck_hint (hfirst : f.first = 0) (hcount : f.count = 0) (hok : w.hintOk f.hint f.target = true) :
    w.reqCheck x n 3 = 0 := by
  unfold State.reqCheck
  dsimp only
  rw [← hf, if_neg (by simp [hrun]), if_neg (by decide), if_neg (by decide), if_pos rfl, State.handleIndex_live ho hlive hhandle]
  refine lowestCode_zero ?_
  simp [hva, hfirst, hcount, hok]

theorem State.reqCheck_migrate (hpos : 1 ≤ f.count) (hend : f.first + f.count ≤ o.count) (hok : w.hintOk f.hint f.target = true)
    (hslabs : ∀ k, k ∈ w.migrateSlabs x f → (w.home x k).state ≠ .transit ∧ (w.home x k).state ≠ .lost) : w.reqCheck x n 4 = 0 := by
  have hhomes : ((w.migrateSlabs x f).any fun k => (w.home x k).state == .transit || (w.home x k).state == .lost) = false :=
    List.any_eq_false.2 fun k hk => by simp [hslabs k hk]
  have hsome : f.count ≠ 0 := by omega
  unfold State.reqCheck
  dsimp only
  rw [← hf, if_neg (by simp [hrun]), if_neg (by decide), if_neg (by decide), if_neg (by decide), if_pos rfl,
    State.handleIndex_live ho hlive hhandle, ← ho]
  refine lowestCode_zero ?_
  simp [hva, hsome, hend, hok, hhomes]

end

/-! Enrolment -/

section
variable {u : State} {r : EnrolRec} (hform : r.fieldsOk = true) (hdevice : r.deviceOk = true) (hsig : r.sigOk = true)
  (hseq : r.seq = u.counter 7 + 1)
include hform hdevice hsig hseq

/-- The checks that each record's OP shares (R608). -/
theorem State.enrolCode_eq {op : Nat} (hbody : enrolBodyOk r op = true) (hauth : u.enrolAuth op r = true) :
    u.enrolCode op r = if op ≤ 2 && (u.ownerSlot r.slot).valid then 7
      else if op = 3 && !(u.otherKey r.slot 2 && u.otherKey r.slot 0) then 8
      else if op = 3 && r.slot == u.sec.imageSlot then 9 else 0 := by
  unfold State.enrolCode
  rw [if_neg (by simp [hform, hbody]), if_neg (by simp [hdevice]), if_neg (not_not.2 hseq), if_neg (by simp [hauth]), if_neg (by simp [hsig])]

theorem State.enrolCode_claim (hnone : ∀ k, k < 4 → (u.ownerSlot k).valid = false) (hslot : r.slot < 4) (husage : r.usage < 8)
    (howner : 4 ≤ r.usage) (hvendor : r.vendor = true) : u.enrolCode 1 r = 0 := by
  have hunowned : ((List.range 4).any fun k => (u.ownerSlot k).valid) = false :=
    List.any_eq_false.2 fun k hk => by simp [hnone k (List.mem_range.1 hk)]
  have hbit : r.usage / 4 = 1 := by omega
  rw [State.enrolCode_eq hform hdevice hsig hseq (by simp [enrolBodyOk, hslot, husage])
    (by unfold State.enrolAuth; rw [if_pos rfl, hunowned, hvendor, hbit]; rfl), hnone _ hslot]
  rfl

variable (hsigner : r.signer < 4) (hmay : u.keyMay r.signer 2 = true)
include hsigner hmay

omit hform hdevice hsig hseq in
theorem State.enrolAuth_owner {op : Nat} (hop : op ≠ 1) : u.enrolAuth op r = true := by
  unfold State.enrolAuth
  rw [if_neg hop, decide_eq_true hsigner, hmay]
  rfl

theorem State.enrolCode_add (hslot : r.slot < 4) (husage : r.usage < 8) (hempty : (u.ownerSlot r.slot).valid = false) :
    u.enrolCode 2 r = 0 := by
  rw [State.enrolCode_eq hform hdevice hsig hseq (by simp [enrolBodyOk, hslot, husage])
    (State.enrolAuth_owner hsigner hmay (by decide)), hempty]
  rfl

theorem State.enrolCode_revoke (hslot : r.slot < 4) (husage : r.usage = 0) (henrol : u.otherKey r.slot 2 = true)
    (himage : u.otherKey r.slot 0 = true) (hother : r.slot ≠ u.sec.imageSlot) : u.enrolCode 3 r = 0 := by
  rw [State.enrolCode_eq hform hdevice hsig hseq (by simp [enrolBodyOk, hslot, husage])
    (State.enrolAuth_owner hsigner hmay (by decide)), henrol, himage, beq_false_of_ne hother]
  rfl

theorem State.enrolCode_release (hslot : r.slot = 0) (husage : r.usage = 0) : u.enrolCode 4 r = 0 := by
  rw [State.enrolCode_eq hform hdevice hsig hseq (by simp [enrolBodyOk, hslot, husage])
    (State.enrolAuth_owner hsigner hmay (by decide))]
  rfl

end

/-! A quote, a fabric operation, a request at its home -/

/-- A quote for the owner into mapped memory that holds it (R609). -/
theorem State.serveReq_quote {w : State} {r : SecReq} {na oa len : Nat} {l : List (BitVec 8)} (hwho : r.who = 0)
    (hop : w.rd (R.REQ_CTRL_OP r.slot) = 1) (hmask : w.rd (R.REQ_MASK_MASK r.slot) < 2 ^ 16)
    (hna : na = w.rd (R.REQ_NONCE_ADDR_VADDR r.slot)) (hoa : oa = w.rd (R.REQ_OUT_ADDR_VADDR r.slot))
    (hlen : len = w.rd (R.REQ_OUT_LEN_LEN r.slot)) (hna64 : na % 64 = 0) (hoa64 : oa % 64 = 0) (hpos : 1 ≤ len) (hmax : len ≤ 65536)
    (hl : l = w.evidence 0 1 (w.rd (R.REQ_MASK_MASK r.slot)) (w.bytes (ownerKey na) 64)) (hfits : l.length ≤ len) :
    w.serveReq r true = ({ (w.reqServed r).setBytes (ownerKey oa) l with freeCtr := w.freeCtr + 1 }).reqEnd 0 r.slot 0 l.length := by
  have hfields : reqFieldBad 0 1 (w.rd (R.REQ_MASK_MASK r.slot)) len = false := by
    have hhigh : w.rd (R.REQ_MASK_MASK r.slot) / 2 ^ 16 = 0 := Nat.div_eq_of_lt hmask
    have hsome : len ≠ 0 := by omega
    rw [reqFieldBad, hhigh]
    simp [hsome, hmax]
  have hctr : ((w.reqServed r).setBytes (ownerKey oa) l).freeCtr = w.freeCtr := State.setBytes_freeCtr _ _ _
  unfold State.serveReq
  rw [hwho]
  simp only [reqFld, if_true]
  rw [hop, ← hna, ← hoa, ← hlen, hfields]
  rw [← hl, if_neg (by simp), if_neg Bool.false_ne_true, if_neg (by simp [hoa64, hna64]), if_neg (by simp [hfits]), hctr]

/-- The checks of an operation that keeps its form, whose local range is mapped and whose peer is up (R497, R505, R506). -/
theorem State.issueCode_passes {w : State} {q : Nat} {d : List (BitVec 8)} (hform : descBreaks d = false)
    (hmapped : dOp d ∈ [1, 2, 4, 5, 14] → w.opqMapped q (dLocal d) (dLen d) = true) (hfence : dOp d ∉ [13, 15] → w.selfFenced = false)
    (hpeer : dOp d ∉ [12, 13, 15] → (dOp d = 14 ∨ dPod d = w.ownPod) ∧ (dPod d = w.ownPod → w.peerUp (dDev d) = true) ∧
      w.usable (dPod d) (dDev d) ≠ []) : w.issueCode q d = 0 := by
  simp only [List.mem_cons, List.not_mem_nil, or_false, not_or, and_imp] at hmapped hfence hpeer
  have hlocal : ¬ (descBreaks d || ((decide (dOp d = 1) || decide (dOp d = 2) || decide (dOp d = 4) || decide (dOp d = 5)) ||
      decide (dOp d = 14)) && !w.opqMapped q (dLocal d) (dLen d)) = true := by
    simp only [hform, Bool.false_or, Bool.and_eq_true, Bool.or_eq_true, decide_eq_true_eq, Bool.not_eq_true', not_and, Bool.not_eq_false]
    exact fun h => hmapped (by tauto)
  have hself : ¬ (w.selfFenced && dOp d != 13 && dOp d != 15) = true := by
    simp only [Bool.and_eq_true, bne_iff_ne, not_and, and_imp]
    exact fun hon h13 h15 => absurd hon (by simp [hfence h13 h15])
  unfold State.issueCode
  dsimp only
  rw [if_neg hlocal, if_neg hself]
  split
  · rfl
  next hremote =>
    simp only [Bool.or_eq_true, decide_eq_true_eq, not_or] at hremote
    obtain ⟨⟨h12, h13⟩, h15⟩ := hremote
    obtain ⟨hpod, hup, hpath⟩ := hpeer h12 h13 h15
    rw [if_neg, if_neg]
    · simp only [Bool.or_eq_true, Bool.and_eq_true, beq_iff_eq, Bool.not_eq_true', List.isEmpty_iff, not_or, not_and, Bool.not_eq_false]
      exact ⟨hup, hpath⟩
    · simp only [Bool.and_eq_true, bne_iff_ne, ne_eq, not_and, not_not]
      exact fun h14 => hpod.resolve_left h14

/-- A window that a request's kind may use is open. -/
theorem kindOk_open {kind win : Nat} (h : kindOk kind win = true) : win ≠ 0 := by
  rintro rfl
  unfold kindOk at h
  split at h
  · exact absurd h (by decide)
  · split at h <;> exact absurd h (by decide)

/-- The checks of a request at its home (R482). -/
theorem State.homeCode_passes {w : State} {h : FabHdr} {kind len : Nat} (hwin : h.window < 192)
    (hfresh : h.pod = w.ownPod → h.epoch ∉ (w.peer h.dev).retired) (hkey : h.pkey = w.rd (R.FAB_WIN_CTRL_PKEY h.window))
    (hsource : w.rd (R.FAB_WIN_CTRL_KIND h.window) = 3 ∧ w.rd (R.FAB_WIN_CTRL_SCOPE_FABRIC h.window) = 1 ∨
      h.pod = w.ownPod ∧ (w.rd (R.FAB_WIN_CTRL_SRC_ANY h.window) = 1 ∨ w.rd (R.FAB_WIN_CTRL_SRC_DEV h.window) = h.dev))
    (hkind : kindOk kind (w.rd (R.FAB_WIN_CTRL_KIND h.window)) = true) (hsize : kind ≠ 7 → h.offset + len ≤ w.winSize h.window) :
    w.homeCode h kind len = 0 := by
  unfold State.homeCode
  dsimp only
  rw [if_neg, if_neg, if_neg, if_neg, if_neg]
  · simp only [hkind, Bool.not_true, Bool.false_or, Bool.and_eq_true, bne_iff_ne, decide_eq_true_eq, not_and, Nat.not_lt]
    exact hsize
  · simp only [Bool.not_eq_true', Bool.not_eq_false, Bool.or_eq_true, Bool.and_eq_true, beq_iff_eq]
    exact hsource
  · simp [hkey]
  · simp only [Bool.or_eq_true, decide_eq_true_eq, not_or, Nat.not_le]
    exact ⟨hwin, kindOk_open hkind⟩
  · simpa using hfresh

/-! Transforms -/

/-- A transform within cluster SRAM, whose blocks stand apart or in place (R382). -/
theorem State.fftDesc_ok {v : State} {c n count i o e si so : Nat} {inv : Bool} {r : StreamRun} {d : Desc} (hn : n = d.fld 0x20 0 12 + 1)
    (hcount : count = d.fld 0x20 12 16 + 1) (hi : i = r.place d 0x10) (ho : o = r.place d 0x14) (he : e = r.place d 0x18)
    (hsi : si = 64 * d.fld 0x24 0 16) (hso : so = 64 * d.fld 0x24 16 16) (hsize : fftSize n = true) (hzero : d.fld 0x20 28 4 = 0)
    (hapart : i = o ∨ o + (so * (count - 1) + 4 * n) ≤ i ∨ i + (si * (count - 1) + 4 * n) ≤ o)
    (hinTo : i + (si * (count - 1) + 4 * n) ≤ clusterBytes) (houtTo : o + (so * (count - 1) + 4 * n) ≤ clusterBytes)
    (hexpTo : e + count ≤ clusterBytes) (hi64 : i % 64 = 0) (ho64 : o % 64 = 0) :
    v.fftDesc c inv d r = .ok (v.each (List.range count) (fun t k =>
        (t.setNum (clusterKey c (o + so * k)) (4 * n) (Config.fft inv n (t.bytes (clusterKey c (i + si * k)) (4 * n))).1).setNum
          (clusterKey c (e + k)) 1 (Config.fft inv n (t.bytes (clusterKey c (i + si * k)) (4 * n))).2),
      Span.mk e count :: (List.range count).map fun k => Span.mk (o + so * k) (4 * n)) := by
  have hoverlap : (i != o && decide (i < o + (so * (count - 1) + 4 * n)) && decide (o < i + (si * (count - 1) + 4 * n))) = false := by
    obtain h | h | h := hapart
    · simp [h]
    · rw [decide_eq_false (Nat.not_lt.2 h), Bool.and_false, Bool.false_and]
    · rw [decide_eq_false (Nat.not_lt.2 h), Bool.and_false]
  unfold State.fftDesc
  dsimp only
  rw [← hn, ← hcount, ← hi, ← ho, ← he, ← hsi, ← hso, hoverlap, engineCheck_none _ _ _ rfl]
  · simp [hsize, hzero]
  · rw [leavesSram_cons _ _ hinTo, leavesSram_cons _ _ houtTo, leavesSram_cons _ _ hexpTo, leavesSram_nil]
  · simp [hi64, ho64]

/-- Settles O60: every check of each rule passes, and the request does its work. -/
theorem requestFormsCompleteByTheRules : Obligations.RequestFormsCompleteByTheRules := by
  intro s w t
  refine ⟨?memory, ?enrol, ?quote, ?fabric, ?home, ?transform⟩
  case memory =>
    intro x n ticket hint op f o hx hn hopen hidle hreqs hw hup hphase hceil hf ho
    have hrun : w.inRun = true := beq_iff_eq.2 hphase
    have hserves {c : Instr} {u : State} := State.exec_memGo_serves (c := c) (u := u) hx hn hopen hidle hreqs hw
    refine ⟨fun hop hhint hfirst hpos hmax hrange hroom hok hshort hfree => ?alloc, fun hlive hhandle hva =>
      ⟨fun hop hhint hfirst hcount htarget => ?free, fun hop hfirst hcount hok => ?hint, fun hop hpos hend hok hslabs => ?migrate⟩⟩
    case alloc =>
      subst hop
      exact hserves (by simp) hup hceil (State.serve_passes
        (State.reqCheck_alloc hrun hf hhint hfirst hpos hmax hrange hroom hok hfree) fun _ => .inr (hf ▸ hshort))
    case free =>
      subst hop
      have hcheck := State.reqCheck_free hrun hf ho hlive hhandle hva hhint hfirst hcount htarget
      rw [hf]
      exact hserves (by simp) hup hceil (State.serve_passes hcheck (by simp))
    case hint =>
      subst hop
      have hcheck := State.reqCheck_hint hrun hf ho hlive hhandle hva hfirst hcount hok
      rw [ho, hf]
      exact hserves (by simp) hup hceil (State.serve_passes hcheck (by simp))
    case migrate =>
      subst hop
      have hcheck := State.reqCheck_migrate hrun hf ho hlive hhandle hva hpos hend hok hslabs
      exact hserves (by simp) hup hceil (State.serve_passes hcheck (by simp))
  case enrol =>
    intro r took u hw hagate hrun hidle hu hmapped hform hdevice hsig hseq
    have hgo : ∀ (op : Nat) (c : Instr), exec c s = .next ((s.atTime t).enrolGo op r took) → u.enrolCode op r = 0 →
        exec c s = .next ((u.enrol op r).enrolResult 0) := by
      intro op c hexec hcode
      rw [hexec, ← hw, State.enrolGo_checked hagate hrun hidle hmapped hu, if_pos hcode]
    refine ⟨fun hnone hslot husage howner hvendor =>
        hgo 1 _ rfl (State.enrolCode_claim hform hdevice hsig hseq hnone hslot husage howner hvendor),
      fun hsigner hmay => ⟨fun hslot husage hempty =>
          hgo 2 _ rfl (State.enrolCode_add hform hdevice hsig hseq hsigner hmay hslot husage hempty),
        fun hslot husage henrol himage hother =>
          hgo 3 _ rfl (State.enrolCode_revoke hform hdevice hsig hseq hsigner hmay hslot husage henrol himage hother),
        fun hslot husage => hgo 4 _ rfl (State.enrolCode_release hform hdevice hsig hseq hsigner hmay hslot husage)⟩⟩
  case quote =>
    intro r na oa len l hw hagate hr hwho hop hmask hna hoa hlen hna64 hoa64 hpos hmax hl hfits
    change execQuoteService true t s = _
    unfold execQuoteService
    rw [← hw]
    dsimp only
    rw [if_neg (by simp [hagate]), hr]
    dsimp only
    rw [State.serveReq_quote hwho hop hmask hna hoa hlen hna64 hoa64 hpos hmax hl hfits]
  case fabric =>
    intro q h d c v hq hw hhead hphase hc hv hform hmapped hfence hpeer hwait
    have hcode := State.issueCode_passes (q := q) hform hmapped hfence hpeer
    rw [exec_fabOp hq hc, ← hw, State.issueOp_eq hhead hphase hv (.inr hwait), if_neg (not_not.2 hcode)]
  case home =>
    intro h kind len hl hw hwin hfresh hkey hsource hkind hsize
    have hcode := State.homeCode_passes hwin hfresh hkey hsource hkind hsize
    refine ⟨hcode, fun data masks hstore hlen h1 h3 h0 hdata => ?store, fun msg hmsg hlen h1 h222 => ?message⟩
    case store =>
      subst hstore hlen
      exact onUnit_of_lt hl (State.atHome_ok hw (by simp [h1, h3, h0, hdata]) hcode)
    case message =>
      subst hmsg hlen
      exact onUnit_of_lt hl (State.atHome_ok hw (by simp [h1, h222]) hcode)
  case transform =>
    intro c corr n count i o e si so inv form r d v hw hv hform hat hn hcount hi ho he hsi hso hsize hzero hapart hinTo houtTo hexpTo hi64 ho64
    have hok := State.fftDesc_ok (v := v) (c := c) (inv := inv) hn hcount hi ho he hsi hso hsize hzero hapart hinTo houtTo hexpTo hi64 ho64
    simp only [List.mem_cons, Prod.mk.injEq, List.not_mem_nil, or_false] at hform
    obtain ⟨rfl, rfl⟩ | ⟨rfl, rfl⟩ := hform
    · change execFftForward c corr 0 t s = _
      exact State.engineStep_ok hw hv hat (by decide) (by decide) hok
    · change execFftInverse c corr 0 t s = _
      exact State.engineStep_ok hw hv hat (by decide) (by decide) hok

end Sys2Proof.Machine
end
